-- ==== Sys2Proof/Word.lean ====
section
/-! DEFINITION. The word types of the Y9-32 model and its sparse tables. -/

namespace Sys2Proof

/-- A byte of any memory of the module. -/
abbrev Byte := BitVec 8

/-- A 32-bit register (R9). -/
abbrev Word := BitVec 32

/-- A 64-bit scalar register, address or register pair (R9, R137). -/
abbrev Dword := BitVec 64

/-- A sparse table by number: strictly rising keys, no entry equal to the value an unlisted key has. -/
abbrev Tab (α : Type) := List (Nat × α)

end Sys2Proof
end

