-- ==== Sys2Proof/Config.lean ====
section
/-! DEFINITION. What an implementation fixes and what the spec leaves open: constants without a body,
so that no proof can see a value of one. Each is named in the assumption log. -/

namespace Sys2Proof.Config

/-- Free 64-bit values, applied to the model's own counter `State.free` (log 1): HMB.NONCE, which R497
gives as "random", and the values that the spec gives no content for. -/
opaque freeDword : Nat → BitVec 64

/-- Free one-bit choices, applied to `State.free` (log 1): R586 lets a SYS_RST_N low pulse of 2 to 10 µs
be "either a PIN reset or no effect". -/
opaque freeBool : Nat → Bool

/-- Free three-bit choices, applied to `State.free` (log 1): a strap that changes in its sampling window
"gives one of the eight patterns" (R587). -/
opaque freeSplit : Nat → BitVec 3

/-- The offset in space 0x0 of DEST that the first payload row of an OFFSET-CARRY ferry names (R59); the
spec does not lay that row out (log 9). -/
opaque offsetArea : List Byte → Nat

/-- What other modules of an extended crossing are (log 14): the landing absent from a module at the factory (R4), the
module's neighbour in CW order (R47, R428), the landings of a module that are live at a time, bit by bit (R55, R63, R90;
log 40), and a byte of a version's image in a slice that it holds (R86). -/
opaque absentOf : Nat → Option (Fin 32)
opaque cwNext : Nat → Nat
opaque remoteLive : Nat → Nat → BitVec 32
opaque remoteByte : BitVec 16 → Nat → BitVec 8

/-- First block of a checkpoint's object table in the namespace of the commit slots, applied to `State.free`: R390 and
R392 name its place and nothing chooses it (log 15). -/
opaque tableBlock : Nat → Nat

/-- Whether a landing of another module, 32 x module + landing or quay, is bound to a job of this module's tenancy table,
applied to `State.free`: R371 asks it and no rule says where the binding of a remote landing is held (log 17). -/
opaque remoteBound : Nat → Nat → Nat → Bool

/-- The largest context of an image, by its version digest: SVC.CTXMAX holds it, and no rule says where an image states
it (R464; log 18). -/
opaque ctxMax : BitVec 384 → Nat

/-- The bytes in an offset extent that were built against a weight version, none without one: R74 says that each offset
carries that version, and no rule says where (log 21). -/
opaque offsetPart : List Byte → BitVec 16 → Option (List Byte)

/-- KV pages that a number of positions needs, and the pages of one landing (R457 names pages and gives
neither number; log 10). -/
opaque kvPages : Nat → Nat
opaque kvTotal : Nat

/-- ECDSA P-384 signature, r then s, by a key over a digest (R392, R493); an uninterpreted function (log 11). -/
opaque ecdsaSign : Nat → BitVec 384 → BitVec 768

/-- Whether an ECDSA P-384 signature verifies against a public key over a digest (R392, R471, R488; log 11). -/
opaque ecdsaVerify : BitVec 768 → BitVec 384 → BitVec 768 → Bool

/-- The public key, x then y, of a private key's number (R392; log 11). -/
opaque ecdsaPublic : Nat → BitVec 768

/-- The vendor root public key whose hash is in fuses (R471; log 11). -/
opaque vendorKey : BitVec 768

/-- The key that RFC 3394 unwraps from a wrapped key under the fabric wrap key, none where the wrap does not
check (R478 MACSEC_KEY; log 11). -/
opaque unwrapKey : BitVec 256 → List Byte → Option (List Byte)

/-- What a PDR describes (R443): its kind, its entity, its unit or states, its number within its kind, and the range of an
effecter. -/
inductive PdrKind where
  | numericSensor | stateSensor | numericEffecter | stateEffecter
deriving DecidableEq, Repr
inductive PdrEntity where
  | modulePower | coolantInlet | coolantOutlet | coolantFlow | moduleJunction | landingJunction (l : Nat)
  | quayJunction (q : Nat) | lifeCycle | powerCap | junctionLimit | runState
deriving DecidableEq, Repr
inductive PdrUnit where
  | watts | celsius | litresPerMinute | states
deriving DecidableEq, Repr
structure Pdr where
  kind   : PdrKind
  number : Nat
  entity : PdrEntity
  unit   : PdrUnit
  range  : Option (Nat × Nat) := none
deriving DecidableEq, Repr

/-- The bytes of a PDR: the standard of PLDM lays them out, the spec does not (R443; log 12). -/
opaque pdrBytes : Pdr → List Byte

/-- The answer to a request of PLDM Type 0 by its bytes: R442 names the type and gives no bytes (log 12). -/
opaque pldmBase : List Byte → List Byte

/-- The extents that an image's header names as its launch table and its slice map, and the extent of its code: R474 names
the header and no rule lays it out (log 36). -/
opaque imageSkip : List Byte → List (Nat × Nat)
opaque imageCode : List Byte → Nat × Nat

/-- A free digest, applied to `State.free`: what MEASURE answers where the hash engine reports an internal error, which the
spec does not say (R576; log 1). -/
opaque freeDigest : Nat → BitVec 384

/-- Body of an SPDM response, by request code and the connection's state: the SPDM 1.3 standard lays it out,
the spec does not (R491; log 12). -/
opaque spdmBody : Nat → Nat → List Byte

/-- A certificate chain of a slot (R491; log 12). -/
opaque certChain : Nat → List Byte

/-- Digests of the images in boot flash as it left the factory, by component, and the release number that an image of a
digest states (R497, R565; log 24). -/
opaque factoryDigest : Nat → BitVec 384
opaque imageRelease : BitVec 384 → BitVec 16

/-- HMB.NONCE by number: R497 gives it as "random" (log 1). -/
opaque nonce : Nat → BitVec 64

/-- The far port of a target: its entry of the target table in quay SRAM names it, and no rule lays the table out
(log 25). -/
opaque targetPort : Nat → Nat

/-- I/O queues of a target's controller, less 1, and entries of each, less 2: R381 gives 1 to 8 queues of 2 to 128 entries
(log 78). -/
opaque ioQueues : Nat → Fin 8
opaque queueEntries : Nat → Nat

/-- Whether a program image is a vendor-signed test image, by its program digest: R487 names them, and no rule says where
their signature lies (log 11). -/
opaque vendorTest : BitVec 384 → Bool

/-- The ROM's digest, measurement block 1 (R473; log 11). -/
opaque romDigest : BitVec 384

/-- Hops to the time master through a port group, applied to `State.free` and the role of the group, and the module that
a TIME message follows as the master, applied to `State.free`: R417 and R418 use both, and no message of R415 carries
them (log 29). -/
opaque timeHops : Nat → Nat → BitVec 5
opaque timeMaster : Nat → BitVec 11

/-- Whether a target's entry names a discovery controller, which alone is sent Get Log Page: R381 says so, and no layout of
the target table (log 25). -/
opaque discovery : Nat → Bool

/-- Whether a port requires MACsec: R425 asks it, and no register or record says it (log 32). -/
opaque macsecNeeded : Nat → Bool

/-- Configuration words of a physical (false) or virtual (true) function by offset: PCI Express gives their contents, this
spec those of R435 alone (log 19). -/
opaque pcieCfg : Bool → Nat → BitVec 32

/-- Whether a scalar interlock holds a thread of a core that is otherwise ready, applied to `State.free` and its number
(R109, R143; log 84). -/
opaque interlocked : Nat → Nat → Bool

/-- Whether a running engine stands still in the CORECLK of a read of CORE.ESTAT, for a bank, an expander or a port, applied
to the TIMECLK edges counted and 2,048 x landing + 8 x core + engine (R205, R293; log 85). -/
opaque engineStalls : Nat → Nat → Bool

/-- Whether an addition to a core's counters falls in the CORECLK of the one before it, where no TIMECLK edge lies between
them, applied to `State.free` (R335, R336; log 43). -/
opaque sameCoreclk : Nat → Bool

/-- The message fields of a MSG frame, by type, fields and word: T0[63:38], then T1 to T5, whose layout R415 does not give
(log 87). -/
opaque msgField : Nat → List Int → Nat → BitVec 64

/-- The module at the far end of a switch that a port's time parent is: PEERMOD does not say it (R417; log 29). -/
opaque timePeer : Nat → BitVec 11

/-- The MCTP packet that answers a message of an unsupported type, by the packet that it answers: the spec names the error and
gives no bytes (R442; log 12). -/
opaque mctpUnsupported : List (BitVec 8) → List (BitVec 8)

end Sys2Proof.Config
end

