-- ==== Sys2Proof/Syntax.lean ====
section
/-! DEFINITION. The commands of the module: one constructor for each row of spec/opcode_table.json, with the
operands the row's rules name. -/

namespace Sys2Proof

/-- Who issues a scalar instruction or engine command: a hardware thread of a core (R108), or the one thread of a
landing's deckhand core ("The deckhand core", file 03). -/
inductive ThreadRef where
  | core (l : Fin 32) (c : Fin 256) (t : Fin 16)
  | deckhand (l : Fin 32)
deriving DecidableEq, Repr

/-- A core of a landing. -/
structure CoreRef where
  land : Fin 32
  core : Fin 256
deriving DecidableEq, Repr

/-- The four register fields of a register-form instruction (R135). -/
structure RForm where
  sd : BitVec 5
  sa : BitVec 5
  sb : BitVec 5
  sc : BitVec 5
deriving DecidableEq, Repr

/-- The fields of an immediate-form instruction (R135). -/
structure IForm where
  sd  : BitVec 5
  sa  : BitVec 5
  imm : BitVec 16
deriving DecidableEq, Repr

/-- The fields of the two words of an engine command, less its opcode (R171). -/
structure EForm where
  wctr : BitVec 6
  wmr  : BitVec 5
  ra   : BitVec 5
  rb   : BitVec 5
  rc   : BitVec 5
  sctr : BitVec 6
  sinc : BitVec 8
  imm  : BitVec 18
deriving DecidableEq, Repr

/-- The five engines of a core (R167), numbered as CORE.EERRe numbers them (R206). -/
inductive Eng where
  | mtx | vec | red | se | bank
deriving DecidableEq, Repr

/-- The two directions of the crossing (R18); R56 codes CW 0, CCW 1. -/
inductive Dir where
  | cw | ccw
deriving DecidableEq, Repr

/-- The masters that write registers and give orders (R465, R475, R101). -/
inductive Master where
  | hm
  | bmc
  | pf (p : Fin 2)
  | purser (q : Fin 4) (k : Fin 4)
  | deckhand (l : Fin 32)
  | core (l : Fin 32) (c : Fin 256)
  | remote (m : BitVec 11)
  | vf (p : Fin 2) (i : Fin 32)
deriving DecidableEq, Repr

/-- The unit that holds a window: a landing or a quay (R370). -/
inductive Unit' where
  | land (l : Fin 32)
  | quay (q : Fin 4)
deriving DecidableEq, Repr

/-- The fields of a ferry header that the launcher chooses (R56); the rest the ring stop writes. -/
structure FerryHdr where
  version : BitVec 16
  layer   : BitVec 12
  seq     : BitVec 20
  home    : Fin 32
  chain   : Fin 16
  kind    : BitVec 3
  sub     : BitVec 3
  fmt     : BitVec 4
  dest    : Fin 32
  shadow  : Bool
  last    : Bool
  rows    : Nat
  stripe  : BitVec 10
deriving DecidableEq, Repr

/-- A ferry on the crossing: its header (R56) and its payload rows of 512 B. -/
structure Ferry where
  hdr      : FerryHdr
  dir      : Dir
  hops     : Nat
  launcher : Fin 32
  lmodule  : BitVec 11
  hmodule  : BitVec 11
  poison   : BitVec 64
  stamp    : BitVec 64
  payload  : List (List Byte)
deriving DecidableEq, Repr

/-- The body of a FERRY frame: the ferry, and W5, the hold bits of the slot it comes from (R67, R98). -/
structure FerryBody where
  ferry : Ferry
  hold  : Word := 0
deriving DecidableEq, Repr

/-- The transaction part of a Slipway frame, T0 to T5 (R406). -/
structure Trans where
  addr   : Dword
  score  : BitVec 8
  sunit  : BitVec 5
  smod   : BitVec 11
  shost  : Bool
  squay  : Bool
  tag    : BitVec 16
  nrows  : Nat
  ssize  : BitVec 2
  widx   : BitVec 10
  wgen   : BitVec 8
  wen    : Bool
  rcore  : BitVec 8
  rctr   : BitVec 6
  rinc   : BitVec 8
  poison : BitVec 64
  status : BitVec 8
  hops   : Nat
  data   : Dword
deriving DecidableEq, Repr

/-- The link part of a Slipway frame that a receiver reads (R404), and whether the frame's CRC checks (R407). -/
structure LinkPart where
  tc    : BitVec 2
  lseq  : BitVec 16
  lack  : BitVec 16
  ackv  : Bool
  crtc  : BitVec 2
  crcnt : BitVec 12
  gseq  : BitVec 16
  crcOk : Bool
deriving DecidableEq, Repr

/-- One candidate draw of a request at a lap's end: the deckhand's list of (logit, vocabulary index) pairs that
PICKGE wrote, and whether any logit was poisoned or any tile replayed (R461, R462). -/
structure LapTok where
  uid      : Nat
  cands    : List (Word × Nat)
  poisoned : Bool
  replayed : Bool
deriving DecidableEq, Repr

/-- A dependency point of a layer: the first SEQ after it, and the gap that follows it, in TIMECLK ("Laps and pace",
R65). -/
structure LtPoint where
  seq : Nat
  gap : Nat
deriving DecidableEq, Repr

/-- How many ferries of a KIND a slice sends in a layer. -/
structure LtCount where
  kind  : Nat
  slice : Nat
  count : Nat
deriving DecidableEq, Repr

/-- One layer of a launch table: its LAYER value, the ferry counts of each kind for each slice, its dependency points, the
gap after it in TIMECLK, and the gradient share g (R51, R65). -/
structure LtLayer where
  layer  : BitVec 12
  counts : List LtCount
  points : List LtPoint
  gap    : Nat
  share  : Nat
deriving DecidableEq, Repr

/-- What the crossing controller reads in a launch table, whose byte layout the spec does not give (log 36): the slice
count, whether the image trains, its gradient shards, and the layers in launch order (R46, R51, R65, R87). -/
structure LaunchTable where
  slices   : Nat := 0
  training : Bool := false
  shards   : Nat := 0
  layers   : List LtLayer := []
deriving DecidableEq, Repr

/-- What a landing computed for the rows of one collecting ferry. For a GRADIENT ferry: for each row and gradient shard, the
values of the shard's contribution, each m 2^e (R87). For a gather SCALE ferry: for each row and shard, for each token |x|
and the largest |dy| in the row's output columns, as FP32 codes (R88). -/
inductive WaveRows where
  | gradient (rows : List (List (List (Int × Int))))
  | bounds (rows : List (List (List (Word × Word))))
deriving DecidableEq, Repr

/-- A landing's part in one collecting ferry: its home (32 x module + landing), LAYER and SEQ (R89 to R91). -/
structure WaveItem where
  home  : Nat
  layer : BitVec 12
  seq   : BitVec 20
  rows  : WaveRows
deriving DecidableEq, Repr

/-- Rights and sources of a window (R370). -/
structure WinSpec where
  space : BitVec 4
  base  : Word
  pages : Word
  job   : BitVec 16
  host  : Bool
  quay  : Bool
  rd    : Bool
  wr    : Bool
  amo   : Bool
  inc   : Bool
deriving DecidableEq, Repr

/-- A message's common fields (R415): the port it arrives on, its source and destination modules. -/
structure MsgHead where
  port : Fin 16
  link : LinkPart
  src  : BitVec 11
  dst  : BitVec 11
deriving DecidableEq, Repr

/-- The transports of SPDM (R491), which PLDM and MCTP share (R442). -/
inductive Transport where
  /-- SMBus, whose transfers carry a PEC; it is right, or the target refuses the transfer. -/
  | smbus (pec : Bool)
  | i3c | vdm (p : Fin 2) | doe (p : Fin 2)
deriving DecidableEq, Repr

/-- The safety quantities of R466, as a numeric PLDM effecter names them (R443). -/
inductive SafetyVal where
  | cap (w : Nat)
  | tlim (c : Nat)
  | stop (on : Bool)
deriving DecidableEq, Repr

/-- The order that a numeric PLDM effecter carries, and another master's value for the same quantity in the same arbitration
slot (R34, R443, R465). -/
structure SafetyOrder where
  val : SafetyVal
  met : Option (Master × Nat) := none
deriving DecidableEq, Repr

/-- The run state that a state effecter carries, and another master's in the same arbitration slot (R34, R443, R465). -/
structure RunOrder where
  stop : Bool
  met  : Option (Master × Bool) := none
deriving DecidableEq, Repr

/-- Where an MCTP packet comes from: a remote manager over TC3, or a binding of R442. -/
inductive MctpFrom where
  | tc3 (h : MsgHead)
  | bus (t : Transport)
deriving DecidableEq, Repr

/-- The aperture that an access names: one of the 64 of a physical function's BAR4, or the one of a virtual function (R436). -/
inductive ApSel where
  | pf (ap : Fin 64)
  | vf (i : Fin 32)
deriving DecidableEq, Repr

/-- A pulse at a port's PERST#: the port, and how long it is low when its filter decides (R586, R590). -/
structure PerstPulse where
  port  : Fin 2
  lowNs : Nat
deriving DecidableEq, Repr

/-- The operations of a RoCEv2 packet, and the positive and negative acknowledgement of this module's own (R424). -/
inductive RoceOp where
  | send (data : List Byte)
  | write (key : Nat) (off : Nat) (data : List Byte)
  | read (key : Nat) (off len : Nat)
  | ack
  | nak
  | other
deriving DecidableEq, Repr

/-- A congestion notification packet: its queue pair, and whether it passes the checks of MACsec on a port with a key (R424,
R425). -/
structure Notification where
  qp       : Nat
  macsecOk : Bool := true
deriving DecidableEq, Repr

/-- Where a BAR access goes: the function it names (0, or a virtual function), its BAR0, or with `board` its BAR2, and
the offset there (R31, R436, R437, R451). -/
structure BarPlace where
  fn    : Fin 33 := 0
  board : Bool := false
  off   : Nat
deriving DecidableEq, Repr

/-- A register write's value, and the write of another master to that register in the same arbitration slot (R34, R465). -/
structure RegWrite where
  val : Word
  met : Option (Master × Word) := none
deriving DecidableEq, Repr

/-- The commands: one constructor for each row of the table of operations and events. -/
inductive Instr where
  -- scalar instructions, register form (R144)
  | add (w : ThreadRef) (f : RForm)
  | sub (w : ThreadRef) (f : RForm)
  | and (w : ThreadRef) (f : RForm)
  | or (w : ThreadRef) (f : RForm)
  | xor (w : ThreadRef) (f : RForm)
  | shl (w : ThreadRef) (f : RForm)
  | shr (w : ThreadRef) (f : RForm)
  | sra (w : ThreadRef) (f : RForm)
  | mul (w : ThreadRef) (f : RForm)
  | mulh (w : ThreadRef) (f : RForm)
  | mulhu (w : ThreadRef) (f : RForm)
  | cmpeq (w : ThreadRef) (f : RForm)
  | cmpne (w : ThreadRef) (f : RForm)
  | cmplt (w : ThreadRef) (f : RForm)
  | cmpltu (w : ThreadRef) (f : RForm)
  | cmpge (w : ThreadRef) (f : RForm)
  | cmpgeu (w : ThreadRef) (f : RForm)
  | sel (w : ThreadRef) (f : RForm)
  -- immediate form (R142, R145)
  | addImmediate (w : ThreadRef) (f : IForm)
  | andImmediate (w : ThreadRef) (f : IForm)
  | orImmediate (w : ThreadRef) (f : IForm)
  | xorImmediate (w : ThreadRef) (f : IForm)
  | shlImmediate (w : ThreadRef) (f : IForm)
  | shrImmediate (w : ThreadRef) (f : IForm)
  | sraImmediate (w : ThreadRef) (f : IForm)
  | mulImmediate (w : ThreadRef) (f : IForm)
  | cmpeqImmediate (w : ThreadRef) (f : IForm)
  | cmpneImmediate (w : ThreadRef) (f : IForm)
  | cmpltImmediate (w : ThreadRef) (f : IForm)
  | cmpltuImmediate (w : ThreadRef) (f : IForm)
  | cmpgeImmediate (w : ThreadRef) (f : IForm)
  | cmpgeuImmediate (w : ThreadRef) (f : IForm)
  | li (w : ThreadRef) (f : IForm)
  | lih (w : ThreadRef) (f : IForm)
  -- special registers and tiles (R117, R139, R140)
  | mfs (w : ThreadRef) (f : IForm)
  | mts (w : ThreadRef) (f : IForm)
  | tqtake (w : ThreadRef) (sd : BitVec 5)
  | tqdone (w : ThreadRef) (sa : BitVec 5)
  | tprio (w : ThreadRef) (sa : BitVec 5)
  -- local memory (R148)
  | ldD (w : ThreadRef) (f : IForm)
  | ldW (w : ThreadRef) (f : IForm)
  | ldWu (w : ThreadRef) (f : IForm)
  | ldHu (w : ThreadRef) (f : IForm)
  | ldBu (w : ThreadRef) (f : IForm)
  | stD (w : ThreadRef) (f : IForm)
  | stW (w : ThreadRef) (f : IForm)
  | stH (w : ThreadRef) (f : IForm)
  | stB (w : ThreadRef) (f : IForm)
  -- global access (R152 to R156)
  | ldGD (w : ThreadRef) (f : IForm)
  | ldGW (w : ThreadRef) (f : IForm)
  | stGD (w : ThreadRef) (f : IForm)
  | stGW (w : ThreadRef) (f : IForm)
  | amoaddD (w : ThreadRef) (f : RForm)
  | amoaddW (w : ThreadRef) (f : RForm)
  | globalResponse (id : Nat)
  | globalStoreCompletion (id : Nat)
  | gtimeout (id : Nat)
  -- branches (R146)
  | br (w : ThreadRef) (f : IForm)
  | call (w : ThreadRef) (f : IForm)
  | beq (w : ThreadRef) (f : IForm)
  | bne (w : ThreadRef) (f : IForm)
  | blt (w : ThreadRef) (f : IForm)
  | bge (w : ThreadRef) (f : IForm)
  | bltu (w : ThreadRef) (f : IForm)
  | bgeu (w : ThreadRef) (f : IForm)
  | ret (w : ThreadRef) (f : RForm)
  -- SYS (R159 to R161)
  | fence (w : ThreadRef) (sa : BitVec 5) (imm : BitVec 16)
  | yield (w : ThreadRef) (sa : BitVec 5) (imm : BitVec 16)
  | yieldExpiry (w : ThreadRef)
  | trap (w : ThreadRef) (sa : BitVec 5) (imm : BitVec 16)
  | taskEnd (w : ThreadRef) (sa : BitVec 5) (imm : BitVec 16)
  -- a word whose OP, FN or sub-operation is reserved (R136, R142, R144, R160, R170)
  | reservedInstruction (w : ThreadRef) (w0 w1 : Word)
  -- posts (R106, R107, R112, R113): `met` says that the harbourmaster's post met this one in its slot
  | taskPost (m : Master) (l : Fin 32) (core : Fin 256) (thr : Fin 16) (prio : BitVec 2) (entry : BitVec 15)
      (arg : Word) (met : Bool)
  | killPost (m : Master) (l : Fin 32) (core : Fin 256) (thr : Fin 16) (prio : BitVec 2) (entry : BitVec 15)
      (arg : Word) (met : Bool)
  -- engine commands at issue (R170, R202)
  | mma (w : ThreadRef) (f : EForm)
  | mld (w : ThreadRef) (f : EForm)
  | mdr (w : ThreadRef) (f : EForm)
  | mz (w : ThreadRef) (f : EForm)
  | vopCopy (w : ThreadRef) (f : EForm)
  | vopAdd (w : ThreadRef) (f : EForm)
  | vopSub (w : ThreadRef) (f : EForm)
  | vopMul (w : ThreadRef) (f : EForm)
  | vopFma (w : ThreadRef) (f : EForm)
  | vopAxs (w : ThreadRef) (f : EForm)
  | vopAxsb (w : ThreadRef) (f : EForm)
  | vopMax (w : ThreadRef) (f : EForm)
  | vopMin (w : ThreadRef) (f : EForm)
  | vopAbs (w : ThreadRef) (f : EForm)
  | vopNeg (w : ThreadRef) (f : EForm)
  | vopCmpgt (w : ThreadRef) (f : EForm)
  | vopCmpge (w : ThreadRef) (f : EForm)
  | vopCmpeq (w : ThreadRef) (f : EForm)
  | vopSel (w : ThreadRef) (f : EForm)
  | vopExp (w : ThreadRef) (f : EForm)
  | vopExp2 (w : ThreadRef) (f : EForm)
  | vopLog (w : ThreadRef) (f : EForm)
  | vopLog2 (w : ThreadRef) (f : EForm)
  | vopRcp (w : ThreadRef) (f : EForm)
  | vopSqrt (w : ThreadRef) (f : EForm)
  | vopRsqrt (w : ThreadRef) (f : EForm)
  | vopTanh (w : ThreadRef) (f : EForm)
  | vopSigmoid (w : ThreadRef) (f : EForm)
  | vopSilu (w : ThreadRef) (f : EForm)
  | vopGelu (w : ThreadRef) (f : EForm)
  | vopSin (w : ThreadRef) (f : EForm)
  | vopCos (w : ThreadRef) (f : EForm)
  | vopDiv (w : ThreadRef) (f : EForm)
  | vopNrsqrt (w : ThreadRef) (f : EForm)
  | vopSwiglu (w : ThreadRef) (f : EForm)
  | vopRsub (w : ThreadRef) (f : EForm)
  | vopRmul (w : ThreadRef) (f : EForm)
  | vopRdiv (w : ThreadRef) (f : EForm)
  | vopRexpsub (w : ThreadRef) (f : EForm)
  | vopRscale (w : ThreadRef) (f : EForm)
  | pickge (w : ThreadRef) (f : EForm)
  | vcvt (w : ThreadRef) (f : EForm)
  | vtab (w : ThreadRef) (f : EForm)
  | redSum (w : ThreadRef) (f : EForm)
  | redMax (w : ThreadRef) (f : EForm)
  | redMin (w : ThreadRef) (f : EForm)
  | redMaxi (w : ThreadRef) (f : EForm)
  | redMini (w : ThreadRef) (f : EForm)
  | pack (w : ThreadRef) (f : EForm)
  | unpk (w : ThreadRef) (f : EForm)
  | rowfill (w : ThreadRef) (f : EForm)
  | rowcopy (w : ThreadRef) (f : EForm)
  | strm (w : ThreadRef) (f : EForm)
  | rearm (w : ThreadRef) (f : EForm)
  | sig (w : ThreadRef) (f : EForm)
  | wait (w : ThreadRef) (f : EForm)
  | cla (w : ThreadRef) (f : EForm)
  | clw (w : ThreadRef) (f : EForm)
  -- the life of engine commands, counters and closures
  | queueFullIssue (w : ThreadRef)
  | engineCommandStart (k : CoreRef) (e : Eng)
  | engineCommandRetire (k : CoreRef) (e : Eng)
  | commandWaitTimeout (k : CoreRef) (e : Eng)
  | heldRowWrite (k : CoreRef)
  | waiterRelease (k : CoreRef) (ctr : Fin 48)
  | waitTimeout (w : ThreadRef)
  | pairWrite (m : Master) (k : CoreRef) (i : Fin 16) (v : Word)
  | closureGroupWrite (m : Master) (l : Fin 32) (g : Fin 16) (reg : Fin 11) (v : Word)
  | arrivalMessage (src : Fin 32) (l : Fin 32) (g : Fin 16) (gen : BitVec 16) (lmask cgctl cgper : Word)
  | closureRelease (l : Fin 32) (g : Fin 16)
  | periodicClosureBoundary (l : Fin 32) (g : Fin 16)
  | stealDelayExpiry (l : Fin 32) (tile : Nat)
  | tileGrant (k : CoreRef)
  -- the crossing
  | ferryLaunch (l : Fin 32) (d : Dir) (slot : Nat) (h : FerryHdr) (off : Nat)
  | slotArrival (l : Fin 32) (d : Dir) (slot : Nat) (hdrBad crcBad : Bool)
  | chainInjection (l : Fin 32) (k : Fin 16)
  | paceCreditTick (l : Fin 32)
  | lapStart (t0 : Dword) (lt : LaunchTable)
  | lapEnd (l : Fin 32) (toks : List LapTok)
  | load (m : Master) (incoming : BitVec 16)
  | localVersion (m : Master) (incoming : BitVec 16)
  | turn (m : Master) (incoming : BitVec 16)
  | abandon (m : Master) (incoming : BitVec 16)
  | lastSliceWritten
  | localCopyComplete
  | digestComplete
  | noHeaderTimeout (l : Fin 32)
  | sliceReloadComplete (l : Fin 32)
  | shadowCopyComplete
  | gradientSliceComplete (l : Fin 32) (off : Nat) (data : List Byte)
  -- streams
  | streamRequest (k : CoreRef)
  | streamResponse (id : Nat)
  | armingEnd (k : CoreRef) (sid : Fin 32)
  | tagTimeout (id : Nat)
  | deadlineMiss (k : CoreRef) (sid : Fin 32)
  | remoteIncrement (t : Trans)
  | fbufWrite (m : Master) (l : Fin 32) (v : Word)
  -- windows, stacks and storage
  | remoteAccess (id : Nat)
  | windowOpen (m : Master) (u : Unit') (i : Nat) (s : WinSpec)
  | windowClose (m : Master) (u : Unit') (i : Nat)
  | windowCloseComplete (u : Unit') (i : Nat)
  | scrubComplete (l : Fin 32) (stack : Fin 2)
  | patrolScrub (l : Fin 32) (stack : Fin 2)
  | checkpointWrite (m : Master)
  | restore (m : Master)
  | checkpointAbort (m : Master)
  | nvmeCompletion (cmd : Nat) (status : BitVec 15) (data : List Byte)
  -- `reconnected`: the network carries the new connection that the initiator asks for (R383)
  | connectionLoss (tgt : Fin 16) (reconnected : Bool)
  | nvmeTimeout (cmd : Nat)
  -- far-port frames (R405)
  | ferry (port : Fin 16) (k : LinkPart) (f : FerryBody)
  | write (port : Fin 16) (k : LinkPart) (t : Trans) (rows : List (List Byte))
  | read (port : Fin 16) (k : LinkPart) (t : Trans)
  | resp (port : Fin 16) (k : LinkPart) (t : Trans) (rows : List (List Byte))
  | signal (port : Fin 16) (k : LinkPart) (t : Trans)
  | amo (port : Fin 16) (k : LinkPart) (t : Trans)
  | idle (port : Fin 16) (k : LinkPart)
  | nack (port : Fin 16) (k : LinkPart) (failed : BitVec 16)
  | loss (port : Fin 16) (k : LinkPart) (ftype : BitVec 4) (t : Trans)
  | reservedFrame (port : Fin 16) (k : LinkPart) (ftype : BitVec 4)
  | frameSend (port : Fin 16)
  -- TC2 and TC3 messages (R415)
  | time (h : MsgHead) (t1 t2 t3 t4 : Int)
  | heartbeat (h : MsgHead)
  | hold (h : MsgHead) (held boarding : Bool)
  | clArrive (h : MsgHead) (l : Fin 32) (g : Fin 16) (gen : BitVec 16) (lmask cgctl cgper : Word)
  | clRelease (h : MsgHead) (g : Fin 16) (gen : BitVec 16)
  | clAck (h : MsgHead) (g : Fin 16) (gen : BitVec 16)
  | vturn (h : MsgHead) (version : BitVec 16) (t0 : Dword)
  | vturnAck (h : MsgHead) (t0 : Dword)
  | fault (h : MsgHead)
  | wdog (h : MsgHead) (g : Fin 16) (gen : BitVec 16)
  | wdogAck (h : MsgHead) (g : Fin 16) (gen : BitVec 16)
  | cutout (h : MsgHead) (m : BitVec 11)
  | mctpPacket (h : MctpFrom) (bytes : List Byte)
  | reservedMsgtype (h : MsgHead) (ty : BitVec 16)
  | timeExchange (phyTime : Int)
  | heartbeatTimer
  | holdNoticeTimer
  | clReleaseResend
  | wdogResend
  | faultRepeat
  | cutoutRepeat
  | vturnAckTimeout (t0 : Dword)
  | neighbourSilence (role : Fin 7)
  | timeParentLoss (otherPath : Option (Fin 16 × BitVec 5))
  | portLinkDown (port : Fin 16)
  | linkTrainingTimeout (port : Fin 16)
  | ringWrite (m : Master) (v : Word)
  -- Ethernet mode
  | rocePacket (port : Fin 16) (qp : Nat) (psn : Nat) (op : RoceOp) (macsecOk : Bool)
  | congestionNotification (port : Fin 16) (f : Notification)
  | rateIncrease (port : Fin 16) (qp : Nat)
  | localProtocolFrame (port : Fin 16) (kind : Fin 3) (body : List Byte) (secured macsecOk : Bool)
  | unknownEthernetFrame (port : Fin 16)
  -- host access
  | bar0Access (port : Fin 2) (off : BarPlace) (size : Nat) (wr : Bool) (val : Dword)
  | registerWrite (m : Master) (off : Nat) (v : RegWrite)
  | apertureAccess (port : Fin 2) (ap : ApSel) (off len : Nat) (wr : Bool) (data : List Byte)
  | requestDoorbell (m : Master) (q : Fin 64) (t : Word)
  | resultDoorbell (m : Master) (q : Fin 64) (h : Word)
  | queueSetEnable (m : Master) (q : Fin 64) (v : Word)
  | queueSetReset (m : Master) (q : Fin 64) (v : Word)
  | entryFetch (q : Fin 64) (entries : List (List Byte))
  | nop (q : Fin 64)
  | generate (q : Fin 64) (input : List Word)
  | cancel (q : Fin 64)
  | noVersionTimeout (q : Fin 64)
  | heldRecordPost (q : Fin 64)
  | readmission (uid : Nat) (land : Fin 32) (tg : Fin 16) (keepsBits : Bool)
  | coalesceTimer (q : Fin 64)
  | pendClear (m : Master) (q : Fin 64) (v : Word)
  | qsEoi (m : Master) (q : Fin 64) (v : Word)
  | eoi (m : Master) (v : Word)
  | msixMessage (dest : Fin 66)
  | functionLevelReset (port : Fin 2) (fn : Fin 33)
  | perst (p : PerstPulse)
  | hotReset (port : Fin 2)
  -- management bus (R442 to R444, R491, R519)
  | getPdr (t : Transport) (handle : Nat)
  | getPdrRepositoryInfo (t : Transport)
  | getSensorReading (t : Transport) (sensor : Nat)
  | getStateSensorReadings (t : Transport) (sensor : Nat)
  | setNumericEffecterValue (m : Master) (t : Transport) (o : SafetyOrder)
  | getNumericEffecterValue (m : Master) (t : Transport) (effecter : Fin 2)
  | setStateEffecterStates (m : Master) (t : Transport) (o : RunOrder)
  | getStateEffecterStates (m : Master) (t : Transport)
  | setEventReceiver (t : Transport) (eid : Byte)
  | pollForPlatformEventMessage (t : Transport)
  | firmwareUpdate (component : Fin 3) (image : List Byte) (svn : BitVec 16) (digest : BitVec 384) (sig : BitVec 768)
  | activateFirmware (component : Fin 3)
  | setEndpointId (t : Transport) (eid : Byte)
  | getVersion (t : Transport)
  | getCapabilities (t : Transport)
  | negotiateAlgorithms (t : Transport)
  | getDigests (t : Transport)
  | getCertificate (t : Transport) (slot off len : Nat)
  | challenge (t : Transport) (slot : Nat) (nonce : BitVec 256)
  | getMeasurements (t : Transport) (index : Nat) (signed : Bool) (nonce : BitVec 256)
  | heatForecast
  -- the mailbox (R478); `ch` is the channel
  | mailboxNop (ch : Fin 50)
  | jobCreate (ch : Fin 50) (debug : Bool)
  | tenantAdd (ch : Fin 50) (job : BitVec 16) (extents : List (Fin 32 × Nat × Nat))
  -- the quay whose hash engine computes the digest, and whether that engine reports an internal error
  | measure (ch : Fin 50) (job : BitVec 16) (addr : Dword) (len : Nat) (quay : Fin 4) (engineError : Bool)
  | grant (ch : Fin 50) (job : BitVec 16) (mask : Word)
  | seal (ch : Fin 50) (job : BitVec 16) (l : Fin 32)
  | kill (ch : Fin 50) (id : BitVec 16)
  | release (ch : Fin 50) (job : BitVec 16)
  | winOpen (ch : Fin 50) (u : Unit') (s : WinSpec)
  | winClose (ch : Fin 50) (u : Unit') (idx : BitVec 10) (gen : BitVec 8)
  | qsBind (ch : Fin 50) (q : Fin 64) (id : BitVec 16)
  | signProv (ch : Fin 50) (q : Fin 64) (rseq : Nat)
  | signCkpt (ch : Fin 50) (bytes : List Byte)
  | macsecKey (ch : Fin 50) (port : Fin 16) (rx : Bool) (an : BitVec 2) (wrapped : List Byte)
  | fwVerify (ch : Fin 50) (component : Fin 3) (copyB : Bool)
  | lcRequest (ch : Fin 50) (target : BitVec 3) (token : BitVec 768) (opKey : BitVec 768) (wrapKey : BitVec 256)
  | debugUnlock (ch : Fin 50) (token : BitVec 768)
  | faultReport (ch : Fin 50) (code : BitVec 8) (unit : BitVec 6)
  -- debug and JTAG (R570, R588)
  | dbgRead (m : Master)
  | dbgWrite (m : Master)
  | bypass
  | idcode
  | samplePreload (pins : List Bool)
  | extest (pins : List Bool)
  | coreDebug
  | trst (low : Bool)
  -- reset, power and heat
  | powerOnReset (straps : BitVec 3) (strapsStable : Bool)
  | pinReset (lowNs : Nat) (straps : BitVec 3) (strapsStable : Bool)
  | clockLoss (absentNs : Nat)
  | clockReturn
  | moduleReset (m : Master) (v : Word)
  | purserReset (m : Master) (v : Word)
  | purserWatchdog
  | bootWatchdog
  | boarding (d : Fin 72)
  | groupwaitExpiry (bank : Fin 2)
  | ready
  | landingFatal (l : Fin 32) (code : BitVec 8)
  | deckhandHeartbeatTimeout (l : Fin 32)
  | moduleFatal (code : BitVec 8) (unit : BitVec 6)
  | hmWatchdog
  | fatalAutoreset
  | rejoin (m : Master) (v : Word)
  | pwrOkDeassert (n : Fin 6) (lowNs : Nat)
  | pwrOkAssert (n : Fin 6)
  | domainRequest (m : Master) (d : Fin 72) (v : Word)
  | domainTransitionComplete (d : Fin 72)
  | vcoreAdjust (l : Fin 32) (stepMv : Int) (acks : Bool × Bool)
  | capWindow (meas base : Nat)
  | setcap (m : Master) (v : Word)
  | settlim (m : Master) (v : Word)
  | setrun (m : Master) (v : Word)
  | paceWrite (m : Master) (v : Word)
  | forecastTick (heat : Nat) (lapTenths : Nat) (hotNum hotDen : Nat)
  | forecastStall
  | thermalCheck (hottest : Int) (unit : Fin 36)
  | flowCheck (inlet outlet : Int)
  -- the rest of the table, in its order
  | portLinkUp (port : Fin 16) (peer : BitVec 11) (peerPort : BitVec 4)
  | pcieLinkUp (port : Fin 2)
  | configurationRequest (port : Fin 2) (fn : Fin 33) (reg : Nat) (wr : Bool) (v : Word)
  | hostDmaCompletion (q : Fin 64) (uid : Option Nat) (error : Bool)
  | rejoinCopyComplete (l : Fin 32)
  | gradientWaveFetched (l : Fin 32) (wave : List WaveItem)
  | dbgAccessComplete
  | coolFlowPulse (us : Nat)
  | perstRelease (port : Fin 2)
  | sysRstRelease
  | reservedRequestOpcode (q : Fin 64)
  | mailboxReservedOp (ch : Fin 50)
  | provenanceSignatureDone
deriving DecidableEq, Repr

end Sys2Proof
end

