-- ==== Sys2Proof/Decode.lean ====
section
/-! DEFINITION. Commands spelled by words. The table of operations and events gives no row any bits, so no table word spells
a command. The words of scalar memory do: a scalar instruction is one word, an engine command two (R134). -/

namespace Sys2Proof

/-- The command that a word spells by the table's bits: none, since the table gives no row bits. -/
def decodeTableWord (_nbits _w : Nat) : Option Instr := none

/-- The fields of a word in register form (R135). -/
def rFormOf (x : Word) : RForm :=
  ⟨x.extractLsb' 21 5, x.extractLsb' 16 5, x.extractLsb' 11 5, x.extractLsb' 6 5⟩

/-- The fields of a word in immediate form (R135). -/
def iFormOf (x : Word) : IForm := ⟨x.extractLsb' 21 5, x.extractLsb' 16 5, x.extractLsb' 0 16⟩

/-- The fields of an engine command in two words (R171). -/
def formOf (w0 w1 : Word) : EForm :=
  ⟨w0.extractLsb' 20 6, w0.extractLsb' 15 5, w0.extractLsb' 10 5, w0.extractLsb' 5 5, w0.extractLsb' 0 5,
    w1.extractLsb' 26 6, w1.extractLsb' 18 8, w1.extractLsb' 0 18⟩

/-- OP 0x00: FN picks the operation (R144); none for a reserved FN. -/
def decodeAlu (w : ThreadRef) (x : Word) : Option Instr :=
  let f := rFormOf x
  match (x.extractLsb' 0 6).toNat with
  | 0x01 => some (.add w f)
  | 0x02 => some (.sub w f)
  | 0x03 => some (.and w f)
  | 0x04 => some (.or w f)
  | 0x05 => some (.xor w f)
  | 0x06 => some (.shl w f)
  | 0x07 => some (.shr w f)
  | 0x08 => some (.sra w f)
  | 0x09 => some (.mul w f)
  | 0x0a => some (.mulh w f)
  | 0x0b => some (.mulhu w f)
  | 0x0c => some (.cmpeq w f)
  | 0x0d => some (.cmpne w f)
  | 0x0e => some (.cmplt w f)
  | 0x0f => some (.cmpltu w f)
  | 0x10 => some (.cmpge w f)
  | 0x11 => some (.cmpgeu w f)
  | 0x12 => some (.sel w f)
  | _ => none

/-- OP 0x12, MFS: the read of TQTAKE is a row of its own (R117, R138). -/
def decodeMfs (w : ThreadRef) (x : Word) : Instr :=
  let f := iFormOf x
  if f.sa = 0 ∧ f.imm = 0x020 then .tqtake w f.sd else .mfs w f

/-- OP 0x13, MTS: the writes of TPRIO and TQDONE are rows of their own (R117, R138, R140). -/
def decodeMts (w : ThreadRef) (x : Word) : Instr :=
  let f := iFormOf x
  if f.sd = 0 ∧ f.imm = 0x021 then .tqdone w f.sa
  else if f.sd = 0 ∧ f.imm = 0x010 then .tprio w f.sa
  else .mts w f

/-- OP 0x24, AMOADD: FN picks the width (R142); none for a reserved FN. -/
def decodeAmo (w : ThreadRef) (x : Word) : Option Instr :=
  match (x.extractLsb' 0 6).toNat with
  | 0 => some (.amoaddD w (rFormOf x))
  | 1 => some (.amoaddW w (rFormOf x))
  | _ => none

/-- OP 0x2F, SYS: SD picks the operation (R160); none for a reserved one. -/
def decodeSys (w : ThreadRef) (x : Word) : Option Instr :=
  let f := iFormOf x
  match f.sd.toNat with
  | 0 => some (.fence w f.sa f.imm)
  | 1 => some (.yield w f.sa f.imm)
  | 2 => some (.trap w f.sa f.imm)
  | 3 => some (.taskEnd w f.sa f.imm)
  | _ => none

/-- OP 0x34, VOP: VOPC picks the operation (R273); none for a reserved one. -/
def decodeVop (w : ThreadRef) (f : EForm) : Option Instr :=
  match (f.imm.extractLsb' 0 8).toNat with
  | 0x01 => some (.vopCopy w f)
  | 0x02 => some (.vopAdd w f)
  | 0x03 => some (.vopSub w f)
  | 0x04 => some (.vopMul w f)
  | 0x05 => some (.vopFma w f)
  | 0x06 => some (.vopAxs w f)
  | 0x07 => some (.vopAxsb w f)
  | 0x08 => some (.vopMax w f)
  | 0x09 => some (.vopMin w f)
  | 0x0a => some (.vopAbs w f)
  | 0x0b => some (.vopNeg w f)
  | 0x0c => some (.vopCmpgt w f)
  | 0x0d => some (.vopCmpge w f)
  | 0x0e => some (.vopCmpeq w f)
  | 0x0f => some (.vopSel w f)
  | 0x20 => some (.vopExp w f)
  | 0x21 => some (.vopExp2 w f)
  | 0x22 => some (.vopLog w f)
  | 0x23 => some (.vopLog2 w f)
  | 0x24 => some (.vopRcp w f)
  | 0x25 => some (.vopSqrt w f)
  | 0x26 => some (.vopRsqrt w f)
  | 0x27 => some (.vopTanh w f)
  | 0x28 => some (.vopSigmoid w f)
  | 0x29 => some (.vopSilu w f)
  | 0x2a => some (.vopGelu w f)
  | 0x2b => some (.vopSin w f)
  | 0x2c => some (.vopCos w f)
  | 0x2d => some (.vopDiv w f)
  | 0x2e => some (.vopNrsqrt w f)
  | 0x2f => some (.vopSwiglu w f)
  | 0x30 => some (.vopRsub w f)
  | 0x31 => some (.vopRmul w f)
  | 0x32 => some (.vopRdiv w f)
  | 0x33 => some (.vopRexpsub w f)
  | 0x34 => some (.vopRscale w f)
  | 0x40 => some (.pickge w f)
  | _ => none

/-- OP 0x37, RED: ROP picks the operation (R194); none for a reserved one. -/
def decodeRed (w : ThreadRef) (f : EForm) : Option Instr :=
  match (f.imm.extractLsb' 0 3).toNat with
  | 0 => some (.redSum w f)
  | 1 => some (.redMax w f)
  | 2 => some (.redMin w f)
  | 3 => some (.redMaxi w f)
  | 4 => some (.redMini w f)
  | _ => none

/-- OP 0x30 to 0x3E, engine commands; IMM[17] picks one of two in OP 0x38, 0x39 and 0x3E (R170). -/
def decodeEngine (w : ThreadRef) (op : Nat) (f : EForm) : Option Instr :=
  let second := f.imm.getLsbD 17
  match op with
  | 0x30 => some (.mma w f)
  | 0x31 => some (.mld w f)
  | 0x32 => some (.mdr w f)
  | 0x33 => some (.mz w f)
  | 0x34 => decodeVop w f
  | 0x35 => some (.vcvt w f)
  | 0x36 => some (.vtab w f)
  | 0x37 => decodeRed w f
  | 0x38 => some (if second then .unpk w f else .pack w f)
  | 0x39 => some (if second then .rowcopy w f else .rowfill w f)
  | 0x3a => some (.strm w f)
  | 0x3b => some (.rearm w f)
  | 0x3c => some (.sig w f)
  | 0x3d => some (.wait w f)
  | 0x3e => some (if second then .clw w f else .cla w f)
  | _ => none

/-- OP 0x01 to 0x2E other than the ALU group: scalar instructions that OP alone picks, or with a special register (R142). -/
def decodeScalar (w : ThreadRef) (op : Nat) (x : Word) : Option Instr :=
  let f := iFormOf x
  match op with
  | 0x00 => decodeAlu w x
  | 0x01 => some (.addImmediate w f)
  | 0x02 => some (.andImmediate w f)
  | 0x03 => some (.orImmediate w f)
  | 0x04 => some (.xorImmediate w f)
  | 0x05 => some (.shlImmediate w f)
  | 0x06 => some (.shrImmediate w f)
  | 0x07 => some (.sraImmediate w f)
  | 0x08 => some (.mulImmediate w f)
  | 0x09 => some (.cmpeqImmediate w f)
  | 0x0a => some (.cmpneImmediate w f)
  | 0x0b => some (.cmpltImmediate w f)
  | 0x0c => some (.cmpltuImmediate w f)
  | 0x0d => some (.cmpgeImmediate w f)
  | 0x0e => some (.cmpgeuImmediate w f)
  | 0x10 => some (.li w f)
  | 0x11 => some (.lih w f)
  | 0x12 => some (decodeMfs w x)
  | 0x13 => some (decodeMts w x)
  | 0x14 => some (.ldD w f)
  | 0x15 => some (.ldW w f)
  | 0x16 => some (.ldWu w f)
  | 0x17 => some (.ldHu w f)
  | 0x18 => some (.ldBu w f)
  | 0x19 => some (.stD w f)
  | 0x1a => some (.stW w f)
  | 0x1b => some (.stH w f)
  | 0x1c => some (.stB w f)
  | 0x20 => some (.ldGD w f)
  | 0x21 => some (.ldGW w f)
  | 0x22 => some (.stGD w f)
  | 0x23 => some (.stGW w f)
  | 0x24 => decodeAmo w x
  | 0x26 => some (.br w f)
  | 0x27 => some (.call w f)
  | 0x28 => some (.beq w f)
  | 0x29 => some (.bne w f)
  | 0x2a => some (.blt w f)
  | 0x2b => some (.bge w f)
  | 0x2c => some (.bltu w f)
  | 0x2d => some (.bgeu w f)
  | 0x2e => if x.extractLsb' 0 6 = 0 then some (.ret w (rFormOf x)) else none
  | 0x2f => decodeSys w x
  | _ => none

/-- The command that the word at a thread's PC and the word after it spell: OP 0x00 to 0x2F is a scalar instruction, which
reads the first word alone; 0x30 to 0x3F an engine command; a reserved word is a reserved instruction (R134 to R136, R142,
R144, R160, R170). -/
def decodeWords (w : ThreadRef) (w0 w1 : Word) : Instr :=
  let op := (w0.extractLsb' 26 6).toNat
  match if op < 0x30 then decodeScalar w op w0 else decodeEngine w op (formOf w0 w1) with
  | some i => i
  | none => .reservedInstruction w w0 w1

end Sys2Proof
end

