-- ==== Sys2Proof/Machine/Bits.lean ====
section
/-! DEFINITION. Bit fields, sign extension, byte order and saturating counts. -/

namespace Sys2Proof.Machine

/-- Bits [hi:lo] of a number. -/
def bits (x hi lo : Nat) : Nat := (x >>> lo) % 2 ^ (hi + 1 - lo)

/-- Bit i of a number. -/
def bit (x i : Nat) : Bool := (x >>> i) % 2 == 1

/-- A number with bits [hi:lo] replaced by v. -/
def putBits (x hi lo v : Nat) : Nat :=
  x - (bits x hi lo <<< lo) + ((v % 2 ^ (hi + 1 - lo)) <<< lo)

/-- One as a number where a condition holds. -/
def b2n (b : Bool) : Nat := if b then 1 else 0

/-- Bits [hi:lo] of a register word. -/
def wfld (w : Word) (hi lo : Nat) : Nat := bits w.toNat hi lo

/-- A register word with bits [hi:lo] replaced by v. -/
def wput (w : Word) (hi lo v : Nat) : Word := BitVec.ofNat 32 (putBits w.toNat hi lo v)

/-- A register word with bit i set. -/
def wset (w : Word) (i : Nat) : Word := w ||| BitVec.ofNat 32 (2 ^ i)

/-- Bits [hi:lo] of a 64-bit register. -/
def dfld (x : Dword) (hi lo : Nat) : Nat := bits x.toNat hi lo

/-- The signed value of the low n bits of a number. -/
def sextNat (n x : Nat) : Int :=
  let y := x % 2 ^ n
  if y < 2 ^ (n - 1) then (y : Int) else (y : Int) - (2 ^ n : Nat)

/-- A count that saturates at top. -/
def satAdd (top x n : Nat) : Nat := min top (x + n)

/-- Ceiling of a quotient; 0 for a zero divisor. -/
def ceilDiv (a b : Nat) : Nat := (a + b - 1) / b

/-- The little-endian value of bytes. -/
def leNat : List Byte → Nat
  | [] => 0
  | b :: r => b.toNat + 256 * leNat r

/-- The n little-endian bytes of a number. -/
def leBytes : Nat → Nat → List Byte
  | 0, _ => []
  | n + 1, x => BitVec.ofNat 8 x :: leBytes n (x / 256)

/-- The numbers from 0 below n. -/
def upto (n : Nat) : List Nat := List.range n

/-- Bits of a mask that are 1, ascending, below n. -/
def maskBits (n x : Nat) : List Nat := (upto n).filter fun i => bit x i

/-- A list cut or padded with d to n entries. -/
def fitTo {α : Type} (d : α) (n : Nat) (xs : List α) : List α :=
  xs.take n ++ List.replicate (n - xs.length) d

/-- A list with entry i replaced. -/
def setAt {α : Type} (xs : List α) (i : Nat) (v : α) : List α := xs.set i v

/-- Two half-open ranges of numbers that share one. -/
def overlaps (a n b m : Nat) : Bool := n != 0 && m != 0 && a < b + m && b < a + n

end Sys2Proof.Machine
end

