-- ==== Sys2Proof/Machine/Table.lean ====
section
/-! DEFINITION. Sparse tables and sets by number in one canonical form: keys strictly rising, no entry equal to
the value that an unlisted key has. Equal contents are then equal data. -/

namespace Sys2Proof.Machine

/-- The value at key k; d where k is not listed. -/
def tget {α : Type} (d : α) : Tab α → Nat → α
  | [], _ => d
  | (k', v) :: r, k => if k' = k then v else tget d r k

/-- The table without key k. -/
def tdel {α : Type} (k : Nat) (t : Tab α) : Tab α := t.filter fun e => e.1 ≠ k

/-- An entry put before the first key above its own. -/
def tins {α : Type} (k : Nat) (v : α) : Tab α → Tab α
  | [] => [(k, v)]
  | (k', v') :: r => if k < k' then (k, v) :: (k', v') :: r else (k', v') :: tins k v r

/-- The table with key k at v; d is what k reads as when it is not listed. -/
def tput {α : Type} [DecidableEq α] (d : α) (k : Nat) (v : α) (t : Tab α) : Tab α :=
  if v = d then tdel k t else tins k v (tdel k t)

/-- Keys strictly rising from a lower bound, and no entry at its default. -/
def tabOk {α : Type} [DecidableEq α] (d : Nat → α) : Nat → Tab α → Bool
  | _, [] => true
  | lo, (k, v) :: r => decide (lo ≤ k) && decide (v ≠ d k) && tabOk d (k + 1) r

/-- A set of numbers with n in it. -/
def sadd (n : Nat) : List Nat → List Nat
  | [] => [n]
  | m :: r => if n < m then n :: m :: r else if n = m then m :: r else m :: sadd n r

/-- A set of numbers without n. -/
def sdel (n : Nat) (xs : List Nat) : List Nat := xs.filter fun m => m ≠ n

/-- A set of numbers with n in it exactly where b holds. -/
def sset (n : Nat) (b : Bool) (xs : List Nat) : List Nat := if b then sadd n xs else sdel n xs

/-- n consecutive values from key k. -/
def tread {α : Type} (d : α) (t : Tab α) (k n : Nat) : List α := (upto n).map fun i => tget d t (k + i)

/-- Consecutive values written from key k. -/
def twrite {α : Type} [DecidableEq α] (d : α) (t : Tab α) (k : Nat) : List α → Tab α
  | [] => t
  | v :: r => twrite d (tput d k v t) (k + 1) r

/-- The table without the keys of a range. -/
def tclear {α : Type} (t : Tab α) (lo n : Nat) : Tab α := t.filter fun e => !(lo ≤ e.1 && e.1 < lo + n)

/-- The set without the numbers of a range. -/
def sclear (xs : List Nat) (lo n : Nat) : List Nat := xs.filter fun k => !(lo ≤ k && k < lo + n)

end Sys2Proof.Machine
end

