-- ==== Sys2Proof/Machine/RegMap.lean ====
section
/-! DEFINITION. The register map: every register the spec names, its place in BAR0 (R29, R30), its reset word and the
access code of each bit (R12). A word is stored only while it differs from its reset word. -/

namespace Sys2Proof.Machine

/-- A register, or an array of registers, of one block: offset in its block, count and step (two levels), the word
at reset, and the bits of each access code (R12). -/
structure RegDef where
  off   : Nat
  n     : Nat
  step  : Nat
  n2    : Nat
  step2 : Nat
  reset : Nat
  rw    : Nat
  w1c   : Nat
  w1s   : Nat
  wo    : Nat
  rc    : Nat
  hm    : Nat
deriving DecidableEq, Repr

/-- Whether an offset of the block is one of the words of a register array. -/
def RegDef.holds (d : RegDef) (o : Nat) : Bool :=
  if o < d.off then false
  else
    let x := o - d.off
    if d.n2 ≤ 1 then
      if d.n ≤ 1 then x == 0 else x % d.step == 0 && x / d.step < d.n
    else x / d.step < d.n && (x % d.step) % d.step2 == 0 && (x % d.step) / d.step2 < d.n2

/-- Registers of module scope, at their BAR0 offsets (R565 to R569 and the maps they name). -/
def regsModule0 : List RegDef := [
  -- GLB.ID (R565,R6)
  ⟨0x0, 1, 0x0, 1, 0, 0x90001f0, 0x0, 0x0, 0x0, 0x0, 0x0, 0x0⟩,
  -- GLB.VER (R565)
  ⟨0x4, 1, 0x0, 1, 0, 0x0, 0x0, 0x0, 0x0, 0x0, 0x0, 0x0⟩,
  -- GLB.MODNUM (R565)
  ⟨0x8, 1, 0x0, 1, 0, 0x0, 0x0, 0x0, 0x0, 0x0, 0x0, 0x0⟩,
  -- GLB.SERIAL (R565)
  ⟨0x10, 2, 0x4, 1, 0, 0x0, 0x0, 0x0, 0x0, 0x0, 0x0, 0x0⟩,
  -- GLB.TIME (R565,R38)
  ⟨0x20, 2, 0x4, 1, 0, 0x0, 0x0, 0x0, 0x0, 0x0, 0x0, 0x0⟩,
  -- GLB.CAUSE (R565)
  ⟨0x30, 1, 0x0, 1, 0, 0x0, 0x0, 0xf, 0x0, 0x0, 0x0, 0x0⟩,
  -- GLB.RSTCAUSE (R546)
  ⟨0x40, 1, 0x0, 1, 0, 0x1, 0x0, 0x1ff, 0x0, 0x0, 0x0, 0x0⟩,
  -- GLB.RSTMOD (R547)
  ⟨0x44, 1, 0x0, 1, 0, 0x0, 0x0, 0x0, 0x100, 0xff, 0x0, 0x0⟩,
  -- GLB.RSTPUR (R547)
  ⟨0x48, 1, 0x0, 1, 0, 0x0, 0x0, 0x0, 0x100, 0xff, 0x0, 0x0⟩,
  -- GLB.BOOTSTAT (R548)
  ⟨0x4c, 1, 0x0, 1, 0, 0x0, 0x0, 0x0, 0x0, 0x0, 0x0, 0x0⟩,
  -- GLB.LFAIL (R549)
  ⟨0x50, 1, 0x0, 1, 0, 0x0, 0x0, 0x0, 0x0, 0x0, 0x0, 0x0⟩,
  -- GLB.REJOIN (R549)
  ⟨0x54, 1, 0x0, 1, 0, 0x0, 0x0, 0x0, 0xffffffff, 0x0, 0x0, 0x0⟩,
  -- GLB.ERRSTAT (R550)
  ⟨0x58, 1, 0x0, 1, 0, 0x0, 0x0, 0x1, 0x0, 0x0, 0x0, 0x0⟩,
  -- GLB.ERRCFG (R550)
  ⟨0x5c, 1, 0x0, 1, 0, 0xa00, 0xff01, 0x0, 0x0, 0x0, 0x0, 0x0⟩,
  -- GLB.LFCODE (R549)
  ⟨0x60, 8, 0x4, 1, 0, 0x0, 0x0, 0x0, 0x0, 0x0, 0x0, 0x0⟩,
  -- INT.GIS (R554,R555)
  ⟨0x10000, 1, 0x0, 1, 0, 0x0, 0x0, 0x0, 0x0, 0x0, 0x0, 0x0⟩,
  -- INT.GIE (R564)
  ⟨0x10004, 1, 0x0, 1, 0, 0x1fff, 0x1fff, 0x0, 0x0, 0x0, 0x0, 0x0⟩,
  -- INT.DEST (R564)
  ⟨0x10008, 1, 0x0, 1, 0, 0x7, 0x7, 0x0, 0x0, 0x0, 0x0, 0x0⟩,
  -- INT.EOI (R564)
  ⟨0x1000c, 1, 0x0, 1, 0, 0xc, 0x0, 0x0, 0x3, 0x0, 0x0, 0x0⟩,
  -- INT.LSUM (R556)
  ⟨0x10010, 1, 0x0, 1, 0, 0x0, 0x0, 0x0, 0x0, 0x0, 0x0, 0x0⟩,
  -- INT.QSUM (R562)
  ⟨0x10018, 2, 0x4, 1, 0, 0x0, 0x0, 0x0, 0x0, 0x0, 0x0, 0x0⟩,
  -- INT.BARERR (R564)
  ⟨0x10020, 1, 0x0, 1, 0, 0x0, 0x0, 0x1, 0x0, 0x0, 0x0, 0x0⟩,
  -- INT.FREPORT (R564)
  ⟨0x10024, 1, 0x0, 1, 0, 0x0, 0x0, 0x1, 0x0, 0x0, 0x0, 0x0⟩,
  -- INT.QC (R564,R576)
  ⟨0x10040, 4, 0x4, 1, 0, 0x0, 0x0, 0x1f, 0x0, 0x0, 0x0, 0x0⟩,
  -- PWR.CAUSE (R520)
  ⟨0x20000, 1, 0x0, 1, 0, 0x0, 0x0, 0x1ff, 0x0, 0x0, 0x0, 0x0⟩,
  -- PWR.SETCAP (R520)
  ⟨0x20004, 1, 0x0, 1, 0, 0x5dc0, 0x7fff, 0x0, 0x0, 0x0, 0x0, 0x0⟩,
  -- PWR.SETTLIM (R520)
  ⟨0x20008, 1, 0x0, 1, 0, 0x5f, 0x7f, 0x0, 0x0, 0x0, 0x0, 0x0⟩,
  -- PWR.SETRUN (R520)
  ⟨0x2000c, 1, 0x0, 1, 0, 0x0, 0x1, 0x0, 0x0, 0x0, 0x0, 0x0⟩,
  -- PWR.SAFEEFF (R520,R466)
  ⟨0x20010, 1, 0x0, 1, 0, 0x2fddc0, 0x0, 0x0, 0x0, 0x0, 0x0, 0x0⟩,
  -- PWR.MEAS (R520)
  ⟨0x20014, 1, 0x0, 1, 0, 0x0, 0x0, 0x0, 0x0, 0x0, 0x0, 0x0⟩,
  -- PWR.PFSTAMP (R520,R513)
  ⟨0x20018, 2, 0x4, 1, 0, 0x0, 0x0, 0x0, 0x0, 0x0, 0x0, 0x0⟩,
  -- PWR.SAFE (R520,R466)
  ⟨0x20040, 6, 0x4, 1, 0, 0x2fddc0, 0x0, 0x0, 0x0, 0x0, 0x0, 0x0⟩,
  -- PWR.RMOWN0 (R520,R467)
  ⟨0x20060, 1, 0x0, 1, 0, 0x0, 0x0, 0x0, 0x0, 0x0, 0x0, 0x0⟩,
  -- PWR.RMOWN1 (R520,R467)
  ⟨0x20064, 1, 0x0, 1, 0, 0x0, 0x0, 0x0, 0x0, 0x0, 0x0, 0x0⟩,
  -- PWR.PD (R504)
  ⟨0x20100, 72, 0x4, 1, 0, 0x2, 0x13, 0x0, 0x0, 0x0, 0x0, 0x0⟩,
  -- THM.CAUSE (R521)
  ⟨0x30000, 1, 0x0, 1, 0, 0x0, 0x0, 0x7f, 0x0, 0x0, 0x0, 0x0⟩,
  -- THM.LOOP (R521)
  ⟨0x30004, 1, 0x0, 1, 0, 0x19103c, 0x1ffffff, 0x0, 0x0, 0x0, 0x0, 0x0⟩,
  -- THM.BASE (R521)
  ⟨0x30008, 1, 0x0, 1, 0, 0x128e12c, 0x3ffffff, 0x0, 0x0, 0x0, 0x0, 0x0⟩,
  -- THM.JCFG (R521)
  ⟨0x3000c, 1, 0x0, 1, 0, 0x1380c3c, 0x3ffffff, 0x0, 0x0, 0x0, 0x0, 0x0⟩,
  -- THM.FLOW (R521)
  ⟨0x30010, 1, 0x0, 1, 0, 0x18064, 0xfffff, 0x0, 0x0, 0x0, 0x0, 0x0⟩]

/-- Registers of module scope, at their BAR0 offsets (R565 to R569 and the maps they name). -/
def regsModule1 : List RegDef := [
  -- THM.PLAN (R521)
  ⟨0x30014, 1, 0x0, 1, 0, 0xffff, 0xffff, 0x0, 0x0, 0x0, 0x0, 0x0⟩,
  -- THM.PACE (R521,R509)
  ⟨0x30018, 1, 0x0, 1, 0, 0xffff, 0x0, 0x0, 0x0, 0x0, 0x0, 0x0⟩,
  -- THM.STAT (R521)
  ⟨0x3001c, 1, 0x0, 1, 0, 0x0, 0x0, 0x0, 0x0, 0x0, 0x0, 0x0⟩,
  -- THM.STAT2 (R521)
  ⟨0x30020, 1, 0x0, 1, 0, 0x0, 0x0, 0x0, 0x0, 0x0, 0x0, 0x0⟩,
  -- THM.FCST (R521)
  ⟨0x30024, 1, 0x0, 1, 0, 0x0, 0x0, 0x0, 0x0, 0x0, 0x0, 0x0⟩,
  -- THM.DMD (R521,R517)
  ⟨0x30028, 1, 0x0, 1, 0, 0x4dff, 0xff00, 0x0, 0x0, 0x0, 0x0, 0x0⟩,
  -- CRS.LAPCTL (R566)
  ⟨0x40000, 1, 0x0, 1, 0, 0x28, 0x1ffff, 0x0, 0x0, 0x0, 0x0, 0x0⟩,
  -- CRS.PACE (R566,R509)
  ⟨0x40004, 1, 0x0, 1, 0, 0xff, 0x1ff, 0x0, 0x0, 0x0, 0x0, 0x0⟩,
  -- CRS.CAUSE (R566)
  ⟨0x40008, 1, 0x0, 1, 0, 0x0, 0x0, 0x7f, 0x0, 0x0, 0x0, 0x0⟩,
  -- CRS.LAPSTAT (R566)
  ⟨0x4000c, 1, 0x0, 1, 0, 0x0, 0x0, 0x0, 0x0, 0x0, 0x0, 0x0⟩,
  -- CRS.LTBASE (R566)
  ⟨0x40010, 2, 0x4, 1, 0, 0x0, 0xffffffff, 0x0, 0x0, 0x0, 0x0, 0x0⟩,
  -- CRS.T0 (R566)
  ⟨0x40018, 2, 0x4, 1, 0, 0x0, 0x0, 0x0, 0x0, 0x0, 0x0, 0x0⟩,
  -- CRS.SMAP (R566)
  ⟨0x40020, 2, 0x4, 1, 0, 0x0, 0xffffffff, 0x0, 0x0, 0x0, 0x0, 0x0⟩,
  -- CRS.VCTL (R80)
  ⟨0x40100, 1, 0x0, 1, 0, 0x0, 0xffff, 0x0, 0xf0000, 0x0, 0x0, 0x0⟩,
  -- CRS.VSTAT (R81)
  ⟨0x40104, 1, 0x0, 1, 0, 0x0, 0x0, 0x28, 0x0, 0x0, 0x0, 0x0⟩,
  -- CRS.VNUM (R82)
  ⟨0x40108, 1, 0x0, 1, 0, 0x0, 0x0, 0x0, 0x0, 0x0, 0x0, 0x0⟩,
  -- CRS.VDIG (R597)
  ⟨0x40140, 12, 0x4, 1, 0, 0x0, 0xffffffff, 0x0, 0x0, 0x0, 0x0, 0x0⟩,
  -- XPT.CFG (R427)
  ⟨0x50000, 1, 0x0, 1, 0, 0x7, 0x0, 0x0, 0x0, 0x0, 0x0, 0x0⟩,
  -- XPT.RING (R428)
  ⟨0x50004, 1, 0x0, 1, 0, 0x0, 0x3fffff, 0x0, 0x0, 0x0, 0x0, 0x0⟩,
  -- XPT.TCW (R429)
  ⟨0x50008, 1, 0x0, 1, 0, 0x103, 0xffff, 0x0, 0x0, 0x0, 0x0, 0x0⟩,
  -- XPT.CAUSE (R430)
  ⟨0x5000c, 1, 0x0, 1, 0, 0x0, 0x0, 0x7ff, 0x0, 0x0, 0x0, 0x0⟩,
  -- XPT.TSTAT (R431)
  ⟨0x50010, 1, 0x0, 1, 0, 0x0, 0x0, 0x0, 0x0, 0x0, 0x0, 0x0⟩,
  -- XPT.TOFF (R431)
  ⟨0x50014, 1, 0x0, 1, 0, 0x0, 0x0, 0x0, 0x0, 0x0, 0x0, 0x0⟩,
  -- XPT.TCFG (R431)
  ⟨0x50018, 1, 0x0, 1, 0, 0x0, 0x1, 0x0, 0x0, 0x0, 0x0, 0x0⟩,
  -- XPT.Pn.STAT (R432)
  ⟨0x50100, 16, 0x40, 1, 0, 0x0, 0x0, 0x0, 0x0, 0x0, 0x0, 0x0⟩,
  -- XPT.Pn.ERR1 (R432)
  ⟨0x50104, 16, 0x40, 1, 0, 0x0, 0x0, 0x0, 0x0, 0x0, 0xffffffff, 0x0⟩,
  -- XPT.Pn.ERR2 (R432)
  ⟨0x50108, 16, 0x40, 1, 0, 0x0, 0x0, 0x0, 0x0, 0x0, 0xffffffff, 0x0⟩,
  -- XPT.Pn.FECC (R432)
  ⟨0x5010c, 16, 0x40, 1, 0, 0x0, 0x0, 0x0, 0x0, 0x0, 0xffffffff, 0x0⟩,
  -- XPT.ROUTE (R433)
  ⟨0x51000, 256, 0x4, 1, 0, 0xffffffff, 0xffffffff, 0x0, 0x0, 0x0, 0x0, 0x0⟩,
  -- QS.CTL (R456)
  ⟨0x60000, 64, 0x200, 1, 0, 0x40400, 0xf0f03, 0x0, 0x4, 0x0, 0x0, 0x0⟩,
  -- QS.RQBASE.LO (R456)
  ⟨0x60008, 64, 0x200, 1, 0, 0x0, 0xffffffff, 0x0, 0x0, 0x0, 0x0, 0x0⟩,
  -- QS.RQBASE.HI (R456)
  ⟨0x6000c, 64, 0x200, 1, 0, 0x0, 0xffffffff, 0x0, 0x0, 0x0, 0x0, 0x0⟩,
  -- QS.CQBASE.LO (R456)
  ⟨0x60010, 64, 0x200, 1, 0, 0x0, 0xffffffff, 0x0, 0x0, 0x0, 0x0, 0x0⟩,
  -- QS.CQBASE.HI (R456)
  ⟨0x60014, 64, 0x200, 1, 0, 0x0, 0xffffffff, 0x0, 0x0, 0x0, 0x0, 0x0⟩,
  -- QS.RQTAIL (R456,R448)
  ⟨0x60018, 64, 0x200, 1, 0, 0x0, 0xffffffff, 0x0, 0x0, 0x0, 0x0, 0x0⟩,
  -- QS.RQHEAD (R456)
  ⟨0x6001c, 64, 0x200, 1, 0, 0x0, 0x0, 0x0, 0x0, 0x0, 0x0, 0x0⟩,
  -- QS.RHEAD (R456,R452)
  ⟨0x60020, 64, 0x200, 1, 0, 0x0, 0xffffffff, 0x0, 0x0, 0x0, 0x0, 0x0⟩,
  -- QS.RTAIL (R456,R450)
  ⟨0x60024, 64, 0x200, 1, 0, 0x0, 0x0, 0x0, 0x0, 0x0, 0x0, 0x0⟩,
  -- QS.CAUSE (R456)
  ⟨0x60028, 64, 0x200, 1, 0, 0x0, 0x0, 0x1f, 0x0, 0x0, 0x0, 0x0⟩,
  -- QS.STAT (R456)
  ⟨0x6002c, 64, 0x200, 1, 0, 0x0, 0x0, 0x0, 0x0, 0x0, 0x0, 0x0⟩]

/-- Registers of module scope, at their BAR0 offsets (R565 to R569 and the maps they name). -/
def regsModule2 : List RegDef := [
  -- QS.HELD (R456)
  ⟨0x60030, 64, 0x200, 1, 0, 0x0, 0x0, 0x0, 0x0, 0x0, 0x0, 0x0⟩,
  -- QS.TENANT (R456)
  ⟨0x60034, 64, 0x200, 1, 0, 0x0, 0x0, 0x0, 0x0, 0x0, 0x0, 0xffff⟩,
  -- QS.COAL (R563)
  ⟨0x60038, 64, 0x200, 1, 0, 0x1, 0xffffff, 0x0, 0x0, 0x0, 0x0, 0x0⟩,
  -- QS.IRQ (R563)
  ⟨0x6003c, 64, 0x200, 1, 0, 0x13, 0x3, 0x4, 0x8, 0x0, 0x0, 0x0⟩,
  -- SVC.AP.LO (R439)
  ⟨0x68000, 64, 0x8, 1, 0, 0x0, 0x1fffffff, 0x0, 0x0, 0x0, 0x0, 0x0⟩,
  -- SVC.AP.HI (R439)
  ⟨0x68004, 64, 0x8, 1, 0, 0x0, 0x3fff, 0x0, 0x0, 0x0, 0x0, 0x0⟩,
  -- SVC.BATCH (R464)
  ⟨0x68400, 1, 0x0, 1, 0, 0x100080, 0xfff7ff, 0x0, 0x0, 0x0, 0x0, 0x0⟩,
  -- SVC.CTXMAX (R464)
  ⟨0x68404, 1, 0x0, 1, 0, 0x0, 0x0, 0x0, 0x0, 0x0, 0x0, 0x0⟩,
  -- SVC.PFOVR (R468)
  ⟨0x68408, 1, 0x0, 1, 0, 0x0, 0x0, 0x3, 0x0, 0x0, 0x0, 0x0⟩,
  -- SVC.HOSTERR (R464)
  ⟨0x6840c, 1, 0x0, 1, 0, 0x0, 0x0, 0x1, 0x0, 0x0, 0x0, 0x0⟩,
  -- HMB.STAT (R497)
  ⟨0x70000, 1, 0x0, 1, 0, 0x0, 0x0, 0x0, 0x0, 0x0, 0x0, 0x0⟩,
  -- HMB.CAUSE (R497)
  ⟨0x70004, 1, 0x0, 1, 0, 0x0, 0x0, 0x1f, 0x0, 0x0, 0x0, 0x0⟩,
  -- HMB.NONCE (R497)
  ⟨0x70008, 2, 0x4, 1, 0, 0x0, 0x0, 0x0, 0x0, 0x0, 0x0, 0x0⟩,
  -- HMB.C.REQ (R477)
  ⟨0x71000, 50, 0x400, 1, 0, 0x0, 0x1ffffff, 0x0, 0x80000000, 0x0, 0x0, 0x0⟩,
  -- HMB.C.RSP (R477)
  ⟨0x71004, 50, 0x400, 1, 0, 0x0, 0x0, 0x0, 0x0, 0x0, 0x0, 0x0⟩,
  -- HMB.C.SEQ (R477)
  ⟨0x71008, 50, 0x400, 1, 0, 0x0, 0x0, 0x0, 0x0, 0x0, 0x0, 0x0⟩,
  -- HMB.C.PIN (R477)
  ⟨0x71100, 50, 0x400, 64, 4, 0x0, 0xffffffff, 0x0, 0x0, 0x0, 0x0, 0x0⟩,
  -- HMB.C.POUT (R477)
  ⟨0x71200, 50, 0x400, 64, 4, 0x0, 0x0, 0x0, 0x0, 0x0, 0x0, 0x0⟩,
  -- STO.LPLAN (R395)
  ⟨0x80000, 2, 0x4, 1, 0, 0x0, 0xffffffff, 0x0, 0x0, 0x0, 0x0, 0x0⟩,
  -- STO.CPLAN (R395)
  ⟨0x80008, 2, 0x4, 1, 0, 0x0, 0xffffffff, 0x0, 0x0, 0x0, 0x0, 0x0⟩,
  -- STO.CKCTL (R395)
  ⟨0x80010, 1, 0x0, 1, 0, 0x0, 0x18, 0x0, 0x7, 0x0, 0x0, 0x0⟩,
  -- STO.CKSTAT (R395)
  ⟨0x80014, 1, 0x0, 1, 0, 0x0, 0x0, 0x10, 0x0, 0x0, 0x0, 0x0⟩,
  -- STO.CERR (R395)
  ⟨0x80018, 1, 0x0, 1, 0, 0x0, 0x0, 0x80000000, 0x0, 0x0, 0x0, 0x0⟩,
  -- STO.LERR (R395)
  ⟨0x8001c, 1, 0x0, 1, 0, 0x0, 0x0, 0x80000000, 0x0, 0x0, 0x0, 0x0⟩,
  -- STO.CKSEQ (R395)
  ⟨0x80020, 2, 0x4, 1, 0, 0x0, 0x0, 0x0, 0x0, 0x0, 0x0, 0x0⟩,
  -- STO.CKEVT (R568)
  ⟨0x80028, 1, 0x0, 1, 0, 0x0, 0x0, 0x3, 0x0, 0x0, 0x0, 0x0⟩,
  -- DBG.CTL (R569)
  ⟨0x90000, 1, 0x0, 1, 0, 0x0, 0x1e, 0x0, 0x1, 0x0, 0x0, 0x0⟩,
  -- DBG.STAT (R569)
  ⟨0x90004, 1, 0x0, 1, 0, 0x0, 0x0, 0x0, 0x0, 0x0, 0x0, 0x0⟩,
  -- DBG.ADDR (R569)
  ⟨0x90008, 2, 0x4, 1, 0, 0x0, 0xffffffff, 0x0, 0x0, 0x0, 0x0, 0x0⟩,
  -- DBG.DATA (R569)
  ⟨0x90200, 128, 0x4, 1, 0, 0x0, 0xffffffff, 0x0, 0x0, 0x0, 0x0, 0x0⟩]

/-- Registers of module scope, at their BAR0 offsets (R565 to R569 and the maps they name). -/
def regsModule : List RegDef := regsModule0 ++ regsModule1 ++ regsModule2

/-- Registers of a landing block (R30, R572, R573 and the maps they name). -/
def regsLanding : List RegDef := [
  -- LC.ID (R572)
  ⟨0x0, 1, 0x0, 1, 0, 0x10000, 0x0, 0x0, 0x0, 0x0, 0x0, 0x0⟩,
  -- LC.CAUSE (R572)
  ⟨0x4, 1, 0x0, 1, 0, 0x0, 0x0, 0x7e, 0x0, 0x0, 0x0, 0x0⟩,
  -- LC.CAUSEEN (R572)
  ⟨0x8, 1, 0x0, 1, 0, 0x7f, 0x7f, 0x0, 0x0, 0x0, 0x0, 0x0⟩,
  -- LC.BIND (R572)
  ⟨0xc, 1, 0x0, 1, 0, 0x0, 0x0, 0x0, 0x0, 0x0, 0x0, 0x0⟩,
  -- LC.ACMASK (R572)
  ⟨0x10, 8, 0x4, 1, 0, 0xffffffff, 0x0, 0x0, 0x0, 0x0, 0x0, 0x0⟩,
  -- LC.TPOST (R106)
  ⟨0x40, 1, 0x0, 1, 0, 0x0, 0x0, 0x0, 0x0, 0x7fff7fff, 0x0, 0x0⟩,
  -- LC.TPOST_HI (R106)
  ⟨0x44, 1, 0x0, 1, 0, 0x0, 0x0, 0x0, 0x0, 0xffffffff, 0x0, 0x0⟩,
  -- LC.TPSTAT (R106,R113)
  ⟨0x48, 1, 0x0, 1, 0, 0x0, 0x0, 0x1, 0x0, 0x0, 0xff0000, 0x0⟩,
  -- LC.TQCTL (R119)
  ⟨0x80, 1, 0x0, 1, 0, 0x100, 0x1fff, 0x0, 0x0, 0x0, 0x0, 0x0⟩,
  -- LC.TQSTAT (R120)
  ⟨0x84, 1, 0x0, 1, 0, 0x0, 0x0, 0x0, 0x0, 0x0, 0x0, 0x0⟩,
  -- LC.TQSTEALS (R120)
  ⟨0x88, 1, 0x0, 1, 0, 0x0, 0x0, 0x0, 0x0, 0x0, 0xffffffff, 0x0⟩,
  -- LC.TGMASK (R122)
  ⟨0x8c, 1, 0x0, 1, 0, 0x0, 0xffffffff, 0x0, 0x0, 0x0, 0x0, 0x0⟩,
  -- LC.FBUF (R297)
  ⟨0x90, 1, 0x0, 1, 0, 0x28000, 0x7ffff, 0x80000000, 0x0, 0x0, 0x0, 0x0⟩,
  -- LC.WDOG (R358)
  ⟨0x94, 1, 0x0, 1, 0, 0x8000000a, 0xffffffff, 0x0, 0x0, 0x0, 0x0, 0x0⟩,
  -- LC.WDSTAT (R358)
  ⟨0x98, 1, 0x0, 1, 0, 0x0, 0x0, 0x0, 0x0, 0x0, 0xffff, 0x0⟩,
  -- LC.WINSTAT (R379)
  ⟨0xa0, 1, 0x0, 1, 0, 0x0, 0x0, 0x0, 0x0, 0x0, 0xffffffff, 0x0⟩,
  -- LC.WINLAST (R379)
  ⟨0xa4, 1, 0x0, 1, 0, 0x0, 0x0, 0x0, 0x0, 0x0, 0x0, 0x0⟩,
  -- LC.CSUM (R572)
  ⟨0xc0, 8, 0x4, 1, 0, 0x0, 0x0, 0x0, 0x0, 0x0, 0x0, 0x0⟩,
  -- LC.VAREA.LO (R388)
  ⟨0xe0, 4, 0x8, 1, 0, 0x0, 0xfffffff, 0x0, 0x0, 0x0, 0x0, 0x0⟩,
  -- LC.VAREA.HI (R388)
  ⟨0xe4, 4, 0x8, 1, 0, 0x0, 0xfffffff, 0x0, 0x0, 0x0, 0x0, 0x0⟩,
  -- LC.CG.CMASK (R359)
  ⟨0x100, 16, 0x40, 8, 4, 0x0, 0xffffffff, 0x0, 0x0, 0x0, 0x0, 0x0⟩,
  -- LC.CG.LMASK (R359)
  ⟨0x120, 16, 0x40, 1, 0, 0x0, 0xffffffff, 0x0, 0x0, 0x0, 0x0, 0x0⟩,
  -- LC.CG.CGCTL (R359)
  ⟨0x124, 16, 0x40, 1, 0, 0x0, 0x7f, 0x0, 0x0, 0x0, 0x0, 0x0⟩,
  -- LC.CG.CGPER (R359)
  ⟨0x128, 16, 0x40, 1, 0, 0xc8, 0xffffffff, 0x0, 0x0, 0x0, 0x0, 0x0⟩,
  -- LC.CG.CGSTAT (R359)
  ⟨0x12c, 16, 0x40, 1, 0, 0x0, 0x0, 0x0, 0x0, 0x0, 0x0, 0x0⟩,
  -- LC.CG.CGEVT (R359)
  ⟨0x130, 16, 0x40, 1, 0, 0x0, 0x0, 0x0, 0x0, 0x0, 0xffffff, 0x0⟩,
  -- RS.CAUSE.LO (R573)
  ⟨0x10000, 1, 0x0, 1, 0, 0x0, 0x0, 0x0, 0x0, 0x0, 0xffffffff, 0x0⟩,
  -- RS.CAUSE.HI (R573)
  ⟨0x10004, 1, 0x0, 1, 0, 0x0, 0x0, 0x0, 0x0, 0x0, 0xffffffff, 0x0⟩,
  -- RS.STAT (R573)
  ⟨0x10008, 1, 0x0, 1, 0, 0x0, 0x0, 0x0, 0x0, 0x0, 0x0, 0x0⟩,
  -- SC.CAUSE (R369)
  ⟨0x20000, 2, 0x1000, 1, 0, 0x0, 0x0, 0x0, 0x0, 0x0, 0xffffff, 0x0⟩,
  -- SC.PATROL (R369)
  ⟨0x20004, 2, 0x1000, 1, 0, 0x18, 0xffff, 0x0, 0x0, 0x0, 0xffff0000, 0x0⟩,
  -- SC.ERRADDR.LO (R369)
  ⟨0x20008, 2, 0x1000, 1, 0, 0x0, 0x0, 0x0, 0x0, 0x0, 0x0, 0x0⟩,
  -- SC.ERRADDR.HI (R369)
  ⟨0x2000c, 2, 0x1000, 1, 0, 0x0, 0x0, 0x0, 0x0, 0x0, 0x0, 0x0⟩,
  -- WBASE (R370)
  ⟨0x30000, 1024, 0x10, 1, 0, 0x0, 0x0, 0x0, 0x0, 0x0, 0x0, 0xffffffff⟩,
  -- WSIZE (R370)
  ⟨0x30004, 1024, 0x10, 1, 0, 0x0, 0x0, 0x0, 0x0, 0x0, 0x0, 0xffffffff⟩,
  -- WSRC (R370)
  ⟨0x30008, 1024, 0x10, 1, 0, 0x0, 0x0, 0x0, 0x0, 0x0, 0x0, 0xf03ffff⟩,
  -- WCTL (R370)
  ⟨0x3000c, 1024, 0x10, 1, 0, 0x0, 0x0, 0x0, 0x0, 0x0, 0x0, 0x3d00⟩]

/-- Registers of a core view (R574, R575 and the maps they name). -/
def regsCore : List RegDef := [
  -- CORE.THRSTAT (R108)
  ⟨0x0, 16, 0x4, 1, 0, 0x0, 0x0, 0x0, 0x0, 0x0, 0x0, 0x0⟩,
  -- CORE.TFAULT (R166)
  ⟨0x40, 16, 0x4, 1, 0, 0x0, 0x0, 0x0, 0x0, 0x0, 0x0, 0x0⟩,
  -- CORE.TFINFO (R166)
  ⟨0x80, 32, 0x4, 1, 0, 0x0, 0x0, 0x0, 0x0, 0x0, 0x0, 0x0⟩,
  -- CORE.QSTAT (R204)
  ⟨0x100, 1, 0x0, 1, 0, 0x0, 0x0, 0x0, 0x0, 0x0, 0x0, 0x0⟩,
  -- CORE.ESTAT (R205)
  ⟨0x104, 1, 0x0, 1, 0, 0x0, 0x0, 0x0, 0x0, 0x0, 0x0, 0x0⟩,
  -- CORE.EERR.LO (R206)
  ⟨0x120, 5, 0x8, 1, 0, 0x0, 0x0, 0x1, 0x0, 0x0, 0x0, 0x0⟩,
  -- CORE.EERR.HI (R206)
  ⟨0x124, 5, 0x8, 1, 0, 0x0, 0x0, 0x0, 0x0, 0x0, 0x0, 0x0⟩,
  -- CORE.CHLAST (R356)
  ⟨0x148, 2, 0x4, 1, 0, 0x0, 0x0, 0x0, 0x0, 0x0, 0x0, 0x0⟩,
  -- CORE.CHLTIME (R356)
  ⟨0x150, 1, 0x0, 1, 0, 0x0, 0x0, 0x0, 0x0, 0x0, 0x0, 0x0⟩,
  -- CORE.CHSTAT (R357)
  ⟨0x154, 1, 0x0, 1, 0, 0x0, 0x0, 0x3f, 0x0, 0x0, 0x0, 0x0⟩,
  -- CORE.CHBASE (R356)
  ⟨0x158, 2, 0x4, 1, 0, 0x0, 0x0, 0x0, 0x0, 0x0, 0x0, 0x0⟩,
  -- CORE.CB16STAT (R236)
  ⟨0x160, 1, 0x0, 1, 0, 0x0, 0x0, 0x0, 0x0, 0x0, 0xffffffff, 0x0⟩,
  -- CORE.CB16STAT1 (R237)
  ⟨0x164, 1, 0x0, 1, 0, 0x0, 0x0, 0x0, 0x0, 0x0, 0xffffff, 0x0⟩,
  -- CORE.MSLOT (R267)
  ⟨0x180, 16, 0x4, 1, 0, 0x0, 0x0, 0x0, 0x0, 0x0, 0x0, 0x0⟩,
  -- CORE.MFLAGS (R268)
  ⟨0x1c0, 1, 0x0, 1, 0, 0x0, 0x0, 0xf, 0x0, 0x0, 0x0, 0x0⟩,
  -- CORE.MREPLAY (R269)
  ⟨0x1c4, 1, 0x0, 1, 0, 0x0, 0x0, 0x0, 0x0, 0x0, 0xffffffff, 0x0⟩,
  -- CORE.EXPSTALL (R270)
  ⟨0x1c8, 1, 0x0, 1, 0, 0x0, 0x0, 0x0, 0x0, 0x0, 0xffffffff, 0x0⟩,
  -- CORE.EXPEVT (R270)
  ⟨0x1cc, 1, 0x0, 1, 0, 0x0, 0x0, 0x0, 0x0, 0x0, 0xffffffff, 0x0⟩,
  -- CORE.VRSTAT (R289)
  ⟨0x1e0, 1, 0x0, 1, 0, 0x0, 0x0, 0x0, 0x0, 0x0, 0xffffffff, 0x0⟩,
  -- CORE.SESEL (R324)
  ⟨0x1e4, 1, 0x0, 1, 0, 0x0, 0x1f, 0x0, 0x0, 0x0, 0x0, 0x0⟩,
  -- CORE.SECTX (R324)
  ⟨0x1e8, 1, 0x0, 1, 0, 0x0, 0x0, 0x0, 0x0, 0x0, 0x0, 0x0⟩,
  -- CORE.SESTAT (R324)
  ⟨0x1ec, 1, 0x0, 1, 0, 0x0, 0x0, 0x0, 0x0, 0x0, 0xffffffff, 0x0⟩,
  -- CORE.SPSTAT (R324)
  ⟨0x1f0, 1, 0x0, 1, 0, 0x0, 0x0, 0x0, 0x0, 0x0, 0xffffffff, 0x0⟩,
  -- CORE.SETAGS (R324)
  ⟨0x1f4, 1, 0x0, 1, 0, 0x0, 0x0, 0x0, 0x0, 0x0, 0x7f00, 0x0⟩,
  -- CORE.CHSEL (R355)
  ⟨0x1f8, 1, 0x0, 1, 0, 0x0, 0x3f, 0x0, 0x0, 0x0, 0x0, 0x0⟩,
  -- CORE.CHWAIT (R355)
  ⟨0x1fc, 1, 0x0, 1, 0, 0x0, 0x0, 0x0, 0x0, 0x0, 0x0, 0x0⟩,
  -- CORE.CHVAL (R355)
  ⟨0x200, 96, 0x4, 1, 0, 0x0, 0x0, 0x0, 0x0, 0x0, 0x0, 0x0⟩,
  -- CORE.PAIR (R337)
  ⟨0x380, 16, 0x4, 1, 0, 0x0, 0xffffffff, 0x0, 0x0, 0x0, 0x0, 0x0⟩,
  -- CORE.CAUSE (R574)
  ⟨0x3c0, 1, 0x0, 1, 0, 0x0, 0x0, 0x1ff, 0x0, 0x0, 0x0, 0x0⟩,
  -- CORE.CAUSEEN (R575)
  ⟨0x3c4, 1, 0x0, 1, 0, 0x1ff, 0x1ff, 0x0, 0x0, 0x0, 0x0, 0x0⟩,
  -- CORE.SMSTAT (R575)
  ⟨0x3c8, 1, 0x0, 1, 0, 0x0, 0x0, 0x0, 0x0, 0x0, 0xffffff, 0x0⟩,
  -- CORE.STATE (R575)
  ⟨0x3cc, 1, 0x0, 1, 0, 0x1, 0x0, 0x0, 0x0, 0x0, 0x0, 0x0⟩]

/-- Registers of a quay, at their offsets in space 0x5 (R576). -/
def regsQuay : List RegDef := [
  -- QC.CAUSE (R576)
  ⟨0xb0000, 1, 0x0, 1, 0, 0x0, 0x0, 0x1f, 0x0, 0x0, 0x0, 0x0⟩,
  -- QC.SRAMCE (R576)
  ⟨0xb0004, 1, 0x0, 1, 0, 0x0, 0x0, 0x0, 0x0, 0x0, 0xffff, 0x0⟩,
  -- QW.WBASE (R370)
  ⟨0xc0000, 256, 0x10, 1, 0, 0x0, 0x0, 0x0, 0x0, 0x0, 0x0, 0xffffffff⟩,
  -- QW.WSIZE (R370)
  ⟨0xc0004, 256, 0x10, 1, 0, 0x0, 0x0, 0x0, 0x0, 0x0, 0x0, 0xffffffff⟩,
  -- QW.WSRC (R370)
  ⟨0xc0008, 256, 0x10, 1, 0, 0x0, 0x0, 0x0, 0x0, 0x0, 0x0, 0xf03ffff⟩,
  -- QW.WCTL (R370)
  ⟨0xc000c, 256, 0x10, 1, 0, 0x0, 0x0, 0x0, 0x0, 0x0, 0x0, 0x3d00⟩]

/-- First byte of the block of landing l in BAR0 (R29). -/
def lcBase (l : Nat) : Nat := 0x1000000 + l * 0x100000

/-- First byte of the view of core c of landing l in BAR0 (R30). -/
def coreBase (l c : Nat) : Nat := lcBase l + 0x40000 + c * 0x400

/-- First number of the registers of quay q in the model's numbering: they lie in space 0x5 (R576), not in BAR0. -/
def quayBase (q : Nat) : Nat := 0x4000000 + q * 0x100000

/-- The register that holds a word, none where the offset is reserved (R29, R30, R576). -/
def regDef (o : Nat) : Option RegDef :=
  if o < 0x1000000 then regsModule.find? fun d => d.holds o
  else if o < 0x3000000 then
    let x := (o - 0x1000000) % 0x100000
    if x < 0x40000 then regsLanding.find? fun d => d.holds x
    else if x < 0x80000 then regsCore.find? fun d => d.holds ((x - 0x40000) % 0x400)
    else none
  else if 0x4000000 ≤ o && o < 0x4400000 then regsQuay.find? fun d => d.holds ((o - 0x4000000) % 0x100000)
  else none

/-- The word of a register at reset; 0 for a reserved offset (R11, R32). -/
def resetWord (o : Nat) : Word :=
  match regDef o with
  | some d => BitVec.ofNat 32 d.reset
  | none => 0

end Sys2Proof.Machine
end

