-- ==== Sys2Proof/Machine/State.lean ====
section
/-! DEFINITION. The state of the module as plain data: registers, memories, threads, engines, the crossing, the far
ports, the host's queue sets, the harbourmaster, power, reset and pins, and the queue of waiting commands. -/

namespace Sys2Proof.Machine

/-! ## Threads (file 03, file 04) -/

/-- The states of a thread (R108). RUN lasts one CORECLK; a command is one step, so no state between commands
shows it. -/
inductive TState where
  | idle | ready | run | wait | fault
deriving DecidableEq, Repr

/-- A sync command while it waits (R169, R200): what it does when its wait-before is met, and its signal-after. -/
inductive SyncOp where
  | sig | wait
  | cla (g : BitVec 4)
  | clw (g : BitVec 4)
deriving DecidableEq, Repr

/-- What a thread in WAIT waits for (R109). -/
inductive Wait where
  | none
  /-- WREASON 0x1: the effective value of a counter reaches the mark (R329). -/
  | ctr (c : BitVec 6) (mark : BitVec 48) (op : SyncOp) (sctr : BitVec 6) (sinc : BitVec 8)
  /-- WREASON 0x2: a CLW until a generation releases (R200). -/
  | clw (g : BitVec 4) (gen : BitVec 16) (sctr : BitVec 6) (sinc : BitVec 8)
  /-- WREASON 0x2: a CLA held because it would count toward GEN + 2 (R342). -/
  | cla (g : BitVec 4) (sctr : BitVec 6) (sinc : BitVec 8)
  /-- WREASON 0x3: an engine command whose queue is full (R168). -/
  | queue (op : BitVec 6) (f : EForm)
  /-- WREASON 0x4: the response of a global load or AMOADD (R153). -/
  | response (id : Nat)
  /-- WREASON 0x5: TQTAKE without an eligible tile (R117). -/
  | tile (sd : BitVec 5)
deriving DecidableEq, Repr

/-- What holds a READY thread back (R159, R161). -/
inductive Hold where
  | none
  | fence (gw eng : Bool)
  | taskEnd
deriving DecidableEq, Repr

/-- One hardware thread. -/
structure Thread where
  st       : TState := .idle
  /-- A post accepted while the array is CLOCK-STOPPED: READY when the domain returns to ON (R113). -/
  due      : Bool := false
  prio     : BitVec 2 := 0
  pc       : BitVec 15 := 0
  regs     : Tab Dword := []
  syncset  : Dword := 0
  wait     : Wait := .none
  /-- A timed wait's start, in TIMECLK edges that the array has been ON, and its timeout (R349, R351). -/
  since    : Nat := 0
  limit    : Nat := 0
  hold     : Hold := .none
  /-- Passed over until its YIELD back-off ends (R160). -/
  yielding : Bool := false
  /-- Global stores and AMOADDs issued and not completed, by number (R154). -/
  posted   : List Nat := []
  tile     : Option Dword := none
  /-- The generation at which the thread last arrived in each closure group since its post (R341). -/
  arrived  : Tab (Option (BitVec 16)) := []
  fcode    : BitVec 8 := 0
  deferred : Bool := false
  more     : Bool := false
  fpc      : BitVec 15 := 0
  info     : Dword := 0
deriving DecidableEq, Repr

/-! ## Engines (file 05 to file 09) -/

/-- An engine command in a queue: the operands it read at issue (R172). -/
structure EngCmd where
  op   : BitVec 6
  thr  : BitVec 4
  pc   : BitVec 15
  wctr : BitVec 6
  mark : BitVec 48
  sctr : BitVec 6
  sinc : BitVec 8
  imm  : BitVec 18
  ra   : Dword
  rb   : Dword
  rc   : Dword
deriving DecidableEq, Repr

/-- An engine's queue, its head first, and whether the head runs (R167, R174); since when the head has been there, in
TIMECLK edges that the array has been ON, and the timeout of its wait (R349, R351). -/
structure EQueue where
  cmds    : List EngCmd := []
  running : Bool := false
  since   : Nat := 0
  limit   : Nat := 0
  /-- The mark of the head's wait-before has been reached since it came to the head (R329). -/
  met     : Bool := false
  /-- Commands after the head that run too, behind running MMAs (R181). -/
  ahead   : Nat := 0
  /-- The head is discarded and has not yet written what R178 says. -/
  discard : Bool := false
  /-- Rows that the head, a drain into the drain port, has still to place there; none before it has drained (R190). -/
  out     : Option (List (List Byte × Bool)) := none
  /-- When the last command ended, on the same scale as `since` (R506). -/
  ended   : Option Nat := none
deriving DecidableEq, Repr

/-- A STRM or REARM that has started and not retired (R198, R199): contexts whose arming it waits for. -/
structure SeJob where
  cmd    : EngCmd
  left   : List Nat
  failed : Bool
deriving DecidableEq, Repr

/-- One lane of an accumulator slot (R249): the integer A, its saturation mark (R255), its special-state marks (R261)
and its poison mark (R262). -/
structure Lane where
  acc  : BitVec 96 := 0
  sat  : Bool := false
  pinf : Bool := false
  ninf : Bool := false
  nan  : Bool := false
  psn  : Bool := false
deriving DecidableEq, Repr

/-- What the D fields of CORE.MSLOT keep from a slot's last drain (R265, R267). -/
structure Drained where
  replays : Nat := 0
  sat     : Bool := false
  long    : Bool := false
  special : Bool := false
  psn     : Bool := false
deriving DecidableEq, Repr

/-- An accumulator slot (R249, R267): 512 lanes by 32 x row + column, its scale and marks. -/
structure Slot where
  lanes   : Tab Lane := []
  active  : Bool := false
  pinned  : Bool := false
  e       : Int := 0
  kcount  : Nat := 0
  replays : Nat := 0
  drained : Drained := {}
deriving DecidableEq, Repr

/-- What a stalled row write completes: nothing more (a write of the host or of the debug unit), a ferry row in the
chain-port buffer, ring position p of a stream with the tag it keeps, or a global access at its target. -/
inductive HeldFor where
  | plain
  | chain
  | stream (sid p : Nat) (tag : Option Nat)
  | access (id : Nat)
deriving DecidableEq, Repr

/-- A row write that an operand hold stalls (R183, R295, R323): the row, its bytes and poison, and what it
completes. -/
structure HeldWrite where
  row   : Nat
  data  : List Byte
  psn   : Bool
  goal  : HeldFor
deriving DecidableEq, Repr

/-- States of a stream context (R324's map, CORE.SECTX). -/
inductive CtxState where
  | idle | armed | parked | failed
deriving DecidableEq, Repr

/-- A stream descriptor (R300). -/
structure Desc where
  store   : Bool := false
  idx     : Bool := false
  idxLoc  : Bool := false
  persist : Bool := false
  wen     : Bool := false
  widx    : BitVec 10 := 0
  wgen    : BitVec 8 := 0
  lrow    : Nat := 0
  ring    : Nat := 0
  gaddr   : Dword := 0
  idxaddr : Dword := 0
  gstride : Nat := 0
  blkrows : Nat := 0
  count   : Nat := 0
  rate    : Nat := 0
  gctr    : BitVec 6 := 0
  gunit   : Nat := 0
  pctr    : BitVec 6 := 0
  punit   : Nat := 0
  rcore   : BitVec 8 := 0
  rctr    : BitVec 6 := 0
  rinc    : BitVec 8 := 0
  dl      : Nat := 0
deriving DecidableEq, Repr

/-- A stream context: its descriptor, the ring position at which its arming began, the rows issued and completed, its
gate baseline, its index FIFO and its status (R300 to R311). -/
structure Ctx where
  st      : CtxState := .idle
  d       : Desc := {}
  err     : BitVec 4 := 0
  /-- Rows moved before the present arming, over every arming since STRM (R302). -/
  p0      : Nat := 0
  /-- Rows of the present arming requested, sent or passed over. -/
  issued  : Nat := 0
  /-- Ring positions complete beyond the completed prefix (R307). -/
  done    : List Nat := []
  pre     : Nat := 0
  /-- The completed prefix at the end of the last arming that ended (R307). -/
  preEnd  : Nat := 0
  /-- Progress increments applied since STRM (R307). -/
  prog    : Nat := 0
  g0      : BitVec 48 := 0
  /-- Indices in the FIFO, with bad marks: the index FIFO of 256 entries (R304). -/
  fifo    : List (Word × Bool) := []
  /-- Index rows requested in the present arming. -/
  idxReq  : Nat := 0
  /-- Index rows that arrived out of order: row number, data and poison. -/
  idxBuf  : List (Nat × List Byte × Bool) := []
  /-- Index rows put into the FIFO. -/
  idxIn   : Nat := 0
  /-- Ring position up to which a failed arming's missing rows are completed poisoned (R321). -/
  fillTo  : Nat := 0
  arms    : BitVec 16 := 0
  /-- The signal-only packet or the last row with its increment has been sent. -/
  sent    : Bool := false
  acked   : Bool := false
  /-- Unit and module of the last source row fetched (R308). -/
  lastSrc : Option Dword := none
  missed  : Bool := false
  /-- When the present arming started, in TIMECLK edges (R315, R324). -/
  start   : Nat := 0
deriving DecidableEq, Repr

/-- A chainage counter: value, base mark and its last addition (R325, R328, R356). -/
structure Ctr where
  val   : BitVec 48 := 0
  base  : BitVec 48 := 0
  sat   : Bool := false
  last0 : Word := 0
  last1 : Word := 0
  ltime : Word := 0
deriving DecidableEq, Repr

/-- Where an addition comes from: the fields of CORE.CHLAST less the amount (R356). -/
inductive AddSrc where
  | thread (t : Nat)
  | engine (t e : Nat)
  | stream (sid : Nat)
  | remote (core land mod : Nat)
  | closure (t : Nat)
deriving DecidableEq, Repr

/-- One addition to a counter. -/
structure Add where
  ctr : Nat
  inc : Nat
  src : AddSrc
deriving DecidableEq, Repr

/-- The last movement of a core's counters: its time, its additions, and the counters, CORE.CHSTAT and CORE.CAUSE before it,
for an addition of the same CORECLK that joins it (R335, R336). -/
structure Moved where
  edge   : Nat
  time   : Dword
  adds   : List Add
  before : Tab Ctr × Word × Word
deriving DecidableEq, Repr

/-- A core: its engines, accumulators, streams, counters and the threads that wait for tiles. -/
structure Core where
  mtx     : EQueue := {}
  vec     : EQueue := {}
  red     : EQueue := {}
  se      : EQueue := {}
  bank    : EQueue := {}
  jobs    : List SeJob := []
  slots   : Tab Slot := []
  /-- The stationary buffer, by byte, and the poison bits of its rows (R187). -/
  stat    : Tab Byte := []
  statPsn : List Nat := []
  /-- Drains in the drain port, oldest first: rows with poison (R190). -/
  drain   : List (List (List Byte × Bool)) := []
  /-- Pairings of VEC commands discarded before their drain came (R190). -/
  skip    : Nat := 0
  /-- The table cache's tag: 2 x row + half (R246). -/
  tcache  : Option Nat := none
  held    : List HeldWrite := []
  ctxs    : Tab Ctx := []
  tagPeak : Nat := 0
  ctrs    : Tab Ctr := []
  moved   : Option Moved := none
  takeQ   : List Nat := []
  /-- Last-run thread of each priority (R110). -/
  lastRun : Tab Nat := []
deriving DecidableEq, Repr

/-! ## Global accesses in flight (file 04, file 09, file 11, file 12) -/

/-- How an access ended (R25 to R28, R152). -/
inductive AStatus where
  | ok | address | amoSpace | windowClosed | domainOff | poison | lost
deriving DecidableEq, Repr

/-- Who waits for an access: a thread, a stream context's row, its index row or its signal packet, or the far port
whose frame brought it, with the request's tag. -/
inductive ASrc where
  | thread (w : ThreadRef)
  | row (k : CoreRef) (sid : Nat) (p : Nat)
  | index (k : CoreRef) (sid : Nat) (r : Nat)
  | signal (k : CoreRef) (sid : Nat)
  /-- An access of an arming that failed or was dropped: its response is discarded (R319, R322). -/
  | stale (k : CoreRef) (sid : Nat)
  /-- A row write that its stream has completed as lost, and which an operand hold still stalls at its target (R318). -/
  | gone (k : CoreRef)
  | port (p : Nat) (t : Trans)
deriving DecidableEq, Repr

/-- What an access does at its target. -/
inductive AKind where
  | read (n : Nat)
  | write (data : List Byte)
  | amo (n : Nat) (addend : Dword)
  | readRow
  | writeRow (data : List Byte) (psn : Bool)
  | signal
deriving DecidableEq, Repr

/-- What came back. -/
structure AResult where
  status : AStatus
  data   : List Byte
  psn    : Bool
deriving DecidableEq, Repr

/-- A global access between its issue and its completion (R152 to R156, R313). -/
structure Access where
  id    : Nat
  src   : ASrc
  kind  : AKind
  addr  : Dword
  /-- Window index and generation that the access names (R373). -/
  win   : Option (BitVec 10 × BitVec 8)
  /-- Remote increment: core, counter, amount (R308). -/
  inc   : Option (BitVec 8 × BitVec 6 × BitVec 8)
  pc    : BitVec 15
  sd    : BitVec 5
  /-- The frame that carries it has been handed to a far port. -/
  away  : Bool
  res   : Option AResult
  /-- The window that admitted it, as 1,024 x unit + index (R375). -/
  via   : Option Nat
deriving DecidableEq, Repr

/-! ## Landings, the tile queue and the crossing (file 02, file 03, file 10) -/

/-- A tile that waits or is taken (R115 to R121). -/
structure Tile where
  num      : Nat
  lane     : Nat
  tg       : Nat
  ferry    : Nat
  handle   : Dword
  /-- The steal delay has passed (R119). -/
  stealable : Bool
  taken    : Bool
deriving DecidableEq, Repr

/-- A delivered ferry in an injection queue: the token groups that had work for its version when it arrived, its delivery
number, and that of the next ferry of its sub-kind, which ends what it describes (R61, R115, R116). -/
structure Queued where
  f    : Ferry
  mask : BitVec 16
  num  : Nat
  upTo : Option Nat := none
  /-- Cores whose chain-port buffers its rows have filled while it waits at the head of the queue (R257, R295). -/
  stalled : List Nat := []
deriving DecidableEq, Repr

/-- A ferry held in a ferry-buffer slot: its header, its delivery number, and whether it is released (R116). -/
structure FSlot where
  hdr      : FerryHdr
  launcher : Nat
  dir      : Dir
  num      : Nat
  /-- Delivery number of the next ferry of the same sub-kind, which ends what this ferry describes. -/
  upTo     : Option Nat := none
deriving DecidableEq, Repr

/-- A CLA counted toward a generation, with the signal-after its release applies (R346). -/
structure Cla where
  core : Nat
  thr  : Nat
  gen  : BitVec 16
  sctr : BitVec 6
  sinc : BitVec 8
deriving DecidableEq, Repr

/-- A closure group's progress at one landing (R341 to R346). -/
structure Group where
  gen     : BitVec 16 := 0
  /-- Arrivals of each core toward GEN and toward GEN + 1. -/
  now     : Tab Nat := []
  next    : Tab Nat := []
  /-- CLAs counted: core, thread, generation, signal-after (R346). -/
  clas    : List Cla := []
  /-- At the master: landings (with their module) whose arrival message came, for GEN and GEN + 1 (R344). -/
  got     : List (Nat × Nat) := []
  gotNext : List (Nat × Nat) := []
  /-- At the master: an arrival message with other settings came for GEN, or for GEN + 1, which does not release (R344). -/
  bar     : Bool := false
  barNext : Bool := false
  /-- Arrival messages sent for GEN and GEN + 1. -/
  sent    : Bool := false
  sentNext : Bool := false
deriving DecidableEq, Repr

/-- GRADIENT waves of a layer at a landing in the present lap: how many the landing has begun, by the ferries that it has
met, and for how many its contributions have been fetched (R91). -/
structure Waves where
  layer   : Nat
  begun   : Nat := 0
  fetched : Nat := 0
deriving DecidableEq, Repr

/-- Ferries received in the present lap, by launcher and home (32 x module + landing), layer, kind and direction: how many,
and whether a LAST was among them (R66, R91, R116). -/
structure Seen where
  launcher : Nat
  home     : Nat
  layer    : Nat
  kind     : Nat
  dir      : Dir
  n        : Nat
  last     : Bool
deriving DecidableEq, Repr

/-- Ferries that a launcher has sent in the present lap, by home, layer, kind and pass, and by direction for the kinds that
a gradient launcher sends: how many, and when the last of them went (R53, R65). -/
structure Launched where
  home  : Nat
  layer : Nat
  kind  : Nat
  sub   : Nat
  dir   : Option Dir
  n     : Nat
  time  : Dword
deriving DecidableEq, Repr

/-- Rows by home (32 x module + landing), layer and SEQ, with the numbers of poisoned rows: gradient contributions,
gradient areas with the scale byte of each row, bounds (R59, R89, R91, R93). -/
structure Rows where
  key   : Nat
  layer : Nat
  seq   : Nat
  rows  : List (List Byte)
  psn   : List Nat := []
  scale : List Byte := []
deriving DecidableEq, Repr

/-- One landing: closure groups, tile queue, ferry buffer, ring stop and crossing progress. -/
structure Landing where
  groups   : Tab Group := []
  /-- Tiles posted or taken, oldest first (R115). -/
  tiles    : List Tile := []
  tileNum  : Nat := 0
  /-- Ferry-buffer slots, by 32 x chain + slot (R116). -/
  fslots   : Tab (Option FSlot) := []
  ferryNum : Nat := 0
  /-- Ferries received in the present lap (R66, R116). -/
  seen     : List Seen := []
  /-- Injection queues, by chain (R61). -/
  inject   : Tab (List Queued) := []
  /-- The own hold bit, and the part of it that a gradient wave holds (R67, R91). -/
  hold     : Bool := false
  waveHold : Bool := false
  /-- Home landing of the second slice that this landing launches (R94, R596). -/
  standFor : Option Nat := none
  /-- Pace credit c, in units of 1/256 (R70, R99). -/
  credit   : Nat := 0
  /-- Token-group masks in effect (R122). -/
  tgLive   : BitVec 16 := 0
  tgRet    : BitVec 16 := 0
  /-- What it has launched in the present lap, the place in the launch table of the layer that it launches, and when that
  layer's ferries may begin (R53, R65). -/
  launched : List Launched := []
  lpos     : Nat := 0
  lready   : Dword := 0
  /-- The slot of each direction that has arrived last (R51, R54). -/
  lastCw   : Option Nat := none
  lastCcw  : Option Nat := none
  /-- Gradient waves of the present lap, by layer, and the contributions fetched for them: G32 rows of the double buffer, and
  bound bytes (R88, R91). -/
  waves    : List Waves := []
  contrib  : List Rows := []
  contribScale : List Rows := []
  /-- Rows that a home has written to its gradient area, and the FP32 rows that they become (R59, R90, R93). -/
  gradArea : List Rows := []
  gradFp32 : List Rows := []
  /-- Bound bytes: a home's final ones, and those recorded from publish ferries (R59, R89). -/
  bounds   : List Rows := []
  /-- The landing is cut out of the crossing: failed, or by R503 (R94, R543). -/
  out      : Bool := false
  /-- Its share of the lap in progress has ended (R66). -/
  ended    : Bool := false
  /-- TIMECLK edges counted when the array domain last entered ON, and edges that it was ON before that (R138 CYCLE,
  R351). -/
  onEdge   : Nat := 0
  ran      : Nat := 0
  /-- When idle matrix engines last started a command, newest first (R506). -/
  gate     : List Nat := []
deriving DecidableEq, Repr

/-- One slot of the crossing's train: its ferry, its hold word and the landing that forwarded it last, none for a slot
that nothing has passed or whose ferry entered from another module (R49, R56, R98). -/
structure TSlot where
  ferry : Option Ferry := none
  hold  : Word := 0
  last  : Option Nat := none
  /-- Number of its last forwarding, among all of its direction (R54). -/
  stamp : Nat := 0
deriving DecidableEq, Repr

/-- A hold notice of another module (R100, R415): whether it holds, and its boarding hold. -/
structure Notice where
  mod      : Nat
  held     : Bool
  boarding : Bool
deriving DecidableEq, Repr

/-- A shadow area in use (R94, R388): its landing and number, the home landing and version of the slice it holds, whether it
is stored in full, and whether it is a reloaded slice, LIVE until a rejoin or a release. -/
structure Shadow where
  land : Nat
  k    : Nat
  home : Nat
  ver  : Nat
  done : Bool
  reload : Bool := false
deriving DecidableEq, Repr

/-- The crossing controller (R49, R64, R66, R83, R94, R567). -/
structure Crs where
  /-- Circulating slice count N_c, 0 before a launch table is taken up. -/
  nc       : Nat := 0
  inLap    : Bool := false
  laps     : BitVec 16 := 0
  /-- Version of the lap in progress or of the last lap (R76). -/
  lapVer   : BitVec 16 := 0
  /-- Version of an abandoned lap that must run again (R94, R84). -/
  rerun    : Option (BitVec 16) := none
  shadows  : List Shadow := []
  ext      : Bool := false
  /-- Launch-table and lap-control values in effect since the last lap boundary (R567): the table's address and what it
  says (R46, R65). -/
  ltUse    : Dword := 0
  lt       : LaunchTable := {}
  lapCtl   : Word := 0x28
  /-- SVC.BATCH in effect since the last lap boundary (R464). -/
  batchUse : Word := 0x100080
  liveDig  : BitVec 384 := 0
  /-- Root that the module computed for the incoming version (R83 step 3, R86 step 4). -/
  incDig   : BitVec 384 := 0
  retDig   : BitVec 384 := 0
  /-- Number of the version being loaded, whether it came through LOCAL, and whether LOCAL's slice map passed its
  checks (R83, R86). -/
  incoming : BitVec 16 := 0
  viaLocal : Bool := false
  /-- The latest hold notice of every other module (R100). -/
  notices  : List Notice := []
  /-- The OR of the own landings' hold bits, and the boarding hold, that the last notice gave (R100, R415). -/
  lastHold  : Bool := false
  lastBoard : Bool := false
  /-- The T0 of a turn point that a VTURN names (R416). -/
  turnT0   : Dword := 0
  /-- The wait watchdog fired in the lap in progress (R63, R121). -/
  stalled  : Bool := false
  /-- A module of the extended crossing is cut out and the next lap has not begun (R420 step 2). -/
  cutHold  : Bool := false
  /-- Number of the next forwarding (R54). -/
  stamps   : Nat := 1
deriving DecidableEq, Repr

/-! ## Storage (file 11) -/

/-- An extent of a slice map (R389): its place in the canonical image, its slice, and its place in the slice's area. -/
structure SExt where
  ioff  : Nat
  len   : Nat
  slice : Nat
  pos   : Nat
deriving DecidableEq, Repr

/-- What an NVMe command serves: the connection to its target (R381, R382), bytes of the canonical image for a load or a
reload, a commit slot, the object table, bytes of a restored object, or a write or flush of a checkpoint (R387, R390,
R394). -/
inductive NvUse where
  | connect
  | load (off : Nat)
  /-- Of the home and version whose slice is loaded again. -/
  | reload (home ver off : Nat)
  | slot (b : Bool)
  | table (off : Nat)
  | object (i off : Nat)
  | write
deriving DecidableEq, Repr

/-- An operation of the storage initiator (R383): a load, the reload of a home's slice of a version, a checkpoint write or
restore. -/
inductive NvOp where
  | load
  | reload (home ver : Nat)
  | ckpt
deriving DecidableEq, Repr

/-- An NVMe command without its completion: operation 1 write, 2 read, 0 flush, 3 connect; whether it writes with FUA, and
whether it has been sent or waits for a place in a queue of its controller (R381). -/
structure NvCmd where
  id     : Nat
  use    : NvUse
  tgt    : Nat
  op     : Nat
  nsid   : Nat
  slba   : Nat
  blocks : Nat
  data   : List Byte
  fua    : Bool := false
  sent   : Bool := false
deriving DecidableEq, Repr

/-- An entry of a plan (R385). -/
structure PlanEntry where
  moff   : Nat
  blocks : Nat
  nsid   : Nat
  slba   : Nat
  tgt    : Nat
  land   : Nat
  kind   : Nat
deriving DecidableEq, Repr

/-- A slice that is loaded again from storage after a landing failed: the home, its holder's area, the version
(R94, R388). -/
structure Reload where
  home : Nat
  land : Nat
  k    : Nat
  ver  : Nat
deriving DecidableEq, Repr

/-- Steps of a checkpoint operation (R390, R394): reading the slots, the newest record's object table, the objects, the
flush after them, the table and its flush, the record, its flush. -/
inductive CkStep where
  | idle | slots | oldTable | objects | flushObjects | table | flushTable | record | flushRecord
deriving DecidableEq, Repr

/-- A checkpoint write or restore in progress (R390 to R395). -/
structure Ckpt where
  step    : CkStep := .idle
  restore : Bool := false
  /-- SUP and SIGN when the order was given, and STATE before it. -/
  sup     : Bool := false
  sign    : Bool := false
  before  : Nat := 0
  plan    : List PlanEntry := []
  cnsid   : Nat := 0
  ctgt    : Nat := 0
  slbaA   : Nat := 0
  slbaB   : Nat := 0
  slotA   : List Byte := []
  slotB   : List Byte := []
  /-- First block of the table written. -/
  tblock  : Nat := 0
  /-- Object table: of the newest record as read, then the one written; then the record. -/
  table   : List Byte := []
  /-- Bytes of the restored objects as read, by object (R394). -/
  got     : Tab (List Byte) := []
  /-- Some object's digest did not match (R394). -/
  failed  : Bool := false
deriving DecidableEq, Repr

/-- The storage initiator. -/
structure Sto where
  cmds    : List NvCmd := []
  next    : Nat := 1
  /-- Operations in progress that have reconnected once (R383). -/
  lost    : List NvOp := []
  /-- Slice maps of the incoming, live and retiring versions. -/
  incMap  : List SExt := []
  liveMap : List SExt := []
  retMap  : List SExt := []
  /-- Digests of the leaves of the load in progress, by number. -/
  leaves  : Tab (Option (BitVec 384)) := []
  /-- Reloads in progress, one for each slice without a launcher. -/
  reloads : List Reload := []
  ck      : Ckpt := {}
  /-- The last restore's record has FLAGS.SUPPLEMENT: the program expands its slices with supplements, and
  STO.CKSTAT.LOSSY counts (R394). -/
  expand  : Bool := false
deriving DecidableEq, Repr

/-- Fuse contents (R6, R565, R487, R497). -/
structure Fuses where
  grade    : BitVec 4 := 0
  absent   : Option Nat := none
  /-- Inactive cores of a Y9-32B, by 256 x landing + core (R3). -/
  inactive : List Nat := []
  step     : BitVec 8 := 0
  /-- Life-cycle state, and security-version counters by component (R471, R472, R487). -/
  lcs      : BitVec 3 := 0
  svn      : Tab Nat := []
  /-- VCORE set point of each landing's array in mV, 750 where none is listed (R501; log 5). -/
  vcore    : Tab Nat := []
  serial   : Dword := 0
deriving DecidableEq, Repr

/-! ## Far ports (file 12) -/

/-- A frame to send (R405), less its link part. -/
inductive Frame where
  /-- W0 to W4 and the payload, and the hold word W5 (R98). -/
  | ferry (f : Ferry) (hold : Word)
  /-- WRITE, READ, RESP, SIGNAL and AMO by FTYPE: transaction part and rows. -/
  | acc (ftype : Nat) (t : Trans) (rows : List (List Byte))
  /-- A message: type, source and destination modules, fields, payload (R415). -/
  | msg (ty src dst : Nat) (args : List Int) (payload : List Byte)
  | idle
  | nack (lseq : Nat)
  /-- The type part of the frame that was lost (R408). -/
  | loss (f : Frame)
deriving DecidableEq, Repr

/-- A frame in a port's replay buffer: its link sequence, class and group sequence (R403, R407). -/
structure Sent where
  lseq  : Nat
  tc    : Nat
  gseq  : Nat
  frame : Frame
deriving DecidableEq, Repr

/-- The link state of a Slipway port (R403 to R410). -/
structure Port where
  /-- LSEQ of the next frame sent, and of the next frame expected, and whether any has been received in order (R404). -/
  next : Nat := 0
  exp  : Nat := 0
  got  : Bool := false
  /-- A frame failed its CRC: frames are discarded until a replay begins (R407). -/
  skip : Bool := false
  /-- Sent and not covered by LACK; then the frames of the replay in progress. -/
  sent   : List Sent := []
  replay : List Sent := []
  /-- LSEQ of the frame replayed last, and how often (R408). -/
  tried : Option (Nat × Nat) := none
  /-- NACK and LOSS frames to send, in order. -/
  ctl  : List Sent := []
  /-- Credits held, and credits to return, by class (R409). -/
  credit : Tab Nat := [(0, 640), (1, 256), (2, 64), (3, 64)]
  owed   : Tab Nat := []
  /-- Weighted round robin (R410): TC1 is served, and the credits left to each class, below zero where its last frame took
  more than it had left. -/
  onTc1 : Bool := false
  left  : Tab Int := []
  /-- The port has trained, so that PEERMOD names a module or a switch. -/
  met   : Bool := false
  /-- TIMECLK edges counted from which TC3 may send again (R410). -/
  tc3At : Nat := 0
deriving DecidableEq, Repr

/-- A frame received out of GSEQ order, which waits for those before it (R403). -/
structure RxItem where
  role  : Nat
  tc    : Nat
  gseq  : Nat
  port  : Nat
  frame : Frame
deriving DecidableEq, Repr

/-- A closure release or watchdog notice not yet acknowledged: group, generation, module (R415). -/
structure Unacked where
  g   : Nat
  gen : Nat
  mod : Nat
deriving DecidableEq, Repr

/-- A transaction on an AVSBus: the four commands that the module uses, a voltage in mV (R500). -/
inductive AvsOp where
  | voltageWrite (mv : Nat)
  | voltageRead
  | currentRead
  | statusRead
deriving DecidableEq, Repr

/-- Something the module drives outward. The list is the model's own record (log 7). -/
inductive Out where
  /-- A Slipway frame leaves a port: its link part, the frame, and the 64 B header as sent (R404). -/
  | frame (port : Nat) (k : LinkPart) (f : Frame) (head : List Byte)
  /-- A DMA read of host memory over a PCIe port: its address and length (R440). -/
  | hostRead (port : Nat) (addr : Dword) (len : Nat)
  /-- A DMA write to host memory over a PCIe port (R440). -/
  | host (port : Nat) (addr : Dword) (data : List Byte)
  /-- An MSI-X message: a physical function 0 or 1, or 2 + the queue set of a virtual function (R558, R562). -/
  | msix (dest : Nat)
  /-- A completion of a host access: its status as PCI Express codes it (0 successful, 1 unsupported request, 2 request
  retry, 4 completer abort), its data, poisoned (R32, R439, R531). -/
  | completion (port status : Nat) (data : List Byte) (psn : Bool)
  /-- An answer over the management bus: completion code and data (R442, R443, R491). -/
  | answer (t : Transport) (code : Nat) (data : List Byte)
  /-- A platform event message to an endpoint of a transport: its event class and data (R519). -/
  | event (transport : Nat) (eid : BitVec 8) (cls : Nat) (data : List Byte)
  /-- A command to a target: 1 Write, 2 Read, 0 Flush, 3 Connect with its KATO as data, 4 Property Set, 5 Property Get, 6 Get
  Log Page of the discovery log; namespace, block, count, FUA, data, and the sequence number of its packet (R381, R424). -/
  | nvme (tgt op nsid slba blocks : Nat) (fua : Bool) (data : List Byte) (psn : Nat)
  /-- The status of a master's register write that lost or was recorded without effect (R468). -/
  | status (m : Master) (code : Nat)
  /-- A frame of a port in Ethernet mode (R423 to R425). -/
  | eth (port kind : Nat) (data : List Byte)
  /-- A transaction of a quay's AVSBus on one of its rails (R500). -/
  | avs (quay rail : Nat) (op : AvsOp)
  /-- Bits shifted out at TDO, and pins driven by EXTEST (R588). -/
  | tdo (bits : List Bool)
deriving DecidableEq, Repr

/-- A RoCEv2 queue pair of an Ethernet port (R424): its number, target, the packet sequence number expected next, and its
rate, of which the line rate is 20 x 2^20. -/
structure Qp where
  port : Nat
  qp   : Nat
  tgt  : Nat
  psn  : Nat := 0
  rate : Nat := 20971520
  /-- Sequence number of the next packet sent, and the packets sent without an acknowledgement, oldest first. -/
  next : Nat := 0
  unacked : List (Nat × Out) := []
deriving DecidableEq, Repr

/-- Far ports and the systems they join. -/
structure Xpt where
  ports : Tab Port := []
  /-- Frames to send, by 4 x role + class (R403). -/
  txq   : Tab (List Frame) := []
  /-- Next GSEQ sent, and next GSEQ delivered, by 4 x role + class. -/
  gtx   : Tab Nat := []
  grx   : Tab Nat := []
  rxq   : List RxItem := []
  /-- CL_RELEASE and WDOG messages not acknowledged (R415). -/
  clRel : List Unacked := []
  wdogs : List Unacked := []
  /-- Modules declared failed by this module, and modules whose CUTOUT it repeats, with the time of the first
  (R415, R419, R420). -/
  declared : List Nat := []
  cuts  : List (Nat × Dword) := []
  /-- Modules that acknowledged the VTURN in effect (R416). -/
  vturnGot : List Nat := []
  /-- GLB.TIME still to slew, in TIMECLK, and edges since the last slewed one (R38, R417). -/
  slew  : Int := 0
  phase : Nat := 0
  /-- Exchanges with the time parent since it was chosen; a first lock since POWER-ON has set the time (R38, R418). -/
  exch  : Nat := 0
  stepped : Bool := false
  /-- The last rate correction, TIMECLK in 1 ms, and the count of edges at which HOLDOVER applies it next (R418). -/
  rate  : Int := 0
  rateAt : Nat := 0
  /-- TIMECLK edges counted from which a TC2 message may again leave by the tree (R414). -/
  treeAt : Nat := 0
  /-- Queue pairs, and the number of the next one (R397, R424). -/
  qps   : List Qp := []
  nextQp : Nat := 1
deriving DecidableEq, Repr

/-! ## Queue sets and requests (file 13) -/

/-- Stages of a request: in its queue set's waiting list, in the batch (R457). -/
inductive ReqState where
  | waiting | active
deriving DecidableEq, Repr

/-- A request (R446, R457 to R463). -/
structure Req where
  uid    : Nat
  q      : Nat
  tenant : BitVec 16
  /-- The 64 B entry, and its input token IDs. -/
  raw    : List Byte
  input  : List Word
  st     : ReqState := .waiting
  /-- When its entry was copied (R457). -/
  copied : Dword := 0
  ver    : BitVec 16 := 0
  /-- Digest of its tenant's offset bytes for the version, as admission loads them; zero without offsets (R494, R495). -/
  offDig : BitVec 384 := 0
  land   : Nat := 0
  tg     : Nat := 0
  /-- Positions of its prefill in its KV cache, and how many drawn tokens the prefill covers (R463). -/
  filled : Nat := 0
  base   : Nat := 0
  /-- Tokens drawn, and how many of them records carry. -/
  toks   : List Word := []
  posted : Nat := 0
  /-- When the entry of a CANCEL for it was copied (R460). -/
  cancel : Option Dword := none
  poisoned   : Bool := false
  replayed   : Bool := false
  readmitted : Bool := false
  /-- Its landing failed, and it waits for its re-admission (R95). -/
  lost   : Bool := false
  /-- Its token of the lap in progress is drawn: a re-run of the lap draws the same one (R95). -/
  drew   : Bool := false
  /-- Its queue set holds 4,096 records, and it takes no token group in this lap (R454). -/
  paused : Bool := false
deriving DecidableEq, Repr

/-- A result record without PHASE and TIME, the writes to host memory that go before it, and the place of a provenance
record among them that waits for its signature (R449, R454, R496). -/
structure HeldRec where
  rseq   : Nat
  bytes  : List Byte
  writes : List (Dword × List Byte) := []
  unsigned : Bool := false
  /-- A provenance record and its address, written before the record (R460). -/
  prov   : Option (Dword × List Byte) := none
deriving DecidableEq, Repr

/-- A queue set beyond its registers. -/
structure QSet where
  /-- Entries copied and not yet taken up, with the time of the copy. -/
  entries : List (Dword × List Byte) := []
  /-- Records on the board, by slot (R450). -/
  board   : Tab (List Byte) := []
  /-- Records that wait for room or for a signature (R454, R496). -/
  held    : List HeldRec := []
  rseq    : Nat := 1
  /-- U, and the time of the first of those records (R561). -/
  fresh   : Nat := 0
  first   : Dword := 0
  /-- Halted by a DMA error (R440). -/
  halted  : Bool := false
  /-- A reset waits for the end of its requests (R455). -/
  resetting : Bool := false
  /-- The reset of a kill waits until the records of the kill are posted (R484 step 4). -/
  closing : Bool := false
deriving DecidableEq, Repr

/-- A PCIe port: link, configuration words by 4,096 x function + offset, functions with a pending MSI-X message
(R434 to R437, R558). -/
structure PciePort where
  up   : Bool := false
  /-- PERST# is held low. -/
  low  : Bool := true
  cfg  : Tab Word := []
  pend : List Nat := []
deriving DecidableEq, Repr

/-! ## The harbourmaster (file 14) -/

/-- An extent of stack memory: landing, offset, length (R483). -/
structure Extent where
  land : Nat
  off  : Nat
  len  : Nat
deriving DecidableEq, Repr

/-- A tenant of a job (R481, R483). -/
structure Tenant where
  id      : BitVec 16
  extents : List Extent
deriving DecidableEq, Repr

/-- A job of the tenancy table (R474, R481 to R484). -/
structure Job where
  num     : Nat
  debug   : Bool := false
  lands   : List Nat := []
  tenants : List Tenant := []
  /-- The measured program digest, and the code extent of the measured image: its first byte in scalar memory, its
  bytes (R474). -/
  prog    : Option (BitVec 384) := none
  codeOff : Nat := 0
  code    : List Byte := []
  sealed  : List Nat := []
  /-- A kill or release is in progress: its landings scrub (R484 step 5). -/
  dying   : Bool := false
  scrubs  : Bool := false
  /-- Channels whose KILL or RELEASE waits for its end (R480). -/
  waiters : List Nat := []
deriving DecidableEq, Repr

/-- A MACsec key of a port (R425): its direction and association number. -/
structure MacKey where
  port : Nat
  rx   : Bool
  an   : Nat
  key  : List Byte
deriving DecidableEq, Repr

/-- A WIN_CLOSE that waits for the end of its close (R375, R478): channel, unit (landing or 32 + quay), index. -/
structure CloseWait where
  ch  : Nat
  u   : Nat
  idx : Nat
deriving DecidableEq, Repr

/-- A SIGN_PROV in the signing queue (R496): its channel, queue set and record number. -/
structure SignReq where
  ch   : Nat
  q    : Nat
  rseq : Nat
deriving DecidableEq, Repr

/-- The harbourmaster beyond its registers. -/
structure Hm where
  jobs    : List Job := []
  /-- The operator public key and the fabric wrap key (R487). -/
  opKey   : Option (BitVec 768) := none
  wrapKey : Option (BitVec 256) := none
  /-- Digest of the unlock token, zero without one (R473, block 6). -/
  unlock  : BitVec 384 := 0
  keys    : List MacKey := []
  closes  : List CloseWait := []
  signs   : List SignReq := []
  /-- Window index that a target's next WIN_OPEN tries first, by landing or 32 + quay (R377). -/
  nextWin : Tab Nat := []
  /-- Resets that have advanced every generation of a target since power-up, by landing or 32 + quay (R378). -/
  winGen  : Tab (BitVec 8) := []
  /-- Windows, as 1,024 x unit + index, that open when their close completes (R376). -/
  reopen  : List Nat := []
  /-- Number of the nonce in HMB.NONCE (R489, R497). -/
  nonce   : Nat := 0
  /-- The job registry of measurement block 18 as the last GRANT, SEAL, KILL or RELEASE left it (R473). -/
  registry : Option (BitVec 384) := none
  /-- Channels whose GO was written and whose request the harbourmaster has yet to take (R477, R480). -/
  posted  : List Nat := []
  /-- The channel served last (R480). -/
  lastCh  : Nat := 49
deriving DecidableEq, Repr

/-! ## Power, heat, start-up, pins (file 15, file 16, file 18) -/

/-- Power and heat beyond their registers. -/
structure Pwr where
  /-- THM.LOOP, THM.BASE, THM.JCFG and THM.FLOW as the last forecast took them up; at reset their own reset values (R521). -/
  loop    : Word := 0x19103c
  base    : Word := 0x128e12c
  jcfg    : Word := 0x1380c3c
  flow    : Word := 0x18064
  /-- The software hold (R515), and the hold of a PURSER reset (R526). -/
  swHold  : Bool := false
  purHold : Bool := false
  /-- The cap limit, the thermal limit and the flow limit (R509, R516, R518). -/
  capLim  : Nat := 255
  thmLim  : Nat := 255
  flowLim : Nat := 255
  /-- The thermal limit waits for TL - 4 °C (R516). -/
  thmHot  : Bool := false
  /-- Windows in a row above the cap (R510). -/
  overCap : Nat := 0
  /-- Transitions in progress: the state each ends in, and self-refresh (R502, R504). -/
  goal    : Tab (Option (Nat × Bool)) := []
  /-- Domains whose boarding time has passed (R505). -/
  boarded : List Nat := []
  /-- PWR_OK_n inputs that are deasserted (R499). -/
  bad     : List Nat := []
  /-- Voltage of the VCORE rails in mV (R500, R501). -/
  vcore   : Tab Nat := []
  /-- TIMECLK edges counted from which the rail of a landing may be adjusted again (R501). -/
  vcoreAt : Tab Nat := []
  /-- Measured module heat of the past steps of 100 ms, newest first (R514). -/
  heat    : List Nat := []
  /-- Inlet temperature that the governor uses, in 0.1 °C (R518). -/
  inlet   : Int := 0
  /-- The last forecast: its points, its time and its number (R519). -/
  points  : List (Nat × Int) := []
  /-- Lap length in 0.1 ms, and the hottest landing's heat and the module's in the last second, of the last forecast
  (R514, R515). -/
  lapLen  : Nat := 0
  hotNum  : Nat := 0
  hotDen  : Nat := 0
  fcTime  : Dword := 0
  /-- TIMECLK edges counted at the last forecast (R517). -/
  fcEdge  : Nat := 0
  /-- The spacing of its points in steps of 100 ms (R519). -/
  fcStep  : Nat := 0
  fcSeq   : Nat := 0
  /-- The last forecast event: the edges counted then, GHOLD, the peak in 0.1 °C, and the planned heat of the first point
  (R519). -/
  evEdge  : Option Nat := none
  evHold  : Bool := false
  evPeak  : Nat := 0
  evHeat  : Nat := 0
  /-- Edges counted at the pulses of COOL_FLOW in the last 2 s, newest first (R518). -/
  pulses  : List Nat := []
  /-- Edges counted when the flow was first below FLOWMIN, and first above, without a break; FLOWMIN's limit holds (R518). -/
  lowAt   : Option Nat := none
  okAt    : Option Nat := none
  flowLow : Bool := false
deriving DecidableEq, Repr

/-- A copy of a firmware component in boot flash: whether its signature verifies, its security version, digest and
bytes, the sequence number of a valid marker (R471, R472, R536). -/
structure FlashCopy where
  sig    : Bool := false
  svn    : Nat := 0
  digest : BitVec 384 := 0
  image  : List Byte := []
  seq    : Option Word := none
  /-- Run since the last POWER-ON or PIN reset (R535). -/
  tried  : Bool := false
deriving DecidableEq, Repr

/-- Fields of the boot configuration record in use (R533, R534). -/
structure BootCfg where
  perstMod  : Bool := false
  tmaster   : Bool := false
  shadow    : Bool := false
  mgmtAddr  : Nat := 0x4a
  purwd     : Nat := 100
  groupWait : Nat := 1000
deriving DecidableEq, Repr

/-- Start-up beyond its registers. -/
structure Boot where
  /-- Copies by 2 x component + copy, as far as they differ from the factory's (log 24). -/
  flash   : Tab (Option FlashCopy) := []
  cfg     : BootCfg := {}
  straps  : BitVec 3 := 7
  /-- Measurement blocks 2 to 5 at boot: monitor, purser firmware, record, fuse state (R473). -/
  digests : Tab (BitVec 384) := []
  /-- Copies that ran: 0 none, 1 A, 2 B. -/
  ran     : Tab Nat := []
  /-- Security versions of the copies that ran and were marked active (R472, R537). -/
  ranSvn  : Tab Nat := []
  /-- The boot watchdog ordered the reset with the other purser copy marked active (R535). -/
  fell    : Bool := false
  /-- The ROM and the monitor have run since the reset (R471, R472). -/
  chained : Bool := false
  /-- The harbourmaster has released the quays (R505). -/
  released : Bool := false
  /-- The ROM found no valid monitor (R471 step 4). -/
  romOnly : Bool := false
  /-- When the reset began, when stage QUAYS began, when channel 0 last submitted a request (R527, R535, R548). -/
  resetAt : Dword := 0
  quaysAt : Dword := 0
  served  : Dword := 0
  /-- When a module-fatal error came, and a trip since the reset (R542). -/
  fatalAt : Dword := 0
  tripped : Bool := false
  /-- PHY banks that have been ON for GROUPWAIT, and when each came ON (R530). -/
  waited  : List Nat := []
  bankAt  : Tab Dword := []
  /-- When the first group came UP (R530). -/
  firstUp : Option Dword := none
  /-- ROOTCLK is absent; SYS_RST_N is held low after a PIN reset. -/
  noClock : Bool := false
  pinLow  : Bool := false
  /-- Rejoins in progress: landing, and whether its copies are complete (R544). -/
  rejoins : Tab Bool := []
  /-- Landings whose deckhand firmware is loaded (R529). -/
  deckhands : List Nat := []
deriving DecidableEq, Repr

/-- The test access port: TRST_N is low, its instruction, and the boundary-scan register that SAMPLE/PRELOAD and EXTEST load
(R583, R588). -/
structure Tap where
  held : Bool := true
  ir   : BitVec 5 := 1
  bsr  : List Bool := []
  /-- Pins are driven by EXTEST. -/
  drive : Bool := false
deriving DecidableEq, Repr

/-- Management transports by number: 0 SMBus, 1 I3C, 2 and 3 PCIe VDM, 4 and 5 DOE (R442, R491, R519). -/
structure Mgmt where
  /-- Endpoint IDs by binding. -/
  eids     : Tab (BitVec 8) := []
  /-- Event receiver: transport and endpoint. -/
  receiver : Option (Nat × BitVec 8) := none
  /-- The latest forecast held for a poll over I3C. -/
  event    : Option (List Byte) := none
  /-- SPDM connection state by transport: 0 none, 1 version, 2 capabilities, 3 algorithms. -/
  spdm     : Tab Nat := []
  /-- Components whose activation waits for the next reset (R444). -/
  activated : List Nat := []
deriving DecidableEq, Repr

/-- A DBG read whose data has not returned (R569 to R571): unit, space and offset, the data and its poison. -/
structure DbgRead where
  land : Nat
  key  : Nat
  data : List Byte
  psn  : Bool
deriving DecidableEq, Repr

/-- The module. -/
structure State where
  /-- Commands that wait, first in, first out. -/
  pending : List Instr := []
  /-- GLB.TIME, and the TIMECLK edges since the last reset of the module, which no alignment slews (R38, R138, R349). -/
  time    : Dword := 0
  edges   : Nat := 0
  /-- Memories, by the low 53 bits of the global address (R24). -/
  mem     : List Host.Cell := []
  /-- Poisoned stack lines and scratchpad rows, by their first byte's key (R298, R362). -/
  poison  : List Nat := []
  /-- Stored units with an uncorrectable, and with a correctable, ECC error (R150, R298, R363, R364). -/
  uerr    : List Nat := []
  cerr    : List Nat := []
  /-- Register words by BAR0 offset, where they differ from their reset word. -/
  regs    : Tab Word := []
  /-- High words latched by a read of the low word, and low words held until the high word is written (R10). -/
  latch   : Tab (Option Word) := []
  heldLow : Tab (Option Word) := []
  /-- Threads, by 16 x (256 x landing + core) + thread; the deckhand of landing l is 131,072 + l. -/
  threads : Tab Thread := []
  /-- Cores, by 256 x landing + core. -/
  cores   : Tab Core := []
  lands   : Tab Landing := []
  trainCw  : Tab TSlot := []
  trainCcw : Tab TSlot := []
  crs     : Crs := {}
  accs    : List Access := []
  nextId  : Nat := 1
  sto     : Sto := {}
  xpt     : Xpt := {}
  reqs    : List Req := []
  qsets   : Tab QSet := []
  pcie    : Tab PciePort := []
  hm      : Hm := {}
  pwr     : Pwr := {}
  boot    : Boot := {}
  tap     : Tap := {}
  mgmt    : Mgmt := {}
  dbg     : Option DbgRead := none
  /-- Queue sets served last by admission and visited last by the fetch of entries (R457), and the next request's number. -/
  served  : Nat := 63
  fetched : Nat := 63
  nextReq : Nat := 0
  fuses   : Fuses := {}
  /-- The module's number: GLB.MODNUM, from the boot configuration record (R565). -/
  modnum  : BitVec 11 := 0
  /-- The model's own counter for free values (log 1). -/
  free    : Nat := 0
  outs    : List Out := []
deriving DecidableEq, Repr

/-- Faults of the model. No command raises one: the spec gives each command an effect in every state, or none. -/
inductive Fault where
  /-- Raised by nothing; it would be safe, since the machine would stop where the hardware goes on. -/
  | noSuchAddress
deriving DecidableEq, Repr

/-- Refusals of the model. -/
inductive Refusal where
  /-- Raised by the dispatch alone for a command without a meaning; safe, since the model stops. -/
  | notModelled (mnemonic : String)
deriving DecidableEq, Repr

/-- The module right after reset: every register at its reset word, every memory scrubbed, every queue empty. -/
def State.reset : State := {}

end Sys2Proof.Machine
end

