-- ==== Sys2Proof/Machine/Ops.lean ====
section
/-! DEFINITION. The shared operations: register words, memory and its protection, threads and their faults, causes,
counters of events, power states. -/

namespace Sys2Proof.Machine

/-! ## Access to the parts of the state -/

/-- Number of a thread in `State.threads`. -/
def thrKey : ThreadRef → Nat
  | .core l c t => (l.val * 256 + c.val) * 16 + t.val
  | .deckhand l => 131072 + l.val

/-- Number of a core in `State.cores`. -/
def coreKey (l c : Nat) : Nat := l * 256 + c

def getThr (s : State) (w : ThreadRef) : Thread := tget {} s.threads (thrKey w)
def setThr (s : State) (w : ThreadRef) (t : Thread) : State := { s with threads := tput {} (thrKey w) t s.threads }

def getCore (s : State) (l c : Nat) : Core := tget {} s.cores (coreKey l c)
def setCore (s : State) (l c : Nat) (x : Core) : State := { s with cores := tput {} (coreKey l c) x s.cores }

def getLand (s : State) (l : Nat) : Landing := tget {} s.lands l
def setLand (s : State) (l : Nat) (x : Landing) : State := { s with lands := tput {} l x s.lands }

/-- Thread t of core c of landing l, numbers reduced to their ranges. -/
def coreThr (l c t : Nat) : ThreadRef :=
  .core ⟨l % 32, Nat.mod_lt _ (by decide)⟩ ⟨c % 256, Nat.mod_lt _ (by decide)⟩ ⟨t % 16, Nat.mod_lt _ (by decide)⟩

/-- A stored register word. -/
def rd (s : State) (o : Nat) : Word := tget (resetWord o) s.regs o

/-- The state with a stored register word replaced. -/
def wr (s : State) (o : Nat) (v : Word) : State := { s with regs := tput (resetWord o) o v s.regs }

/-- The state with bits [hi:lo] of a stored register replaced. -/
def wrFld (s : State) (o hi lo v : Nat) : State := wr s o (wput (rd s o) hi lo v)

/-- Bits [hi:lo] of a stored register. -/
def rdFld (s : State) (o hi lo : Nat) : Nat := wfld (rd s o) hi lo

/-- A register pair as one number (R9). -/
def rdPair (s : State) (o : Nat) : Nat := (rd s o).toNat + 2 ^ 32 * (rd s (o + 4)).toNat

/-- A register pair replaced. -/
def wrPair (s : State) (o v : Nat) : State :=
  wr (wr s o (BitVec.ofNat 32 v)) (o + 4) (BitVec.ofNat 32 (v / 2 ^ 32))

/-- A register with bit i set. -/
def setFlag (s : State) (o i : Nat) : State := wr s o (wset (rd s o) i)

/-- A saturating count in bits [hi:lo] of a register, with the flag at (cause, bit) set when the count leaves zero. -/
def countUp (s : State) (o hi lo n : Nat) (cause : Option (Nat × Nat)) : State :=
  let old := rdFld s o hi lo
  let new := satAdd (2 ^ (hi + 1 - lo) - 1) old n
  let s := wrFld s o hi lo new
  match cause with
  | some (co, b) => if old = 0 ∧ new ≠ 0 then setFlag s co b else s
  | none => s

/-! ## Power states and cores (R27, R40, R504) -/

/-- Register PWR.PDn (R504). -/
def rPd (n : Nat) : Nat := 0x20100 + 4 * n

/-- Present state of a power domain: 0 OFF, 1 CLOCK-STOPPED, 2 ON (R504). -/
def domState (s : State) (n : Nat) : Nat := rdFld s (rPd n) 3 2

/-- The array domain of a landing is ON; its uncore domain is ON; a quay is ON (R40). -/
def arrayOn (s : State) (l : Nat) : Bool := domState s l == 2
def uncoreOn (s : State) (l : Nat) : Bool := domState s (32 + l) == 2
def quayOn (s : State) (q : Nat) : Bool := domState s (64 + q) == 2

/-- The landing is absent from the part (R4). -/
def absentLand (s : State) (l : Nat) : Bool := s.fuses.absent == some l

/-- A core that the fuses leave active (R3, R4). -/
def coreActive (s : State) (l c : Nat) : Bool := !absentLand s l && !s.fuses.inactive.contains (coreKey l c)

/-- LC.BIND.QUAR: the landing's cores are quarantined (R572). -/
def quarantined (s : State) (l : Nat) : Bool := wfld (rd s (lcBase l + 0xc)) 11 11 == 1

/-- A live landing: present and not cut out of the crossing (R94, R543). -/
def liveLand (s : State) (l : Nat) : Bool := l < 32 && !absentLand s l && !(getLand s l).out

/-- GLB.LFAIL holds the landing's bit (R549). -/
def landFailed (s : State) (l : Nat) : Bool := rdFld s 0x50 l l == 1

/-- The live landings, ascending. -/
def liveLands (s : State) : List Nat := (upto 32).filter fun l => liveLand s l

/-- TIMECLK edges of 1 ms. -/
def edges1ms : Nat := 200000

/-- TIMECLK edges that a landing's array has been ON (R349, R351). -/
def runEdges (s : State) (l : Nat) : Nat :=
  let x := getLand s l
  x.ran + if arrayOn s l then s.edges - x.onEdge else 0

/-- The landings present at the factory, ascending (R47). -/
def presentLands (s : State) : List Nat := (upto 32).filter fun l => !absentLand s l

/-- The landings present at the factory in a module, ascending (R4; log 14). -/
def presentIn (s : State) (m : Nat) : List Nat :=
  if m = s.modnum.toNat then presentLands s
  else (upto 32).filter fun l => (Config.absentOf m).map (fun x => x.val) != some l

/-- The active cores of a landing, ascending. -/
def activeCores (s : State) (l : Nat) : List Nat := (upto 256).filter fun c => coreActive s l c

/-! ## Causes (R551, R572, R574) -/

/-- CORE.CAUSE bit of a core. -/
def raiseCore (s : State) (l c b : Nat) : State := setFlag s (coreBase l c + 0x3c0) b

/-- LC.CAUSE bit of a landing. -/
def raiseLand (s : State) (l b : Nat) : State := setFlag s (lcBase l + 4) b

/-- A saturating count of a core view, with the core cause raised when it leaves zero. -/
def countCore (s : State) (l c o hi lo n cause : Nat) : State :=
  countUp s (coreBase l c + o) hi lo n (some (coreBase l c + 0x3c0, cause))

/-! ## Memory (R24, R150, R298, R362) -/

/-- Key of a byte: UNIT, SPACE and OFFSET of the global address (R23). -/
def memKey (unit space off : Nat) : Nat := unit * 2 ^ 48 + space * 2 ^ 44 + off

/-- A byte of memory; one that nothing has written reads 0, as the scrub of every reset leaves it (R366, R43). -/
def getByte (s : State) (k : Nat) : Byte := tget 0 s.mem k

/-- n bytes from a key. -/
def getBytes (s : State) (k n : Nat) : List Byte := tread 0 s.mem k n

/-- The state with bytes written from a key. -/
def putBytes (s : State) (k : Nat) (bs : List Byte) : State := { s with mem := twrite 0 s.mem k bs }

/-- The little-endian number in n bytes from a key (R208). -/
def getNat (s : State) (k n : Nat) : Nat := leNat (getBytes s k n)

/-- The unit of protection of a byte: a stack line of 64 B, else 8 B (R150, R298, R362). -/
def unitSize (k : Nat) : Nat := if bits k 47 44 = 0 then 64 else 8

/-- First byte of the unit of protection that holds a byte. -/
def unitBase (k : Nat) : Nat := k / unitSize k * unitSize k

/-- Units of protection that n bytes from a key touch. -/
def unitsOf (k n : Nat) : List Nat :=
  if n = 0 then []
  else
    let u := unitSize k
    (upto ((k + n - 1) / u - k / u + 1)).map fun i => (k / u + i) * u

def poisoned (s : State) (u : Nat) : Bool := s.poison.contains u
def uncorrectable (s : State) (u : Nat) : Bool := s.uerr.contains u
def correctable (s : State) (u : Nat) : Bool := s.cerr.contains u

/-- The state with a unit's poison bit as given. -/
def setPoison (s : State) (u : Nat) (b : Bool) : State := { s with poison := sset u b s.poison }

/-- Fresh check bits over a unit: no ECC error remains. -/
def freshCheck (s : State) (u : Nat) : State := { s with uerr := sdel u s.uerr, cerr := sdel u s.cerr }

/-- Memory of a range, with its marks, cleared to zero: a scrub (R43, R366). -/
def scrubRange (s : State) (k n : Nat) : State :=
  { s with
    mem := tclear s.mem k n
    poison := sclear s.poison k n
    uerr := sclear s.uerr k n
    cerr := sclear s.cerr k n }

/-! ## Scratchpad rows (R290, R298, R299) -/

/-- Key of row r of a core's scratchpad (R24). -/
def rowKey (l c r : Nat) : Nat := memKey l 1 (c * 2 ^ 24 + r * 512)

/-- Those of some protected words that lie in the row at a key. -/
def inRow (us : List Nat) (k : Nat) : List Nat := us.filter fun u => decide (k ≤ u) && decide (u < k + 512)

/-- Fresh check bits over every word of the row at a key. -/
def freshRow (s : State) (k : Nat) : State := { s with uerr := sclear s.uerr k 512, cerr := sclear s.cerr k 512 }

/-- What a read of a row does to its marks: each correctable word is corrected, written back and counted in SPSTAT.CECC; an
uncorrectable one sets the row's poison bit, with fresh check bits, and counts SPSTAT.UECC once, with the scratchpad cause
(R298). -/
def readRowMarks (s : State) (l c r : Nat) : State :=
  let k := rowKey l c r
  let bad := inRow s.uerr k
  let mild := inRow s.cerr k
  if bad.isEmpty ∧ mild.isEmpty then s
  else
    let s := countUp (freshRow s k) (coreBase l c + 0x1f0) 15 0 mild.length none
    if bad.isEmpty then s else countCore (setPoison s k true) l c 0x1f0 23 16 1 6

/-- A row as a reader sees it: its bytes and its poison bit, an uncorrectable error delivering poison (R298). -/
def rowData (s : State) (l c r : Nat) : List Byte × Bool :=
  let k := rowKey l c r
  (getBytes s k 512, poisoned s k || !(inRow s.uerr k).isEmpty)

/-- A write to a row invalidates the expander's cached tables of that row (R248). -/
def dropCached (s : State) (l c r : Nat) : State :=
  let x := getCore s l c
  match x.tcache with
  | some t => if t / 2 = r then setCore s l c { x with tcache := none } else s
  | none => s

/-- A row written with the poison bit that the writer supplies (R299). -/
def putRow (s : State) (l c r : Nat) (bs : List Byte) (psn : Bool) : State :=
  let k := rowKey l c r
  dropCached (setPoison (freshRow (putBytes s k (fitTo 0 512 bs)) k) k psn) l c r

/-- Rows written one after another from row r. -/
def putRows (s : State) (l c r : Nat) : List (List Byte × Bool) → State
  | [] => s
  | (bs, p) :: rest => putRows (putRow s l c r bs p) l c (r + 1) rest

/-- The marks of n rows from r handled as reads handle them. -/
def readRowsMarks (s : State) (l c r : Nat) : Nat → State
  | 0 => s
  | n + 1 => readRowsMarks (readRowMarks s l c r) l c (r + 1) n

/-- n zero rows with their poison bits set (R178). -/
def poisonRows (s : State) (l c r n : Nat) : State := putRows s l c r (List.replicate n ([], true))

/-! ## Thread faults (R163 to R166) -/

/-- The fault codes (R164). -/
inductive FCode where
  | illegal | fetchEcc | pcEnd | localAlign | localRange | localEcc | globalAlign | address | domainOff
  | windowClosed | poisonLoad | gtimeout | amoSpace | spr | tqHandle | tileHeld | trap | waitTimeout
  | dirtySync | engine
deriving DecidableEq, Repr

/-- The number of a fault code (R164). -/
def FCode.num : FCode → BitVec 8
  | .illegal => 0x01 | .fetchEcc => 0x02 | .pcEnd => 0x03 | .localAlign => 0x04 | .localRange => 0x05
  | .localEcc => 0x06 | .globalAlign => 0x07 | .address => 0x08 | .domainOff => 0x09 | .windowClosed => 0x0a
  | .poisonLoad => 0x0b | .gtimeout => 0x0c | .amoSpace => 0x0d | .spr => 0x0e | .tqHandle => 0x0f
  | .tileHeld => 0x10 | .trap => 0x11 | .waitTimeout => 0x12 | .dirtySync => 0x13 | .engine => 0x14

/-- The thread-fault cause: CORE.CAUSE.TFAULT, or LC.CAUSE.DECKHAND for the deckhand (R165, R572, R574). -/
def raiseFault (s : State) : ThreadRef → State
  | .core l c _ => raiseCore s l.val c.val 0
  | .deckhand l => raiseLand s l.val 6

/-- The take of a thread is withdrawn from its core's TQTAKE order (R117). -/
def withdrawTake (s : State) : ThreadRef → State
  | .core l c t =>
    let k := getCore s l.val c.val
    setCore s l.val c.val { k with takeQ := k.takeQ.filter fun n => n ≠ t.val }
  | .deckhand _ => s

/-- A thread enters FAULT: its record is written, any wait or hold is abandoned, and the cause is raised. A record
that is not clear keeps its content and takes MORE (R155, R165). -/
def faultThread (s : State) (w : ThreadRef) (code : FCode) (info : Dword) (deferred : Bool) (pc : BitVec 15) :
    State :=
  let t := getThr s w
  if t.st = .fault then
    if t.fcode = 0 then s else setThr s w { t with more := true }
  else
    let s := setThr s w
      { t with
        st := .fault, wait := .none, hold := .none, yielding := false,
        fcode := code.num, deferred := deferred, more := false, fpc := pc, info := info }
    raiseFault (withdrawTake s w) w

/-- A precise fault: PC stays at the faulting instruction (R163). -/
def preciseFault (s : State) (w : ThreadRef) (code : FCode) (info : Dword) : State :=
  faultThread s w code info false (getThr s w).pc

/-- A deferred fault recorded against no thread: CORE.SMSTAT.ORPHAN (R166, R575). -/
def orphanFault (s : State) : ThreadRef → State
  | .core l c _ => countCore s l.val c.val 0x3c8 23 16 1 8
  | .deckhand _ => s

/-! ## Scalar registers, PC and issue (R134 to R147) -/

/-- A scalar register; s0 reads as zero (R137). -/
def getReg (t : Thread) (r : BitVec 5) : Dword := if r = 0 then 0 else tget 0 t.regs r.toNat

/-- A scalar register written; writes to s0 are discarded (R137). -/
def setReg (t : Thread) (r : BitVec 5) (v : Dword) : Thread :=
  if r = 0 then t else { t with regs := tput 0 r.toNat v t.regs }

/-- A register of the issuing thread. -/
def src (s : State) (w : ThreadRef) (r : BitVec 5) : Dword := getReg (getThr s w) r

/-- The state with a register of the thread written. -/
def dst (s : State) (w : ThreadRef) (r : BitVec 5) (v : Dword) : State := setThr s w (setReg (getThr s w) r v)

/-- PC_END after an instruction that ended at word 32,767 (R147). The spec states no INFO for it: a free value
(log 1). -/
def pcEnd (s : State) (w : ThreadRef) : State :=
  preciseFault { s with free := s.free + 1 } w .pcEnd (Config.freeDword s.free)

/-- PC moves past an instruction of n words; there is no wrap on fall-through (R147). DESIGN CHOICE (log 93): the
instruction that completes at word 32,767 keeps its effects when PC_END follows it. -/
def advance (s : State) (w : ThreadRef) (n : Nat) : State :=
  let t := getThr s w
  let nx := t.pc.toNat + n
  if nx < 32768 then setThr s w { t with pc := BitVec.ofNat 15 nx } else pcEnd s w

/-- Key of byte b of the memory that a thread's local accesses and fetches reach: scalar memory, or the deckhand's
memory (R24, R105). -/
def localKey (w : ThreadRef) (b : Nat) : Nat :=
  match w with
  | .core l c _ => memKey l.val 2 (c.val * 2 ^ 17 + b)
  | .deckhand l => memKey l.val 6 b

/-- A correctable error of a word that a thread read: corrected, written back and counted (R150). -/
def correctWord (s : State) (w : ThreadRef) (u : Nat) : State :=
  if correctable s u then
    let s := freshCheck s u
    match w with
    | .core l c _ => countCore s l.val c.val 0x3c8 15 0 1 8
    | .deckhand _ => s
  else s

/-- The thread can issue: READY, not held back, its domain ON, its core active and not quarantined (R108, R110,
R143). -/
def canIssue (s : State) (w : ThreadRef) : Bool :=
  let t := getThr s w
  t.st == .ready && t.hold == .none && !t.yielding &&
  match w with
  | .core l c _ => coreActive s l.val c.val && arrayOn s l.val && !quarantined s l.val
  | .deckhand l => !absentLand s l.val && uncoreOn s l.val

/-- Thread t of a core stands after the last-run thread of priority p, so many places on, wrapping from T15 to T0; T0 is
first where none has run (R110; log 84). -/
def turnOf (k : Core) (p t : Nat) : Nat := (t + 15 - tget 15 k.lastRun p) % 16

/-- OP of the word at a thread's PC. -/
def nextOp (s : State) (w : ThreadRef) : Nat :=
  bits (getNat s (localKey w (4 * (getThr s w).pc.toNat)) 4) 31 26

/-- The scheduler passes over a READY thread: a scalar interlock holds it (R109, R143), which is a free value (log 84), or
its next instruction is a ninth posted access (R154). -/
def passedOver (s : State) (w : ThreadRef) (t : Nat) : Bool :=
  Config.interlocked s.free t ||
    (8 ≤ (getThr s w).posted.length && (0x22 ≤ nextOp s w && nextOp s w ≤ 0x24))

/-- The thread processor chooses this thread: no other whose next instruction can issue has a higher priority, or comes
earlier in turn at the same priority (R110, R140). -/
def chosen (s : State) (w : ThreadRef) : Bool :=
  match w with
  | .core l c t =>
    let p := (getThr s w).prio.toNat
    let k := getCore s l.val c.val
    (List.finRange 16).all fun u =>
      let v := ThreadRef.core l c u
      let q := (getThr s v).prio.toNat
      !(u != t && canIssue s v && !passedOver s v u.val && (p < q || (p == q && turnOf k p u.val < turnOf k p t.val)))
  | .deckhand _ => true

/-- The thread issues an instruction now (R110). -/
def mayIssue (s : State) (w : ThreadRef) : Bool := canIssue s w && chosen s w

/-- The thread is the last-run thread of its priority (R110). The free counter moves on past the interlocks read. -/
def noteRun (s : State) (w : ThreadRef) : State :=
  match w with
  | .core l c t =>
    let k := getCore s l.val c.val
    let p := (getThr s w).prio.toNat
    setCore { s with free := s.free + 1 } l.val c.val { k with lastRun := tput 15 p t.val k.lastRun }
  | .deckhand _ => s

/-- Fetch of the word at PC + i: none where its 8 B word is uncorrectable (R150). -/
def fetchBad (s : State) (w : ThreadRef) (i : Nat) : Bool :=
  uncorrectable s (unitBase (localKey w (4 * ((getThr s w).pc.toNat + i))))

/-- One issue of a scalar instruction: nothing where the thread cannot issue or is not chosen; FETCH_ECC where its word cannot be
fetched (R150); ILLEGAL where a field that the instruction does not use is not zero, with the word as INFO (R136);
else the instruction's body. -/
def issue (s : State) (w : ThreadRef) (bad : Bool) (word : Word) (body : State → State) : State :=
  if mayIssue s w then
    let s := noteRun s w
    let a := 4 * (getThr s w).pc.toNat
    if fetchBad s w 0 then preciseFault s w .fetchEcc (BitVec.ofNat 64 a)
    else
      let s := correctWord s w (unitBase (localKey w a))
      if bad then preciseFault s w .illegal (word.setWidth 64)
      else body s
  else s

/-- The word of a register-form instruction (R135). -/
def wordR (op : BitVec 6) (f : RForm) (fn : BitVec 6) : Word := op ++ f.sd ++ f.sa ++ f.sb ++ f.sc ++ fn

/-- The word of an immediate-form instruction (R135). -/
def wordI (op : BitVec 6) (f : IForm) : Word := op ++ f.sd ++ f.sa ++ f.imm

/-- An immediate, sign-extended to 64 bits. -/
def sextImm (i : BitVec 16) : Dword := i.signExtend 64

/-! ## Outputs -/

/-- Something driven outward, appended to the model's list of outputs. -/
def emit (s : State) (o : Out) : State := { s with outs := s.outs ++ [o] }

/-- The outcome of a command that the model carries out. -/
abbrev Res := Host.Outcome State Fault Refusal

end Sys2Proof.Machine
end

