-- ==== Sys2Proof/Machine/Flags.lean ====
section
/-! DEFINITION. Chainage counters, their pairs, the flags of CORE.CHSTAT, the error records of the engines and the
wait watchdog's counts (R177, R203, R325 to R336, R348, R350, R357). -/

namespace Sys2Proof.Machine

/-! ## Counters -/

/-- A chainage counter of a core. -/
def getCtr (s : State) (l c n : Nat) : Ctr := tget {} (getCore s l c).ctrs n

def setCtr (s : State) (l c n : Nat) (x : Ctr) : State :=
  let k := getCore s l c
  setCore s l c { k with ctrs := tput {} n x k.ctrs }

/-- Effective value: the value less the base mark (R328). -/
def ctrEff (x : Ctr) : Nat := x.val.toNat - x.base.toNat

/-- The effective value of a counter is at least a mark (R329). -/
def reached (s : State) (l c n : Nat) (mark : BitVec 48) : Bool := mark.toNat ≤ ctrEff (getCtr s l c n)

/-- CORE.CHLAST, low word (R356). -/
def AddSrc.low (a : AddSrc) (inc : Nat) : Word :=
  BitVec.ofNat 32 <| inc * 2 ^ 11 + match a with
    | .thread t => 1 + 8 * t
    | .engine t e => 2 + 8 * t + 256 * e
    | .stream sid => 3 + 8 * sid
    | .remote _ _ _ => 4
    | .closure t => 5 + 8 * t

/-- CORE.CHLAST, high word, of a remote increment (R356). -/
def AddSrc.high : AddSrc → Word
  | .remote c l m => BitVec.ofNat 32 (c + 256 * l + 2 ^ 13 * m)
  | _ => 0

/-- Offset of CORE.CHSTAT in a core view (R357). -/
def oChstat : Nat := 0x154

/-- A flag UNDER (0), OVER (1) or SAT (2) of CORE.CHSTAT is set; the counter becomes FIRST when none of the three
was set; the sync cause is raised (R336, R357). -/
def chEvent (s : State) (l c b ctr : Nat) : State :=
  let o := coreBase l c + oChstat
  let s := if rdFld s o 2 0 = 0 then wrFld s o 13 8 ctr else s
  raiseCore (setFlag s o b) l c 7

/-- Pair register i of a core (R337). -/
def pairReg (s : State) (l c i : Nat) : Word := rd s (coreBase l c + 0x380 + 4 * i)
def pairP (w : Word) : Nat := wfld w 5 0
def pairC (w : Word) : Nat := wfld w 11 6
def pairEn (w : Word) : Bool := wfld w 12 12 == 1
def pairRealign (w : Word) : Bool := wfld w 13 13 == 1
def pairD (w : Word) : Nat := wfld w 31 14

/-- The tests of an enabled pair after the counters of `moved` moved (R336). -/
def pairTest (s : State) (l c : Nat) (moved : List Nat) (w : Word) : State :=
  let pn := pairP w
  let qn := pairC w
  if pairEn w ∧ (moved.contains pn ∨ moved.contains qn) then
    let trig := if moved.contains pn then pn else qn
    let p := getCtr s l c pn
    let q := getCtr s l c qn
    if ctrEff q > ctrEff p then chEvent s l c 0 trig
    else if ctrEff p - ctrEff q > pairD w ∧ moved.contains pn then
      let s := setCtr s l c pn { p with val := BitVec.ofNat 48 (p.base.toNat + ctrEff q + pairD w) }
      chEvent s l c 1 trig
    else s
  else s

/-- The tests of every pair. -/
def pairTests (s : State) (l c : Nat) (moved : List Nat) : State :=
  (upto 16).foldl (fun s i => pairTest s l c moved (pairReg s l c i)) s

/-- An addition moves its counter: the counter exists and is not saturated (R325). -/
def moves (s : State) (l c : Nat) (a : Add) : Bool := a.ctr < 48 && a.inc != 0 && !(getCtr s l c a.ctr).sat

/-- An addition before the pair tests: the value never wraps, and a saturated counter keeps its value (R325, R356).
`note` says that CHLAST describes it. -/
def rawAdd (s : State) (l c : Nat) (a : Add) (note : Bool) : State :=
  if moves s l c a then
    let x := getCtr s l c a.ctr
    let v := x.val.toNat + a.inc
    let top := 2 ^ 48 - 1
    let full := decide (top ≤ v)
    let x := { x with val := BitVec.ofNat 48 (min top v), sat := full, ltime := s.time.setWidth 32 }
    let x := if note then { x with last0 := a.src.low a.inc, last1 := a.src.high } else x
    let s := setCtr s l c a.ctr x
    if full then chEvent s l c 2 a.ctr else s
  else s

/-- The additions of a list one after another; CHLAST describes the first to each counter (R356). -/
def rawAdds (s : State) (l c : Nat) (seen : List Nat) : List Add → State
  | [] => s
  | a :: r => rawAdds (rawAdd s l c a (!seen.contains a.ctr)) l c (a.ctr :: seen) r

/-- The place of an addition among those of one CORECLK: remote, stream, engine MTX to BANK, thread, closure (R356). -/
def AddSrc.rank : AddSrc → Nat
  | .remote _ _ _ => 0
  | .stream _ => 1
  | .engine _ e => 2 + e
  | .thread _ => 7
  | .closure _ => 8

/-- The additions of one CORECLK in the order in which CHLAST looks for the first (R356). -/
def inRank (xs : List Add) : List Add := (upto 9).flatMap fun r => xs.filter fun a => min 8 a.src.rank == r

/-- Additions that reach a core in one CORECLK: all are applied, then the pairs are tested (R335, R336). -/
def moveCtrs (s : State) (l c : Nat) (xs : List Add) : State :=
  let xs := inRank xs
  let moved := (xs.filter fun a => moves s l c a).map fun a => a.ctr
  pairTests (rawAdds s l c [] xs) l c moved

/-- A core's counters, with CORE.CHSTAT and CORE.CAUSE. -/
def ctrPart (s : State) (l c : Nat) : Tab Ctr × Word × Word :=
  ((getCore s l c).ctrs, rd s (coreBase l c + oChstat), rd s (coreBase l c + 0x3c0))

def setCtrPart (s : State) (l c : Nat) (x : Tab Ctr × Word × Word) : State :=
  let s := setCore s l c { getCore s l c with ctrs := x.1 }
  wr (wr s (coreBase l c + oChstat) x.2.1) (coreBase l c + 0x3c0) x.2.2

/-- The movement that an addition joins, because both fall in one CORECLK: the last one at the core, where no TIMECLK edge has
passed and nothing has changed its counters since. Whether the two share their CORECLK is a free value (R335; log 43). -/
def joins (s : State) (l c : Nat) : Option Moved :=
  (getCore s l c).moved.filter fun m =>
    m.edge == s.edges && m.time == s.time &&
      ctrPart (moveCtrs (setCtrPart s l c m.before) l c m.adds) l c == ctrPart s l c && Config.sameCoreclk s.free

/-- The wait-before of a command is met (R173, R329). -/
def waitMet (s : State) (l c : Nat) (cmd : EngCmd) : Bool :=
  cmd.wctr == 0x3f || reached s l c cmd.wctr.toNat cmd.mark

/-- A queue whose head's mark is reached: it is released from now on, whatever the counter does (R329). -/
def metHead (s : State) (l c : Nat) (q : EQueue) : EQueue :=
  match q.cmds with
  | cmd :: _ => { q with met := q.met || waitMet s l c cmd }
  | [] => q

/-- Engine commands whose marks are reached are released (R329, R330). -/
def noteMet (s : State) (l c : Nat) : State :=
  let k := getCore s l c
  let f := metHead s l c
  setCore s l c { k with mtx := f k.mtx, vec := f k.vec, red := f k.red, se := f k.se, bank := f k.bank }

/-- Additions that reach a core together, with those of its CORECLK that came before: one movement of the counters, in which
pairs are tested once (R335, R336). Those to a quarantined core are dropped (R322, R327). -/
def addMany (s : State) (l c : Nat) (xs : List Add) : State :=
  if quarantined s l ∨ xs.isEmpty then s
  else
    let m := joins s l c
    let all := (match m with | some m => m.adds | none => []) ++ xs
    let old := match m with | some m => m.before | none => ctrPart s l c
    let s := moveCtrs (setCtrPart { s with free := s.free + 1 } l c old) l c all
    noteMet (setCore s l c { getCore s l c with moved := some ⟨s.edges, s.time, all, old⟩ }) l c

/-- One addition to a counter, with the pair tests (R325, R336). -/
def addCtr (s : State) (l c n inc : Nat) (a : AddSrc) : State := addMany s l c [⟨n, inc, a⟩]

/-- A signal-after: nothing where no counter is named (R171). -/
def signalAfter (s : State) (l c : Nat) (sctr : BitVec 6) (sinc : BitVec 8) (a : AddSrc) : State :=
  if sctr = 0x3f then s else addCtr s l c sctr.toNat sinc.toNat a

/-! ## The wait watchdog (R349 to R351, R358) -/

def rWdog (l : Nat) : Nat := lcBase l + 0x94

/-- LC.WDOG in TIMECLK: COUNT, 0 taken as 1, of UNIT, held between 1 us and 60 s (R358). -/
def wdogEdges (s : State) (l : Nat) : Nat :=
  let n := max 1 (rdFld s (rWdog l) 29 0)
  let unit := match rdFld s (rWdog l) 31 30 with
    | 0 => 1
    | 1 => 200
    | _ => 200000
  max 200 (min (n * unit) (60 * 200000000))

/-- A timed wait of a landing has lasted its timeout; the time while the array is CLOCK-STOPPED does not count (R349,
R351). -/
def waitExpired (s : State) (l since limit : Nat) : Bool := since + limit ≤ runEdges s l

/-- An expiry is counted in LC.WDSTAT.FIRED and marked in CORE.CHSTAT.WDOG (R350, R357, R572). Purser firmware abandons the
lap in progress at the next LAP_START (R63, R121). -/
def watchdogFired (s : State) (l c : Nat) : State :=
  let o := coreBase l c + oChstat
  let old := rdFld s o 4 4
  let s := setFlag { s with crs := { s.crs with stalled := s.crs.stalled || s.crs.inLap } } o 4
  let s := if old = 0 then raiseCore s l c 7 else s
  countUp s (lcBase l + 0x98) 15 0 1 (some (lcBase l + 4, 6))

/-! ## Engine error records (R203, R206) -/

/-- The number of an engine (R206). -/
def Eng.num : Eng → Nat
  | .mtx => 0 | .vec => 1 | .red => 2 | .se => 3 | .bank => 4

/-- An error after issue: the record takes it, or MORE and COUNT while VALID is 1; the engine-error cause is raised
(R203, R206, R574). -/
def engineError (s : State) (l c e code : Nat) (cmd : EngCmd) : State :=
  let lo := coreBase l c + 0x120 + 8 * e
  let hi := lo + 4
  let n := satAdd 255 (rdFld s hi 23 16) 1
  let s :=
    if rdFld s lo 0 0 = 1 then wrFld (setFlag s hi 15) hi 23 16 n
    else
      let s := wr s lo (BitVec.ofNat 32 (1 + code * 2 ^ 8 + cmd.op.toNat * 2 ^ 16 + cmd.thr.toNat * 2 ^ 22))
      wr s hi (BitVec.ofNat 32 (cmd.pc.toNat + n * 2 ^ 16))
  raiseCore s l c 1

end Sys2Proof.Machine
end

