-- ==== Sys2Proof/Machine/Links.lean ====
section
/-! DEFINITION. Port groups, routes and the queues of frames to send (R401, R402, R412, R414, R421, R427 to R433). -/

namespace Sys2Proof.Machine

/-! ## Ports and groups -/

/-- XPT.Pn.STAT (R432). -/
def rPort (p : Nat) : Nat := 0x50100 + 0x40 * p
def rXcause : Nat := 0x5000c
def rRing : Nat := 0x50004

def portState (s : State) (p : Nat) : Nat := rdFld s (rPort p) 2 0
def portUp (s : State) (p : Nat) : Bool := portState s p == 2
def portEth (s : State) (p : Nat) : Bool := rdFld s (rPort p) 3 3 == 1
def portRole (s : State) (p : Nat) : Nat := rdFld s (rPort p) 6 4
def portPeer (s : State) (p : Nat) : Nat := rdFld s (rPort p) 18 8

/-- Role of a port under a split pattern: 0 none, 1 CCW, 2 CW, 3 R2CCW, 4 R2CW, 5 UP, 6 ALL (R401, R432). -/
def splitRole (split p : Nat) : Nat :=
  match split with
  | 0 => 6
  | 1 => if p < 8 then 1 else 2
  | 2 => if p < 6 then 1 else if p < 8 then 3 else if p < 10 then 4 else 2
  | 3 => if p < 4 then 1 else if p < 12 then 5 else 2
  | 4 => if p < 4 then 1 else if p < 8 then 3 else if p < 12 then 4 else 2
  | 5 => if p < 2 then 1 else if p < 4 then 3 else if p < 12 then 5 else if p < 14 then 4 else 2
  | 6 => if p < 3 then 1 else if p < 5 then 3 else if p < 11 then 5 else if p < 13 then 4 else 2
  | _ => 0

/-- The ports of a group: those of its role that run Slipway (R402). -/
def rolePorts (s : State) (r : Nat) : List Nat := (upto 16).filter fun p => portRole s p == r && !portEth s p

/-- A group is down when every port of it is DOWN (R402). -/
def groupDown (s : State) (r : Nat) : Bool := r == 0 || !((rolePorts s r).any fun p => portState s p != 0)

/-- The port runs Slipway and is UP. -/
def slipUp (s : State) (p : Nat) : Bool := portUp s p && !portEth s p

/-- A group that has just gone down sets XPT.CAUSE.GROUPDOWN (R402, R430). Its queues stay, and go on when a port returns
(log 88). -/
def groupFalls (s : State) (r : Nat) (wasDown : Bool) : State :=
  if groupDown s r ∧ !wasDown then setFlag s rXcause 1 else s

/-- The port groups that have a port. -/
def liveRoles (s : State) : List Nat := (upto 7).filter fun r => !groupDown s r

/-- The bulk role, UP or ALL. -/
def bulkRole (s : State) : Nat := if (rolePorts s 6).isEmpty then 5 else 6

/-- The anchor quay of a role: Q0 for CCW and R2CCW, Q3 for CW and R2CW, the quay of the lowest port for UP and ALL;
four ports belong to each quay (R402). -/
def anchorQuay (s : State) (r : Nat) : Nat :=
  if r = 1 ∨ r = 3 then 0
  else if r = 2 ∨ r = 4 then 3
  else match rolePorts s r with
    | [] => 0
    | p :: _ => p / 4

/-! ## Routes (R412, R420, R421) -/

/-- The route entry of a module; the own number reads 0 and 0x6 to 0xE act as 0xF (R412, R433). -/
def routeEntry (s : State) (m : Nat) : Nat :=
  if m = s.modnum.toNat then 0
  else
    let e := rdFld s (0x51000 + 4 * (m / 8)) (4 * (m % 8) + 3) (4 * (m % 8))
    if 6 ≤ e then 0xf else e

/-- The role that carries a route entry; CW and CCW move to the reach-2 groups under R420. -/
def entryRole (s : State) (e : Nat) : Nat :=
  match e with
  | 1 => if rdFld s rRing 22 22 = 1 then 4 else 2
  | 2 => if rdFld s rRing 23 23 = 1 then 3 else 1
  | 3 => 4
  | 4 => 3
  | 5 => bulkRole s
  | _ => 0

/-- A member of the current system (R412). -/
def isMember (s : State) (m : Nat) : Bool := routeEntry s m != 0xf

/-- The members of the current system: the system closure set of R340, ascending. -/
def members (s : State) : List Nat := (upto 2048).filter fun m => isMember s m

/-- The module becomes the time master: no hops, no parent port, its count free running (R417, R431; log 113). -/
def becomeMaster (s : State) : State := if rdFld s 0x50010 2 2 = 1 then s else wr s 0x50010 4

/-- This module is fenced (R421). -/
def fenced (s : State) : Bool := rdFld s rRing 25 25 == 1

/-! ## Frames to send -/

def getPort (s : State) (p : Nat) : Port := tget {} s.xpt.ports p
def setPort (s : State) (p : Nat) (x : Port) : State :=
  { s with xpt := { s.xpt with ports := tput {} p x s.xpt.ports } }

/-- A frame joins the queue of its group and class (R403). -/
def pushFrame (s : State) (role tc : Nat) (f : Frame) : State :=
  let k := 4 * role + tc
  { s with xpt := { s.xpt with txq := tput [] k (tget [] s.xpt.txq k ++ [f]) s.xpt.txq } }

/-- A frame for a module goes to the group of its route entry; none where it is refused: the entry is 0xF, the group
is down, or this module is fenced and the class is not TC3 (R412, R421). -/
def routeFrame (s : State) (dst tc : Nat) (f : Frame) : Option State :=
  let r := entryRole s (routeEntry s dst)
  if groupDown s r ∨ (fenced s ∧ tc ≠ 3) then none else some (pushFrame s r tc f)

/-! ## Neighbours and messages (R414, R415, R419) -/

/-- The module at the far end of a group: that of its first port UP, else of its first port that has trained. -/
def peerOf (s : State) (r : Nat) : Option Nat :=
  let ps := (rolePorts s r).filter fun p => (getPort s p).met
  let p := match ps.find? fun p => portUp s p with
    | some p => some p
    | none => ps.head?
  match p with
  | some p => if portPeer s p = 0x7ff then none else some (portPeer s p)
  | none => none

/-- A ring or reach-2 neighbour. -/
def isNeighbour (s : State) (m : Nat) : Bool := [1, 2, 3, 4].any fun r => peerOf s r == some m

/-- The group that takes a TC2 message: that of the route entry, or another that leads to a neighbour, for a neighbour; the
tree for any other module, where the split has one (R414; log 88). -/
def msgRole (s : State) (dst : Nat) : Nat :=
  let r := entryRole s (routeEntry s dst)
  if isNeighbour s dst then
    if groupDown s r then ([2, 1, 4, 3].find? fun q => peerOf s q == some dst && !groupDown s q).getD r else r
  else if r = 0 ∨ (rolePorts s (bulkRole s)).isEmpty then r
  else bulkRole s

/-- A message frame of a class joins a queue; none where it is refused (R412, R414, R421). -/
def routeMsg (s : State) (dst tc : Nat) (f : Frame) : Option State :=
  if tc ≠ 2 then routeFrame s dst tc f
  else
    let r := msgRole s dst
    if groupDown s r ∨ fenced s then none else some (pushFrame s r tc f)

/-- A message to a module; a refused one sets XPT.CAUSE.UNREACH (R412, R415). -/
def sendMsg (s : State) (ty dst : Nat) (args : List Int) : State :=
  match routeMsg s dst 2 (.msg ty s.modnum.toNat dst args []) with
  | some s' => s'
  | none => setFlag s rXcause 7

/-- What the far end of a group is called by a message sent on the group: PEERMOD of its first port UP, 0x7FF behind a
switch; none where no port is UP. -/
def farEnd (s : State) (r : Nat) : Option Nat := ((rolePorts s r).find? fun p => portUp s p).map fun p => portPeer s p

/-- A message on every group that has a port UP; its destination is the far end of the group (R415). -/
def sendAll (s : State) (ty : Nat) (args : List Int) : State :=
  if fenced s then s
  else (liveRoles s).foldl
    (fun s r =>
      match farEnd s r with
      | some m => pushFrame s r 2 (.msg ty s.modnum.toNat m args [])
      | none => s) s

end Sys2Proof.Machine
end

