-- ==== Sys2Proof/Machine/Holds.lean ====
section
/-! DEFINITION. Hold bits, the boarding hold and the hold notices to other modules (R67, R91, R100, R415, R466, R515,
R526). -/

namespace Sys2Proof.Machine

/-- The safety quantities: the cap, the limit, the run state. -/
inductive Qty where
  | cap | tlim | run
deriving DecidableEq, Repr

def Qty.hi : Qty → Nat
  | .cap => 14 | .tlim => 21 | .run => 22
def Qty.lo : Qty → Nat
  | .cap => 0 | .tlim => 15 | .run => 22

def rSafe (i : Nat) : Nat := 0x20040 + 4 * i
def safeVal (s : State) (i : Nat) (q : Qty) : Nat := rdFld s (rSafe i) q.hi q.lo

/-- Value x is safer than y: a lower cap, a lower limit, STOP. -/
def safer (q : Qty) (x y : Nat) : Bool :=
  match q with
  | .run => y < x
  | _ => x < y

/-- The effective value: the safest that some master holds (R466). -/
def safeEff (s : State) (q : Qty) : Nat :=
  (upto 6).foldl (fun a i => if safer q (safeVal s i q) a then safeVal s i q else a) (safeVal s 0 q)

def stopped (s : State) : Bool := safeEff s .run == 1

def rPace : Nat := 0x30018
def ghold (s : State) : Bool := rdFld s rPace 16 16 == 1

/-- CRS.PACE.BHOLD reads 1: the governor's hold, STOP, the software hold, or that of a PURSER reset (R515, R526). -/
def bhold (s : State) : Bool := ghold s || stopped s || s.pwr.swHold || s.pwr.purHold

/-- The hold bit that the ring stop writes: the own condition, or a gradient wave not yet fetched (R67, R91). -/
def holdBit (s : State) (l : Nat) : Bool := (getLand s l).hold || (getLand s l).waveHold

/-- The OR of the own landings' hold bits (R100). -/
def anyHold (s : State) : Bool := (liveLands s).any fun l => holdBit s l

/-- A hold notice to every other module of the crossing (R100, R415). -/
def sendHold (s : State) : State :=
  let h := anyHold s
  let b := bhold s
  let s := { s with crs := { s.crs with lastHold := h, lastBoard := b } }
  ((members s).filter fun m => m ≠ s.modnum.toNat).foldl
    (fun s m => sendMsg s 3 m [(b2n h : Int), (b2n b : Int)]) s

/-- On an extended crossing a notice goes out at once where its values have changed (R100, R415). -/
def noticeHold (s : State) : State :=
  if s.crs.ext ∧ (anyHold s ≠ s.crs.lastHold ∨ bhold s ≠ s.crs.lastBoard) then sendHold s else s

end Sys2Proof.Machine
end

