-- ==== Sys2Proof/Machine/Scalar.lean ====
section
/-! DEFINITION. Scalar instructions: the ALU group, immediate forms, constants, special registers, local memory,
branches and SYS (file 04). -/

namespace Sys2Proof.Machine

/-! ## Arithmetic and logic (R142, R144, R145) -/

/-- A register-form ALU instruction: SC must be zero, sd = g sa sb (R136, R144). -/
def aluR (s : State) (w : ThreadRef) (f : RForm) (fn : BitVec 6) (g : Dword → Dword → Dword) : State :=
  issue s w (f.sc != 0) (wordR 0x00 f fn) fun s =>
    advance (dst s w f.sd (g (src s w f.sa) (src s w f.sb))) w 1

/-- An immediate-form ALU instruction: sd = g sa imm (R142). -/
def aluI (s : State) (w : ThreadRef) (f : IForm) (op : BitVec 6) (bad : Bool) (g : Dword → Dword → Dword)
    (imm : Dword) : State :=
  issue s w bad (wordI op f) fun s => advance (dst s w f.sd (g (src s w f.sa) imm)) w 1

/-- One where a condition holds, else zero. -/
def flag64 (b : Bool) : Dword := if b then 1 else 0

def fShl (a b : Dword) : Dword := a <<< (b.toNat % 64)
def fShr (a b : Dword) : Dword := a >>> (b.toNat % 64)
def fSra (a b : Dword) : Dword := a.sshiftRight (b.toNat % 64)

/-- High 64 bits of the signed 128-bit product. -/
def fMulh (a b : Dword) : Dword := (a.signExtend 128 * b.signExtend 128).extractLsb' 64 64

/-- High 64 bits of the unsigned 128-bit product. -/
def fMulhu (a b : Dword) : Dword := (a.setWidth 128 * b.setWidth 128).extractLsb' 64 64

def fCmpeq (a b : Dword) : Dword := flag64 (a == b)
def fCmpne (a b : Dword) : Dword := flag64 (a != b)
def fCmplt (a b : Dword) : Dword := flag64 (a.slt b)
def fCmpltu (a b : Dword) : Dword := flag64 (a.ult b)
def fCmpge (a b : Dword) : Dword := flag64 (!a.slt b)
def fCmpgeu (a b : Dword) : Dword := flag64 (!a.ult b)

def execAdd (w : ThreadRef) (f : RForm) (s : State) : Res := .next (aluR s w f 0x01 fun a b => a + b)
def execSub (w : ThreadRef) (f : RForm) (s : State) : Res := .next (aluR s w f 0x02 fun a b => a - b)
def execAnd (w : ThreadRef) (f : RForm) (s : State) : Res := .next (aluR s w f 0x03 fun a b => a &&& b)
def execOr (w : ThreadRef) (f : RForm) (s : State) : Res := .next (aluR s w f 0x04 fun a b => a ||| b)
def execXor (w : ThreadRef) (f : RForm) (s : State) : Res := .next (aluR s w f 0x05 fun a b => a ^^^ b)
def execShl (w : ThreadRef) (f : RForm) (s : State) : Res := .next (aluR s w f 0x06 fShl)
def execShr (w : ThreadRef) (f : RForm) (s : State) : Res := .next (aluR s w f 0x07 fShr)
def execSra (w : ThreadRef) (f : RForm) (s : State) : Res := .next (aluR s w f 0x08 fSra)
def execMul (w : ThreadRef) (f : RForm) (s : State) : Res := .next (aluR s w f 0x09 fun a b => a * b)
def execMulh (w : ThreadRef) (f : RForm) (s : State) : Res := .next (aluR s w f 0x0a fMulh)
def execMulhu (w : ThreadRef) (f : RForm) (s : State) : Res := .next (aluR s w f 0x0b fMulhu)
def execCmpeq (w : ThreadRef) (f : RForm) (s : State) : Res := .next (aluR s w f 0x0c fCmpeq)
def execCmpne (w : ThreadRef) (f : RForm) (s : State) : Res := .next (aluR s w f 0x0d fCmpne)
def execCmplt (w : ThreadRef) (f : RForm) (s : State) : Res := .next (aluR s w f 0x0e fCmplt)
def execCmpltu (w : ThreadRef) (f : RForm) (s : State) : Res := .next (aluR s w f 0x0f fCmpltu)
def execCmpge (w : ThreadRef) (f : RForm) (s : State) : Res := .next (aluR s w f 0x10 fCmpge)
def execCmpgeu (w : ThreadRef) (f : RForm) (s : State) : Res := .next (aluR s w f 0x11 fCmpgeu)

/-- SEL, the one operation that uses SC (R144). -/
def execSel (w : ThreadRef) (f : RForm) (s : State) : Res :=
  .next <| issue s w false (wordR 0x00 f 0x12) fun s =>
    advance (dst s w f.sd (if src s w f.sc ≠ 0 then src s w f.sa else src s w f.sb)) w 1

/-- IMM[15:6] of a shift by an immediate must be zero (R142). -/
def badShift (f : IForm) : Bool := f.imm.extractLsb' 6 10 != 0

def execAddImmediate (w : ThreadRef) (f : IForm) (s : State) : Res :=
  .next (aluI s w f 0x01 false (fun a b => a + b) (sextImm f.imm))
def execAndImmediate (w : ThreadRef) (f : IForm) (s : State) : Res :=
  .next (aluI s w f 0x02 false (fun a b => a &&& b) (f.imm.setWidth 64))
def execOrImmediate (w : ThreadRef) (f : IForm) (s : State) : Res :=
  .next (aluI s w f 0x03 false (fun a b => a ||| b) (f.imm.setWidth 64))
def execXorImmediate (w : ThreadRef) (f : IForm) (s : State) : Res :=
  .next (aluI s w f 0x04 false (fun a b => a ^^^ b) (f.imm.setWidth 64))
def execShlImmediate (w : ThreadRef) (f : IForm) (s : State) : Res :=
  .next (aluI s w f 0x05 (badShift f) fShl (f.imm.setWidth 64))
def execShrImmediate (w : ThreadRef) (f : IForm) (s : State) : Res :=
  .next (aluI s w f 0x06 (badShift f) fShr (f.imm.setWidth 64))
def execSraImmediate (w : ThreadRef) (f : IForm) (s : State) : Res :=
  .next (aluI s w f 0x07 (badShift f) fSra (f.imm.setWidth 64))
def execMulImmediate (w : ThreadRef) (f : IForm) (s : State) : Res :=
  .next (aluI s w f 0x08 false (fun a b => a * b) (sextImm f.imm))
def execCmpeqImmediate (w : ThreadRef) (f : IForm) (s : State) : Res :=
  .next (aluI s w f 0x09 false fCmpeq (sextImm f.imm))
def execCmpneImmediate (w : ThreadRef) (f : IForm) (s : State) : Res :=
  .next (aluI s w f 0x0a false fCmpne (sextImm f.imm))
def execCmpltImmediate (w : ThreadRef) (f : IForm) (s : State) : Res :=
  .next (aluI s w f 0x0b false fCmplt (sextImm f.imm))
def execCmpltuImmediate (w : ThreadRef) (f : IForm) (s : State) : Res :=
  .next (aluI s w f 0x0c false fCmpltu (sextImm f.imm))
def execCmpgeImmediate (w : ThreadRef) (f : IForm) (s : State) : Res :=
  .next (aluI s w f 0x0d false fCmpge (sextImm f.imm))
def execCmpgeuImmediate (w : ThreadRef) (f : IForm) (s : State) : Res :=
  .next (aluI s w f 0x0e false fCmpgeu (sextImm f.imm))

/-- LI (R145); SA must be zero (R142). -/
def execLi (w : ThreadRef) (f : IForm) (s : State) : Res :=
  .next <| issue s w (f.sa != 0) (wordI 0x10 f) fun s => advance (dst s w f.sd (sextImm f.imm)) w 1

/-- A 16-bit field inserted into half-word q (R145). -/
def insertHalf (v : Dword) (q : Nat) (imm : BitVec 16) : Dword :=
  (v &&& ~~~((0xffff : Dword) <<< (16 * q))) ||| (imm.setWidth 64 <<< (16 * q))

/-- LIH (R145); SA[4:2] must be zero and SA[1:0] is q (R142). -/
def execLih (w : ThreadRef) (f : IForm) (s : State) : Res :=
  .next <| issue s w (f.sa.extractLsb' 2 3 != 0) (wordI 0x11 f) fun s =>
    advance (dst s w f.sd (insertHalf (src s w f.sd) (f.sa.toNat % 4) f.imm)) w 1

/-! ## Special registers (R138 to R141) -/

/-- The active cores 64 i to 64 i + 63 of a landing as a mask (R138). -/
def acMask (s : State) (l i : Nat) : Dword :=
  BitVec.ofNat 64 ((upto 64).foldl (fun a j => if coreActive s l (64 * i + j) then a + 2 ^ j else a) 0)

/-- The landing of a thread. -/
def thrLand : ThreadRef → Nat
  | .core l _ _ => l.val
  | .deckhand l => l.val

/-- TID (R138). A deckhand has no core number: the spec states no value for its [11:4], a free value (log 1). -/
def tidOf (s : State) : ThreadRef → Dword
  | .core l c t => BitVec.ofNat 64 (t.val + c.val * 2 ^ 4 + l.val * 2 ^ 12 + s.modnum.toNat * 2 ^ 17)
  | .deckhand l =>
    BitVec.ofNat 64 ((Config.freeDword s.free).toNat % 256 * 2 ^ 4 + l.val * 2 ^ 12 + s.modnum.toNat * 2 ^ 17)

/-- CYCLE: CORECLK edges since the array last entered ON, eight in each TIMECLK period (R36, R138). -/
def cycleOf (s : State) (l : Nat) : Dword := BitVec.ofNat 64 (8 * (s.edges - (getLand s l).onEdge))

/-- The value of a readable special register other than TQTAKE (R138). -/
def sprRead (s : State) (w : ThreadRef) (n : Nat) : Option Dword :=
  let t := getThr s w
  if n = 0x000 then some (tidOf s w)
  else if 0x004 ≤ n ∧ n ≤ 0x007 then some (acMask s (thrLand w) (n - 4))
  else if n = 0x008 then some (cycleOf s (thrLand w))
  else if n = 0x009 then some s.time
  else if n = 0x010 then some (t.prio.setWidth 64)
  else if n = 0x011 then some t.syncset
  else if n = 0x012 then some (BitVec.ofNat 64 t.posted.length)
  else none

/-- The thread belongs to a deckhand, which has no tile registers and no engines (file 04). -/
def isDeckhand : ThreadRef → Bool
  | .deckhand _ => true
  | _ => false

/-- A read of TQTAKE: TILE_HELD with the held handle as INFO, else the thread waits for a tile (R117). -/
def takeTile (s : State) (w : ThreadRef) (sd : BitVec 5) (word : Word) : State :=
  match w with
  | .deckhand _ => preciseFault s w .illegal (word.setWidth 64)
  | .core l c t =>
    match (getThr s w).tile with
    | some h => preciseFault s w .tileHeld h
    | none =>
      let s := setThr s w { getThr s w with st := .wait, wait := .tile sd }
      let k := getCore s l.val c.val
      setCore s l.val c.val { k with takeQ := k.takeQ ++ [t.val] }

/-- The free counter moves on where a free value was read. -/
def stepFree (s : State) : State := { s with free := s.free + 1 }

/-- MFS: SA and IMM[15:12] must be zero; SPR with the number as INFO where the number is no readable register
(R138, R139, R142). -/
def execMfs (w : ThreadRef) (f : IForm) (s : State) : Res :=
  .next <| issue s w (f.sa != 0 || f.imm.extractLsb' 12 4 != 0) (wordI 0x12 f) fun s =>
    let n := f.imm.toNat
    if n = 0x020 then takeTile s w f.sd (wordI 0x12 f)
    else if n = 0x021 ∧ isDeckhand w then preciseFault s w .illegal ((wordI 0x12 f).setWidth 64)
    else
      match sprRead s w n with
      | some v => advance (dst (if n = 0 ∧ isDeckhand w then stepFree s else s) w f.sd v) w 1
      | none => preciseFault s w .spr (BitVec.ofNat 64 n)

end Sys2Proof.Machine
end

