-- ==== Sys2Proof/Machine/Tiles.lean ====
section
/-! DEFINITION. The tile queue, the ferry buffer's slots and the hold bit (R61, R67, R68, R115 to R121); MTS and the
tile registers. -/

namespace Sys2Proof.Machine

/-! ## Hold (R61, R67, R68, R91) -/

/-- Pace in effect: the smaller of the requested pace and the governor's limit (R509). -/
def paceEff (s : State) : Nat := min (rdFld s 0x30018 15 8) (rdFld s 0x30018 7 0)

/-- Hold threshold H (R68): the loop time is 32 N_c RINGCLK (R49) and the full intake 8,192 B per RINGCLK (R19). -/
def holdThreshold (s : State) : Nat := ceilDiv (s.crs.nc * (paceEff s + 1)) 512

/-- Ferry slots per core, B_f (R294). -/
def fbDepth (s : State) (l : Nat) : Nat := rdFld s (lcBase l + 0x90) 18 13

/-- A ferry-buffer slot of a chain (R116). -/
def getFSlot (x : Landing) (chain slot : Nat) : Option FSlot := tget none x.fslots (chain * 32 + slot)

/-- Slots of a chain that hold a ferry. -/
def usedSlots (x : Landing) (chain : Nat) : Nat :=
  ((upto 32).filter fun i => (getFSlot x chain i).isSome).length

/-- The injection queue of a chain (R61). -/
def injQueue (x : Landing) (chain : Nat) : List Queued := tget [] x.inject chain

/-- Free ferry slots of the chain whose cores have the fewest. -/
def leastFree (s : State) (l : Nat) : Nat :=
  let x := getLand s l
  (upto 16).foldl (fun m k => min m (fbDepth s l - usedSlots x k)) (fbDepth s l)

/-- Some injection queue holds more than 4 ferries (R61). -/
def injLong (s : State) (l : Nat) : Bool := (upto 16).any fun k => 4 < (injQueue (getLand s l) k).length

/-- The own hold bit set, kept or cleared (R67). -/
def updHold (s : State) (l : Nat) : State :=
  let x := getLand s l
  let h := holdThreshold s
  let free := leastFree s l
  if injLong s l ∨ free < h then noticeHold (setLand s l { x with hold := true })
  else if h + 2 ≤ free then noticeHold (setLand s l { x with hold := false })
  else s

/-- The hold bits of every live landing follow a change of the threshold or of a buffer's depth (R67, R68). -/
def updHolds (s : State) : State := (liveLands s).foldl updHold s

/-! ## Release of ferry-buffer slots (R116) -/

/-- Number of a ferry's launcher. -/
def launcherId (f : Ferry) : Nat := 32 * f.lmodule.toNat + f.launcher.val

/-- A header, launcher, direction and number make a weight ferry that a describing ferry describes: the same launcher,
layer and direction, delivered after it and before the next of its sub-kind (R116). -/
def describes (d : FSlot) (hdr : FerryHdr) (launcher : Nat) (dir : Dir) (num : Nat) : Bool :=
  hdr.kind == 0 && hdr.sub == 0 && launcher == d.launcher && hdr.layer == d.hdr.layer && dir == d.dir &&
    decide (d.num < num) && (match d.upTo with | some u => decide (num < u) | none => true)

/-- A weight ferry that a describing ferry describes is still held, or waits in the chain's injection queue. -/
def describedHeld (x : Landing) (chain : Nat) (d : FSlot) : Bool :=
  (upto 32).any (fun i =>
    match getFSlot x chain i with
    | some g => describes d g.hdr g.launcher g.dir g.num
    | none => false) ||
  (injQueue x chain).any fun q => describes d q.f.hdr (launcherId q.f) q.f.dir q.num

/-- Whether a held ferry may be released: a weight ferry when every tile posted for it has completed, a describing
ferry when what it describes is released and the next of its sub-kind or the layer's LAST ferries have come. -/
def releasable (x : Landing) (chain : Nat) (d : FSlot) : Bool :=
  if d.hdr.sub = 0 then !(x.tiles.any fun t => t.ferry == d.num)
  else !describedHeld x chain d && d.upTo.isSome

/-- The slots of one sub-kind that may be released are freed. -/
def freeSlots (x : Landing) (weights : Bool) : Landing :=
  { x with
    fslots := x.fslots.filter fun e =>
      match e.2 with
      | some d => !((d.hdr.sub == 0) == weights && releasable x (e.1 / 32) d)
      | none => false }

/-- Describing ferries of a launcher and layer, held or queued, that `p` picks by chain, header and direction, describe
nothing from number num on (R116). -/
def closeDescribing (x : Landing) (launcher : Nat) (layer : BitVec 12) (num : Nat)
    (p : Nat → FerryHdr → Dir → Bool) : Landing :=
  let hit (chain : Nat) (h : FerryHdr) (id : Nat) (d : Dir) : Bool :=
    h.sub != 0 && id == launcher && h.layer == layer && p chain h d
  { x with
    fslots := x.fslots.map fun e =>
      (e.1, e.2.map fun d =>
        if d.upTo = none ∧ hit (e.1 / 32) d.hdr d.launcher d.dir then { d with upTo := some num } else d)
    inject := x.inject.map fun e =>
      (e.1, e.2.map fun q =>
        if q.upTo = none ∧ hit e.1 q.f.hdr (launcherId q.f) q.f.dir then { q with upTo := some num } else q) }

/-- Every slot that may be released is released, weights first; then the hold bit follows (R67, R116). -/
def releaseSlots (s : State) (l : Nat) : State :=
  updHold (setLand s l (freeSlots (freeSlots (getLand s l) true) false)) l

/-! ## Tiles (R115 to R121) -/

/-- Owner of token group g and column block k (R101). -/
def ownerCore (g k : Nat) : Nat := 16 * g + k

/-- A tile is eligible for a core of its chain (R119). -/
def eligible (s : State) (l c : Nat) (t : Tile) : Bool :=
  let o := ownerCore t.tg t.lane
  !t.taken && c % 16 == t.lane &&
    (c == o || !coreActive s l o || (t.stealable && rdFld s (lcBase l + 0x80) 12 12 == 0))

/-- The tile that a take is granted: the oldest eligible one, the core's own first among one ferry's (R120). -/
def pickTile (s : State) (l c : Nat) : Option Tile :=
  match (getLand s l).tiles.find? fun t => eligible s l c t with
  | none => none
  | some t =>
    match (getLand s l).tiles.find? fun u => eligible s l c u && u.ferry == t.ferry &&
        c == ownerCore u.tg u.lane with
    | some u => some u
    | none => some t

/-- The handle that a core receives: STOLEN when it is not the owner (R118). -/
def handleFor (t : Tile) (c : Nat) : Dword :=
  if c = ownerCore t.tg t.lane then t.handle else t.handle ||| (1 <<< 35)

/-- A core's oldest waiting take receives its tile, where there is one (R117, R120). -/
def grantTile (l : Nat) (s : State) (c : Nat) : State :=
  match (getCore s l c).takeQ with
  | [] => s
  | n :: rest =>
    let w := coreThr l c n
    match pickTile s l c, (getThr s w).wait with
    | some t, .tile sd =>
      if !arrayOn s l then s
      else
        let h := handleFor t c
        let x := getLand s l
        let s := setLand s l
          { x with tiles := x.tiles.map fun u => if u.num = t.num then { u with taken := true } else u }
        let s := if c = ownerCore t.tg t.lane then s
          else countUp s (lcBase l + 0x88) 31 0 1 none
        let s := setCore s l c { getCore s l c with takeQ := rest }
        let s := setThr s w { getThr s w with st := .ready, wait := .none, tile := some h }
        advance (dst s w sd h) w 1
    | _, _ => s

/-- TILE_GRANT: the takes of the core's chain that meet are served in ascending core number, up to the core's own
(R120). -/
def execTileGrant (k : CoreRef) (s : State) : Res :=
  .next (((upto (k.core.val / 16 + 1)).map fun i => 16 * i + k.core.val % 16).foldl (grantTile k.land.val) s)

/-- STEAL_DELAY_EXPIRY: an untaken tile becomes eligible for every core of its chain (R119). -/
def execStealDelayExpiry (l : Fin 32) (tile : Nat) (s : State) : Res :=
  let x := getLand s l.val
  .next <| setLand s l.val
    { x with tiles := x.tiles.map fun u => if u.num = tile ∧ !u.taken then { u with stealable := true } else u }

/-- A write of TQDONE: TQ_HANDLE with the written handle as INFO where the thread does not hold it; else the tile
completes and its ferry's slot may be released (R116, R117). -/
def doneTile (s : State) (w : ThreadRef) (v : Dword) (word : Word) : State :=
  match w with
  | .deckhand _ => preciseFault s w .illegal (word.setWidth 64)
  | .core l _ _ =>
    if (getThr s w).tile ≠ some v then preciseFault s w .tqHandle v
    else
      let x := getLand s l.val
      let hit (u : Tile) : Bool := u.taken && (u.handle == v || (u.handle ||| (1 <<< 35)) == v)
      let s := setLand s l.val { x with tiles := x.tiles.eraseP hit }
      let s := setThr s w { getThr s w with tile := none }
      advance (releaseSlots s l.val) w 1

/-- A write of TPRIO: the thread's own priority (R138, R140). -/
def writePrio (s : State) (w : ThreadRef) (v : Dword) : State :=
  advance (setThr s w { getThr s w with prio := v.setWidth 2 }) w 1

/-- Whether a special-register number is in the table of R138. -/
def sprKnown (n : Nat) : Bool :=
  n == 0x000 || (0x004 ≤ n && n ≤ 0x009) || (0x010 ≤ n && n ≤ 0x012) || n == 0x020 || n == 0x021

/-- MTS: SD and IMM[15:12] must be zero; SPR where the register cannot be written (R138, R139, R142). -/
def execMts (w : ThreadRef) (f : IForm) (s : State) : Res :=
  .next <| issue s w (f.sd != 0 || f.imm.extractLsb' 12 4 != 0) (wordI 0x13 f) fun s =>
    let n := f.imm.toNat
    let v := src s w f.sa
    if n = 0x010 then writePrio s w v
    else if n = 0x011 then advance (setThr s w { getThr s w with syncset := v }) w 1
    else if n = 0x021 then doneTile s w v (wordI 0x13 f)
    else if n = 0x020 ∧ isDeckhand w then preciseFault s w .illegal ((wordI 0x13 f).setWidth 64)
    else preciseFault s w .spr (BitVec.ofNat 64 n)

/-- TQTAKE: MFS of special register 0x020 (R117, R138). -/
def execTqtake (w : ThreadRef) (sd : BitVec 5) (s : State) : Res :=
  let word := wordI 0x12 ⟨sd, 0, 0x020⟩
  .next <| issue s w false word fun s => takeTile s w sd word

/-- TQDONE: MTS of special register 0x021 (R117, R138). -/
def execTqdone (w : ThreadRef) (sa : BitVec 5) (s : State) : Res :=
  let word := wordI 0x13 ⟨0, sa, 0x021⟩
  .next <| issue s w false word fun s => doneTile s w (src s w sa) word

/-- TPRIO: MTS of special register 0x010 (R138, R140). -/
def execTprio (w : ThreadRef) (sa : BitVec 5) (s : State) : Res :=
  .next <| issue s w false (wordI 0x13 ⟨0, sa, 0x010⟩) fun s => writePrio s w (src s w sa)

end Sys2Proof.Machine
end

