-- ==== Sys2Proof/Machine/Local.lean ====
section
/-! DEFINITION. Local loads and stores, branches, and YIELD, TRAP of SYS (R146 to R150, R160). -/

namespace Sys2Proof.Machine

/-! ## Local memory (R148, R150) -/

/-- Byte address of a local access: register plus sign-extended offset (R148). -/
def localAddr (s : State) (w : ThreadRef) (f : IForm) : Dword := src s w f.sa + sextImm f.imm

/-- A local load of n bytes: LOCAL_RANGE, LOCAL_ALIGN, LOCAL_ECC in this order, each with the byte address as INFO
(R148, R150); `ext` widens the value. -/
def localLoad (s : State) (w : ThreadRef) (f : IForm) (op : BitVec 6) (n : Nat) (ext : Nat → Dword) : State :=
  issue s w false (wordI op f) fun s =>
    let a := localAddr s w f
    if 0x20000 ≤ a.toNat then preciseFault s w .localRange a
    else if a.toNat % n ≠ 0 then preciseFault s w .localAlign a
    else
      let k := localKey w a.toNat
      let u := unitBase k
      if uncorrectable s u then preciseFault s w .localEcc a
      else
        let s := correctWord s w u
        advance (dst s w f.sd (ext (getNat s k n))) w 1

/-- A local store of n bytes: the same checks, LOCAL_ECC only where the store leaves other bytes of the 8 B word; a
whole word takes fresh check bits (R148, R150). -/
def localStore (s : State) (w : ThreadRef) (f : IForm) (op : BitVec 6) (n : Nat) : State :=
  issue s w false (wordI op f) fun s =>
    let a := localAddr s w f
    if 0x20000 ≤ a.toNat then preciseFault s w .localRange a
    else if a.toNat % n ≠ 0 then preciseFault s w .localAlign a
    else
      let k := localKey w a.toNat
      let u := unitBase k
      if n < 8 ∧ uncorrectable s u then preciseFault s w .localEcc a
      else
        let s := if n < 8 then correctWord s w u else freshCheck s u
        advance (putBytes s k (leBytes n (src s w f.sd).toNat)) w 1

/-- Zero extension, and sign extension of 32 bits. -/
def zext64 (x : Nat) : Dword := BitVec.ofNat 64 x
def sext32 (x : Nat) : Dword := (BitVec.ofNat 32 x).signExtend 64

def execLdD (w : ThreadRef) (f : IForm) (s : State) : Res := .next (localLoad s w f 0x14 8 zext64)
def execLdW (w : ThreadRef) (f : IForm) (s : State) : Res := .next (localLoad s w f 0x15 4 sext32)
def execLdWu (w : ThreadRef) (f : IForm) (s : State) : Res := .next (localLoad s w f 0x16 4 zext64)
def execLdHu (w : ThreadRef) (f : IForm) (s : State) : Res := .next (localLoad s w f 0x17 2 zext64)
def execLdBu (w : ThreadRef) (f : IForm) (s : State) : Res := .next (localLoad s w f 0x18 1 zext64)
def execStD (w : ThreadRef) (f : IForm) (s : State) : Res := .next (localStore s w f 0x19 8)
def execStW (w : ThreadRef) (f : IForm) (s : State) : Res := .next (localStore s w f 0x1a 4)
def execStH (w : ThreadRef) (f : IForm) (s : State) : Res := .next (localStore s w f 0x1b 2)
def execStB (w : ThreadRef) (f : IForm) (s : State) : Res := .next (localStore s w f 0x1c 1)

/-! ## Branches (R146, R147) -/

/-- PC of a thread set, within the 32,768 words of its memory. -/
def jump (s : State) (w : ThreadRef) (pc : BitVec 15) : State := setThr s w { getThr s w with pc := pc }

/-- The target of a relative branch: offsets wrap within scalar memory (R146). -/
def target (t : Thread) (imm : BitVec 16) : BitVec 15 := t.pc + imm.setWidth 15

/-- A conditional branch (R146). -/
def branch (s : State) (w : ThreadRef) (f : IForm) (op : BitVec 6) (cond : Dword → Dword → Bool) : State :=
  issue s w false (wordI op f) fun s =>
    if cond (src s w f.sd) (src s w f.sa) then jump s w (target (getThr s w) f.imm) else advance s w 1

/-- BR; SD and SA must be zero (R142, R146). -/
def execBr (w : ThreadRef) (f : IForm) (s : State) : Res :=
  .next <| issue s w (f.sd != 0 || f.sa != 0) (wordI 0x26 f) fun s => jump s w (target (getThr s w) f.imm)

/-- CALL; SA must be zero. The link is PC + 1 (R142, R146). -/
def execCall (w : ThreadRef) (f : IForm) (s : State) : Res :=
  .next <| issue s w (f.sa != 0) (wordI 0x27 f) fun s =>
    let t := getThr s w
    jump (dst s w f.sd (BitVec.ofNat 64 (t.pc.toNat + 1))) w (target t f.imm)

def execBeq (w : ThreadRef) (f : IForm) (s : State) : Res := .next (branch s w f 0x28 fun a b => a == b)
def execBne (w : ThreadRef) (f : IForm) (s : State) : Res := .next (branch s w f 0x29 fun a b => a != b)
def execBlt (w : ThreadRef) (f : IForm) (s : State) : Res := .next (branch s w f 0x2a fun a b => a.slt b)
def execBge (w : ThreadRef) (f : IForm) (s : State) : Res := .next (branch s w f 0x2b fun a b => !a.slt b)
def execBltu (w : ThreadRef) (f : IForm) (s : State) : Res := .next (branch s w f 0x2c fun a b => a.ult b)
def execBgeu (w : ThreadRef) (f : IForm) (s : State) : Res := .next (branch s w f 0x2d fun a b => !a.ult b)

/-- RET; SD, SB and SC must be zero. A target of more than 15 bits is ILLEGAL with the target as INFO (R146,
R166). -/
def execRet (w : ThreadRef) (f : RForm) (s : State) : Res :=
  .next <| issue s w (f.sd != 0 || f.sb != 0 || f.sc != 0) (wordR 0x2e f 0) fun s =>
    let v := src s w f.sa
    if v >>> 15 ≠ 0 then preciseFault s w .illegal v else jump s w (v.setWidth 15)

/-! ## YIELD and TRAP (R160) -/

/-- The word of a SYS operation (R142, R160). -/
def wordSys (sub : BitVec 5) (sa : BitVec 5) (imm : BitVec 16) : Word := wordI 0x2f ⟨sub, sa, imm⟩

/-- YIELD: the thread stays READY and is passed over until its back-off ends; SA must be zero (R142, R160). -/
def execYield (w : ThreadRef) (sa : BitVec 5) (imm : BitVec 16) (s : State) : Res :=
  .next <| issue s w (sa != 0) (wordSys 1 sa imm) fun s =>
    let s := advance s w 1
    let t := getThr s w
    if t.st = .ready then setThr s w { t with yielding := true } else s

/-- YIELD_EXPIRY: the back-off of n + 1 CORECLK ends (R160). -/
def execYieldExpiry (w : ThreadRef) (s : State) : Res :=
  let t := getThr s w
  .next (if t.yielding then setThr s w { t with yielding := false } else s)

/-- TRAP: the thread faults with the code as INFO; SA must be zero (R142, R160). -/
def execTrap (w : ThreadRef) (sa : BitVec 5) (imm : BitVec 16) (s : State) : Res :=
  .next <| issue s w (sa != 0) (wordSys 2 sa imm) fun s => preciseFault s w .trap (imm.setWidth 64)

end Sys2Proof.Machine
end

