-- ==== Sys2Proof/Machine/Global.lean ====
section
/-! DEFINITION. Global loads, stores and AMOADD at issue and at completion; FENCE and TASK_END; task posts
(R106 to R114, R152 to R162). -/

namespace Sys2Proof.Machine

/-! ## Accesses in flight -/

/-- A new access, numbered by the model's own count; it waits to reach its target. -/
def newAccess (s : State) (src : ASrc) (kind : AKind) (addr : Dword) (win : Option (BitVec 10 × BitVec 8))
    (inc : Option (BitVec 8 × BitVec 6 × BitVec 8)) (pc : BitVec 15) (sd : BitVec 5) : State :=
  { s with
    accs := s.accs ++ [⟨s.nextId, src, kind, addr, win, inc, pc, sd, false, none, none⟩]
    nextId := s.nextId + 1 }

def findAccess (s : State) (id : Nat) : Option Access := s.accs.find? fun a => a.id == id

def dropAccess (s : State) (id : Nat) : State := { s with accs := s.accs.filter fun a => a.id ≠ id }

/-- The access with its result. -/
def answer (s : State) (id : Nat) (r : AResult) : State :=
  { s with accs := s.accs.map fun a => if a.id = id then { a with res := some r } else a }

/-- Bytes that a global access of an instruction covers: LD.G and ST.G add the offset (file 04). -/
def globalAddr (s : State) (w : ThreadRef) (f : IForm) : Dword := src s w f.sa + sextImm f.imm

/-- The thread holds 8 global stores and AMOADDs not completed: a ninth is passed over (R154). -/
def postedFull (s : State) (w : ThreadRef) : Bool := 8 ≤ (getThr s w).posted.length

/-! ## Issue (R152 to R156) -/

/-- A global load: GLOBAL_ALIGN at issue, else the thread waits with WREASON 0x4 (R152, R153). -/
def globalLoad (s : State) (w : ThreadRef) (f : IForm) (op : BitVec 6) (n : Nat) : State :=
  issue s w false (wordI op f) fun s =>
    let a := globalAddr s w f
    if a.toNat % n ≠ 0 then preciseFault s w .globalAlign a
    else
      let t := getThr s w
      let id := s.nextId
      setThr (newAccess s (.thread w) (.read n) a none none t.pc f.sd) w
        { t with st := .wait, wait := .response id }

/-- A posted global store: the thread continues (R152, R154). -/
def globalStore (s : State) (w : ThreadRef) (f : IForm) (op : BitVec 6) (n : Nat) : State :=
  if postedFull s w then s
  else issue s w false (wordI op f) fun s =>
    let a := globalAddr s w f
    if a.toNat % n ≠ 0 then preciseFault s w .globalAlign a
    else
      let t := getThr s w
      let id := s.nextId
      let s := newAccess s (.thread w) (.write (leBytes n (src s w f.sd).toNat)) a none none t.pc 0
      advance (setThr s w { t with posted := t.posted ++ [id] }) w 1

/-- AMOADD: SC must be zero; the thread waits for the old value, also with sd = s0 (R136, R156). -/
def globalAmo (s : State) (w : ThreadRef) (f : RForm) (fn : BitVec 6) (n : Nat) : State :=
  if postedFull s w then s
  else issue s w (f.sc != 0) (wordR 0x24 f fn) fun s =>
    let a := src s w f.sa
    if a.toNat % n ≠ 0 then preciseFault s w .globalAlign a
    else
      let t := getThr s w
      let id := s.nextId
      let s := newAccess s (.thread w) (.amo n (src s w f.sb)) a none none t.pc f.sd
      setThr s w { t with st := .wait, wait := .response id, posted := t.posted ++ [id] }

def execLdGD (w : ThreadRef) (f : IForm) (s : State) : Res := .next (globalLoad s w f 0x20 8)
def execLdGW (w : ThreadRef) (f : IForm) (s : State) : Res := .next (globalLoad s w f 0x21 4)
def execStGD (w : ThreadRef) (f : IForm) (s : State) : Res := .next (globalStore s w f 0x22 8)
def execStGW (w : ThreadRef) (f : IForm) (s : State) : Res := .next (globalStore s w f 0x23 4)
def execAmoaddD (w : ThreadRef) (f : RForm) (s : State) : Res := .next (globalAmo s w f 0x00 8)
def execAmoaddW (w : ThreadRef) (f : RForm) (s : State) : Res := .next (globalAmo s w f 0x01 4)

/-! ## FENCE and TASK_END (R159 to R162, R353) -/

/-- Engine commands of a thread that have not retired (R159). -/
def engineBusy (s : State) : ThreadRef → Bool
  | .deckhand _ => false
  | .core l c t =>
    let k := getCore s l.val c.val
    let mine (q : List EngCmd) : Bool := q.any fun e => e.thr.toNat == t.val
    mine k.mtx.cmds || mine k.vec.cmds || mine k.red.cmds || mine k.se.cmds || mine k.bank.cmds ||
      k.jobs.any fun j => j.cmd.thr.toNat == t.val

/-- The head of a queue waits: it is neither running nor discarded, and its wait-before has not been met (R174, R178,
R329). -/
def queueWaits (s : State) (l c : Nat) (q : EQueue) : Bool :=
  match q.cmds with
  | [] => false
  | e :: _ => !q.running && !q.discard && !q.met && !waitMet s l c e

/-- The head of a queue waits on counter n. -/
def headWaits (s : State) (l c : Nat) (q : EQueue) (n : Nat) : Bool :=
  queueWaits s l c q && q.cmds.head?.any fun e => e.wctr.toNat == n

/-- Some thread, or the head of some queue, of the core waits on counter n (R353). -/
def ctrWaited (s : State) (l c n : Nat) : Bool :=
  let k := getCore s l c
  (upto 16).any (fun t =>
    match (getThr s (coreThr l c t)).wait with
    | .ctr m _ _ _ _ => m.toNat == n
    | _ => false) ||
  headWaits s l c k.mtx n || headWaits s l c k.vec n || headWaits s l c k.red n || headWaits s l c k.se n ||
    headWaits s l c k.bank n

def getGroup (s : State) (l g : Nat) : Group := tget {} (getLand s l).groups g

/-- A closure group holds an arrival of the core that has not been released (R161). -/
def groupHolds (s : State) (l c g : Nat) : Bool :=
  let x := getGroup s l g
  tget 0 x.now c != 0 || tget 0 x.next c != 0

/-- The producer counters of enabled pairs whose two counters are both named, with unequal effective values. -/
def unequalPairs (s : State) (l c : Nat) (set : Nat) : List Nat :=
  ((upto 16).filter fun i =>
    let w := pairReg s l c i
    pairEn w && bit set (pairP w) && bit set (pairC w) &&
      ctrEff (getCtr s l c (pairP w)) != ctrEff (getCtr s l c (pairC w))).map fun i => pairP (pairReg s l c i)

/-- The smallest of a list of numbers, with one to start from. -/
def least (a : Nat) (xs : List Nat) : Nat := xs.foldl min a

/-- The first task-boundary violation of R161 step 3 as the fault's INFO, none where the core is clean. A deckhand
has no counters. -/
def dirtySync (s : State) : ThreadRef → Option Nat
  | .deckhand _ => none
  | .core l c t =>
    let set := (getThr s (.core l c t)).syncset.toNat
    match unequalPairs s l.val c.val set with
    | p :: r => some (least p r)
    | [] =>
      match (upto 48).find? fun n => bit set n && ctrWaited s l.val c.val n with
      | some n => some n
      | none =>
        match (upto 16).find? fun g => bit set (48 + g) && groupHolds s l.val c.val g with
        | some g => some (48 + g)
        | none => none

/-- Steps 2 to 4 of TASK_END (R161). DESIGN CHOICE (log 93): at word 32,767 the thread enters IDLE, with no PC_END. -/
def finishTask (s : State) (w : ThreadRef) : State :=
  let t := getThr s w
  match t.tile with
  | some h => preciseFault s w .tileHeld h
  | none =>
    match dirtySync s w with
    | some n => preciseFault s w .dirtySync (BitVec.ofNat 64 n)
    | none => setThr s w { t with st := .idle, hold := .none }

/-- What a FENCE or TASK_END of the thread waits for has happened (R159, R161). -/
def holdMet (s : State) (w : ThreadRef) : Bool :=
  let t := getThr s w
  match t.hold with
  | .none => false
  | .fence gw eng => (!gw || t.posted.isEmpty) && (!eng || !engineBusy s w)
  | .taskEnd => t.posted.isEmpty && !engineBusy s w

/-- A FENCE or TASK_END whose wait is over completes. -/
def checkHold (s : State) (w : ThreadRef) : State :=
  let t := getThr s w
  if t.st = .ready ∧ holdMet s w then
    match t.hold with
    | .fence _ _ => advance (setThr s w { t with hold := .none }) w 1
    | .taskEnd => finishTask s w
    | .none => s
  else s

/-- FENCE: IMM[15:2] and SA must be zero; it completes at once where nothing is outstanding (R142, R159). -/
def execFence (w : ThreadRef) (sa : BitVec 5) (imm : BitVec 16) (s : State) : Res :=
  .next <| issue s w (sa != 0 || imm.extractLsb' 2 14 != 0) (wordSys 0 sa imm) fun s =>
    checkHold (setThr s w { getThr s w with hold := .fence (imm.getLsbD 0) (imm.getLsbD 1) }) w

/-- TASK_END: IMM and SA must be zero (R142, R160, R161). -/
def execTaskEnd (w : ThreadRef) (sa : BitVec 5) (imm : BitVec 16) (s : State) : Res :=
  .next <| issue s w (sa != 0 || imm != 0) (wordSys 3 sa imm) fun s =>
    checkHold (setThr s w { getThr s w with hold := .taskEnd }) w

/-! ## Completion (R152 to R156, R165, R166) -/

/-- The thread fault of a failed scalar access (R152). -/
def statusFault : AStatus → Option FCode
  | .ok => none
  | .address => some .address
  | .amoSpace => some .amoSpace
  | .windowClosed => some .windowClosed
  | .domainOff => some .domainOff
  | .poison => some .poisonLoad
  | .lost => some .poisonLoad

/-- The posted access is no longer outstanding. -/
def unpost (t : Thread) (id : Nat) : Thread := { t with posted := t.posted.filter fun n => n ≠ id }

/-- The response of a load or AMOADD ends its thread's wait: sd is written, or the thread faults precisely (R153,
R156). A response to a thread that no longer waits for it is discarded. -/
def respond (s : State) (a : Access) (w : ThreadRef) (fault : Option FCode) (v : Nat) : State :=
  let s := dropAccess s a.id
  let t := unpost (getThr s w) a.id
  if t.wait = .response a.id then
    let s := setThr s w { t with st := .ready, wait := .none }
    match fault with
    | some c => preciseFault s w c a.addr
    | none => advance (dst s w a.sd (BitVec.ofNat 64 v)) w 1
  else s

/-- A posted store completes: a failure is a deferred fault of the thread that holds it, or recorded against no
thread (R155, R165, R166); a FENCE or TASK_END may then complete. -/
def completePosted (s : State) (a : Access) (w : ThreadRef) (fault : Option FCode) : State :=
  let s := dropAccess s a.id
  let t := getThr s w
  let mine := t.posted.contains a.id
  let s := if mine then setThr s w (unpost t a.id) else s
  let s :=
    match fault with
    | none => s
    | some c => if mine then faultThread s w c a.addr true a.pc else orphanFault s w
  checkHold s w

/-- The thread whose response an access is: a load or AMOADD that a thread still waits for. -/
def awaited (s : State) (a : Access) (w : ThreadRef) : Bool := (getThr s w).wait == .response a.id

/-- GLOBAL_RESPONSE: the response to a global load or AMOADD reaches its thread (R153, R156). -/
def execGlobalResponse (id : Nat) (s : State) : Res :=
  match findAccess s id with
  | none => .next s
  | some a =>
    match a.src, a.res with
    | .thread w, some r =>
      match a.kind with
      | .write _ => .next s
      | _ => .next (respond s a w (statusFault r.status) (leNat r.data))
    | _, _ => .next s

/-- GLOBAL_STORE_COMPLETION: a posted store, or an AMOADD whose wait was abandoned, completes (R155). -/
def execGlobalStoreCompletion (id : Nat) (s : State) : Res :=
  match findAccess s id with
  | none => .next s
  | some a =>
    match a.src, a.res with
    | .thread w, some r =>
      if awaited s a w then .next s
      else
        match a.kind with
        | .read _ => .next s
        | _ => .next (completePosted s a w (statusFault r.status))
    | _, _ => .next s

/-- GTIMEOUT: a scalar access without response 4 ms after issue completes with GTIMEOUT (R152, R155). -/
def execGtimeout (id : Nat) (s : State) : Res :=
  match findAccess s id with
  | none => .next s
  | some a =>
    match a.src with
    | .thread w =>
      if a.res.isSome then .next s
      else if awaited s a w then .next (respond s a w (some .gtimeout) 0)
      else
        match a.kind with
        | .read _ => .next (dropAccess s id)
        | _ => .next (completePosted s a w (some .gtimeout))
    | _ => .next s

/-! ## Posts (R106, R107, R112 to R114, R166) -/

/-- Offset of LC.TPSTAT. -/
def rTpstat (l : Nat) : Nat := lcBase l + 0x48

/-- A post is refused: REFUSED and WHY (R113). -/
def refusePost (s : State) (l why : Nat) : State :=
  setFlag (wrFld s (rTpstat l) 3 1 why) (rTpstat l) 0

/-- The reason for which a post to a thread is refused, in R113's order; 0 for none. -/
def postRefusal (s : State) (l c : Nat) (t : Thread) (kill : Bool) : Nat :=
  if !coreActive s l c then 2
  else if domState s l = 0 then 6
  else if quarantined s l then 3
  else if !kill && (t.st != .idle || t.due) then 1
  else if kill && t.st != .fault then 5
  else 0

/-- The state of a thread after an accepted post; READY at once where the array is ON, else when it returns to ON
(R112, R113, R137). DESIGN CHOICE (log 94): a fault record that quarantine kept goes with the post. -/
def postedThread (l c t : Nat) (prio : BitVec 2) (entry : BitVec 15) (arg : Word) (on : Bool) : Thread :=
  { st := if on then .ready else .idle
    due := !on
    prio := prio
    pc := entry
    regs := tput 0 1 (arg.setWidth 64) (tput 0 2 (BitVec.ofNat 64 (l * 256 + c)) (tput 0 3 (BitVec.ofNat 64 t) [])) }

/-- A post with KILL = 1 clears a faulted thread to IDLE and clears its record (R113, R166). -/
def clearedThread (t : Thread) : Thread :=
  { t with
    st := .idle, due := false, tile := none, posted := [], arrived := [], fcode := 0, deferred := false,
    more := false, fpc := 0, info := 0 }

/-- Whether a master's post takes effect: the landing's deckhand and the harbourmaster alone (R106). -/
def mayPost (m : Master) (l : Nat) : Bool :=
  match m with
  | .hm => true
  | .deckhand d => d.val == l
  | _ => false

/-- A post: ignored and counted from another master (R106), overruled by the harbourmaster's post in its slot
(R107), refused with its reason, or effective. -/
def post (s : State) (m : Master) (l c t : Nat) (kill : Bool) (new : Thread → Thread) (met : Bool) : State :=
  if absentLand s l ∨ domState s (32 + l) = 0 then s
  else if !mayPost m l then countUp s (rTpstat l) 23 16 1 none
  else if met && m != .hm then refusePost s l 4
  else
    let w := coreThr l c t
    match postRefusal s l c (getThr s w) kill with
    | 0 => setThr s w (new (getThr s w))
    | n => refusePost s l n

/-- TASK_POST: a post with KILL = 0 (R112, R113). -/
def execTaskPost (m : Master) (l : Fin 32) (core : Fin 256) (thr : Fin 16) (prio : BitVec 2) (entry : BitVec 15)
    (arg : Word) (met : Bool) (s : State) : Res :=
  .next <| post s m l.val core.val thr.val false
    (fun _ => postedThread l.val core.val thr.val prio entry arg (arrayOn s l.val)) met

/-- KILL_POST: a post with KILL = 1; its other fields are not used (R113, R166). -/
def execKillPost (m : Master) (l : Fin 32) (core : Fin 256) (thr : Fin 16) (_prio : BitVec 2) (_entry : BitVec 15)
    (_arg : Word) (met : Bool) (s : State) : Res :=
  .next <| post s m l.val core.val thr.val true clearedThread met

end Sys2Proof.Machine
end

