-- ==== Sys2Proof/Machine/Operands.lean ====
section
/-! DEFINITION. Engine commands: the fields of their words and register operands, the row and stationary-buffer spans
they name, and the checks at issue (R136, R171, R185 to R198, R202, R238 to R243, R276, R277, R282, R287). -/

namespace Sys2Proof.Machine

/-- Last scratchpad row plus one; last stationary-buffer row plus one. -/
def nRows : Nat := 6144
def nStat : Nat := 128

/-! ## Format codes (R207) -/

def fFP32 : Nat := 0x0
def fE8M10 : Nat := 0x1
def fBF16 : Nat := 0x2
def fFP16 : Nat := 0x3
def fCB16 : Nat := 0x4
def fINT8 : Nat := 0xa
def fUINT8 : Nat := 0xb
def fINT4 : Nat := 0xc
def fINT32 : Nat := 0xd
def fE8M0 : Nat := 0xe

/-- Elements of a format in a 512 B row; CB16 counts its values (R207). -/
def perRow (fmt : Nat) : Nat :=
  match fmt with
  | 0x0 | 0x1 | 0xd => 128
  | 0x2 | 0x3 => 256
  | 0x4 => 384
  | 0x5 | 0x6 | 0xa | 0xb | 0xe => 512
  | 0x7 | 0x8 => 672
  | 0x9 | 0xc => 1024
  | _ => 0

/-- Width of an element in bits, the container's for E8M10 (R207). -/
def fmtBits (fmt : Nat) : Nat :=
  match fmt with
  | 0x0 | 0x1 | 0xd => 32
  | 0x2 | 0x3 => 16
  | 0x5 | 0x6 | 0xa | 0xb | 0xe => 8
  | 0x7 | 0x8 => 6
  | 0x9 | 0xc => 4
  | _ => 0

/-- Rows that n elements of a format take from a row boundary (R207, R241). -/
def rowsFor (fmt n : Nat) : Nat :=
  if fmt = fCB16 then 8 * ceilDiv n 3072 else ceilDiv n (perRow fmt)

/-- Formats that may be microscaled (R186). -/
def mxFmt (fmt : Nat) : Bool := 0x5 ≤ fmt && fmt ≤ 0xc

/-! ## Fields of a command -/

/-- IMM[hi:lo], and the fields of RA, RB and RC. -/
def EngCmd.im (e : EngCmd) (hi lo : Nat) : Nat := bits e.imm.toNat hi lo
def EngCmd.a (e : EngCmd) (hi lo : Nat) : Nat := bits e.ra.toNat hi lo
def EngCmd.b (e : EngCmd) (hi lo : Nat) : Nat := bits e.rb.toNat hi lo
def EngCmd.c (e : EngCmd) (hi lo : Nat) : Nat := bits e.rc.toNat hi lo

/-- The queue of an opcode; none for a sync command (R170). -/
def engineOf (op : Nat) : Option Eng :=
  if op ≤ 0x33 then some .mtx
  else if op ≤ 0x36 then some .vec
  else if op = 0x37 then some .red
  else if op = 0x38 then some .vec
  else if op = 0x39 then some .bank
  else if op ≤ 0x3b then some .se
  else none

/-- Registers used, and IMM bits reserved, by an opcode (R185 to R200). -/
def usesA (op : Nat) : Bool := op ≠ 0x33 ∧ op ≠ 0x3b ∧ op < 0x3c
def usesB (op : Nat) : Bool := op ≠ 0x33 ∧ op ≠ 0x3a ∧ op < 0x3c
def usesC (op imm17 : Nat) : Bool :=
  match op with
  | 0x30 | 0x34 | 0x35 | 0x38 | 0x3b => true
  | 0x39 => imm17 = 0
  | _ => false

/-- Some reserved IMM bit of an opcode is not zero, or N of a STRM without a manifest (R185 to R200). -/
def badImm (op imm : Nat) : Bool :=
  match op with
  | 0x30 => bits imm 17 16 != 0
  | 0x31 => imm != 0
  | 0x32 => bits imm 17 15 != 0
  | 0x33 => bits imm 17 8 != 0
  | 0x34 => bits imm 17 15 != 0
  | 0x35 => bits imm 17 14 != 0
  | 0x36 => bits imm 17 15 != 0
  | 0x37 => bits imm 17 7 != 0
  | 0x38 => bits imm 16 5 != 0
  | 0x39 => if bit imm 17 then bits imm 16 0 != 0 else bits imm 16 2 != 0
  | 0x3a => bits imm 17 11 != 0 || (bits imm 0 0 == 0 && bits imm 5 1 != 0)
  | 0x3b => bits imm 17 7 != 0
  | 0x3c | 0x3d => imm != 0
  | 0x3e => bits imm 16 4 != 0
  | _ => true

/-- The ILLEGAL cases of an engine command (R136, R171). -/
def illegalE (op : Nat) (f : EForm) : Bool :=
  (f.wctr == 0x3f && f.wmr != 0) || (!usesA op && f.ra != 0) || (!usesB op && f.rb != 0) ||
    (!usesC op (b2n (f.imm.getLsbD 17)) && f.rc != 0) || badImm op f.imm.toNat

/-! ## Spans of MMA (R238 to R243) -/

/-- N_c: element positions of a column operand (R240). -/
def colPositions (k : Nat) : Nat := 1024 * ceilDiv k 32

/-- Rows of a stationary or streamed operand of MMA as a whole: column operands span once, row operands per vector. -/
def EngCmd.fmts (e : EngCmd) : Nat := e.im 6 3
def EngCmd.fmtt (e : EngCmd) : Nat := e.im 10 7
def EngCmd.side (e : EngCmd) : Bool := bit e.imm.toNat 14
def EngCmd.mxs (e : EngCmd) : Bool := bit e.imm.toNat 12
def EngCmd.mxt (e : EngCmd) : Bool := bit e.imm.toNat 13
def EngCmd.kk (e : EngCmd) : Nat := e.b 20 0

/-- First row past the streamed operand (R241). -/
def EngCmd.streamEnd (e : EngCmd) : Nat :=
  if e.side then e.a 12 0 + rowsFor e.fmts (colPositions e.kk)
  else e.a 12 0 + 15 * e.a 25 13 + rowsFor e.fmts e.kk

/-- First stationary-buffer row past the stationary operand (R239 to R241). -/
def EngCmd.statEnd (e : EngCmd) : Nat :=
  if e.side then e.b 27 21 + 16 * rowsFor e.fmtt e.kk
  else e.b 27 21 + rowsFor e.fmtt (colPositions e.kk)

/-- CB16 regions of the stationary and of the streamed operand (R243). -/
def EngCmd.statRegions (e : EngCmd) : Nat :=
  if e.fmtt ≠ fCB16 then 0
  else if e.side then 16 * ceilDiv e.kk 3072 else ceilDiv (colPositions e.kk) 3072
def EngCmd.streamRegions (e : EngCmd) : Nat :=
  if e.fmts ≠ fCB16 then 0
  else if e.side then ceilDiv (colPositions e.kk) 3072 else 16 * ceilDiv e.kk 3072

/-- Bytes of block scales of the streamed and of the stationary operand (R242). -/
def EngCmd.sscaleBytes (e : EngCmd) : Nat := (if e.side then 32 else 16) * ceilDiv e.kk 32
def EngCmd.tscaleBytes (e : EngCmd) : Nat := (if e.side then 16 else 32) * ceilDiv e.kk 32

/-- The format pairs that MMA accepts (R186). -/
def pairOk (s t : Nat) : Bool :=
  (s == 0x9 && t == 0x9) || (s == 0xc && t == 0xc) ||
    (0x5 ≤ s && s ≤ 0x8 && 0x5 ≤ t && t ≤ 0x8) ||
    ((s == 0xa || s == 0xb) && (t == 0xa || t == 0xb)) ||
    ((s == 0x2 || s == 0x4) && (t == 0x2 || t == 0x4)) || (s == 0x3 && t == 0x3) ||
    (s == 0x1 && t == 0x1) || (s == 0x0 && t == 0x0)

/-- Group size G of a format pair (R266). -/
def groupSize (s : Nat) : Nat :=
  match s with
  | 0x9 | 0xc | 0x5 | 0x6 | 0x7 | 0x8 | 0xa | 0xb => 16
  | 0x2 | 0x3 | 0x4 => 8
  | _ => 4

/-! ## Vector operations -/

/-- Sources that a VOPC uses: A, B, C (R273). -/
def vopUsesB (op : Nat) : Bool :=
  [0x02, 0x03, 0x04, 0x05, 0x07, 0x08, 0x09, 0x0c, 0x0d, 0x0e, 0x0f, 0x2d, 0x2e, 0x2f, 0x30, 0x31, 0x32, 0x33, 0x34,
    0x40].contains op
def vopUsesC (op : Nat) : Bool := op == 0x05 || op == 0x0f || op == 0x34

/-- The operation codes of R273. -/
def vopKnown (op : Nat) : Bool :=
  (0x01 ≤ op && op ≤ 0x0f) || (0x20 ≤ op && op ≤ 0x34) || op == 0x40

/-- The run operations (R276), and RUN. -/
def runOp (op : Nat) : Bool := 0x30 ≤ op && op ≤ 0x34
def EngCmd.run (e : EngCmd) : Nat := e.c 19 0

/-- Elements of a VOP, VTAB, VCVT or RED command; rows of its source B and C (R275, R276). -/
def EngCmd.vopc (e : EngCmd) : Nat := e.im 7 0
def EngCmd.vcount (e : EngCmd) : Nat := e.b 12 0
def EngCmd.vopN (e : EngCmd) : Nat := e.vcount * perRow (e.im 11 8)
def EngCmd.vopBRows (e : EngCmd) : Nat :=
  if runOp e.vopc then ceilDiv (ceilDiv e.vopN e.run) (perRow (e.im 11 8))
  else if bit e.rb.toNat 14 then 1 else e.vcount
def EngCmd.vopCRows (e : EngCmd) : Nat :=
  if e.vopc = 0x34 then ceilDiv e.run (perRow (e.im 11 8))
  else if bit e.rb.toNat 15 then 1 else e.vcount
def EngCmd.adrain (e : EngCmd) : Bool := bit e.rb.toNat (if e.op = 0x35 then 26 else 13) && e.op ≠ 0x36

/-- Rows of the destination range of a VOP, that of R277 for PICKGE. -/
def EngCmd.vopDstRows (e : EngCmd) : Nat := if e.vopc = 0x40 then ceilDiv (e.vopN + 1) 64 else e.vcount

/-- Elements, and rows, of a VCVT's source and destination, and of its block scales (R282). -/
def EngCmd.cvtN (e : EngCmd) : Nat := e.vcount * perRow (e.im 3 0)
def EngCmd.cvtDstRows (e : EngCmd) : Nat := rowsFor (e.im 7 4) e.cvtN
def EngCmd.cvtScaleRows (e : EngCmd) : Nat := ceilDiv e.cvtN 16384

/-- Elements, results and result rows of a RED (R287). -/
def EngCmd.redN (e : EngCmd) : Nat := e.vcount * perRow (e.im 6 3)
def EngCmd.redLen (e : EngCmd) : Nat := e.b 33 14
def EngCmd.redSize (e : EngCmd) : Nat := if e.im 2 0 ≤ 2 then 4 else 8
def EngCmd.redRows (e : EngCmd) : Nat := ceilDiv (ceilDiv e.redN e.redLen * e.redSize) 512

/-- Rows of the output of an MDR (R188). -/
def EngCmd.mdrRows (e : EngCmd) : Nat := ceilDiv (512 * fmtBits (e.im 6 3)) 4096

/-! ## Checks at issue (R202) -/

/-- A row range from r of n rows ends past the scratchpad; a range of no rows does not. -/
def pastRows (r n : Nat) : Bool := n != 0 && decide (nRows < r + n)

/-- Counts out of 1 to 6,144. -/
def badCount (n : Nat) : Bool := n = 0 || nRows < n

/-- A format that MMA accepts in some pair (R186). -/
def mmaFmt (fmt : Nat) : Bool := fmt ≤ 0xc

/-- Each failed check of a queued command beyond the common ones, as REASON with whether it fails. A range whose extent
depends on a format code, a LEN or a RUN that the command never accepts has no extent (log 41). -/
def checksMma (e : EngCmd) : List (Nat × Bool) :=
  let ok := pairOk e.fmts e.fmtt
  let live := e.kk != 0
  let nreg := e.statRegions + e.streamRegions
  [(0x04, live && ((mmaFmt e.fmts && decide (nRows < e.streamEnd)) || pastRows (e.c 12 0) (ceilDiv nreg 32) ||
      (e.mxs && pastRows (e.c 25 13) (ceilDiv e.sscaleBytes 512)))),
   (0x05, e.a 63 26 != 0 || e.b 63 41 != 0 || e.c 63 45 != 0 || e.kk == 0 || decide (1048576 < e.kk) ||
      ((e.mxs || e.mxt) && e.kk % 32 != 0) || (!e.side && decide (6143 < e.a 25 13))),
   (0x06, !ok || (e.mxs && !mxFmt e.fmts) || (e.mxt && !mxFmt e.fmtt) ||
      ((e.fmts == 0xa || e.fmts == 0xb || e.fmts == 0xc) && e.mxs != e.mxt)),
   (0x09, live && ((mmaFmt e.fmtt && decide (nStat < e.statEnd)) || (e.mxt && nStat < e.c 32 26 + ceilDiv e.tscaleBytes 512)))]

def checksMld (e : EngCmd) : List (Nat × Bool) :=
  let n := e.a 20 13
  [(0x04, pastRows (e.a 12 0) n), (0x05, e.a 63 21 != 0 || e.b 63 7 != 0 || n == 0 || decide (nStat < n)),
   (0x09, nStat < e.b 6 0 + n)]

def checksMdr (e : EngCmd) : List (Nat × Bool) :=
  [(0x04, (!bit e.imm.toNat 12 && pastRows (e.a 12 0) e.mdrRows) || (bit e.imm.toNat 10 && pastRows (e.a 25 13) 1) ||
      (bit e.imm.toNat 11 && pastRows (e.a 38 26) 1)),
   (0x05, e.a 63 39 != 0), (0x06, e.im 6 3 == 0x4 || e.im 6 3 == 0xe || e.im 6 3 == 0xf), (0x07, 4 < e.im 9 7)]

def checksVop (e : EngCmd) : List (Nat × Bool) :=
  let op := e.vopc
  let fmt := e.im 11 8
  let n := e.vcount
  let okf := fmt == 0x0 || fmt == 0x2 || fmt == 0x3
  let okr := !(runOp op) || e.run != 0
  let bn := if vopUsesB op && (!(runOp op) || okf && okr) then e.vopBRows else 0
  let cn := if vopUsesC op && (op != 0x34 || okf) then e.vopCRows else 0
  let dst := e.a 51 39
  let dn := if op == 0x40 && !okf then 0 else e.vopDstRows
  [(0x04, (!e.adrain && pastRows (e.a 12 0) n) || pastRows (e.a 25 13) bn || pastRows (e.a 38 26) cn || pastRows dst dn),
   (0x05, e.a 63 52 != 0 || e.b 63 16 != 0 || e.c 63 32 != 0 || badCount n ||
      (runOp op && (e.run == 0 || e.c 31 20 != 0 || bit e.rb.toNat 14)) || (op == 0x34 && bit e.rb.toNat 15) ||
      (op == 0x40 && !bit e.rb.toNat 14)),
   (0x06, !okf), (0x07, 3 < e.im 14 12), (0x08, !vopKnown op),
   (0x0a, (!e.adrain && (op == 0x40 || dst != e.a 12 0) && overlaps dst dn (e.a 12 0) n) ||
      overlaps dst dn (e.a 25 13) bn || overlaps dst dn (e.a 38 26) cn)]

def checksVcvt (e : EngCmd) : List (Nat × Bool) :=
  let sf := e.im 3 0
  let df := e.im 7 4
  let okf := sf != 0x4 && sf != 0xf && df != 0x4 && df != 0xf
  let n := e.vcount
  let mxin := bit e.imm.toNat 12
  let mxout := bit e.imm.toNat 13
  let oks := sf != 0x4 && sf != 0xf
  [(0x04, (!e.adrain && pastRows (e.a 12 0) n) || (okf && pastRows (e.a 25 13) e.cvtDstRows) ||
      (oks && (mxin || mxout) && pastRows (e.b 25 13) e.cvtScaleRows)),
   (0x05, e.a 63 26 != 0 || e.b 63 27 != 0 || badCount n),
   (0x06, !okf || (mxin && !mxFmt sf) || (mxout && !mxFmt df)), (0x07, 4 < e.im 10 8),
   (0x0a, okf && !e.adrain && overlaps (e.a 25 13) e.cvtDstRows (e.a 12 0) n)]

def checksVtab (e : EngCmd) : List (Nat × Bool) :=
  let fmt := e.im 3 0
  let n := e.vcount
  let tn := ceilDiv (e.im 14 7 + 1) 16
  let src := e.a 12 0
  let dst := e.a 25 13
  let tab := e.a 38 26
  [(0x04, pastRows src n || pastRows dst n || pastRows tab tn), (0x05, e.a 63 39 != 0 || e.b 63 13 != 0 || badCount n),
   (0x06, fmt != 0x0 && fmt != 0x2 && fmt != 0x3), (0x07, 3 < e.im 6 4),
   (0x0a, (dst != src && overlaps dst n src n) || overlaps dst n tab tn)]

def checksRed (e : EngCmd) : List (Nat × Bool) :=
  let fmt := e.im 6 3
  let okf := [0x0, 0x1, 0x2, 0x3, 0xa, 0xb, 0xd].contains fmt
  let n := e.vcount
  let okl := e.redLen != 0
  [(0x04, pastRows (e.a 12 0) n || (okf && okl && e.im 2 0 ≤ 4 && pastRows (e.a 25 13) e.redRows)),
   (0x05, e.a 63 26 != 0 || e.b 13 13 != 0 || e.b 63 34 != 0 || badCount n || !okl),
   (0x06, !okf), (0x08, 4 < e.im 2 0),
   (0x0a, okf && okl && overlaps (e.a 25 13) e.redRows (e.a 12 0) n),
   (0x10, okf && okl && e.redN % e.redLen != 0)]

/-- Source rows per region of PACK, destination rows of UNPK (R195). -/
def EngCmd.regionRows (e : EngCmd) : Nat := if e.im 3 0 = fFP32 then 24 else 12

def checksPack (e : EngCmd) : List (Nat × Bool) :=
  let unpk := bit e.imm.toNat 17
  let sup := bit e.imm.toNat 4
  let n := e.b 9 0
  let wide := e.regionRows * n
  let sn := if unpk then 8 * n else wide
  let dn := if unpk then wide else 8 * n
  let src := e.a 12 0
  let dst := e.a 25 13
  let okf := e.im 3 0 == fBF16 || e.im 3 0 == fFP32
  [(0x04, ((unpk || okf) && pastRows src sn) || ((!unpk || okf) && pastRows dst dn) ||
      pastRows (e.a 38 26) (ceilDiv n 32) || (!unpk && pastRows (e.a 51 39) (4 * e.b 19 10)) ||
      (!unpk && sup && pastRows (e.c 12 0) (e.c 25 13)) || (unpk && sup && pastRows (e.c 12 0) 1)),
   (0x05, e.a 63 52 != 0 || e.b 63 28 != 0 || e.c 63 26 != 0 || n == 0 || decide (512 < n) ||
      (!unpk && sup && e.c 25 13 == 0)),
   (0x06, !okf), (0x0a, okf && overlaps dst dn src sn)]

def checksRows (e : EngCmd) : List (Nat × Bool) :=
  let copy := bit e.imm.toNat 17
  let n := e.b 12 0
  let src := e.a 12 0
  let dst := if copy then e.a 25 13 else e.a 12 0
  [(0x04, pastRows dst n || (copy && pastRows src n)),
   (0x05, (if copy then e.a 63 26 != 0 else e.a 63 13 != 0) || e.b 63 13 != 0 || badCount n),
   (0x0a, copy && overlaps dst n src n)]

def checksStrm (e : EngCmd) : List (Nat × Bool) :=
  let n := e.im 5 1
  [(0x05, e.a 63 17 != 0), (0x0b, 31 < e.im 10 6 + n),
   (0x0c, e.a 16 0 % 64 != 0 || decide (0x20000 < e.a 16 0 + 64 * (n + 1)))]

/-- The checks of each opcode (R202). -/
def checksOf (e : EngCmd) : List (Nat × Bool) :=
  match e.op.toNat with
  | 0x30 => checksMma e
  | 0x31 => checksMld e
  | 0x32 => checksMdr e
  | 0x34 => checksVop e
  | 0x35 => checksVcvt e
  | 0x36 => checksVtab e
  | 0x37 => checksRed e
  | 0x38 => checksPack e
  | 0x39 => checksRows e
  | 0x3a => checksStrm e
  | _ => []

/-- A counter number that no counter has. -/
def badCtr (n : BitVec 6) : Bool := 48 ≤ n.toNat && n.toNat ≤ 62

/-- The checks common to every engine command; `wmr` is the mark register whole (R202). -/
def checksCommon (f : EForm) (wmr : Dword) : List (Nat × Bool) :=
  [(0x01, badCtr f.wctr || badCtr f.sctr), (0x02, (f.sctr == 0x3f) != (f.sinc == 0)),
   (0x03, bits wmr.toNat 63 48 != 0)]

/-- The lowest REASON that fails, none where every check passes (R202). -/
def firstReason (cs : List (Nat × Bool)) : Option Nat :=
  (cs.filter fun c => c.2).foldl
    (fun a c => match a with | none => some c.1 | some m => some (min m c.1)) none

end Sys2Proof.Machine
end

