-- ==== Sys2Proof/Machine/Numbers.lean ====
section
/-! DEFINITION. Number formats: exact values, decoding, the five rounding modes, encoding with overflow, NaN and poison
rules, elements in rows, and microscaling (R207 to R220). -/

namespace Sys2Proof.Machine

/-! ## Exact values -/

/-- A value: NaN, an infinity, a signed zero, or the number ±(n / d) 2^e with n and d not zero. -/
inductive Val where
  | nan
  | inf (neg : Bool)
  | zero (neg : Bool)
  | num (neg : Bool) (n d : Nat) (e : Int)
deriving DecidableEq, Repr

/-- The value n / d times 2^e; a zero takes the given sign. -/
def Val.mk (n : Int) (d : Nat) (e : Int) (zneg : Bool) : Val :=
  if n = 0 then .zero zneg else .num (n < 0) n.natAbs d e

def Val.ofInt (n : Int) : Val := Val.mk n 1 0 false

/-- The sign of a value; NaN counts as positive. -/
def Val.neg? : Val → Bool
  | .nan => false
  | .inf s | .zero s => s
  | .num s _ _ _ => s

def Val.isNan : Val → Bool
  | .nan => true
  | _ => false

def Val.isInf : Val → Bool
  | .inf _ => true
  | _ => false

def Val.isZero : Val → Bool
  | .zero _ => true
  | _ => false

def Val.negate : Val → Val
  | .nan => .nan
  | .inf s => .inf (!s)
  | .zero s => .zero (!s)
  | .num s n d e => .num (!s) n d e

def Val.abs : Val → Val
  | .nan => .nan
  | .inf _ => .inf false
  | .zero _ => .zero false
  | .num _ n d e => .num false n d e

/-- The value with the given sign flipped in where `s` holds. -/
def Val.flip (s : Bool) (v : Val) : Val := if s then v.negate else v

/-- The value times a power of two. -/
def Val.scale (v : Val) (k : Int) : Val :=
  match v with
  | .num s n d e => .num s n d (e + k)
  | v => v

/-- A magnitude with its sign. -/
def signed (s : Bool) (n : Nat) : Int := if s then -(n : Int) else (n : Int)

/-- A number times 2^k, for k not negative. -/
def shl (n : Int) (k : Int) : Int := n * (2 ^ k.toNat : Nat)

/-- The sum of two finite numbers (n, d, e). -/
def addQ (n1 : Int) (d1 : Nat) (e1 : Int) (n2 : Int) (d2 : Nat) (e2 : Int) : Int × Nat × Int :=
  let e := min e1 e2
  let a := shl n1 (e1 - e)
  let b := shl n2 (e2 - e)
  if d1 = d2 then (a + b, d1, e) else (a * d2 + b * d1, d1 * d2, e)

/-- The exact sum; an exact cancellation is −0 where `rdn` holds, else +0 (R272, IEEE 754). -/
def Val.add (rdn : Bool) : Val → Val → Val
  | .nan, _ | _, .nan => .nan
  | .inf a, .inf b => if a = b then .inf a else .nan
  | .inf a, _ | _, .inf a => .inf a
  | .zero a, .zero b => if a = b then .zero a else .zero rdn
  | .zero _, y => y
  | x, .zero _ => x
  | .num s1 n1 d1 e1, .num s2 n2 d2 e2 =>
    let r := addQ (signed s1 n1) d1 e1 (signed s2 n2) d2 e2
    Val.mk r.1 r.2.1 r.2.2 rdn

/-- The exact product; its sign is the exclusive OR of the signs (R272). -/
def Val.mul : Val → Val → Val
  | .nan, _ | _, .nan => .nan
  | .inf a, y => if y.isZero then .nan else .inf (a != y.neg?)
  | x, .inf b => if x.isZero then .nan else .inf (x.neg? != b)
  | .zero a, y => .zero (a != y.neg?)
  | x, .zero b => .zero (x.neg? != b)
  | .num s1 n1 d1 e1, .num s2 n2 d2 e2 => .num (s1 != s2) (n1 * n2) (d1 * d2) (e1 + e2)

/-- The exact quotient (R272, R274). -/
def Val.div : Val → Val → Val
  | .nan, _ | _, .nan => .nan
  | .inf a, y => if y.isInf then .nan else .inf (a != y.neg?)
  | x, .inf b => .zero (x.neg? != b)
  | .zero a, y => if y.isZero then .nan else .zero (a != y.neg?)
  | x, .zero b => .inf (x.neg? != b)
  | .num s1 n1 d1 e1, .num s2 n2 d2 e2 => .num (s1 != s2) (n1 * d2) (d1 * n2) (e1 - e2)

/-- The order of values, both zeros equal: negative, zero or positive as x is below, at or above y. NaN counts as
equal to everything; callers treat it first. -/
def Val.order (x y : Val) : Int :=
  match x, y with
  | .nan, _ | _, .nan => 0
  | .inf a, .inf b => if a = b then 0 else if a then -1 else 1
  | .inf a, _ => if a then -1 else 1
  | _, .inf b => if b then 1 else -1
  | x, y =>
    match x.add false y.negate with
    | .num s _ _ _ => if s then -1 else 1
    | _ => 0

/-- x is below y where −0 counts as less than +0 (R274, R286). -/
def Val.below (x y : Val) : Bool :=
  let o := x.order y
  o < 0 || (o == 0 && x.isZero && y.isZero && x.neg? && !y.neg?)

/-- floor(log2(n / d)) for n and d not zero. -/
def ilog2Q (n d : Nat) : Int :=
  let a : Int := (n.log2 : Int) - (d.log2 : Int)
  if 0 ≤ a then (if n < d * 2 ^ a.toNat then a - 1 else a)
  else if n * 2 ^ (-a).toNat < d then a - 1 else a

/-- floor(log2 |v|), none unless v is finite and not zero. -/
def Val.ex : Val → Option Int
  | .num _ n d e => some (ilog2Q n d + e)
  | _ => none

/-! ## Rounding (R214, R215) -/

/-- The 16 bits of stochastic rounding (R215). -/
def srBits (key : Dword) (idx : Nat) : Nat :=
  let z : Dword := key + BitVec.ofNat 64 (idx + 1) * 0x9e3779b97f4a7c15
  let z := (z ^^^ (z >>> 30)) * 0xbf58476d1ce4e5b9
  let z := (z ^^^ (z >>> 27)) * 0x94d049bb133111eb
  let z := z ^^^ (z >>> 31)
  z.toNat % 65536

/-- How a command rounds: the mode's code, the key and the element index (R214 to R216). -/
structure Rnd where
  mode : Nat
  key  : Dword
  idx  : Nat
deriving DecidableEq, Repr

def rne : Rnd := ⟨0, 0, 0⟩

/-- N / D rounded to a whole number of quanta, for a magnitude of the given sign (R214, R215). -/
def roundQ (r : Rnd) (neg : Bool) (N D : Nat) : Nat :=
  let k := N / D
  let m := N % D
  if m = 0 then k
  else
    match r.mode with
    | 0 => if 2 * m < D then k else if D < 2 * m then k + 1 else k + k % 2
    | 1 => k
    | 2 => if neg then k else k + 1
    | 3 => if neg then k + 1 else k
    | _ => if 65536 ≤ m * 65536 / D + srBits r.key r.idx then k + 1 else k

/-- n / d times 2^e in units of 2^q, as a fraction. -/
def inUnits (n d : Nat) (e q : Int) : Nat × Nat :=
  let k := e - q
  if 0 ≤ k then (n * 2 ^ k.toNat, d) else (n, d * 2 ^ (-k).toNat)

/-- The integer nearest to a value, ties to even, in units of 2^q (R249); 0 unless the value is finite. -/
def rneInt (v : Val) (q : Int) : Int :=
  match v with
  | .num s n d e =>
    let u := inUnits n d e q
    signed s (roundQ rne s u.1 u.2)
  | _ => 0

/-! ## Formats (R207 to R209) -/

/-- The encodings of special values: as IEEE 754, one NaN pattern alone, none. -/
inductive Special where
  | ieee | e4m3 | none
deriving DecidableEq, Repr

/-- A floating-point layout: exponent and mantissa bits, bias, special values, low padding bits. -/
structure Layout where
  eb   : Nat
  mb   : Nat
  bias : Nat
  sp   : Special
  pad  : Nat
deriving DecidableEq, Repr

/-- The floating-point formats (R207). -/
def layoutOf (fmt : Nat) : Option Layout :=
  match fmt with
  | 0x0 => some ⟨8, 23, 127, .ieee, 0⟩
  | 0x1 => some ⟨8, 10, 127, .ieee, 13⟩
  | 0x2 => some ⟨8, 7, 127, .ieee, 0⟩
  | 0x3 => some ⟨5, 10, 15, .ieee, 0⟩
  | 0x5 => some ⟨4, 3, 7, .e4m3, 0⟩
  | 0x6 => some ⟨5, 2, 15, .ieee, 0⟩
  | 0x7 => some ⟨3, 2, 3, .none, 0⟩
  | 0x8 => some ⟨2, 3, 1, .none, 0⟩
  | 0x9 => some ⟨2, 1, 1, .none, 0⟩
  | _ => none

/-- The integer formats: lowest and highest value (R208). -/
def intRange (fmt : Nat) : Option (Int × Int) :=
  match fmt with
  | 0xa => some (-128, 127)
  | 0xb => some (0, 255)
  | 0xc => some (-8, 7)
  | 0xd => some (-(2 ^ 31 : Nat), (2 ^ 31 - 1 : Nat))
  | _ => none

def isIntFmt (fmt : Nat) : Bool := (intRange fmt).isSome

/-- Canonical NaN of a layout (R208). -/
def Layout.canon (f : Layout) : Nat :=
  match f.sp with
  | .ieee => ((2 ^ f.eb - 1) * 2 ^ f.mb + 2 ^ (f.mb - 1)) * 2 ^ f.pad
  | .e4m3 => 0x7f
  | .none => 0

/-- Exponent and mantissa fields of the largest finite value. -/
def Layout.top (f : Layout) : Nat × Nat :=
  match f.sp with
  | .ieee => (2 ^ f.eb - 2, 2 ^ f.mb - 1)
  | .e4m3 => (2 ^ f.eb - 1, 2 ^ f.mb - 2)
  | .none => (2 ^ f.eb - 1, 2 ^ f.mb - 1)

/-- A code from its fields. -/
def Layout.code (f : Layout) (neg : Bool) (e m : Nat) : Nat :=
  (b2n neg * 2 ^ (f.eb + f.mb) + e * 2 ^ f.mb + m) * 2 ^ f.pad

def Layout.topCode (f : Layout) (neg : Bool) : Nat := f.code neg f.top.1 f.top.2

/-- The value of a floating-point code (R207 to R209). -/
def Layout.decode (f : Layout) (c : Nat) : Val :=
  let raw := c / 2 ^ f.pad % 2 ^ (1 + f.eb + f.mb)
  let s := raw / 2 ^ (f.eb + f.mb) % 2 == 1
  let e := raw / 2 ^ f.mb % 2 ^ f.eb
  let m := raw % 2 ^ f.mb
  let ones := e == 2 ^ f.eb - 1
  let special := match f.sp with
    | .ieee => ones
    | .e4m3 => ones && m == 2 ^ f.mb - 1
    | .none => false
  if special then (if f.sp = .ieee ∧ m = 0 then .inf s else .nan)
  else if e = 0 then
    (if m = 0 then .zero s else .num s m 1 (1 - (f.bias : Int) - (f.mb : Int)))
  else .num s (2 ^ f.mb + m) 1 ((e : Int) - (f.bias : Int) - (f.mb : Int))

/-- The value of an element code; CB16 and the reserved format have none here. -/
def decodeElem (fmt c : Nat) : Val :=
  match layoutOf fmt with
  | some f => f.decode c
  | none =>
    match intRange fmt with
    | some (lo, _) =>
      let w := fmtBits fmt
      if lo < 0 then Val.ofInt (sextNat w c) else Val.ofInt (c % 2 ^ w : Nat)
    | none =>
      if fmt = fE8M0 then (if c % 256 = 255 then .nan else .num false 1 1 ((c % 256 : Nat) - 127)) else .zero false

/-- A rounded magnitude of k quanta 2^q as exponent and mantissa fields; k below 2^(mb+1) or equal to it. -/
def Layout.fields (f : Layout) (k : Nat) (q : Int) : Nat × Nat :=
  let k' := if k = 2 ^ (f.mb + 1) then 2 ^ f.mb else k
  let q' := if k = 2 ^ (f.mb + 1) then q + 1 else q
  if k' < 2 ^ f.mb then (0, k') else ((q' + (f.mb : Int) + (f.bias : Int)).toNat, k' - 2 ^ f.mb)

/-- The overflow result of R217 for an infinite or rounded-up source. -/
def Layout.overflow (f : Layout) (neg sat : Bool) : Nat :=
  if sat ∨ f.sp = .none then f.topCode neg
  else if f.sp = .e4m3 then f.canon
  else f.code neg (2 ^ f.eb - 1) 0

/-- A finite source that overflows under this mode gives the largest finite value (R217). -/
def towardZero (r : Rnd) (neg : Bool) : Bool := r.mode == 1 || (r.mode == 3 && !neg) || (r.mode == 2 && neg)

/-- Conversion of an exact value to a floating-point format: the code, and whether the row is poisoned (R214 to
R218). -/
def Layout.encode (f : Layout) (v : Val) (r : Rnd) (sat : Bool) : Nat × Bool :=
  match v with
  | .nan => (f.canon, f.sp == .none)
  | .zero s => (f.code s 0 0, false)
  | .inf s => (f.overflow s sat, false)
  | .num s n d e =>
    let q : Int := max (ilog2Q n d + e) (1 - (f.bias : Int)) - (f.mb : Int)
    let u := inUnits n d e q
    let p := f.fields (roundQ r s u.1 u.2) q
    if p.1 < f.top.1 ∨ (p.1 = f.top.1 ∧ p.2 ≤ f.top.2) then (f.code s p.1 p.2, false)
    else if towardZero r s then (f.topCode s, false)
    else (f.overflow s sat, false)

/-- Conversion to an integer format (R214, R217, R218). -/
def encodeInt (fmt : Nat) (lo hi : Int) (v : Val) (r : Rnd) : Nat × Bool :=
  let code (x : Int) : Nat := (x % ((2 ^ fmtBits fmt : Nat) : Int)).toNat
  match v with
  | .nan => (0, true)
  | .zero _ => (0, false)
  | .inf s => (code (if s then lo else hi), false)
  | .num s n d e =>
    let u := inUnits n d e 0
    (code (max lo (min hi (signed s (roundQ r s u.1 u.2)))), false)

/-- Conversion to E8M0 (R220). -/
def encodeE8M0 : Val → Nat
  | .nan | .inf _ => 0xff
  | .zero _ => 0
  | .num _ n d e =>
    let k := ilog2Q n d + e
    if k < -126 then 0 else min (k + 127).toNat 0xfe

/-- Conversion of an exact value to a format: the code, and whether the destination row is poisoned (R214 to R220). -/
def encodeElem (fmt : Nat) (v : Val) (r : Rnd) (sat : Bool) : Nat × Bool :=
  match layoutOf fmt with
  | some f => f.encode v r sat
  | none =>
    match intRange fmt with
    | some (lo, hi) => encodeInt fmt lo hi v r
    | none => (encodeE8M0 v, false)

/-! ## Elements in rows (R208, R282) -/

/-- The element codes of a row, from byte 0. -/
def rowCodes (fmt : Nat) (row : List Byte) : List Nat :=
  let x := leNat (row.take (if fmtBits fmt = 6 then 504 else 512))
  (upto (perRow fmt)).map fun i => x / 2 ^ (fmtBits fmt * i) % 2 ^ fmtBits fmt

/-- Element code i counted from the first of these rows. -/
def elemAt (fmt : Nat) (rows : List (List Byte)) (i : Nat) : Nat :=
  let row := rows.getD (i / perRow fmt) []
  let j := i % perRow fmt
  let w := fmtBits fmt
  leNat ((row.drop (w * j / 8)).take ((w * j % 8 + w + 7) / 8)) / 2 ^ (w * j % 8) % 2 ^ w

/-- Codes packed as one number, the first lowest. -/
def packCodes (w : Nat) : List Nat → Nat
  | [] => 0
  | c :: r => c % 2 ^ w + 2 ^ w * packCodes w r

/-- One row from at most a row's worth of codes; the rest of it is zero. -/
def codesRow (fmt : Nat) (cs : List Nat) : List Byte := leBytes 512 (packCodes (fmtBits fmt) cs)

/-- n rows from codes. -/
def codesRows (fmt : Nat) : Nat → List Nat → List (List Byte)
  | 0, _ => []
  | n + 1, cs => codesRow fmt (cs.take (perRow fmt)) :: codesRows fmt n (cs.drop (perRow fmt))

/-! ## Microscaling (R210, R212) -/

/-- The value of a microscaled element: none for an integer element of a block whose scale is 0xFF, which has no
value (R210). -/
def mxDecode (fmt c scale : Nat) : Option Val :=
  if scale % 256 = 255 then (if isIntFmt fmt then none else some .nan)
  else
    let v := decodeElem fmt c
    let v := if fmt = fINT8 then v.scale (-6) else v
    some (v.scale ((scale % 256 : Nat) - 127))

/-- Exponent of the largest power of two of an element format (R212). -/
def mxEmax (fmt : Nat) : Int :=
  match fmt with
  | 0x5 => 8 | 0x6 => 15 | 0x7 => 4 | 0x8 => 2 | 0x9 => 2 | 0xa => 0 | 0xb => 7 | _ => 2

/-- The largest exponent among nonzero values, none where every value is zero. -/
def maxEx (vs : List Val) : Option Int :=
  vs.foldl (fun a v => match a, v.ex with
    | none, e => e
    | a, none => a
    | some a, some e => some (max a e)) none

/-- The scale of a block (R212). -/
def mxScale (fmt : Nat) (vs : List Val) : Nat :=
  if vs.any fun v => v.isNan || v.isInf then 0xff
  else
    match maxEx vs with
    | none => 0
    | some k => (max 0 (min 0xfe (k - mxEmax fmt + 127))).toNat

/-- An element of a microscaled destination: the conversion of x / 2^(s − 127), the MXINT8 integer in units of 2^−6;
zero with poison in a block of scale 0xFF (R212, R213). -/
def mxEncode (fmt scale : Nat) (v : Val) (r : Rnd) (sat : Bool) : Nat × Bool :=
  if scale = 0xff then (0, true)
  else
    let v := v.scale (127 - (scale : Int))
    encodeElem fmt (if fmt = fINT8 then v.scale 6 else v) r sat

end Sys2Proof.Machine
end

