-- ==== Sys2Proof/Machine/Functions.lean ====
section
/-! DEFINITION. The functions of the vector engine as exact values rounded once (R272 to R274). A value that is not
rational is enclosed between two fixed-point numbers; the enclosure is refined until both ends round alike. -/

namespace Sys2Proof.Machine

/-! ## Enclosures in units of 2^−p -/

/-- An enclosure: lo ≤ x 2^p ≤ hi. -/
structure Encl where
  lo : Int
  hi : Int
deriving DecidableEq, Repr

/-- Quotient rounded down, and up, by a positive number. -/
def divDown (a : Int) (b : Nat) : Int := a / (b : Int)
def divUp (a : Int) (b : Nat) : Int := -((-a) / (b : Int))

def Encl.add (x y : Encl) : Encl := ⟨x.lo + y.lo, x.hi + y.hi⟩
def Encl.sub (x y : Encl) : Encl := ⟨x.lo - y.hi, x.hi - y.lo⟩
def Encl.neg (x : Encl) : Encl := ⟨-x.hi, -x.lo⟩
def Encl.widen (x : Encl) (k : Int) : Encl := ⟨x.lo - k, x.hi + k⟩

/-- The product, outward rounded. -/
def Encl.mul (p : Nat) (x y : Encl) : Encl :=
  let a := x.lo * y.lo
  let b := x.lo * y.hi
  let c := x.hi * y.lo
  let d := x.hi * y.hi
  ⟨divDown (min (min a b) (min c d)) (2 ^ p), divUp (max (max a b) (max c d)) (2 ^ p)⟩

/-- An integer multiple. -/
def Encl.times (x : Encl) (k : Int) : Encl := if 0 ≤ k then ⟨x.lo * k, x.hi * k⟩ else ⟨x.hi * k, x.lo * k⟩

/-- The quotient by a positive whole number. -/
def Encl.over (x : Encl) (n : Nat) : Encl := ⟨divDown x.lo n, divUp x.hi n⟩

/-- The quotient by an enclosure of positive numbers. -/
def Encl.quot (p : Nat) (x y : Encl) : Encl :=
  let lo := if x.lo < 0 then divDown (x.lo * (2 ^ p : Nat)) y.lo.toNat else divDown (x.lo * (2 ^ p : Nat)) y.hi.toNat
  let hi := if x.hi < 0 then divUp (x.hi * (2 ^ p : Nat)) y.hi.toNat else divUp (x.hi * (2 ^ p : Nat)) y.lo.toNat
  ⟨lo, hi⟩

/-- The larger magnitude of the ends. -/
def Encl.mag (x : Encl) : Nat := max x.lo.natAbs x.hi.natAbs

def one (p : Nat) : Encl := ⟨(2 ^ p : Nat), (2 ^ p : Nat)⟩

/-- A rational number n / d 2^e. -/
def Encl.ofQ (p : Nat) (n : Int) (d : Nat) (e : Int) : Encl :=
  let k := (p : Int) + e
  if 0 ≤ k then ⟨divDown (shl n k) d, divUp (shl n k) d⟩
  else ⟨divDown n (d * 2 ^ (-k).toNat), divUp n (d * 2 ^ (-k).toNat)⟩

/-- Terms t, t x / (k+1), t x / ((k+1)(k+2)), … of e^x from the k-th on, for |x| ≤ 1; the rest is below the last
term's magnitude. -/
def expTerms (p : Nat) (x : Encl) : Nat → Nat → Encl → Encl → Encl
  | 0, _, t, a => a.widen (4 * t.mag + 4)
  | n + 1, k, t, a => if t.mag ≤ 2 then a.widen 8 else expTerms p x n (k + 1) ((t.mul p x).over (k + 1)) (a.add t)

/-- e^x for |x| ≤ 1. -/
def expSmall (p : Nat) (x : Encl) : Encl := expTerms p x (p + 8) 0 (one p) ⟨0, 0⟩

/-- Terms z^(2k+1) / (2k+1), with alternating signs where `alt` holds, for |z| ≤ 1/2. -/
def atanTerms (p : Nat) (zz : Encl) (alt : Bool) : Nat → Nat → Encl → Encl → Encl
  | 0, _, t, a => a.widen (4 * t.mag + 4)
  | n + 1, k, t, a =>
    if t.mag ≤ 2 then a.widen 8
    else
      let u := t.over (2 * k + 1)
      atanTerms p zz alt n (k + 1) (t.mul p zz) (if alt && k % 2 == 1 then a.sub u else a.add u)

/-- artanh z, and arctan z, for |z| ≤ 1/2. -/
def atanh (p : Nat) (z : Encl) : Encl := atanTerms p (z.mul p z) false (p + 8) 0 z ⟨0, 0⟩
def atan (p : Nat) (z : Encl) : Encl := atanTerms p (z.mul p z) true (p + 8) 0 z ⟨0, 0⟩

def ln2 (p : Nat) : Encl := (atanh p (Encl.ofQ p 1 3 0)).times 2
def pi (p : Nat) : Encl := ((atan p (Encl.ofQ p 1 5 0)).times 16).sub ((atan p (Encl.ofQ p 1 239 0)).times 4)

/-- e^x as an enclosure and a power of two, with x reduced by a multiple of ln 2. -/
def expE (p : Nat) (x : Encl) : Encl × Int :=
  let l := ln2 p
  let k := (x.lo + l.lo / 2) / (max l.lo 1)
  (expSmall p (x.sub (l.times k)), k)

/-- The natural logarithm of n / d, for n and d not zero. -/
def lnE (p : Nat) (n d : Nat) (e : Int) : Encl :=
  let k := ilog2Q n d
  -- m = n / d / 2^k lies in [1, 2); z = (m - 1) / (m + 1) lies in [0, 1/3)
  let u := inUnits n d 0 k
  let z := Encl.ofQ p ((u.1 : Int) - (u.2 : Int)) (u.1 + u.2) 0
  let m := (atanh p z).times 2
  -- near 1 from below, m = 2 - ε would cancel against ln 2: take n / d / 2^(k+1) instead
  if 3 * u.1 < 4 * u.2 then m.add ((ln2 p).times (k + e))
  else
    let z := Encl.ofQ p ((u.1 : Int) - 2 * (u.2 : Int)) (u.1 + 2 * u.2) 0
    ((atanh p z).times 2).add ((ln2 p).times (k + 1 + e))

/-- Square root of a number by bits, from bit b down. -/
def sqrtBits (x : Nat) : Nat → Nat → Nat
  | 0, r => r
  | b + 1, r =>
    let r' := r + 2 ^ b
    if r' * r' ≤ x then sqrtBits x b r' else sqrtBits x b r

/-- The whole square root. -/
def natSqrt (x : Nat) : Nat := sqrtBits x (x.log2 / 2 + 1) 0

/-- Terms of sin (from k = 1) or cos (from k = 0) for |x| ≤ 7: t, −t x² / ((k+1)(k+2)), … -/
def trigTerms (p : Nat) (xx : Encl) : Nat → Nat → Encl → Encl → Encl
  | 0, _, t, a => a.widen (4 * t.mag + 4)
  | n + 1, k, t, a =>
    if 8 < k ∧ t.mag ≤ 2 then a.widen 8
    else trigTerms p xx n (k + 2) (((t.mul p xx).over ((k + 1) * (k + 2))).neg) (a.add t)

/-- x less a multiple of 2π. -/
def modTau (p : Nat) (x : Encl) : Encl :=
  let tau := (pi p).times 2
  x.sub (tau.times (x.lo / max tau.lo 1))

def sinE (p : Nat) (x : Encl) : Encl := let y := modTau p x; trigTerms p (y.mul p y) (p + 64) 1 y ⟨0, 0⟩
def cosE (p : Nat) (x : Encl) : Encl := let y := modTau p x; trigTerms p (y.mul p y) (p + 64) 0 (one p) ⟨0, 0⟩

/-- Terms (−1)^k x^(2k+1) / (2^k k! (2k+1)): t is x^(2k+1) / (2^k k!) with its sign. -/
def phiTerms (p : Nat) (xx : Encl) (small : Nat) : Nat → Nat → Encl → Encl → Encl
  | 0, _, t, a => a.widen (4 * t.mag + 4)
  | n + 1, k, t, a =>
    if small < k ∧ t.mag ≤ 2 then a.widen 8
    else phiTerms p xx small n (k + 1) (((t.mul p xx).over (2 * (k + 1))).neg) (a.add (t.over (2 * k + 1)))

/-- The square root of an enclosure of positive numbers. -/
def sqrtE (p : Nat) (x : Encl) : Encl :=
  ⟨(natSqrt (x.lo.toNat * 2 ^ p) : Nat), (natSqrt (x.hi.toNat * 2 ^ p) + 1 : Nat)⟩

/-- The standard normal distribution function; terms fall once k is above x². -/
def phiE (p : Nat) (x : Encl) : Encl :=
  let xx := x.mul p x
  let small := xx.mag / 2 ^ p + 1
  let s := phiTerms p xx small (4 * p + 4 * small) 0 x ⟨0, 0⟩
  ((one p).over 2).add (s.quot p (sqrtE p ((pi p).times 2)))

/-! ## Rounding an enclosed value -/

/-- The code to which both ends of an enclosure times 2^e round, none where they differ. -/
def agree (f : Layout) (r : Rnd) (x : Encl) (e : Int) : Option Nat :=
  if x.lo = 0 ∨ x.hi = 0 ∨ (x.lo < 0) ≠ (x.hi < 0) then none
  else
    let a := (f.encode (Val.mk x.lo 1 e false) r false).1
    let b := (f.encode (Val.mk x.hi 1 e false) r false).1
    if a = b then some a else none

/-- An irrational value rounded once: the precision doubles until both ends of its enclosure agree. -/
def refine (f : Layout) (r : Rnd) (g : Nat → Encl × Int) : Nat → Nat → Nat
  | 0, p => let x := g p; (f.encode (Val.mk x.1.lo 1 (x.2 - p) false) r false).1
  | n + 1, p =>
    let x := g p
    match agree f r x.1 (x.2 - p) with
    | some c => c
    | none => refine f r g n (2 * p)

/-- The code of a value: an exact one, or an enclosed one. -/
inductive FVal where
  | exact (v : Val)
  | encl (g : Nat → Encl × Int)

def FVal.code (f : Layout) (r : Rnd) : FVal → Nat
  | .exact v => (f.encode v r false).1
  | .encl g => refine f r g 9 128

/-- A value above every finite value, and one below every positive value, of every format: they round as any such
value does. -/
def huge (s : Bool) : Val := .num s 1 1 600
def tiny (s : Bool) : Val := .num s 1 1 (-600)

/-- A value just below another in magnitude, by a factor that no rounding sees but the direction. -/
def justBelow (v : Val) : Val := v.mul (.num false (2 ^ 600 - 1) (2 ^ 600) 0)

/-- |v| is above a whole number. -/
def Val.above (v : Val) (k : Nat) : Bool := (Val.num false k 1 0).order v.abs < 0

/-- The enclosure of a finite value. -/
def Val.encl (v : Val) (p : Nat) : Encl :=
  match v with
  | .num s n d e => Encl.ofQ p (signed s n) d e
  | _ => ⟨0, 0⟩

/-- A power of two that is whole, as an exact value. -/
def isWhole : Val → Option Int
  | .num s n d e =>
    let u := inUnits n d e 0
    if u.1 % u.2 = 0 then some (signed s (u.1 / u.2)) else none
  | _ => none

/-- Whether n / d is a power of two. -/
def isPow2 (n d : Nat) (k : Int) : Bool := let u := inUnits n d 0 k; u.1 == u.2

def fExp (a : Val) : FVal :=
  match a with
  | .nan => .exact .nan
  | .inf s => .exact (if s then .zero false else .inf false)
  | .zero _ => .exact (.num false 1 1 0)
  | a => if a.above 300 then .exact (if a.neg? then tiny false else huge false) else .encl fun p => expE p (a.encl p)

def fExp2 (a : Val) : FVal :=
  match a with
  | .nan => .exact .nan
  | .inf s => .exact (if s then .zero false else .inf false)
  | .zero _ => .exact (.num false 1 1 0)
  | a =>
    if a.above 300 then .exact (if a.neg? then tiny false else huge false)
    else match isWhole a with
      | some k => .exact (.num false 1 1 k)
      | none => .encl fun p => expE p ((a.encl p).mul p (ln2 p))

def fLn (a : Val) (base2 : Bool) : FVal :=
  match a with
  | .nan => .exact .nan
  | .inf s => .exact (if s then .nan else .inf false)
  | .zero _ => .exact (.inf true)
  | .num s n d e =>
    let k := ilog2Q n d
    if s then .exact .nan
    else if isPow2 n d k ∧ (base2 ∨ k + e = 0) then .exact (Val.ofInt (k + e))
    else .encl fun p => (if base2 then (lnE p n d e).quot p (ln2 p) else lnE p n d e, 0)

/-- √(n / d 2^e): exact where it is rational. -/
def sqrtQ (n d : Nat) (e : Int) : FVal :=
  let n := if e % 2 = 0 then n else 2 * n
  let e := (e - e % 2) / 2
  let r := natSqrt (n * d)
  if r * r = n * d then .exact (.num false r d e)
  else .encl fun p =>
    let m := natSqrt (n * d * 2 ^ (2 * p))
    (⟨(m / d : Nat), ((m + 1) / d + 1 : Nat)⟩, e)

def fSqrt (a : Val) : FVal :=
  match a with
  | .nan => .exact .nan
  | .inf s => .exact (if s then .nan else .inf false)
  | .zero s => .exact (.zero s)
  | .num s n d e => if s then .exact .nan else sqrtQ n d e

def fRsqrt (a : Val) : FVal :=
  match a with
  | .nan => .exact .nan
  | .inf s => .exact (if s then .nan else .zero false)
  | .zero s => .exact (.inf s)
  | .num s n d e => if s then .exact .nan else sqrtQ d n (-e)

/-- 1 / (1 + e^−x) as an enclosure. -/
def sigE (p : Nat) (x : Encl) : Encl :=
  let y := expE p x.neg
  let u := if 0 ≤ y.2 then y.1.times (2 ^ y.2.toNat : Nat) else y.1.over (2 ^ (-y.2).toNat)
  (one p).quot p ((one p).add u)

/-- e^−2x for x positive. -/
def tanhE (p : Nat) (x : Encl) : Encl :=
  let y := expE p (x.times (-2))
  let u := if 0 ≤ y.2 then y.1.times (2 ^ y.2.toNat : Nat) else y.1.over (2 ^ (-y.2).toNat)
  ((one p).sub u).quot p ((one p).add u)

def fTanh (a : Val) : FVal :=
  match a with
  | .nan => .exact .nan
  | .inf s => .exact (.num s 1 1 0)
  | .zero s => .exact (.zero s)
  | a =>
    let s := a.neg?
    if a.above 300 then .exact (justBelow (.num s 1 1 0))
    else .encl fun p => let y := tanhE p (a.abs.encl p); (if s then y.neg else y, 0)

def fSigmoid (a : Val) : FVal :=
  match a with
  | .nan => .exact .nan
  | .inf s => .exact (if s then .zero false else .num false 1 1 0)
  | .zero _ => .exact (.num false 1 1 (-1))
  | a =>
    if a.above 300 then .exact (if a.neg? then tiny false else justBelow (.num false 1 1 0))
    else .encl fun p => (sigE p (a.encl p), 0)

/-- a times b times the sigmoid of a: SILU with b = 1, and SWIGLU (R273, R274). -/
def fSwiglu (a b : Val) : FVal :=
  if b.isNan then .exact .nan
  else
    match a with
    | .nan => .exact .nan
    | .inf true => .exact (if b.isInf then .nan else .zero (!b.neg?))
    | .inf false => .exact (if b.isZero then .nan else .inf b.neg?)
    | .zero s => .exact ((Val.zero s).mul b)
    | a =>
      match b with
      | .num _ _ _ _ =>
        let c := a.mul b
        if a.above 700 then .exact (if a.neg? then c.mul (.num false 1 1 (-900)) else justBelow c)
        else .encl fun p =>
          match c with
          | .num s n d e => ((sigE p (a.encl p)).times (signed s n) |>.over d, e)
          | _ => (⟨0, 0⟩, 0)
      | b => .exact (a.mul b)

def fSilu (a : Val) : FVal := fSwiglu a (.num false 1 1 0)

/-- a times Φ(a). -/
def fGelu (a : Val) : FVal :=
  match a with
  | .nan => .exact .nan
  | .inf s => .exact (if s then .zero true else .inf false)
  | .zero s => .exact (.zero s)
  | a =>
    if a.above 40 then .exact (if a.neg? then a.mul (.num false 1 1 (-900)) else justBelow a)
    else .encl fun p =>
      match a with
      | .num s n d e => ((phiE p (a.encl p)).times (signed s n) |>.over d, e)
      | _ => (⟨0, 0⟩, 0)

def fTrig (a : Val) (cos : Bool) : FVal :=
  match a with
  | .nan | .inf _ => .exact .nan
  | .zero s => .exact (if cos then .num false 1 1 0 else .zero s)
  | a => .encl fun p => (if cos then cosE p (a.encl p) else sinE p (a.encl p), 0)

/-- 1 / √(a × SCALAR + b) (R273). -/
def fNrsqrt (rdn : Bool) (a b c : Val) : FVal := fRsqrt ((a.mul c).add rdn b)

/-! ## The operations (R273, R274) -/

def one' : Val := .num false 1 1 0
def truth (b : Bool) : Val := if b then one' else .zero false

/-- A comparison; a NaN source gives 0. -/
def compare' (x y : Val) (test : Int → Bool) : Val := truth (!x.isNan && !y.isNan && test (x.order y))

/-- The value of an operation of codes 0x01 to 0x34 other than SEL; c is the C element (R273). -/
def vopValue (op : Nat) (rdn : Bool) (a b c scalar : Val) : FVal :=
  match op with
  | 0x01 => .exact a
  | 0x02 => .exact (a.add rdn b)
  | 0x03 => .exact (a.add rdn b.negate)
  | 0x04 => .exact (a.mul b)
  | 0x05 => .exact ((a.mul b).add rdn c)
  | 0x06 => .exact (a.mul scalar)
  | 0x07 => .exact ((a.mul scalar).add rdn b)
  | 0x08 => .exact (if a.isNan || b.isNan then .nan else if a.below b then b else a)
  | 0x09 => .exact (if a.isNan || b.isNan then .nan else if b.below a then b else a)
  | 0x0a => .exact a.abs
  | 0x0b => .exact a.negate
  | 0x0c => .exact (compare' a b fun o => decide (0 < o))
  | 0x0d => .exact (compare' a b fun o => decide (0 ≤ o))
  | 0x0e => .exact (compare' a b fun o => o == 0)
  | 0x20 => fExp a
  | 0x21 => fExp2 a
  | 0x22 => fLn a false
  | 0x23 => fLn a true
  | 0x24 => .exact (one'.div a)
  | 0x25 => fSqrt a
  | 0x26 => fRsqrt a
  | 0x27 => fTanh a
  | 0x28 => fSigmoid a
  | 0x29 => fSilu a
  | 0x2a => fGelu a
  | 0x2b => fTrig a false
  | 0x2c => fTrig a true
  | 0x2d => .exact (a.div b)
  | 0x2e => fNrsqrt rdn a b scalar
  | 0x2f => fSwiglu a b
  | 0x30 => .exact (a.add rdn b.negate)
  | 0x31 => .exact (a.mul b)
  | 0x32 => .exact (a.div b)
  | 0x33 => fExp (a.add rdn b.negate)
  | 0x34 => .exact ((a.mul b).mul c)
  | _ => .exact .nan

/-- The code of an element of a VOP; SEL passes the selected operand's code unchanged (R274). -/
def vopElem (fmt op : Nat) (r : Rnd) (a b c : Nat) (scalar : Val) : Nat :=
  match layoutOf fmt with
  | some f =>
    if op = 0x0f then (if (f.decode c).isZero then b else a)
    else (vopValue op (r.mode == 3) (f.decode a) (f.decode b) (f.decode c) scalar).code f r
  | none => 0

end Sys2Proof.Machine
end

