-- ==== Sys2Proof/Machine/Stacks.lean ====
section
/-! DEFINITION. The stacks: lines, their protection and poison, the scrub and the patrol (R361 to R369). -/

namespace Sys2Proof.Machine

/-! ## Places -/

/-- The stack, 0 or 1, that holds an offset of space 0x0: the two interleave at 4 KB. -/
def stackOf (off : Nat) : Nat := off / 4096 % 2

/-- Bytes of a landing's space 0x0, 0x24_0000_0000 (R24). -/
def stackBytes : Nat := 0x2400000000

/-- First register of stack st of landing l (R369). -/
def scBase (l st : Nat) : Nat := lcBase l + 0x20000 + 0x1000 * st

/-- SC.CAUSE.SCRUB: a scrub of the stack runs (R367). -/
def scrubbing (s : State) (l st : Nat) : Bool := rdFld s (scBase l st) 24 24 == 1

/-- SC.CAUSE.SREF: the stack is in self-refresh (R42). -/
def selfRefresh (s : State) (l st : Nat) : Bool := rdFld s (scBase l st) 25 25 == 1

/-- Key of an offset of a landing's space 0x0. -/
def stackKey (l off : Nat) : Nat := memKey l 0 off

/-- Offsets of the lines that n bytes touch. -/
def linesOf (off n : Nat) : List Nat :=
  if n = 0 then [] else (upto ((off + n - 1) / 64 - off / 64 + 1)).map fun i => (off / 64 + i) * 64

/-- Some byte of a range lies in a stack that scrubs. -/
def rangeScrubs (s : State) (l off n : Nat) : Bool :=
  (linesOf off n).any fun o => scrubbing s l (stackOf o)

/-- A range of a landing's stacks can be accessed: its uncore is ON and no stack of the range scrubs (R367). -/
def stackReach (s : State) (l off n : Nat) : Bool := !absentLand s l && uncoreOn s l && !rangeScrubs s l off n

/-! ## Reads (R363 to R365) -/

/-- What a read of a line does to its marks: a correctable error is corrected and counted; an uncorrectable one
poisons the line in place, is counted, and its offset is recorded (R363, R364). -/
def readLine (s : State) (l o : Nat) : State :=
  let k := stackKey l o
  let b := scBase l (stackOf o)
  if uncorrectable s k then
    let s := setPoison (freshCheck s k) k true
    let s := countUp s b 23 16 1 (some (lcBase l + 4, 2 + stackOf o))
    wrPair s (b + 8) o
  else if correctable s k then countUp (freshCheck s k) b 15 0 1 none
  else s

/-- The lines of a range read. -/
def readLines (s : State) (l off n : Nat) : State := (linesOf off n).foldl (fun s o => readLine s l o) s

/-- Bytes as a reader sees them, and whether any of their lines delivers poison (R364, R365). -/
def stackData (s : State) (l off n : Nat) : List Byte × Bool :=
  (getBytes s (stackKey l off) n,
   (linesOf off n).any fun o => poisoned s (stackKey l o) || uncorrectable s (stackKey l o))

/-! ## Writes (R361, R365) -/

/-- The marks of a line after a write to [off, off + n): a whole line takes the writer's poison and fresh check bits;
a part is a read-modify-write, and a poisoned line stays poisoned. -/
def writeLine (s : State) (l off n : Nat) (psn : Bool) (o : Nat) : State :=
  let k := stackKey l o
  if off ≤ o ∧ o + 64 ≤ off + n then setPoison (freshCheck s k) k psn else readLine s l o

/-- Bytes written to a landing's stacks; `psn` is the poison of whole lines. -/
def writeStack (s : State) (l off : Nat) (bs : List Byte) (psn : Bool) : State :=
  let s := (linesOf off bs.length).foldl (fun s o => writeLine s l off bs.length psn o) s
  putBytes s (stackKey l off) bs

/-- Every line of a range poisoned (R394). -/
def poisonStack (s : State) (l off n : Nat) : State :=
  (linesOf off n).foldl (fun s o => setPoison s (stackKey l o) true) s

/-! ## Scrub and patrol (R366 to R368) -/

/-- A key lies in stack st of landing l. -/
def inStack (l st k : Nat) : Bool := k / 2 ^ 44 == l * 16 && stackOf (k % 2 ^ 44) == st

/-- A scrub starts: the stack's lines become zero with valid check bits and no poison; nothing can read it until
the scrub is complete (R366, R367). -/
def startScrub (s : State) (l st : Nat) : State :=
  let s := { s with
    mem := s.mem.filter fun e => !inStack l st e.1
    poison := s.poison.filter fun k => !inStack l st k
    uerr := s.uerr.filter fun k => !inStack l st k
    cerr := s.cerr.filter fun k => !inStack l st k }
  wrFld (setFlag s (scBase l st) 24) (lcBase l + 0xc) 12 12 1

/-- Both stacks of a landing scrub. -/
def scrubLanding (s : State) (l : Nat) : State := startScrub (startScrub s l 0) l 1

/-- PATROL_SCRUB: one pass over every line of the stack, what it finds handled as any read handles it; none while
patrol is disabled or the stack cannot be reached (R368). -/
def execPatrolScrub (l : Fin 32) (stack : Fin 2) (s : State) : Res :=
  let l := l.val
  let st := stack.val
  let b := scBase l st
  if !uncoreOn s l ∨ absentLand s l ∨ rdFld s (b + 4) 15 0 = 0 ∨ scrubbing s l st ∨ selfRefresh s l st then .next s
  else
    let ks := (s.uerr ++ s.cerr).filter fun k => inStack l st k
    let s := ks.foldl (fun s k => readLine s l (k % 2 ^ 44)) s
    .next (countUp s (b + 4) 31 16 1 none)

end Sys2Proof.Machine
end

