-- ==== Sys2Proof/Machine/Cb16.lean ====
section
/-! DEFINITION. CB16: region tables, expansion, PACK with spill and supplements, UNPK, and their counts (R221 to R237,
R599). -/

namespace Sys2Proof.Machine

/-- Rows with their poison bits. -/
abbrev PRows := List (List Byte × Bool)

/-- n rows of a scratchpad from row r, as a reader sees them. -/
def readRows (s : State) (l c r n : Nat) : PRows := (upto n).map fun i => rowData s l c (r + i)

/-! ## CRC-32C (R225) -/

/-- One byte into a CRC-32C. -/
def crcByte (crc : BitVec 32) (b : Byte) : BitVec 32 :=
  let step (x : BitVec 32) : BitVec 32 := if x.getLsbD 0 then (x >>> 1) ^^^ 0x82f63b78 else x >>> 1
  step (step (step (step (step (step (step (step (crc ^^^ b.setWidth 32))))))))

/-- CRC-32C of bytes. -/
def crc32c (bs : List Byte) : Nat := (~~~ (bs.foldl crcByte 0xffffffff)).toNat

/-! ## Region tables (R224) -/

/-- A region table: 16 bytes. -/
structure RegionTab where
  bytes : List Byte
deriving DecidableEq, Repr

def RegionTab.x (t : RegionTab) (i : Nat) : Nat := (t.bytes.getD i 0).toNat
def RegionTab.flag (t : RegionTab) (i : Nat) : Bool := (t.bytes.getD 7 0).getLsbD i
def RegionTab.spill (t : RegionTab) : Bool := t.flag 0
def RegionTab.exact (t : RegionTab) : Bool := t.flag 3
def RegionTab.aux (t : RegionTab) : Nat := leNat ((t.bytes.drop 8).take 4)
def RegionTab.spidx (t : RegionTab) : Nat := t.aux % 2 ^ 20
def RegionTab.crc (t : RegionTab) : Nat := leNat ((t.bytes.drop 12).take 4)

/-- Valid values of the region (R224 SHORT). DESIGN CHOICE (log 95): a VCOUNT outside 1 to 3,071 gives none at 0 and 3,072
above. -/
def RegionTab.valid (t : RegionTab) : Nat := if t.flag 2 then min 3072 (t.aux / 2 ^ 20) else 3072

/-- Row and first byte of region r's table. -/
def tabRow (table r : Nat) : Nat := table + r / 32
def tabByte (r : Nat) : Nat := 16 * (r % 32)

/-- Region r's table in a row. -/
def tabOfRow (row : List Byte) (r : Nat) : RegionTab := ⟨(row.drop (tabByte r)).take 16⟩

/-- A row with region r's table replaced. -/
def rowWithTab (row : List Byte) (r : Nat) (t : List Byte) : List Byte :=
  row.take (tabByte r) ++ t ++ row.drop (tabByte r + 16)

/-- The spill slot of a region extends past row 6,143 (R233, R243). -/
def spillBad (pool : Nat) (t : RegionTab) : Bool := t.spill && nRows < pool + 4 * t.spidx + 4

/-! ## Expansion (R222, R223, R229, R599) -/

/-- The expanded values of a region: BF16 code and poison of each of the valid values, and the count of triples with
a reserved CODE. -/
structure Region where
  vals : List (Nat × Bool)
  bad  : Nat
deriving DecidableEq, Repr

/-- The three values of a word (R221, R223). -/
def tripleVals (t : RegionTab) (word : Nat) (psn : Bool) : List (Nat × Bool) :=
  let code := word / 2 ^ 24
  if 215 < code then [(0x7fc0, true), (0x7fc0, true), (0x7fc0, true)]
  else
    let v (k i : Nat) : Nat × Bool :=
      let b := word / 2 ^ (8 * k) % 256
      (b / 128 * 32768 + t.x i * 128 + b % 128, psn)
    [v 0 (code % 6), v 1 (code / 6 % 6), v 2 (code / 36)]

/-- A region expanded from its slot's 8 rows and, for a SPILL region, its 4 spill rows; `tp` is the poison of its
table's row (R599). -/
def expandRegion (t : RegionTab) (tp : Bool) (slot spill : PRows) : Region :=
  if t.spill then
    let rows := slot ++ spill
    ⟨(upto t.valid).map fun j =>
      let row := rows.getD (j / 256) ([], false)
      (leNat ((row.1.drop (2 * (j % 256))).take 2), row.2 || tp), 0⟩
  else
    let words := (upto ((t.valid + 2) / 3)).map fun w =>
      let row := slot.getD (w / 128) ([], false)
      (leNat ((row.1.drop (4 * (w % 128))).take 4), row.2 || tp)
    ⟨(words.flatMap fun w => tripleVals t w.1 w.2).take t.valid,
      (words.filter fun w => 215 < w.1 / 2 ^ 24 && w.1 / 2 ^ 24 < 255).length⟩

/-! ## Counts (R236, R237) -/

/-- A CB16 count of a core at (register, low bit), with the CB16 cause when it leaves zero. -/
def cb16Count (s : State) (l c o lo n : Nat) : State := countCore s l c o (lo + 7) lo n 2

/-! ## PACK (R226 to R232) -/

/-- BF16 source values of a region with their bad marks (R226). -/
def packSource (fp32 : Bool) (rows : PRows) : List (Nat × Bool) :=
  (upto 3072).map fun j =>
    let per := if fp32 then 128 else 256
    let w := if fp32 then 4 else 2
    let row := rows.getD (j / per) ([], false)
    let c := leNat ((row.1.drop (w * (j % per))).take w)
    let c := if fp32 then (encodeElem fBF16 (decodeElem fFP32 c) rne false).1 else c
    (c, row.2 || c / 128 % 256 == 255)

/-- Exponent field of a BF16 code. -/
def bfExp (c : Nat) : Nat := c / 128 % 256

/-- Counts of the exponent fields 0 to 254 over the values that are not bad. -/
def expHist (vs : List (Nat × Bool)) : Tab Nat :=
  vs.foldl (fun t v => if v.2 then t else tput 0 (bfExp v.1) (tget 0 t (bfExp v.1) + 1) t) []

/-- The exponent of the largest count outside a list; on a tie the higher. -/
def bestExp (h : Tab Nat) (chosen : List Nat) : Option Nat :=
  (h.foldl
    (fun (a : Option (Nat × Nat)) e =>
      if chosen.contains e.1 then a
      else match a with
        | none => some e
        | some b => if b.2 ≤ e.2 then some e else a)
    none).map fun e => e.1

/-- Further picks after the highest exponent. -/
def pickExps (h : Tab Nat) : Nat → List Nat → List Nat
  | 0, chosen => chosen
  | n + 1, chosen =>
    match bestExp h chosen with
    | none => chosen
    | some e => pickExps h n (sadd e chosen)

/-- The six table exponents (R226 pass 1). -/
def tableExps (vs : List (Nat × Bool)) : List Nat :=
  let h := expHist vs
  match h.getLast? with
  | none => List.replicate 6 0
  | some top =>
    let xs := pickExps h 5 [top.1]
    xs ++ List.replicate (6 - xs.length) top.1

/-- Magnitude of a BF16 code in units of 2^−133. -/
def bfMag (c : Nat) : Nat := if bfExp c = 0 then c % 128 else (128 + c % 128) * 2 ^ (bfExp c - 1)

/-- Index and mantissa of the nearest value that the table can express (R227), or of the value itself. -/
def nearest (xs : List Nat) (c : Nat) : Nat × Nat :=
  let e := bfExp c
  let b := ((xs.filter fun x => e < x).head?).getD 255
  match (xs.filter fun x => x < e).getLast? with
  | none => (xs.idxOf b, 0)
  | some a =>
    if bfMag c - bfMag (a * 128 + 127) ≤ bfMag (b * 128) - bfMag c then (xs.idxOf a, 127) else (xs.idxOf b, 0)

/-- Whether a value is clamped: its exponent is not in the table. -/
def clamped (xs : List Nat) (c : Nat) : Bool := !xs.contains (bfExp c)

/-- Index and byte of a value (R226 pass 2). -/
def packValue (xs : List Nat) (c : Nat) : Nat × Nat :=
  let p := if clamped xs c then nearest xs c else (xs.idxOf (bfExp c), c % 128)
  (p.1, c / 32768 % 2 * 128 + p.2)

/-- The word of a triple (R226 pass 2). -/
def packTriple (xs : List Nat) (a b c : Nat × Bool) : Nat :=
  if a.2 || b.2 || c.2 then 0xff000000
  else
    let p := packValue xs a.1
    let q := packValue xs b.1
    let r := packValue xs c.1
    (p.1 + 6 * q.1 + 36 * r.1) * 2 ^ 24 + r.2 * 2 ^ 16 + q.2 * 2 ^ 8 + p.2

/-- Words of a region with, for each triple, the clamped values' index and code. -/
def packWords (xs : List Nat) : Nat → List (Nat × Bool) → List (Nat × List (Nat × Nat))
  | j, a :: b :: c :: r =>
    let w := packTriple xs a b c
    let ent := if w / 2 ^ 24 = 255 then [] else
      ([(j, a.1), (j + 1, b.1), (j + 2, c.1)]).filter fun p => clamped xs p.2
    (w, ent) :: packWords xs (j + 3) r
  | _, _ => []

/-- What PACK carries from region to region: spill slots used, the supplement words so far, whether the list is
full. -/
structure PackAcc where
  st   : State
  slot : Nat
  sup  : List Nat
  full : Bool

/-- Rows of raw BF16 values, bad ones as NaN with their rows poisoned (R229). -/
def rawRows (vs : List (Nat × Bool)) : Nat → PRows
  | 0 => []
  | n + 1 =>
    let r := vs.take 256
    (leBytes 512 (packCodes 16 (r.map fun v => if v.2 then 0x7fc0 else v.1)), r.any fun v => v.2) ::
      rawRows (vs.drop 256) n

/-- Rows of words, poisoned where they hold a CODE 255 triple (R228). -/
def wordRows (ws : List Nat) : Nat → PRows
  | 0 => []
  | n + 1 =>
    let r := ws.take 128
    (leBytes 512 (packCodes 32 r), r.any fun w => w / 2 ^ 24 == 255) :: wordRows (ws.drop 128) n

/-- A region's table written into its row; PACK clears the row's poison bit (R228; log 31). -/
def putTab (s : State) (l c table r : Nat) (t : List Byte) (psn : Option Bool) : State :=
  let s := readRowMarks s l c (tabRow table r)
  let d := rowData s l c (tabRow table r)
  putRow s l c (tabRow table r) (rowWithTab d.1 r t) (psn.getD d.2)

/-- The bytes of a table with its CRC over them, the slot and the spill slot (R225). -/
def tabWithCrc (head : List Byte) (slot spill : PRows) : List Byte :=
  head ++ leBytes 4 (crc32c (head ++ slot.flatMap (fun r => r.1) ++ spill.flatMap fun r => r.1))

/-- PACK of one region (R226 to R232). -/
def packRegion (l c : Nat) (e : EngCmd) (a : PackAcc) (r : Nat) : PackAcc :=
  let fp32 := e.im 3 0 == fFP32
  let n := e.regionRows
  let src := e.a 12 0 + n * r
  let s := readRowsMarks a.st l c src n
  let vs := packSource fp32 (readRows s l c src n)
  let xs := tableExps vs
  let ws := packWords xs 0 vs
  let ents := ws.flatMap fun w => w.2
  let clamps := min 255 ents.length
  let bad := (ws.filter fun w => w.1 / 2 ^ 24 == 255).length
  let heavy := decide (e.b 27 20 < clamps)
  let spill := heavy && decide (a.slot < e.b 19 10)
  let slotRows := if spill then rawRows vs 8 else wordRows (ws.map fun w => w.1) 8
  let spillRows := if spill then rawRows (vs.drop 2048) 4 else []
  let room := 128 * e.c 25 13 - 1
  let sup := bit e.imm.toNat 4
  let es := if spill then [] else ents
  let fits := sup && !a.full && decide (a.sup.length + 1 + es.length ≤ room)
  let flags := b2n spill + 2 * b2n (bad != 0) + 8 * b2n fits + 16 * b2n (heavy && !spill)
  let head := xs.map (BitVec.ofNat 8) ++ [BitVec.ofNat 8 clamps, BitVec.ofNat 8 flags] ++
    leBytes 4 (if spill then a.slot else 0)
  let s := putRows s l c (e.a 25 13 + 8 * r) slotRows
  let s := if spill then putRows s l c (e.a 51 39 + 4 * a.slot) spillRows else s
  let s := putTab s l c (e.a 38 26) r (tabWithCrc head slotRows spillRows) (some false)
  let s := if heavy && !spill then cb16Count s l c 0x164 8 1 else s
  let s := if spill then s else cb16Count s l c 0x164 16 bad
  { st := s, slot := a.slot + b2n spill
    sup := if fits then a.sup ++ ((2 ^ 31 + r * 2 ^ 21 + es.length) :: es.map fun p => p.1 * 65536 + p.2) else a.sup
    full := a.full || (sup && !fits) }

/-- PACK: the regions in order, then the supplement list with its end word; SUP_FULL where it ran out (R196,
R232). DESIGN CHOICE (log 97): the rest of the list's last row is zero. -/
def runPack (s : State) (l c : Nat) (e : EngCmd) : State × Option Nat :=
  let a := (upto (e.b 9 0)).foldl (packRegion l c e) ⟨s, 0, [], false⟩
  if bit e.imm.toNat 4 then
    let ws := a.sup ++ [2 ^ 32 - 1]
    let rows := (wordRows ws (ceilDiv ws.length 128)).map fun r => (r.1, false)
    (putRows a.st l c (e.c 12 0) rows, if a.full then some 7 else none)
  else (a.st, none)

/-! ## UNPK (R233, R234) -/

/-- A header of the supplement list with what follows it: region, count, entries (the last first), a reserved word among
them. -/
structure SupGroup where
  region  : Nat
  count   : Nat
  entries : List (Nat × Nat)
  bad     : Bool
deriving DecidableEq, Repr

/-- What a scan of the list has found: its headers, the last first, reserved words that belong to no region of the command,
and whether the end word came. -/
structure SupScan where
  groups : List SupGroup := []
  /-- The words that follow belong to the first of `groups`. -/
  inside : Bool := false
  stray  : Nat := 0
  ended  : Bool := false
deriving DecidableEq, Repr

/-- The last header's group changed. -/
def mapLast (f : SupGroup → SupGroup) : List SupGroup → List SupGroup
  | [] => []
  | g :: r => f g :: r

/-- One word of the list (R231, R234). R234 counts the reserved words before the first header, or after one that names no region
of the command, and does not mention entry words there: they are skipped without a count (DESIGN CHOICE, log 107). -/
def supWord (nreg : Nat) (a : SupScan) (w : Nat) : SupScan :=
  if a.ended then a
  else if w = 2 ^ 32 - 1 then { a with ended := true }
  else
    match w / 2 ^ 30 with
    | 0 =>
      if a.inside then
        { a with groups := mapLast (fun g => { g with entries := (w / 65536 % 4096, w % 65536) :: g.entries }) a.groups }
      else a
    | 2 =>
      let r := w / 2 ^ 21 % 512
      if r < nreg then { a with groups := ⟨r, w % 4096, [], false⟩ :: a.groups, inside := true }
      else { a with inside := false }
    | _ =>
      if a.inside then { a with groups := mapLast (fun g => { g with bad := true }) a.groups }
      else { a with stray := a.stray + 1 }

/-- The rows of the list from row r, up to the end word or row 6,143 (R233). The spec does not say what a poisoned row of the
list does to the entries read from it: its poison bit is ignored here, beyond the read's own marks (DESIGN CHOICE,
log 106). -/
def supScan (s : State) (l c nreg : Nat) : Nat → Nat → SupScan → State × SupScan
  | 0, _, a => (s, a)
  | n + 1, r, a =>
    if a.ended then (s, a)
    else
      let s := readRowMarks s l c r
      let x := leNat (rowData s l c r).1
      supScan s l c nreg n (r + 1) ((upto 128).foldl (fun a i => supWord nreg a (x / 2 ^ (32 * i) % 2 ^ 32)) a)

/-- Indices strictly rising and below a limit. -/
def risingBelow (lim : Nat) : Nat → List (Nat × Nat) → Bool
  | _, [] => true
  | lo, (i, _) :: r => decide (lo ≤ i) && decide (i < lim) && risingBelow lim (i + 1) r

/-- The entries that apply to a region whose EXACT-SUPPLEMENT is set, none where R234 forbids them. DESIGN CHOICE (log 98):
of two headers of one region the first counts. -/
def supEntries (a : SupScan) (r lim : Nat) : Option (List (Nat × Nat)) :=
  match a.groups.reverse.find? fun g => g.region == r with
  | none => none
  | some g =>
    let es := g.entries.reverse
    if !g.bad && es.length == g.count && risingBelow lim 0 es then some es else none

/-- Values with the entries applied. -/
def applyEntries (vs : List (Nat × Bool)) (es : List (Nat × Nat)) : List (Nat × Bool) :=
  es.foldl (fun vs p => vs.set p.1 (p.2, (vs.getD p.1 (0, false)).2)) vs

/-- A BF16 value as FP32: exact, a NaN the canonical one (R209, R233). -/
def widenBf16 (v : Nat) : Nat := if bits v 14 7 = 255 ∧ bits v 6 0 ≠ 0 then 0x7fc00000 else v * 65536

/-- Destination rows of a region's values (R233). -/
def unpkRows (fp32 : Bool) (vs : List (Nat × Bool)) : Nat → PRows
  | 0 => []
  | n + 1 =>
    let per := if fp32 then 128 else 256
    let r := vs.take per
    (if fp32 then leBytes 512 (packCodes 32 (r.map fun v => widenBf16 v.1))
      else leBytes 512 (packCodes 16 (r.map fun v => v.1)), r.any fun v => v.2) :: unpkRows fp32 (vs.drop per) n

/-- The first twelve bytes of a table with EXACT-SUPPLEMENT clear (R234). -/
def headInexact (t : RegionTab) : List Byte :=
  (t.bytes.take 12).set 7 (t.bytes.getD 7 0 &&& 0xf7)

/-- A region restored lossy after a restore with supplements counts in STO.CKSTAT.LOSSY, as purser firmware collects the
cores' SUPMIS counts: at once (R394; log 82). -/
def countLossy (s : State) : State :=
  if s.sto.expand then wrFld s 0x80014 31 16 (satAdd 65535 (rdFld s 0x80014 31 16) 1) else s

/-- UNPK of one region (R233, R234). R233 applies no supplement to a region whose CRC mismatches, and R234 does not say whether a
header that names it counts SUPMIS: it counts none (DESIGN CHOICE, log 108). -/
def unpkRegion (l c : Nat) (e : EngCmd) (sc : SupScan) (s : State) (r : Nat) : State :=
  let fp32 := e.im 3 0 == fFP32
  let sup := bit e.imm.toNat 4
  let table := e.a 38 26
  let src := e.a 12 0 + 8 * r
  let dst := e.a 25 13 + e.regionRows * r
  let s := readRowsMarks (readRowMarks s l c (tabRow table r)) l c src 8
  let row := rowData s l c (tabRow table r)
  let t := tabOfRow row.1 r
  let far := spillBad (e.a 51 39) t
  let hasSpill := t.spill && !far
  let pool := e.a 51 39 + 4 * t.spidx
  let s := if hasSpill then readRowsMarks s l c pool 4 else s
  let slot := readRows s l c src 8
  let spill := if hasSpill then readRows s l c pool 4 else []
  if far || crc32c (t.bytes.take 12 ++ slot.flatMap (fun r => r.1) ++ spill.flatMap fun r => r.1) != t.crc then
    poisonRows (cb16Count s l c 0x164 0 1) l c dst e.regionRows
  else
    let x := expandRegion t row.2 slot spill
    let s := cb16Count s l c 0x160 24 x.bad
    let vs := fitTo (0, false) 3072 x.vals
    let es := if sup && t.exact then supEntries sc r t.valid else some []
    let vs := applyEntries vs (es.getD [])
    let extra := if sup && !t.exact then (sc.groups.filter fun g => g.region == r).length else 0
    let s := cb16Count s l c 0x160 16 (extra + b2n es.isNone)
    let s := putRows s l c dst (unpkRows fp32 vs e.regionRows)
    if es.isNone then countLossy (putTab s l c table r (tabWithCrc (headInexact t) slot spill) none) else s

/-- UNPK (R233). -/
def runUnpk (s : State) (l c : Nat) (e : EngCmd) : State :=
  let n := e.b 9 0
  let x := if bit e.imm.toNat 4 then supScan s l c n (nRows - e.c 12 0) (e.c 12 0) {} else (s, {})
  let s := cb16Count x.1 l c 0x160 16 x.2.stray
  (upto n).foldl (unpkRegion l c e x.2) s

end Sys2Proof.Machine
end

