-- ==== Sys2Proof/Machine/Matrix.lean ====
section
/-! DEFINITION. The matrix engine: operands, exact group sums, accumulation with replay, the expander's counts, drains,
MLD and MZ (R185 to R190, R238 to R270). -/

namespace Sys2Proof.Machine

/-! ## The stationary buffer (R187) -/

/-- A row of the stationary buffer with its poison bit. -/
def statRow (s : State) (l c r : Nat) : List Byte × Bool :=
  let k := getCore s l c
  (tread 0 k.stat (512 * r) 512, k.statPsn.contains r)

/-- Rows written into the stationary buffer from row r. -/
def putStat (s : State) (l c r : Nat) : PRows → State
  | [] => s
  | (bs, p) :: rest =>
    let k := getCore s l c
    putStat (setCore s l c
      { k with stat := twrite 0 k.stat (512 * r) (fitTo 0 512 bs), statPsn := sset r p k.statPsn }) l c (r + 1) rest

/-! ## Operands (R238 to R243) -/

/-- One vector of an operand: codes with poison, the SPILL marks of its regions, and its CB16 events (R235). -/
structure Vec where
  codes  : List (Nat × Bool)
  spills : List Bool
  short  : Nat
  long   : Nat
  bad    : Nat

/-- Elements of rows in a format other than CB16. -/
def plainVec (fmt n : Nat) (rows : PRows) : Vec :=
  ⟨(rows.flatMap fun r => (rowCodes fmt r.1).map fun x => (x, r.2)).take n, [], 0, 0, 0⟩

/-- One region of a CB16 vector of which `need` values are declared (R235, R243). Valid values beyond them are discarded; R223
does not say whether a reserved CODE among those alone counts BADCODE: it does, as one of a valid value of the region (DESIGN
CHOICE, log 105). -/
def cbRegion (s : State) (l c table pool r need : Nat) (slot : PRows) : Vec :=
  let row := rowData s l c (tabRow table r)
  let t := tabOfRow row.1 r
  if spillBad pool t then ⟨List.replicate need (0, true), [false], 1, 0, 0⟩
  else
    let spill := if t.spill then readRows s l c (pool + 4 * t.spidx) 4 else []
    let x := expandRegion t row.2 slot spill
    ⟨x.vals.take need ++ List.replicate (need - t.valid) (0, true), [t.spill],
      b2n (decide (t.valid < need)), b2n (decide (need < t.valid)), x.bad⟩

def Vec.append (a b : Vec) : Vec :=
  ⟨a.codes ++ b.codes, a.spills ++ b.spills, a.short + b.short, a.long + b.long, a.bad + b.bad⟩

/-- A CB16 vector of n declared values; its regions are numbered from `rb`. -/
def cbVec (s : State) (l c table pool rb n : Nat) (fetch : Nat → List Byte × Bool) (first : Nat) : Vec :=
  let nr := ceilDiv n 3072
  ((upto nr).map fun q =>
    cbRegion s l c table pool (rb + q) (if q + 1 = nr then n - 3072 * q else 3072)
      ((upto 8).map fun i => fetch (first + 8 * q + i))).foldl Vec.append ⟨[], [], 0, 0, 0⟩

/-- An operand of an MMA: row operand or column operand, streamed or stationary (R238). -/
structure OpSpec where
  row    : Bool
  stream : Bool
  fmt    : Nat
  mx     : Bool
  first  : Nat
  step   : Nat
  scale  : Nat
  rbase  : Nat

def EngCmd.statOp (e : EngCmd) : OpSpec :=
  { row := e.side, stream := false, fmt := e.fmtt, mx := e.mxt, first := e.b 27 21
    step := rowsFor e.fmtt e.kk, scale := e.c 32 26, rbase := 0 }
def EngCmd.streamOp (e : EngCmd) : OpSpec :=
  { row := !e.side, stream := true, fmt := e.fmts, mx := e.mxs, first := e.a 12 0
    step := e.a 25 13, scale := e.c 25 13, rbase := e.statRegions }

/-- Vectors, and declared values of each (R240, R243). -/
def OpSpec.vectors (o : OpSpec) : Nat := if o.row then 16 else 1
def OpSpec.count (o : OpSpec) (k : Nat) : Nat := if o.row then k else colPositions k

/-- Scratchpad rows that an operand reads: its own, its block scales, its tables and spill slots. -/
def OpSpec.reads (s : State) (l c : Nat) (e : EngCmd) (o : OpSpec) : List Nat :=
  let n := o.count e.kk
  let own := if o.stream then
      (upto o.vectors).flatMap fun i => (upto (rowsFor o.fmt n)).map fun j => o.first + i * o.step + j
    else []
  let scales := if o.mx && o.stream then
      (upto (ceilDiv e.sscaleBytes 512)).map fun i => o.scale + i else []
  let regions := if o.fmt = fCB16 then
      (upto (o.vectors * ceilDiv n 3072)).flatMap fun i =>
        let r := o.rbase + i
        let row := tabRow (e.c 12 0) r
        let t := tabOfRow (rowData s l c row).1 r
        row :: if t.spill && !spillBad (e.b 40 28) t then (upto 4).map fun j => e.b 40 28 + 4 * t.spidx + j else []
    else []
  own ++ scales ++ regions

/-- The vectors of an operand. -/
def OpSpec.vecs (s : State) (l c : Nat) (e : EngCmd) (o : OpSpec) : List Vec :=
  let fetch := if o.stream then rowData s l c else statRow s l c
  let n := o.count e.kk
  (upto o.vectors).map fun i =>
    let first := o.first + i * o.step
    if o.fmt = fCB16 then
      cbVec s l c (e.c 12 0) (e.b 40 28) (o.rbase + i * ceilDiv n 3072) n fetch first
    else plainVec o.fmt n ((upto (rowsFor o.fmt n)).map fun j => fetch (first + j))

/-- Block-scale byte of an operand with the poison of its row (R242). -/
def OpSpec.scales (s : State) (l c : Nat) (e : EngCmd) (o : OpSpec) : List (Nat × Bool) :=
  let fetch := if o.stream then rowData s l c else statRow s l c
  let n := ceilDiv ((if o.row then 16 else 32) * (e.kk / 32)) 512
  (upto n).flatMap fun i =>
    let r := fetch (o.scale + i)
    r.1.map fun b => (b.toNat, r.2)

/-- The value of an element, and its poison (R210, R261, R262). -/
def elemVal (fmt : Nat) (x : Nat × Bool) (scale : Option (Nat × Bool)) : Val × Bool :=
  let fmt := if fmt = fCB16 then fBF16 else fmt
  match scale with
  | none => (decodeElem fmt x.1, x.2)
  | some sc =>
    match mxDecode fmt x.1 sc.1 with
    | some v => (v, x.2 || sc.2)
    | none => (.zero false, true)

/-- a[i][k] of a row operand, or b[k][i] of a column operand: 16 or 32 lists of K elements (R238 to R242). -/
def OpSpec.elems (s : State) (l c : Nat) (e : EngCmd) (o : OpSpec) (vs : List Vec) : List (Array (Val × Bool)) :=
  let k := e.kk
  let sc := (if o.mx then o.scales s l c e else []).toArray
  let scale (i : Nat) : Option (Nat × Bool) := if o.mx then some (sc.getD i (0, false)) else none
  if o.row then
    (upto 16).map fun i =>
      let xs := ((vs.getD i ⟨[], [], 0, 0, 0⟩).codes).toArray
      ((upto k).map fun q => elemVal o.fmt (xs.getD q (0, false)) (scale (i * (k / 32) + q / 32))).toArray
  else
    let xs := ((vs.getD 0 ⟨[], [], 0, 0, 0⟩).codes).toArray
    (upto 32).map fun j =>
      ((upto k).map fun q =>
        elemVal o.fmt (xs.getD (1024 * (q / 32) + 32 * j + q % 32) (0, false)) (scale (32 * (q / 32) + j))).toArray

/-! ## Group sums (R249, R251, R261) -/

/-- What a group gives a lane: the exact sum of its finite products, the kinds of its special products, poison. -/
structure LaneIn where
  sum  : Val := .zero false
  nan  : Bool := false
  pinf : Bool := false
  ninf : Bool := false
  psn  : Bool := false

/-- A group: its lanes, its length, and the scale that auto scale takes from it, none where every finite product is
zero. -/
structure GroupIn where
  lanes : List LaneIn
  len   : Nat
  scale : Option Int

/-- One product into a lane's sum. -/
def LaneIn.product (x : LaneIn) (a b : Val × Bool) : LaneIn :=
  let x := { x with psn := x.psn || a.2 || b.2 }
  match a.1.mul b.1 with
  | .nan => { x with nan := true }
  | .inf s => if s then { x with ninf := true } else { x with pinf := true }
  | p => { x with sum := x.sum.add false p }

/-- ceil(log2 n) for n not zero. -/
def ceilLog2 (n : Nat) : Nat := if n ≤ 1 then 0 else (n - 1).log2 + 1

/-- The group of products ks ≤ kk < ks + len (R249, R251). -/
def groupIn (k ks len : Nat) (as bs : List (Array (Val × Bool))) : GroupIn :=
  let at' (x : Array (Val × Bool)) (q : Nat) : Val × Bool := x.getD q (.zero false, false)
  let qs := (upto len).map fun i => ks + i
  let live (q : Nat) (xs : List (Array (Val × Bool))) : Bool := xs.any fun x => (at' x q).1.ex.isSome
  let top (xs : List (Array (Val × Bool))) : Option Int := maxEx (qs.flatMap fun q => xs.map fun x => (at' x q).1)
  { lanes := as.flatMap fun a => bs.map fun b => qs.foldl (fun (x : LaneIn) q => x.product (at' a q) (at' b q)) {}
    len := len
    scale :=
      if qs.any fun q => live q as && live q bs then
        match top as, top bs with
        | some ea, some eb => some (max (-2048) (min 2047 (ea + eb + 2 + (ceilLog2 k : Int) - 94)))
        | _, _ => none
      else none }

/-- The groups of an MMA in ascending K (R250). -/
def groupsOf (k g : Nat) (as bs : List (Array (Val × Bool))) : List GroupIn :=
  (upto (ceilDiv k g)).map fun i => groupIn k (i * g) (min g (k - i * g)) as bs

/-! ## Passes and replay (R249, R254, R255) -/

/-- The window: |A| below 2^95. -/
def window : Int := (2 ^ 95 : Nat)

/-- A slot while a pass runs. -/
structure Acc where
  lanes  : List Lane
  active : Bool
  e      : Int
  kcount : Nat

/-- One lane after a group's add: the sum rounded to the scale (R249). -/
def laneAdd (active : Bool) (e : Int) (x : Lane) (y : LaneIn) : Lane × Int :=
  let x := { x with nan := x.nan || y.nan, pinf := x.pinf || y.pinf, ninf := x.ninf || y.ninf, psn := x.psn || y.psn }
  (x, if active && !x.sat then x.acc.toInt + rneInt y.sum e else x.acc.toInt)

def outside (x : Lane × Int) : Bool := !x.1.sat && (window ≤ x.2 || x.2 ≤ -window)

/-- A lane that overflows in the fourth pass saturates; any other takes its sum (R255). -/
def laneKeep (x : Lane × Int) : Lane :=
  if outside x then { x.1 with acc := BitVec.ofInt 96 (if x.2 < 0 then 1 - window else window - 1), sat := true }
  else if x.1.sat then x.1
  else { x.1 with acc := BitVec.ofInt 96 x.2 }

/-- A pass over the groups; the number of the group that overflowed, with the scale then, where the command has
replayed fewer than 3 times (R254). -/
def runPass (n : Nat) : Nat → Acc → List GroupIn → Acc ⊕ (Nat × Int)
  | _, x, [] => .inl x
  | i, x, g :: rest =>
    let active := x.active || g.scale.isSome
    let e := if x.active then x.e else g.scale.getD x.e
    let ys := (x.lanes.zip g.lanes).map fun p => laneAdd active e p.1 p.2
    if n < 3 ∧ ys.any outside then .inr (i, e)
    else runPass n (i + 1) ⟨ys.map laneKeep, active, e, min (x.kcount + g.len) 0x1fffff⟩ rest

/-- The slot restored for a replay: A rounded from the scale it had at the command's start to the new one (R254). -/
def restore (snap : Acc) (e : Int) : Acc :=
  { snap with
    lanes := if snap.active then
        snap.lanes.map fun x => { x with acc := BitVec.ofInt 96 (rneInt (Val.mk x.acc.toInt 1 snap.e false) e) }
      else snap.lanes
    active := true
    e := e }

/-- The passes of a command: the final slot and the groups at which the abandoned passes overflowed. -/
def runPasses (gs : List GroupIn) (snap : Acc) : Nat → Nat → Acc → Acc × List Nat
  | 0, _, x => (x, [])
  | fuel + 1, n, x =>
    match runPass n 0 x gs with
    | .inl y => (y, [])
    | .inr (i, e) =>
      let r := runPasses gs snap fuel (n + 1) (restore snap (min (e + 16) 2047))
      (r.1, i :: r.2)

/-! ## The expander's time (R246, R247, R256) -/

/-- Products per lane per CORECLK (R266). -/
def prodsOf (fmt : Nat) : Nat :=
  match fmt with
  | 0x9 | 0xc => 32
  | 0x5 | 0x6 | 0x7 | 0x8 | 0xa | 0xb => 16
  | 0x2 | 0x3 | 0x4 => 8
  | 0x1 => 4
  | _ => 2

/-- Regions that a K-step reads, the stationary operand's first. -/
def OpSpec.stepRegions (o : OpSpec) (k q : Nat) : List Nat :=
  if o.fmt ≠ fCB16 then []
  else if o.row then (upto 16).map fun i => o.rbase + i * ceilDiv k 3072 + q / 3072
  else [o.rbase + q / 96]

/-- The expander in a pass: its edge, table tag, SPILL regions fetched, and the counts of stalls, loads and
fetches. -/
structure Walk where
  edge  : Nat
  tag   : Option Nat
  seen  : List Nat
  stall : Nat
  miss  : Nat
  fetch : Nat

/-- The walk has come to the edge at which the pass is abandoned: nothing begins there any more. -/
def Walk.over (w : Walk) (stop : Option Nat) : Bool := stop.any fun d => decide (d ≤ w.edge)

/-- The table groups that some regions need are loaded where the tag differs. -/
def walkTags (table : Nat) (stop : Option Nat) : List Nat → Walk → Walk
  | [], w => w
  | r :: rest, w =>
    let t := 2 * tabRow table r + r % 32 / 16
    walkTags table stop rest
      (if w.tag = some t ∨ w.over stop then w
        else { w with tag := some t, edge := w.edge + 4, stall := w.stall + 4, miss := w.miss + 1 })

/-- The SPILL regions that a K-step meets first are fetched. -/
def walkSpills (spills : Array Bool) (stop : Option Nat) : List Nat → Walk → Walk
  | [], w => w
  | r :: rest, w =>
    walkSpills spills stop rest
      (if w.seen.contains r ∨ w.over stop then w
        else if spills.getD r false then
          { w with seen := sadd r w.seen, edge := w.edge + 4, stall := w.stall + 4, fetch := w.fetch + 1 }
        else w)

/-- One K-step, with the loads and fetches that go before it, each begun before the edge at which the pass is abandoned; a
stall counts up to that edge. The spec does not say what becomes of a load or fetch that this edge cuts off partway: it counts
in CORE.EXPEVT as a whole one, and a load leaves its group's tag (DESIGN CHOICE, log 109). -/
def walkStep (table : Nat) (spills : Array Bool) (stop : Option Nat) (w : Walk) (rs : List Nat) : Walk :=
  if w.over stop then w
  else
    let x := walkSpills spills stop rs (walkTags table stop rs w)
    let slow := if rs.any fun r => spills.getD r false then 1 else 0
    let x := if x.over stop then x else { x with edge := x.edge + slow + 1, stall := x.stall + slow }
    match stop with
    | some d => if d < w.edge + (x.stall - w.stall) then { x with stall := w.stall + (d - w.edge) } else x
    | none => x

/-- A pass of the expander over the K-steps, and for an abandoned one the edge at which the overflow is found: 11
CORECLK after its group's last operands are read (R256). -/
def walkPass (table : Nat) (spills : Array Bool) (steps : List (List Nat)) (last : Option Nat) (w : Walk) : Walk :=
  let w := { w with edge := 0, seen := [] }
  match last with
  | none => steps.foldl (walkStep table spills none) w
  | some k =>
    let x := (steps.take (k + 1)).foldl (walkStep table spills none) w
    steps.foldl (walkStep table spills (some (x.edge - 1 + 11))) w

/-! ## MMA -/

/-- A flag of CORE.MFLAGS, with the MTX cause where it was 0 (R268). -/
def mflag (s : State) (l c b : Nat) : State :=
  let o := coreBase l c + 0x1c0
  if rdFld s o b b = 1 then s else raiseCore (setFlag s o b) l c 3

/-- A slot of a core. -/
def getSlot (s : State) (l c n : Nat) : Slot := tget {} (getCore s l c).slots n
def setSlot (s : State) (l c n : Nat) (x : Slot) : State :=
  let k := getCore s l c
  setCore s l c { k with slots := tput {} n x k.slots }

def Slot.laneList (x : Slot) : List Lane := (upto 512).map fun i => tget {} x.lanes i
def laneTab (xs : List Lane) : Tab Lane := twrite {} [] 0 xs

/-- Marks of a slot (R255, R260, R267). -/
def Slot.sat (x : Slot) : Bool := x.lanes.any fun p => p.2.sat
def Slot.long (x : Slot) : Bool := decide (2 ^ 20 < x.kcount)
def Slot.nan (x : Slot) : Bool := x.lanes.any fun p => p.2.nan
def Slot.inf (x : Slot) : Bool := x.lanes.any fun p => p.2.pinf || p.2.ninf
def Slot.psn (x : Slot) : Bool := x.lanes.any fun p => p.2.psn

/-- A cleared slot: zero, no scale, no mark; the D fields stay until the next drain (R189, R265). -/
def Slot.cleared (x : Slot) : Slot := { drained := x.drained }

/-- Every lane of a slot marked poisoned (R178). -/
def poisonSlot (s : State) (l c n : Nat) : State :=
  let x := getSlot s l c n
  setSlot s l c n { x with lanes := laneTab (x.laneList.map fun y => { y with psn := true }) }

/-- The slot at the start of an MMA (R249, R252, R253). -/
def EngCmd.startSlot (e : EngCmd) (x : Slot) : Slot :=
  let acc := bit e.imm.toNat 15
  if !acc || !x.active then
    if !acc && bit e.imm.toNat 11 then { x.cleared with active := true, pinned := true, e := sextNat 12 (e.c 44 33) }
    else x.cleared
  else x

/-- The regions that each K-step of an MMA reads. -/
def EngCmd.mmaSteps (e : EngCmd) : List (List Nat) :=
  let p := prodsOf e.fmts
  (upto (ceilDiv e.kk p)).map fun i => e.statOp.stepRegions e.kk (i * p) ++ e.streamOp.stepRegions e.kk (i * p)

/-- SPILL marks of the regions that an MMA reads. -/
def mmaSpills (s : State) (l c : Nat) (e : EngCmd) : Array Bool :=
  ((e.statOp.vecs s l c e ++ e.streamOp.vecs s l c e).flatMap fun v => v.spills).toArray

/-- The MMAs that started behind a pass which then overflows: the first from the CORECLK after that pass has read its last
operands, each other from that after the one before it has, until the overflow is found, `n` CORECLK later, where they are
abandoned (R181, R256). -/
def walkAhead (s : State) (l c n : Nat) : List EngCmd → Walk → Walk
  | [], w => w
  | e :: rest, w =>
    walkAhead s l c n rest (e.mmaSteps.foldl (walkStep (e.c 12 0) (mmaSpills s l c e) (some n)) { w with seen := [] })

/-- CORECLK between the last operands that an abandoned pass would read, all of its K-steps done, and the edge at which
its overflow is found; 0 where the overflow is found before. -/
def aheadTime (table : Nat) (spills : Array Bool) (steps : List (List Nat)) (last : Nat) (w : Walk) : Nat :=
  let w := { w with edge := 0, seen := [] }
  let found := ((steps.take (last + 1)).foldl (walkStep table spills none) w).edge - 1 + 11
  found - (steps.foldl (walkStep table spills none) w).edge

/-- The abandoned passes of a command, `ahead` the MMAs that started behind the first of them. -/
def walkFails (s : State) (l c : Nat) (e : EngCmd) (spills : Array Bool) (ahead : List EngCmd) :
    List Nat → Walk → Walk
  | [], w => w
  | i :: rest, w =>
    let k := (min (i * groupSize e.fmts + groupSize e.fmts) e.kk - 1) / prodsOf e.fmts
    let x := walkPass (e.c 12 0) spills e.mmaSteps (some k) w
    walkFails s l c e spills [] rest
      (walkAhead s l c (aheadTime (e.c 12 0) spills e.mmaSteps k w) ahead { x with edge := 0 })

/-- The expander's counts over the passes of a command: `fails` are the groups at which passes were abandoned. -/
def countWalk (s : State) (l c : Nat) (e : EngCmd) (fails : List Nat) (ahead : List EngCmd) : State :=
  let core := getCore s l c
  let spills := mmaSpills s l c e
  let w := walkFails s l c e spills ahead fails ⟨0, core.tcache, [], 0, 0, 0⟩
  let w := walkPass (e.c 12 0) spills e.mmaSteps none w
  let s := setCore s l c { core with tcache := w.tag }
  let s := countUp s (coreBase l c + 0x1c8) 31 0 w.stall none
  countUp (countUp s (coreBase l c + 0x1cc) 15 0 w.miss none) (coreBase l c + 0x1cc) 31 16 w.fetch none

/-- MMA (R249 to R262), and whether it replayed; `ahead` are the MMAs that started behind it (R181, R256). R270 counts SPILLRD
per pass and R236 does not say how CB16_SHORT, CB16_LONG and BADCODE events count in a command that replays: once per command
(DESIGN CHOICE, log 104). -/
def runMma (s : State) (l c : Nat) (e : EngCmd) (ahead : List EngCmd) : State × Bool :=
  let st := e.statOp
  let sm := e.streamOp
  let s := (st.reads s l c e ++ sm.reads s l c e).foldl (fun s r => readRowMarks s l c r) s
  let tv := st.vecs s l c e
  let sv := sm.vecs s l c e
  let xt := st.elems s l c e tv
  let xs := sm.elems s l c e sv
  let gs := groupsOf e.kk (groupSize e.fmts) (if e.side then xt else xs) (if e.side then xs else xt)
  let n := e.im 2 0
  let x := e.startSlot (getSlot s l c n)
  let snap : Acc := ⟨x.laneList, x.active, x.e, x.kcount⟩
  let r := runPasses gs snap 4 0 snap
  let y : Slot :=
    { x with
      lanes := laneTab r.1.lanes, active := r.1.active, e := r.1.e, kcount := r.1.kcount
      replays := min (x.replays + r.2.length) 15 }
  let s := setSlot s l c n y
  let all := tv ++ sv
  let s := cb16Count s l c 0x160 0 ((all.map fun v => v.short).foldl (· + ·) 0)
  let s := cb16Count s l c 0x160 8 ((all.map fun v => v.long).foldl (· + ·) 0)
  let s := cb16Count s l c 0x160 24 ((all.map fun v => v.bad).foldl (· + ·) 0)
  let s := countWalk s l c e r.2 ahead
  let o := coreBase l c + 0x1c4
  let s := if r.2.isEmpty then s else mflag (countUp s o 15 0 r.2.length none) l c 3
  let sats (z : Slot) : Nat := (z.lanes.filter fun p => p.2.sat).length
  let s := if sats y != sats x then mflag (countUp s o 23 16 1 none) l c 0 else s
  let s := if y.long && !x.long then mflag (countUp s o 31 24 1 none) l c 1 else s
  let special := gs.any fun g => g.lanes.any fun z => z.nan || z.pinf || z.ninf
  (if special then mflag s l c 2 else s, !r.2.isEmpty)

/-! ## MLD, MZ and MDR (R187 to R189, R263 to R265) -/

/-- MLD: rows into the stationary buffer byte for byte with their poison (R187). -/
def runMld (s : State) (l c : Nat) (e : EngCmd) : State :=
  let n := e.a 20 13
  let s := readRowsMarks s l c (e.a 12 0) n
  putStat s l c (e.b 6 0) (readRows s l c (e.a 12 0) n)

/-- MZ: every named slot cleared (R189). -/
def runMz (s : State) (l c : Nat) (e : EngCmd) : State :=
  (maskBits 8 e.imm.toNat).foldl (fun s n => setSlot s l c n (getSlot s l c n).cleared) s

/-- The exact value that a drain rounds (R263). -/
def drainVal (x : Slot) (y : Lane) (rdn : Bool) (cs : Option Nat) (bias : Option Val) : Val :=
  let v : Val :=
    if y.nan || (y.pinf && y.ninf) then .nan
    else if y.pinf then .inf false
    else if y.ninf then .inf true
    else if x.active then Val.mk y.acc.toInt 1 x.e false
    else .zero false
  let v := match cs with
    | some 0xff => .nan
    | some k => v.scale ((k : Int) - 127)
    | none => v
  match bias with
  | some b => v.add rdn b
  | none => v

/-- The rows of a drain (R263, R264). -/
def drainRows (s : State) (l c : Nat) (e : EngCmd) (x : Slot) : PRows :=
  let fmt := e.im 6 3
  let cs := rowData s l c (e.a 25 13)
  let bs := rowData s l c (e.a 38 26)
  let scale := bit e.imm.toNat 10
  let biasen := bit e.imm.toNat 11
  let lanes := x.laneList
  let outs := (lanes.zip (upto 512)).map fun p =>
    let j := p.2 % 32
    let v := drainVal x p.1 (e.im 9 7 == 3) (if scale then some (cs.1.getD j 0).toNat else none)
      (if biasen then some (decodeElem fFP32 (leNat ((bs.1.drop (4 * j)).take 4))) else none)
    let r := encodeElem fmt v ⟨e.im 9 7, e.rb, p.2⟩ (bit e.imm.toNat 14)
    (r.1, r.2 || p.1.psn)
  let all := (scale && cs.2) || (biasen && bs.2)
  let per := perRow fmt
  (codesRows fmt e.mdrRows (outs.map fun o => o.1)).zip (upto e.mdrRows) |>.map fun p =>
    (p.1, all || ((outs.drop (per * p.2)).take per).any fun o => o.2)

/-- MDR: the rows of its output, and the state with the slot's marks copied and the slot cleared unless KEEP (R265). -/
def runMdr (s : State) (l c : Nat) (e : EngCmd) : State × PRows :=
  let s := if bit e.imm.toNat 10 then readRowMarks s l c (e.a 25 13) else s
  let s := if bit e.imm.toNat 11 then readRowMarks s l c (e.a 38 26) else s
  let n := e.im 2 0
  let x := getSlot s l c n
  let rows := drainRows s l c e x
  let x' := if bit e.imm.toNat 13 then x else x.cleared
  (setSlot s l c n { x' with drained := ⟨x.replays, x.sat, x.long, x.nan || x.inf, x.psn⟩ }, rows)

end Sys2Proof.Machine
end

