-- ==== Sys2Proof/Machine/Streams.lean ====
section
/-! DEFINITION. The stream engine: descriptors, gates, progress, arbitration, requests and responses, the end and the
failure of armings, deadlines (R300 to R324). -/

namespace Sys2Proof.Machine

/-! ## Contexts -/

def coreRef (l c : Nat) : CoreRef :=
  ⟨⟨l % 32, Nat.mod_lt _ (by decide)⟩, ⟨c % 256, Nat.mod_lt _ (by decide)⟩⟩

def getCtx (s : State) (l c sid : Nat) : Ctx := tget {} (getCore s l c).ctxs sid
def setCtx (s : State) (l c sid : Nat) (x : Ctx) : State :=
  let k := getCore s l c
  setCore s l c { k with ctxs := tput {} sid x k.ctxs }

/-- The context holds a persistent stream (R199). -/
def Ctx.persistent (x : Ctx) : Bool := x.d.persist && x.st != .idle

/-- CORE.SESTAT: DLMISS, PSNROWS, FAILED, BADIDX; the SE cause rises with DLMISS and FAILED (R324). -/
def countSe (s : State) (l c lo : Nat) (cause : Bool) : State :=
  countUp s (coreBase l c + 0x1ec) (lo + 7) lo 1 (if cause then some (coreBase l c + 0x3c0, 5) else none)
def countPsnRow (s : State) (l c : Nat) : State := countSe s l c 8 false

/-! ## Descriptors (R300, R301) -/

/-- SPACE of a global address (R23). -/
def spaceOf (a : Dword) : Nat := dfld a 47 44

/-- The fields of a descriptor from its eight words. -/
def parseDesc (ws : List Nat) : Desc :=
  let w (i : Nat) : Nat := ws.getD i 0
  { store := bits (w 0) 1 0 == 1, idx := bit (w 0) 2, idxLoc := bit (w 0) 3, persist := bit (w 0) 4
    wen := bit (w 0) 5, widx := BitVec.ofNat 10 (bits (w 0) 15 6), wgen := BitVec.ofNat 8 (bits (w 0) 23 16)
    lrow := bits (w 0) 44 32, ring := bits (w 0) 57 45
    gaddr := BitVec.ofNat 64 (w 1), idxaddr := BitVec.ofNat 64 (w 2)
    gstride := bits (w 3) 39 0, blkrows := bits (w 3) 47 40 + 1
    count := bits (w 4) 31 0, rate := bits (w 4) 47 32
    gctr := BitVec.ofNat 6 (bits (w 5) 5 0), gunit := bits (w 5) 13 6
    pctr := BitVec.ofNat 6 (bits (w 5) 19 14), punit := bits (w 5) 27 20
    rcore := BitVec.ofNat 8 (bits (w 6) 7 0), rctr := BitVec.ofNat 6 (bits (w 6) 13 8)
    rinc := BitVec.ofNat 8 (bits (w 6) 21 14), dl := bits (w 7) 31 0 }

/-- KIND is reserved, or a rsvd field is not zero. -/
def descRsvd (ws : List Nat) : Bool :=
  let w (i : Nat) : Nat := ws.getD i 0
  1 < bits (w 0) 1 0 || bits (w 0) 31 24 != 0 || bits (w 0) 63 58 != 0 || bits (w 3) 63 48 != 0 ||
    bits (w 4) 63 48 != 0 || bits (w 5) 63 28 != 0 || bits (w 6) 63 22 != 0 || bits (w 7) 63 32 != 0

/-- A row-space global side is aligned to rows, any other to 64 B. -/
def Desc.unit (d : Desc) : Nat := if spaceOf d.gaddr = 1 then 512 else 64

/-- The checks that a new base 1 or base 2 must pass (R301). -/
def Desc.baseBad (d : Desc) : Bool :=
  d.gaddr.toNat % d.unit != 0 || d.gstride % d.unit != 0 ||
    (d.idx && d.idxLoc && (dfld d.idxaddr 63 13 != 0 || pastRows (dfld d.idxaddr 12 0) (ceilDiv d.count 128))) ||
    (d.idx && !d.idxLoc && d.idxaddr.toNat % 64 != 0)

/-- The checks of a descriptor (R301). -/
def Desc.bad (d : Desc) : Bool :=
  d.ring == 0 || pastRows d.lrow d.ring || d.baseBad || (d.idxLoc && !d.idx) ||
    (d.count == 0 && !(d.store && d.rctr != 0x3f && !d.persist)) ||
    badCtr d.gctr || badCtr d.pctr || badCtr d.rctr ||
    (d.gctr != 0x3f && d.gunit == 0) || (d.pctr != 0x3f && d.punit == 0) || (d.rctr != 0x3f && d.rinc == 0) ||
    (d.rctr == 0x3f && d.rinc != 0) || (d.gctr == 0x3f && decide (d.ring < d.count * d.blkrows))

/-- Rows of an arming. -/
def Desc.total (d : Desc) : Nat := d.count * d.blkrows

/-- Window that the global side names. -/
def Desc.win (d : Desc) : Option (BitVec 10 × BitVec 8) := if d.wen then some (d.widx, d.wgen) else none

/-- Remote increment of an arming (R308). -/
def Desc.inc (d : Desc) : Option (BitVec 8 × BitVec 6 × BitVec 8) :=
  if d.rctr = 0x3f then none else some (d.rcore, d.rctr, d.rinc)

/-- The arming ends with a signal-only packet: a LOAD with a remote increment, or a STORE with COUNT 0 (R308). -/
def Desc.signals (d : Desc) : Bool := d.rctr != 0x3f && (!d.store || d.count == 0)

/-! ## Gates (R306) -/

/-- (G - G0) x GUNIT. -/
def gateRows (s : State) (l c : Nat) (x : Ctx) : Nat :=
  ((getCtr s l c x.d.gctr.toNat).val.toNat - x.g0.toNat) * x.d.gunit

/-- Row p lies within the credit. -/
def creditOk (s : State) (l c : Nat) (x : Ctx) (p : Nat) : Bool :=
  x.d.gctr == 0x3f || (if x.d.store then p < gateRows s l c x else p < x.d.ring + gateRows s l c x)

/-- Ring row of position p (R302). -/
def Ctx.ringRow (x : Ctx) (p : Nat) : Nat := x.d.lrow + p % x.d.ring

/-! ## Tags (R313) -/

/-- Whether an access belongs to the streams of a core, and to one context. -/
def ASrc.ofCtx (a : ASrc) (l c : Nat) (sid : Option Nat) : Bool :=
  let hit (k : CoreRef) (n : Nat) : Bool := k.land.val == l && k.core.val == c && (sid == none || sid == some n)
  match a with
  | .row k n _ => hit k n
  | .index k n _ => hit k n
  | .signal k n => hit k n
  | .stale k n => hit k n
  | _ => false

/-- Tags in use by a core, or by one context. -/
def tagsUsed (s : State) (l c : Nat) (sid : Option Nat) : Nat := (s.accs.filter fun a => a.src.ofCtx l c sid).length

/-- A new access of a stream; the peak of the tags in use follows (R324, CORE.SETAGS). -/
def streamAccess (s : State) (l c : Nat) (src : ASrc) (kind : AKind) (addr : Dword)
    (win : Option (BitVec 10 × BitVec 8)) (inc : Option (BitVec 8 × BitVec 6 × BitVec 8)) : State :=
  let s := newAccess s src kind addr win inc 0 0
  let k := getCore s l c
  setCore s l c { k with tagPeak := max k.tagPeak (tagsUsed s l c none) }

/-! ## Operand holds (R183) -/

/-- Rows that an MMA reads. -/
def EngCmd.mmaReads (s : State) (l c : Nat) (e : EngCmd) : List Nat :=
  if e.op = 0x30 then e.statOp.reads s l c e ++ e.streamOp.reads s l c e else []

/-- Rows that running MMAs hold: that of the head, and those that have started behind it. -/
def heldRows (s : State) (l c : Nat) : List Nat :=
  let q := (getCore s l c).mtx
  let n := if q.running ∧ !q.discard then q.ahead + 1 else 0
  (q.cmds.take n).flatMap fun e => e.mmaReads s l c

/-- A write to a row waits: the row is held, or an earlier write to it waits. -/
def rowHeld (s : State) (l c r : Nat) : Bool :=
  (heldRows s l c).contains r || (getCore s l c).held.any fun h => h.row == r

/-- A row write joins those that wait. -/
def holdWrite (s : State) (l c : Nat) (h : HeldWrite) : State :=
  let k := getCore s l c
  setCore s l c { k with held := k.held ++ [h] }

/-- Rows that the chain-port buffer holds (R295). -/
def chainMax : Nat := 16

/-- Rows in the chain-port buffer of a core, and those of n ferry rows from r that an operand hold keeps there. -/
def chainHeld (s : State) (l c : Nat) : Nat := ((getCore s l c).held.filter fun h => h.goal == .chain).length
def chainWaits (s : State) (l c r n : Nat) : Nat := ((upto n).filter fun i => rowHeld s l c (r + i)).length

/-- The chain-port buffer of a core takes n ferry rows from r: each row passes through it, so that it is not full when the
last of them comes (R257, R295, R323). -/
def chainTakes (s : State) (l c r n : Nat) : Bool :=
  n == 0 || decide (chainHeld s l c + chainWaits s l c r (n - 1) < chainMax)

/-- The rows fill the buffer (R295). -/
def chainFills (s : State) (l c r n : Nat) : Bool :=
  decide (chainHeld s l c < chainMax) && decide (chainMax ≤ chainHeld s l c + chainWaits s l c r n)

/-- CORE.SPSTAT.CHFULL counts that the chain-port buffer filled. -/
def chainFull (s : State) (l c : Nat) : State := countUp s (coreBase l c + 0x1f0) 31 24 1 none

/-- Rows written, each once no hold stalls it, by a writer that waits for nothing (`plain`) or the chain port. -/
def writeRowsHeld (s : State) (l c r : Nat) (goal : HeldFor) : List (List Byte × Bool) → State
  | [] => s
  | (bs, p) :: rest =>
    let s := if rowHeld s l c r then holdWrite s l c ⟨r, bs, p, goal⟩ else putRow s l c r bs p
    writeRowsHeld s l c (r + 1) goal rest

/-! ## Progress (R307) -/

/-- The completed prefix advanced over the positions done beyond it; the bound is their number. -/
def absorb : Nat → Nat → List Nat → Nat × List Nat
  | 0, pre, done => (pre, done)
  | n + 1, pre, done => if done.contains pre then absorb n (pre + 1) (done.filter fun p => p != pre) else (pre, done)

/-- The total of progress increments that a context must have applied. -/
def Ctx.progTotal (x : Ctx) : Nat :=
  if x.d.pctr = 0x3f then 0 else max (x.pre / x.d.punit) (ceilDiv x.preEnd x.d.punit)

/-- Progress increments of 1 until the total stands, in one movement (R307, R335). -/
def applyProg (s : State) (l c sid : Nat) : State :=
  let x := getCtx s l c sid
  let n := x.progTotal - x.prog
  addMany (setCtx s l c sid { x with prog := x.prog + n }) l c (List.replicate n ⟨x.d.pctr.toNat, 1, .stream sid⟩)

/-- Position p is complete; when a failed arming's rows are all complete, the new arming starts (R307, R321). -/
def completeRow (s : State) (l c sid p : Nat) : State :=
  let x := getCtx s l c sid
  let filling := decide (x.pre < x.fillTo)
  let r := absorb (x.done.length + 1) x.pre (x.done ++ [p])
  let x := { x with pre := r.1, done := r.2 }
  let x := if filling ∧ x.fillTo ≤ x.pre then { x with start := s.edges } else x
  applyProg (setCtx s l c sid x) l c sid

/-- A ring row written for a stream, held while an operand hold stalls it (R323); its completion follows. -/
def streamWrite (s : State) (l c sid p : Nat) (data : List Byte) (psn : Bool) (tag : Option Nat) : State :=
  let row := (getCtx s l c sid).ringRow p
  if rowHeld s l c row then holdWrite s l c ⟨row, data, psn, .stream sid p tag⟩
  else
    let s := putRow s l c row data psn
    let s := match tag with
      | some id => dropAccess s id
      | none => s
    completeRow s l c sid p

/-! ## Jobs of STRM and REARM (R199) -/

/-- The first arming or re-arming of a context has ended or failed. -/
def jobDone (s : State) (l c sid : Nat) (failed : Bool) : State :=
  let k := getCore s l c
  setCore s l c
    { k with
      jobs := k.jobs.map fun j =>
        if j.left.contains sid then { j with left := j.left.filter fun n => n != sid, failed := j.failed || failed }
        else j }

/-- The accesses of a context become those of no arming. -/
def staleCtx (s : State) (l c sid : Nat) : State :=
  { s with
    accs := s.accs.map fun a => if a.src.ofCtx l c (some sid) then { a with src := .stale (coreRef l c) sid } else a }

/-- Row writes of a context that wait are discarded, with their tags (R319, R322). -/
def dropHeld (s : State) (l c sid : Nat) : State :=
  let k := getCore s l c
  let mine (h : HeldWrite) : Bool := match h.goal with | .stream n _ _ => n == sid | _ => false
  let tags := (k.held.filter mine).filterMap fun h => match h.goal with | .stream _ _ t => t | _ => none
  let s := setCore s l c { k with held := k.held.filter fun h => !mine h }
  { s with accs := s.accs.filter fun a => !tags.contains a.id }

/-- The code of CORE.SECTX.ERR for a refused access (R319). -/
def errOf : AStatus → BitVec 4
  | .domainOff => 2
  | .windowClosed => 3
  | _ => 1

/-- An arming fails (R319). -/
def failArming (s : State) (l c sid : Nat) (st : AStatus) : State :=
  let s := staleCtx (dropHeld s l c sid) l c sid
  let x := getCtx s l c sid
  let s := setCtx s l c sid { x with st := .failed, err := errOf st, fifo := [], idxBuf := [] }
  jobDone (countSe s l c 16 true) l c sid true

/-- A context loaded by STRM and armed (R302, R306). -/
def loadCtx (s : State) (l c sid : Nat) (d : Desc) : State :=
  setCtx s l c sid { st := .armed, d := d, g0 := (getCtr s l c d.gctr.toNat).val, start := s.edges }

/-- The next arming of a persistent context, after the `moved` rows of those before it (R310, R321). -/
def rearmCtx (s : State) (l c sid : Nat) (x : Ctx) (d : Desc) : State :=
  let p0 := x.p0 + x.d.total
  setCtx s l c sid
    { x with
      st := .armed, d := d, err := 0, p0 := p0, issued := 0, fifo := [], idxReq := 0, idxBuf := [], idxIn := 0
      fillTo := p0, sent := false, acked := false, lastSrc := none, missed := false, start := s.edges }

/-! ## Arbitration (R314, R315) -/

/-- What a context would issue next: a row of a failed arming, an index row, a row, a signal-only packet. -/
inductive SUnit where
  | fill (p : Nat)
  | index
  | row
  | signal
deriving DecidableEq, Repr

/-- Indices of the first r index rows. -/
def Desc.indices (d : Desc) (r : Nat) : Nat := min d.count (128 * r)

/-- A failed arming's next row that is neither complete nor waiting (R321). -/
def nextFill (s : State) (l c sid : Nat) (x : Ctx) : Option Nat :=
  let waits (p : Nat) : Bool := (getCore s l c).held.any fun h =>
    match h.goal with | .stream n q _ => n == sid && q == p | _ => false
  ((upto (x.fillTo - x.pre)).map fun i => x.pre + i).find? fun p => !x.done.contains p && !waits p

/-- The row that the context would move next is eligible: within its credit, its index known, and the last row of a
STORE with an increment only after every earlier row is acknowledged (R306, R308). -/
def rowReady (s : State) (l c : Nat) (x : Ctx) : Bool :=
  x.issued < x.d.total && creditOk s l c x (x.p0 + x.issued) && (!x.d.idx || !x.fifo.isEmpty) &&
    !(x.d.store && x.d.rctr != 0x3f && x.issued + 1 == x.d.total && x.pre < x.p0 + x.issued)

/-- A context's next unit; none where it has nothing eligible. -/
def nextUnit (s : State) (l c sid : Nat) (free : Bool) : Option SUnit :=
  let x := getCtx s l c sid
  if x.st ≠ .armed then none
  else if x.pre < x.fillTo then
    match nextFill s l c sid x with
    | some p => if x.d.store || creditOk s l c x p then some (.fill p) else none
    | none => none
  else if !free then none
  else if x.d.idx ∧ 128 * x.idxReq < x.d.count ∧
      x.fifo.length + (x.d.indices x.idxReq - x.d.indices x.idxIn) ≤ 128 then some .index
  else if rowReady s l c x then some .row
  else if x.d.signals ∧ !x.sent ∧ x.pre = x.p0 + x.d.total then some .signal
  else none

/-- The slack b in rows, below zero where more has been released or produced than was moved (R315). -/
def slack (s : State) (l c : Nat) (x : Ctx) : Int :=
  let g : Int := if x.d.gctr = 0x3f then 0 else gateRows s l c x
  let p : Int := (x.p0 + x.issued : Nat)
  if x.d.store then (x.d.ring : Int) - (g - p) else p - g

/-- The present arming has started: the rows of a failed one before it are all complete (R321). -/
def Ctx.started (x : Ctx) : Bool := x.fillTo ≤ x.pre

/-- Time to run dry T in CORECLK (R315). -/
def dryTime (s : State) (l c : Nat) (x : Ctx) : Int :=
  let t : Int := if x.d.rate = 0 then 2 ^ 24 - 1 else slack s l c x * 1024 / (x.d.rate : Int)
  if x.d.dl = 0 ∨ !x.started then t else min t ((8 * (x.start + x.d.dl - s.edges) : Nat) : Int)

/-- The context served: the smallest T, then the lowest stream ID. -/
def pickCtx (s : State) (l c : Nat) : Option (Nat × SUnit) :=
  let free := decide (tagsUsed s l c none < 64)
  let best := (upto 32).foldl (fun (a : Option (Int × Nat × SUnit)) sid =>
    match nextUnit s l c sid free with
    | none => a
    | some u =>
      let t := dryTime s l c (getCtx s l c sid)
      match a with
      | some b => if t < b.1 then some (t, sid, u) else a
      | none => some (t, sid, u)) none
  best.map fun b => b.2

/-! ## Requests (R302, R304, R308, R321) -/

/-- The indices of a row, with its poison. -/
def rowIndices (row : List Byte × Bool) (n : Nat) : List (Word × Bool) :=
  (upto n).map fun i => (BitVec.ofNat 32 (leNat ((row.1.drop (4 * i)).take 4)), row.2)

/-- Index rows that have arrived enter the FIFO in order. -/
def takeIndexRows : Nat → Ctx → Ctx
  | 0, x => x
  | n + 1, x =>
    match x.idxBuf.find? fun b => b.1 == x.idxIn with
    | some b =>
      let m := x.d.indices (x.idxIn + 1) - x.d.indices x.idxIn
      takeIndexRows n
        { x with
          fifo := x.fifo ++ rowIndices b.2 m, idxIn := x.idxIn + 1
          idxBuf := x.idxBuf.filter fun y => y.1 != x.idxIn }
    | none => x

/-- An index row arrived. -/
def indexRow (s : State) (l c sid r : Nat) (row : List Byte × Bool) : State :=
  let x := getCtx s l c sid
  setCtx s l c sid (takeIndexRows (x.idxBuf.length + 1) { x with idxBuf := x.idxBuf ++ [(r, row.1, row.2)] })

/-- Request of the next index row: from the scratchpad at once, else a global read. -/
def requestIndex (s : State) (l c sid : Nat) : State :=
  let x := getCtx s l c sid
  let r := x.idxReq
  let s := setCtx s l c sid { x with idxReq := r + 1 }
  if x.d.idxLoc then
    let row := dfld x.d.idxaddr 12 0 + r
    indexRow (readRowMarks s l c row) l c sid r (rowData s l c row)
  else
    streamAccess s l c (.index (coreRef l c) sid r) .readRow (x.d.idxaddr + BitVec.ofNat 64 (512 * r)) x.d.win none

/-- The index of the present block: a skip, a bad index, or a block number (R304). -/
inductive IdxUse where
  | block (v : Nat)
  | skip
  | bad
deriving DecidableEq, Repr

def idxUse (x : Ctx) : IdxUse :=
  if !x.d.idx then .block (x.issued / x.d.blkrows)
  else match x.fifo with
    | [] => .bad
    | (v, psn) :: _ =>
      if psn then .bad
      else if v = 0xffffffff then .skip
      else if 2 ^ 31 ≤ v.toNat then .bad
      else .block v.toNat

/-- The context after its next row has been issued; its index leaves the FIFO with the block's last row. -/
def Ctx.passRow (x : Ctx) : Ctx :=
  { x with
    issued := x.issued + 1
    fifo := if x.d.idx ∧ (x.issued + 1) % x.d.blkrows = 0 then x.fifo.tail else x.fifo }

/-- Request, write or passing over of the next row (R302, R304, R308). -/
def requestRow (s : State) (l c sid : Nat) : State :=
  let x := getCtx s l c sid
  let p := x.p0 + x.issued
  let q := x.issued % x.d.blkrows
  let src := ASrc.row (coreRef l c) sid p
  let s := setCtx s l c sid x.passRow
  let zeroRow (s : State) (psn : Bool) : State :=
    if x.d.store then completeRow s l c sid p else streamWrite s l c sid p [] psn none
  match idxUse x with
  | .skip => zeroRow s false
  | .bad => zeroRow (if q = 0 then countSe s l c 24 false else s) true
  | .block v =>
    let a := x.d.gaddr + BitVec.ofNat 64 (v * x.d.gstride + 512 * q)
    if x.d.store then
      let row := x.ringRow p
      let d := rowData s l c row
      let inc := if x.issued + 1 = x.d.total then x.d.inc else none
      streamAccess (readRowMarks s l c row) l c src (.writeRow d.1 d.2) a x.d.win inc
    else
      let s := setCtx s l c sid { x.passRow with lastSrc := some a }
      streamAccess s l c src .readRow a x.d.win none

/-- The signal-only packet of an arming (R308). -/
def requestSignal (s : State) (l c sid : Nat) : State :=
  let x := getCtx s l c sid
  let a := if x.d.store then x.d.gaddr else x.lastSrc.getD x.d.gaddr
  streamAccess (setCtx s l c sid { x with sent := true }) l c (.signal (coreRef l c) sid) .signal a x.d.win x.d.inc

/-- A row of a failed arming: a LOAD row zero with poison, a STORE row passed over (R321). -/
def fillMissing (s : State) (l c sid p : Nat) : State :=
  if (getCtx s l c sid).d.store then completeRow s l c sid p
  else streamWrite (countPsnRow s l c) l c sid p [] true none

/-- The engines of a core run: its array is ON, the core active and not quarantined. -/
def coreRuns (s : State) (l c : Nat) : Bool := arrayOn s l && coreActive s l c && !quarantined s l

/-- STREAM_REQUEST: one request, row write or signal-only packet for the context served (R314). -/
def execStreamRequest (k : CoreRef) (s : State) : Res :=
  let l := k.land.val
  let c := k.core.val
  if !coreRuns s l c then .next s
  else
    match pickCtx s l c with
    | none => .next s
    | some (sid, .fill p) => .next (fillMissing s l c sid p)
    | some (sid, .index) => .next (requestIndex s l c sid)
    | some (sid, .row) => .next (requestRow s l c sid)
    | some (sid, .signal) => .next (requestSignal s l c sid)

/-! ## Responses (R316 to R320, R323) -/

/-- The access refuses its arming: ADDRESS, DOMAIN_OFF or WINDOW_CLOSED (R319). -/
def refusedStatus : AStatus → Bool
  | .address | .amoSpace | .windowClosed | .domainOff => true
  | _ => false

/-- A response to a stream: a refusal fails the arming, a lost row is zero with poison (R316, R317, R319). -/
def streamResponse (s : State) (a : Access) (r : AResult) : State :=
  let lost := r.status == .lost
  let psn := lost || r.psn || r.status == .poison
  match a.src with
  | .row k sid p =>
    let l := k.land.val
    let c := k.core.val
    if refusedStatus r.status then failArming (dropAccess s a.id) l c sid r.status
    else
      let s := if psn then countPsnRow s l c else s
      match a.kind with
      | .readRow => streamWrite s l c sid p (if lost then [] else r.data) psn (some a.id)
      | _ => completeRow (dropAccess s a.id) l c sid p
  | .index k sid n =>
    let l := k.land.val
    let c := k.core.val
    let s := dropAccess s a.id
    if refusedStatus r.status then failArming s l c sid r.status
    else indexRow s l c sid n (if lost then [] else r.data, psn)
  | .signal k sid =>
    let l := k.land.val
    let c := k.core.val
    let s := dropAccess s a.id
    if refusedStatus r.status then failArming s l c sid r.status
    else setCtx s l c sid { getCtx s l c sid with acked := true }
  | .stale _ _ => dropAccess s a.id
  | _ => s

/-- The access's row waits for an operand hold at its requester (R323). -/
def tagHeld (s : State) (l c id : Nat) : Bool :=
  (getCore s l c).held.any fun h => match h.goal with | .stream _ _ t => t == some id | _ => false

/-- The core whose stream an access serves. -/
def streamCore : ASrc → Option (Nat × Nat)
  | .row k _ _ | .index k _ _ | .signal k _ | .stale k _ => some (k.land.val, k.core.val)
  | _ => none

/-- STREAM_RESPONSE: the response or acknowledgement of a stream's access arrives (R316). -/
def execStreamResponse (id : Nat) (s : State) : Res :=
  match findAccess s id with
  | none => .next s
  | some a =>
    match streamCore a.src, a.res with
    | some (l, c), some r => .next (if !arrayOn s l ∨ tagHeld s l c id then s else streamResponse s a r)
    | _, _ => .next s

/-! ## The end of an arming, and deadlines (R309, R324) -/

/-- Every row is complete, and the signal-only packet acknowledged. -/
def armingOver (x : Ctx) : Bool :=
  x.st == .armed && x.fillTo ≤ x.pre && x.pre == x.p0 + x.d.total && (!x.d.signals || x.acked)

/-- ARMING_END (R309). -/
def execArmingEnd (k : CoreRef) (sid : Fin 32) (s : State) : Res :=
  let l := k.land.val
  let c := k.core.val
  let x := getCtx s l c sid.val
  if !coreRuns s l c ∨ !armingOver x then .next s
  else
    let x := { x with preEnd := x.pre, arms := x.arms + 1, st := if x.d.persist then .parked else .idle }
    .next (jobDone (applyProg (setCtx s l c sid.val x) l c sid.val) l c sid.val false)

/-- DEADLINE_MISS: DL TIMECLK after its start the arming has not ended; at most once per arming (R324). An arming that waits
for the rows of a failed one has not started (R321). -/
def execDeadlineMiss (k : CoreRef) (sid : Fin 32) (s : State) : Res :=
  let l := k.land.val
  let c := k.core.val
  let x := getCtx s l c sid.val
  if x.st = .armed ∧ x.started ∧ x.d.dl ≠ 0 ∧ !x.missed ∧ x.start + x.d.dl ≤ s.edges ∧ coreRuns s l c then
    .next (countSe (setCtx s l c sid.val { x with missed := true }) l c 0 true)
  else .next s

/-! ## LC.FBUF (R297) -/

/-- FBUF_WRITE: the present values change nothing but REFUSED, which a 1 clears; any other write needs an empty ferry
buffer, no tile and values in range, else it is refused. The hold bit follows the depth (R67). -/
def execFbufWrite (_m : Master) (l : Fin 32) (v : Word) (s : State) : Res :=
  let o := lcBase l.val + 0x90
  let x := getLand s l.val
  let base := wfld v 12 0
  let depth := wfld v 18 13
  if absentLand s l.val ∨ domState s (32 + l.val) = 0 then .next s
  else if base = rdFld s o 12 0 ∧ depth = rdFld s o 18 13 then
    .next (if wfld v 31 31 = 1 then wrFld s o 31 31 0 else s)
  else if x.fslots.isEmpty ∧ x.tiles.isEmpty ∧ 1 ≤ depth ∧ depth ≤ 32 ∧ base + 64 * depth ≤ nRows then
    let s := wrFld (wrFld s o 12 0 base) o 18 13 depth
    .next (updHold (if wfld v 31 31 = 1 then wrFld s o 31 31 0 else s) l.val)
  else .next (setFlag s o 31)

end Sys2Proof.Machine
end

