-- ==== Sys2Proof/Machine/Crossing.lean ====
section
/-! DEFINITION. The crossing: slots, launches, arrivals, injection into the chains, gradient and scale ferries, pace
credit (R18, R46 to R63, R67 to R70, R87 to R92, R98 to R100, R115, R116). -/

namespace Sys2Proof.Machine

/-! ## Order of the landings (R18, R22, R47, R51) -/

/-- The other landings in a direction, from the next one on; on an extended crossing, up to the module's edge. -/
def ringFrom (ext : Bool) (d : Dir) (l : Nat) : List Nat :=
  match d with
  | .cw => (upto (if ext then 31 - l else 32)).map fun i => (l + 1 + i) % 32
  | .ccw => (upto (if ext then l else 32)).map fun i => (l + 31 - i) % 32

/-- The next live landing in a direction; none past the edge of an extended crossing (R55, R98). -/
def nextLive (s : State) (d : Dir) (l : Nat) : Option Nat := (ringFrom s.crs.ext d l).find? fun k => liveLand s k

/-- The live landing at which a direction enters the module of an extended crossing. -/
def entryLand (s : State) : Dir → Option Nat
  | .cw => (liveLands s).head?
  | .ccw => (liveLands s).reverse.head?

/-- Links from one live landing to another in a direction; an extended crossing is open between L31 and L00 (R98). -/
def linksTo (s : State) (d : Dir) (l k : Nat) : Option Nat :=
  ((ringFrom s.crs.ext d l).filter fun j => liveLand s j).idxOf? k |>.map (· + 1)

/-! ## Slices (R46, R47) -/

/-- The modules in CW order from m on, up to this module. -/
def modsFrom (s : State) : Nat → Nat → List Nat
  | 0, _ => []
  | n + 1, m => if m = s.modnum.toNat then [] else m :: modsFrom s n (Config.cwNext m)

/-- The other modules of an extended crossing, in CW order from this one. -/
def otherMods (s : State) : List Nat := modsFrom s 2048 (rdFld s rRing 10 0)

/-- The landings of a module of the crossing that are live: of another module a free value (log 40). -/
def liveIn (s : State) (m : Nat) : List Nat :=
  if m = s.modnum.toNat then liveLands s
  else (presentIn s m).filter fun l => (Config.remoteLive m s.time.toNat).getLsbD l

/-- The modules of an extended crossing in CW order, from the crossing master on: the lowest number (R47, R416). -/
def crossingMods (s : State) : List Nat :=
  let ms := s.modnum.toNat :: otherMods s
  let first := ms.foldl min s.modnum.toNat
  let i := ms.idxOf first
  ms.drop i ++ ms.take i

/-- The landing order of the crossing, as 32 x module + landing: home slice h is held by the landing in position h
(R47). -/
def landingOrder (s : State) : List Nat :=
  if s.crs.ext then (crossingMods s).flatMap fun m => (presentIn s m).map fun l => 32 * m + l
  else (presentLands s).map fun l => 32 * s.modnum.toNat + l

/-- The live landings of the crossing in its order, as 32 x module + landing (R51, R63). -/
def liveIds (s : State) : List Nat :=
  if s.crs.ext then (crossingMods s).flatMap fun m => (liveIn s m).map fun l => 32 * m + l
  else (liveLands s).map fun l => 32 * s.modnum.toNat + l

/-- The live landing before one in a direction, around the whole crossing. -/
def liveBefore (s : State) (d : Dir) (id : Nat) : Option Nat :=
  let ids := liveIds s
  let n := ids.length
  match ids.idxOf? id with
  | some i => ids[(match d with | .cw => i + n - 1 | .ccw => i + 1) % n]?
  | none => none

/-- Slice count that an image must have (R46). -/
def sliceCount (s : State) : Nat := (landingOrder s).length

/-- The home of slice h, as 32 x module + landing. -/
def sliceHomeId (s : State) (h : Nat) : Option Nat := (landingOrder s)[h]?

/-- The slice of a home. -/
def sliceOf (s : State) (home : Nat) : Option Nat := (landingOrder s).idxOf? home

/-- The home landing of slice h, where this module holds it. -/
def sliceHome (s : State) (h : Nat) : Option Nat :=
  match sliceHomeId s h with
  | some i => if i / 32 = s.modnum.toNat then some (i % 32) else none
  | none => none

/-- The homes of this module with their slice numbers. -/
def homeSlices (s : State) : List (Nat × Nat) :=
  (presentLands s).filterMap fun l => (sliceOf s (32 * s.modnum.toNat + l)).map fun h => (l, h)

/-- The landing that stands in for a home landing, if any (R94, R596). -/
def standIn (s : State) (home : Nat) : Option Nat :=
  (liveLands s).find? fun l => (getLand s l).standFor == some home

/-- The launcher of a home landing's slice: its stand-in, else the landing itself (R51). -/
def launcherOf (s : State) (home : Nat) : Option Nat :=
  match standIn s home with
  | some l => some l
  | none => if liveLand s home then some home else none

/-- A module-fatal error is in effect (R542). -/
def fatal (s : State) : Bool := rdFld s 0x58 6 6 == 1

/-- GLB.BOOTSTAT.READY (R530). -/
def isReady (s : State) : Bool := rdFld s 0x4c 4 4 == 1

/-! ## Slots (R48, R49, R51) -/

def getTSlot (s : State) (d : Dir) (k : Nat) : TSlot :=
  match d with
  | .cw => tget {} s.trainCw k
  | .ccw => tget {} s.trainCcw k

def setTSlot (s : State) (d : Dir) (k : Nat) (x : TSlot) : State :=
  match d with
  | .cw => { s with trainCw := tput {} k x s.trainCw }
  | .ccw => { s with trainCcw := tput {} k x s.trainCcw }

/-- Slots of one direction, 4 N_c (R49). On an extended crossing a slot is only a place between two landings of the
module, and every number is one (R99). -/
def slotCount (s : State) : Nat := 4 * s.crs.nc

/-- The slot exists. -/
def slotOk (s : State) (k : Nat) : Bool := s.crs.ext || decide (k < slotCount s)

/-- The slots of a direction that differ from one that nothing has passed. -/
def train (s : State) (d : Dir) : Tab TSlot :=
  match d with
  | .cw => s.trainCw
  | .ccw => s.trainCcw

/-- The slot of a direction that has arrived last at a landing. -/
def lastSlot (x : Landing) (d : Dir) : Option Nat :=
  match d with
  | .cw => x.lastCw
  | .ccw => x.lastCcw

/-- Slot k has arrived at landing l. -/
def noteSlot (s : State) (l : Nat) (d : Dir) (k : Nat) : State :=
  let x := getLand s l
  setLand s l (match d with
    | .cw => { x with lastCw := some k }
    | .ccw => { x with lastCcw := some k })

/-- The slot is at the edge of an extended crossing, where it comes in: nothing has passed it, or the last landing
before the edge has. -/
def atEdge (s : State) (d : Dir) (x : TSlot) : Bool :=
  s.crs.ext && (match x.last with | some p => (nextLive s d p).isNone | none => true)

/-- The landing that forwarded the slot last is the live one before l. -/
def comesTo (s : State) (d : Dir) (x : TSlot) (l : Nat) : Bool :=
  if atEdge s d x then entryLand s d == some l
  else match x.last with
    | some p => nextLive s d p == some l
    | none => true

/-- No ferry that came into the same link before this slot is still on it, and the slots of a closed train pass a landing
in the order of their numbers (R51, R54). -/
def inOrder (s : State) (d : Dir) (k : Nat) (x : TSlot) (l : Nat) : Bool :=
  !((train s d).any fun e => e.2.ferry.isSome && e.2.last == x.last && decide (e.2.stamp < x.stamp)) &&
    (s.crs.ext || match lastSlot (getLand s l) d with
      | some j => k == (j + 1) % slotCount s
      | none => true)

/-- The slot may arrive at landing l now. -/
def arrivesAt (s : State) (d : Dir) (k : Nat) (l : Nat) : Bool :=
  let x := getTSlot s d k
  comesTo s d x l && inOrder s d k x l

/-- The launcher that owns a slot outside the gradient share (R51). -/
def slotOwner (s : State) (k : Nat) : Option Nat :=
  match sliceHome s (k % s.crs.nc) with
  | some h => launcherOf s h
  | none => none

/-- The quarter of a slot (R51). -/
def quarter (s : State) (k : Nat) : Nat := k / s.crs.nc

/-- The layer that a landing launches now; none outside laps and once it has launched every layer (R65). -/
def curLayer (s : State) (l : Nat) : Option LtLayer :=
  if s.crs.inLap then s.crs.lt.layers[(getLand s l).lpos]? else none

/-- The gradient share of the layer that a landing launches: 0 outside a lap. R51 divides the slots "while that layer's ferries
run" and does not say whose progress counts when landings are at different layers: the landing that asks for the slot looks
at the layer that it launches itself (DESIGN CHOICE, log 102). -/
def shareAt (s : State) (l : Nat) : Nat :=
  match curLayer s l with
  | some y => y.share
  | none => 0

/-- The landing owns the slot in this direction: as gradient launcher of the slice in the quarters below the gradient
share, else as the slice's launcher (R51). -/
def ownsSlot (s : State) (l : Nat) (d : Dir) (k : Nat) : Bool :=
  if quarter s k < shareAt s l then
    match sliceHome s (k % s.crs.nc) with
    | some h => nextLive s d h == some l
    | none => false
  else slotOwner s k == some l

/-- The module that a direction leaves for, at the far end of its group (R98, R416). -/
def neighbourMod (s : State) (d : Dir) : Nat :=
  match rolePorts s (entryRole s (match d with | .cw => 1 | .ccw => 2)) with
  | [] => s.modnum.toNat
  | p :: _ => portPeer s p

/-- The live landing at which a direction enters the module that it leaves for: its first in CW order, or its last. -/
def nextEntry (s : State) (d : Dir) : Nat :=
  let ls := liveIn s (neighbourMod s d)
  (match d with | .cw => ls.head? | .ccw => ls.getLast?).getD 0

/-- The next live landing in the ferry's direction is its launcher (R55); past the module's edge it is one of the next
module. -/
def retiresAt (s : State) (l : Nat) (f : Ferry) : Bool :=
  match nextLive s f.dir l with
  | some n => f.lmodule == s.modnum && f.launcher.val == n
  | none => f.lmodule.toNat == neighbourMod s f.dir && f.launcher.val == nextEntry s f.dir

/-! ## Events of the ring stop (R60, R63, R92, R573) -/

inductive RsEvent where
  | hdrLoss | crc | stray | staleVer | badKind | nocontrib | gradNonfinite | g32Sat
deriving DecidableEq, Repr

def RsEvent.num : RsEvent → Nat
  | .hdrLoss => 0 | .crc => 1 | .stray => 2 | .staleVer => 3
  | .badKind => 4 | .nocontrib => 5 | .gradNonfinite => 6 | .g32Sat => 7

/-- RS.CAUSE counts an event and raises LC.CAUSE.RS when its count leaves zero. -/
def countRs (s : State) (l : Nat) (e : RsEvent) : State :=
  let lo := 8 * (e.num % 4)
  countUp s (lcBase l + 0x10000 + 4 * (e.num / 4)) (lo + 7) lo 1 (some (lcBase l + 4, 1))

/-- An event counted n times. -/
def countRsN (s : State) (l : Nat) (e : RsEvent) (n : Nat) : State := (upto n).foldl (fun s _ => countRs s l e) s

/-! ## Versions on the crossing (R63, R76, R77, R122) -/

def liveVer (s : State) : Nat := rdFld s 0x40108 15 0
def retVer (s : State) : Nat := rdFld s 0x40108 31 16

/-- The version circulates: it is the live or the retiring version. -/
def circulating (s : State) (v : Nat) : Bool := v != 0 && (v == liveVer s || v == retVer s)

/-- Token groups in effect for a version at a landing (R122). -/
def maskOf (s : State) (l v : Nat) : Nat :=
  let x := getLand s l
  if v = liveVer s then x.tgLive.toNat else if v = retVer s then x.tgRet.toNat else 0

/-- The landing consumes a version in the lap in progress (R59, R77). -/
def consumes (s : State) (v : Nat) : Bool := s.crs.inLap && s.crs.lapVer.toNat == v

/-! ## Kinds of ferry (R56, R57) -/

/-- The combination of KIND, SUB and FMT is not reserved. -/
def kindKnown (h : FerryHdr) : Bool :=
  h.fmt != 0xf &&
  match h.kind.toNat, h.sub.toNat with
  | 0, n => n ≤ 3
  | 1, n => n == 0
  | 2, n => n == 0
  | 3, n => n ≤ 1
  | _, _ => false

/-- The header of an empty slot: CONTROL, SUB 0b000 (R57). -/
def emptyHdr (h : FerryHdr) : Bool := h.kind == 4 && h.sub == 0

/-- FMT of the ferries that collect (R56). -/
def fmtOf (h : FerryHdr) : BitVec 4 :=
  match h.kind.toNat with
  | 2 => 0xd
  | 3 => 0xe
  | _ => h.fmt

/-- The header as the ring stop launches it: SHADOW, LAST and FMT as R56 says, DEST zero but for OFFSET-CARRY. -/
def launchHdr (l : Fin 32) (h : FerryHdr) (last : Bool) : FerryHdr :=
  { h with
    shadow := h.kind == 0 && h.home != l
    last := if h.kind = 1 then h.last else last
    fmt := fmtOf h
    dest := if h.kind = 1 then h.dest else 0 }

/-- Words W0 to W4 of a ferry's header (R56). -/
def hdrWords (f : Ferry) : List Nat :=
  let h := f.hdr
  [h.version.toNat + h.layer.toNat * 2 ^ 16 + h.seq.toNat * 2 ^ 28 + h.home.val * 2 ^ 48 + h.chain.val * 2 ^ 53 +
      (match f.dir with | .cw => 0 | .ccw => 2 ^ 57) + h.kind.toNat * 2 ^ 58 + h.sub.toNat * 2 ^ 61,
   h.fmt.toNat + f.hops % 2 ^ 16 * 2 ^ 4 + f.launcher.val * 2 ^ 20 + f.lmodule.toNat * 2 ^ 25 +
      f.hmodule.toNat * 2 ^ 36 + h.dest.val * 2 ^ 47 + b2n h.shadow * 2 ^ 52 + b2n h.last * 2 ^ 53 + h.rows * 2 ^ 54,
   f.poison.toNat, f.stamp.toNat, h.stripe.toNat]

/-- The 64 rows of a payload: those above ROWS are zero (R56). -/
def payloadBytes (f : Ferry) : List Byte := (upto 64).flatMap fun i => fitTo 0 512 (f.payload.getD i [])

/-- The 64 B header with its hold word: W7.CRC is CRC-32C over W0 to W6 and the payload (R56, R58). -/
def hdrBytes (f : Ferry) (hold : Word) : List Byte :=
  let ws := (hdrWords f ++ [hold.toNat, 0]).flatMap fun w => leBytes 8 w
  ws ++ leBytes 8 (crc32c (ws ++ payloadBytes f))

def isDatum (f : Ferry) : Bool := f.hdr.kind == 0
def isCarry (f : Ferry) : Bool := f.hdr.kind == 1
def isGrad (f : Ferry) : Bool := f.hdr.kind == 2
def isGather (f : Ferry) : Bool := f.hdr.kind == 3 && f.hdr.sub == 0
def isPublish (f : Ferry) : Bool := f.hdr.kind == 3 && f.hdr.sub == 1

/-- Number of a ferry's home: 32 x module + landing. -/
def homeId (f : Ferry) : Nat := 32 * f.hmodule.toNat + f.hdr.home.val

/-- Payload row i, 512 B. -/
def fRow (f : Ferry) (i : Nat) : List Byte := fitTo 0 512 (f.payload.getD i [])

/-! ## Receipts and delivery (R59 to R61, R66, R115, R116) -/

/-- A ferry received in the present lap. -/
def noteSeen (s : State) (l : Nat) (f : Ferry) : State :=
  let x := getLand s l
  let same (e : Seen) : Bool :=
    e.launcher == launcherId f && e.home == homeId f && e.layer == f.hdr.layer.toNat && e.kind == f.hdr.kind.toNat &&
      e.dir == f.dir
  setLand s l
    (if x.seen.any same then
      { x with seen := x.seen.map fun e => if same e then { e with n := e.n + 1, last := e.last || f.hdr.last } else e }
    else { x with seen := x.seen ++ [⟨launcherId f, homeId f, f.hdr.layer.toNat, f.hdr.kind.toNat, f.dir, 1, f.hdr.last⟩] })

/-- Ferries that an injection queue holds (R61). -/
def injMax : Nat := 8

/-- A DATUM ferry enters its chain's injection queue where the landing consumes its version and has work for it; the mask
at its arrival says for which token groups. A describing ferry ends what the last of its sub-kind describes. A full queue
takes no ferry (R59, R61, R77, R115, R116; log 46). -/
def deliver (s : State) (l : Nat) (f : Ferry) : State :=
  let x := getLand s l
  let k := f.hdr.chain.val
  let mask := maskOf s l f.hdr.version.toNat
  if consumes s f.hdr.version.toNat ∧ mask ≠ 0 ∧ (injQueue x k).length < injMax then
    let num := x.ferryNum
    let x := if f.hdr.sub = 0 then x else
      closeDescribing x (launcherId f) f.hdr.layer num fun chain h d => chain == k && h.sub == f.hdr.sub && d == f.dir
    updHold (setLand s l
      { x with
        ferryNum := num + 1
        inject := tput [] k (injQueue x k ++ [⟨f, BitVec.ofNat 16 mask, num, none, []⟩]) x.inject }) l
  else s

/-! ## The launch table (R51, R53, R65, R90) -/

/-- Ferries of a kind that a slice sends in a layer. -/
def ltCount (y : LtLayer) (kind slice : Nat) : Nat :=
  y.counts.foldl (fun n c => if c.kind = kind ∧ c.slice = slice then n + c.count else n) 0

/-- Ferries of a kind that all slices send in a layer. -/
def ltTotal (y : LtLayer) (kind : Nat) : Nat :=
  y.counts.foldl (fun n c => if c.kind = kind then n + c.count else n) 0

/-- The layer of the table with a LAYER value. -/
def ltFind (t : LaunchTable) (layer : Nat) : Option LtLayer := t.layers.find? fun y => y.layer.toNat == layer

/-- The home (32 x module + landing) whose collecting ferries a landing launches in a direction: the live landing before
it, which may lie in the previous module of an extended crossing (R51, R89, R90). -/
def gradHome (s : State) (d : Dir) (l : Nat) : Nat :=
  let back : Dir := match d with | .cw => .ccw | .ccw => .cw
  match nextLive s back l with
  | some p => 32 * s.modnum.toNat + p
  | none => 32 * neighbourMod s back + nextEntry s back

/-- The homes of this module whose slices a landing launches (R51). -/
def launches (s : State) (l : Nat) : List Nat := (presentLands s).filter fun h => launcherOf s h == some l

/-- The homes whose slices a launcher of the crossing launches, both as 32 x module + landing: in another module its own, and
that of a landing before it in CW order that is not live, for which it stands in (R51, R94). -/
def launchesId (s : State) (id : Nat) : List Nat :=
  if id / 32 = s.modnum.toNat then (launches s (id % 32)).map fun h => 32 * s.modnum.toNat + h
  else
    (landingOrder s).filter fun h =>
      h == id || h / 32 == id / 32 && !(liveIds s).contains h &&
        (((upto 32).map fun i => 32 * (id / 32) + (h + 1 + i) % 32).find? fun k => (liveIds s).contains k) == some id

/-- Ferries of a slice that travel in a direction: even SEQ clockwise, odd the other way (R53). -/
def dirCount (d : Dir) (n : Nat) : Nat := match d with | .cw => (n + 1) / 2 | .ccw => n / 2

/-- Ferries of a kind that a home's slice sends in a layer. -/
def ltOf (s : State) (y : LtLayer) (kind home : Nat) : Nat :=
  match sliceOf s home with
  | some h => ltCount y kind h
  | none => 0

/-- The home whose collecting ferries a launcher launches in a direction, both as 32 x module + landing. -/
def gradHomeId (s : State) (d : Dir) (id : Nat) : Nat :=
  if id / 32 = s.modnum.toNat then gradHome s d (id % 32) else (liveBefore s d id).getD id

/-- Ferries of a kind that a launcher, as 32 x module + landing, launches in a layer in a direction: its slices' own, and for
the kinds that collect those of the home before it (R51, R53, R89, R90). -/
def launchDir (s : State) (id : Nat) (y : LtLayer) (kind : Nat) (d : Dir) : Nat :=
  let own := (launchesId s id).foldl (fun n h => n + dirCount d (ltOf s y kind h)) 0
  let coll := dirCount d (ltOf s y kind (gradHomeId s d id))
  match kind with
  | 0 => own
  | 2 => coll
  | 3 => own + coll
  | _ => 0

/-- Ferries of a kind that a launcher launches in a layer. -/
def launchTotalId (s : State) (id : Nat) (y : LtLayer) (kind : Nat) : Nat :=
  launchDir s id y kind .cw + launchDir s id y kind .ccw

/-- Ferries of a kind that landing l launches in a layer. -/
def launchTotal (s : State) (l : Nat) (y : LtLayer) (kind : Nat) : Nat := launchTotalId s (32 * s.modnum.toNat + l) y kind

/-- Ferries of a kind that the landing has launched in a layer of the present lap. -/
def launchedIn (x : Landing) (layer kind : Nat) : Nat :=
  x.launched.foldl (fun n e => if e.layer = layer ∧ e.kind = kind then n + e.n else n) 0

/-- The KINDs of a launch table: DATUM, GRADIENT and SCALE. -/
def ltKinds : List Nat := [0, 2, 3]

/-- The landing has sent the LAST ferry of every kind of a layer (R65). -/
def layerSent (s : State) (l : Nat) (y : LtLayer) : Bool :=
  ltKinds.all fun k => decide (launchTotal s l y k ≤ launchedIn (getLand s l) y.layer.toNat k)

/-! ## Waves (R91) -/

/-- Waves of a layer's GRADIENT ferries: wave k holds, of every home and direction, the ferry k of that direction, which
has SEQ 2k or 2k + 1 (R53, R91). -/
def waveCount (y : LtLayer) : Nat := y.counts.foldl (fun n c => if c.kind = 2 then max n ((c.count + 1) / 2) else n) 0

/-- The waves of a layer at a landing. -/
def wavesOf (x : Landing) (layer : Nat) : Waves :=
  match x.waves.find? fun w => w.layer == layer with
  | some w => w
  | none => ⟨layer, 0, 0⟩

/-- The landing has yet to fetch its contributions to the next wave of a layer. -/
def waveDue (t : LaunchTable) (w : Waves) : Bool :=
  match ltFind t w.layer with
  | some y => decide (w.begun < waveCount y) && decide (w.fetched ≤ w.begun)
  | none => false

/-- The waves of a layer change at a landing, and its hold bit follows: it is set until the contributions to the next wave are
fetched (R91). -/
def setWaves (s : State) (l : Nat) (w : Waves) : State :=
  let x := getLand s l
  let ws := (x.waves.filter fun v => v.layer != w.layer) ++ [w]
  noticeHold (setLand s l { x with waves := ws, waveHold := arrayOn s l && ws.any fun v => waveDue s.crs.lt v })

/-- A landing enters the layer at its place in the table; its hold bit waits for the contributions to the layer's first
wave (R91). -/
def enterLayer (s : State) (l : Nat) : State :=
  match curLayer s l with
  | some y => setWaves s l (wavesOf (getLand s l) y.layer.toNat)
  | none => s

/-- A landing that has sent a whole layer goes on to the next after the layer's gap (R65); n bounds the layers passed. -/
def passLayers (l : Nat) : Nat → State → State
  | 0, s => s
  | n + 1, s =>
    match curLayer s l with
    | some y =>
      if layerSent s l y then
        let x := getLand s l
        let from' := max s.time.toNat x.lready.toNat
        passLayers l n
          (enterLayer (setLand s l { x with lpos := x.lpos + 1, lready := BitVec.ofNat 64 (from' + y.gap) }) l)
      else s
    | none => s

/-- The kinds that a launcher, by number, sends in a layer. -/
def kindsSent (s : State) (id layer : Nat) : List Nat :=
  match ltFind s.crs.lt layer with
  | some y => ltKinds.filter fun k => launchTotalId s id y k != 0
  | none => []

/-- The LAST ferry of every kind that a launcher sends for a layer has come (R116). -/
def lastsSeen (s : State) (l id layer : Nat) : Bool :=
  let mine := (getLand s l).seen.filter fun e => e.launcher == id && e.layer == layer
  let has (k : Nat) : Bool := mine.any fun e => e.kind == k && e.last
  !mine.isEmpty && (mine.all fun e => has e.kind) && (kindsSent s id layer).all has

/-- The landing has met every DATUM ferry that a launcher sends for a layer in a direction: no ferry that a describing ferry
of that direction could still describe is to come (R54, R116). -/
def datumsMet (s : State) (l id layer : Nat) (d : Dir) : Bool :=
  match ltFind s.crs.lt layer with
  | some y =>
    let met := (getLand s l).seen.foldl (fun n e =>
      if e.launcher = id ∧ e.layer = layer ∧ e.kind = 0 ∧ e.dir = d then n + e.n else n) 0
    decide (launchDir s id y 0 d ≤ met)
  | none => true

/-- After a ferry: where its launcher's LAST ferries of the layer have all come, what its describing ferries describe has
ended in each direction whose ferries have all come too; then slots are released (R116). -/
def afterFerry (s : State) (l : Nat) (f : Ferry) : State :=
  let x := getLand s l
  let id := launcherId f
  let layer := f.hdr.layer.toNat
  let s := if lastsSeen s l id layer then
      setLand s l (closeDescribing x id f.hdr.layer x.ferryNum fun _ _ d => datumsMet s l id layer d)
    else s
  releaseSlots s l

/-! ## Rows of contributions and bounds (R59, R87 to R92) -/

def findRows (xs : List Rows) (key layer seq : Nat) : Option Rows :=
  xs.find? fun r => r.key == key && r.layer == layer && r.seq == seq

/-- The records without that of a home, layer and SEQ. -/
def dropRows (xs : List Rows) (key layer seq : Nat) : List Rows :=
  xs.filter fun y => !(y.key == key && y.layer == layer && y.seq == seq)

/-- A record of rows put in place of any other for the same home, layer and SEQ. -/
def putRowsRec (xs : List Rows) (r : Rows) : List Rows := dropRows xs r.key r.layer r.seq ++ [r]

/-- The landing's contribution to a GRADIENT ferry, taken out of the double buffer. With the first ferry of a wave the wave
has begun at the landing, which then holds until the contributions to the one after it are fetched (R91). -/
def takeContrib (s : State) (l : Nat) (f : Ferry) : List (List Byte) × State :=
  let x := getLand s l
  let layer := f.hdr.layer.toNat
  let seq := f.hdr.seq.toNat
  let w := wavesOf x layer
  let rows := match findRows x.contrib (homeId f) layer seq with
    | some r => r.rows
    | none => []
  (rows, setWaves (setLand s l { x with contrib := dropRows x.contrib (homeId f) layer seq }) l
    { w with begun := max w.begun (seq / 2 + 1) })

/-- The landing's bound bytes for a gather SCALE ferry, taken out of the double buffer (R88, R89). -/
def takeBounds (s : State) (l : Nat) (f : Ferry) : List (List Byte) × State :=
  let x := getLand s l
  let layer := f.hdr.layer.toNat
  let seq := f.hdr.seq.toNat
  (match findRows x.contribScale (homeId f) layer seq with | some r => r.rows | none => [],
   setLand s l { x with contribScale := dropRows x.contribScale (homeId f) layer seq })

/-- The bound byte that a landing has recorded for gradient row r of a home's layer; a SCALE ferry holds 32,768 of
them (R89). -/
def boundByte (s : State) (l : Nat) (home layer r : Nat) : Option Byte :=
  (findRows (getLand s l).bounds home layer (r / 32768)).map fun b =>
    (b.rows.getD (r % 32768 / 512) []).getD (r % 512) 0

/-- The bound byte of one row from its shards, each a list of (|x|, largest |dy|) for its tokens: the least power of two
not below any shard's sum of products; 0xFF with a NaN, an infinity or a bound above 2^127 (R88). R88 has the bound computed
"with RUP" and gives neither its format nor where it rounds: here the sum of products is exact and rounds up once, at the
exponent (DESIGN CHOICE, log 103). -/
def rowBound (shards : List (List (Word × Word))) : Byte :=
  let val (w : Word) : Val := (decodeElem 0 w.toNat).abs
  let sums := shards.map fun ts => ts.foldl (fun v t => v.add false ((val t.1).mul (val t.2))) (.zero false)
  if sums.any fun v => v.isNan || v.isInf then 0xff
  else
    let code (v : Val) : Nat :=
      match v with
      | .num _ n d e =>
        let x := ilog2Q n d
        let whole := if 0 ≤ x then n == d * 2 ^ x.toNat else n * 2 ^ (-x).toNat == d
        let up := x + e + (if whole then 0 else 1)
        if 127 < up then 0xff else (up + 127).toNat
      | _ => 0
    BitVec.ofNat 8 (sums.foldl (fun m v => max m (code v)) 0)

/-- The exponent E of a row's scale: e_max + ceil(log2 shards) - 30 (R89). -/
def rowScale (s : State) (b : Byte) : Int :=
  (b.toNat : Int) - 127 + (ceilLog2 s.crs.lt.shards : Int) - 30

/-- An integer held to 32 bits. -/
def clamp32 (n : Int) : Int := max (-2147483648) (min 2147483647 n)

/-- A value of a landing's sum: each shard's value rounded to an integer of the row's scale with RNE, held to 32 bits,
and the shards added exactly (R87). -/
def shardSum (e : Int) (shards : List (List (Int × Int))) (i : Nat) : Int :=
  shards.foldl (fun n vs =>
    let v := vs.getD i (0, 0)
    n + clamp32 (rneInt (Val.mk v.1 1 v.2 false) e)) 0

/-- A landing's G32 row: 128 integers of the row's scale, and how many of them left the 32-bit range (R87, R92). -/
def contribRow (s : State) (b : Byte) (shards : List (List (Int × Int))) : List Byte × Nat :=
  let vs := (upto 128).map fun i => shardSum (rowScale s b) shards i
  (vs.flatMap fun v => leBytes 4 (BitVec.ofInt 32 (clamp32 v)).toNat, (vs.filter fun v => clamp32 v != v).length)

/-- Addition of two 32-bit integers that saturates, and whether it did (R90, R92). -/
def g32Add (a b : Word) : Word × Bool :=
  let x := a.toInt + b.toInt
  if x < -(2 ^ 31 : Nat) then (0x80000000, true)
  else if (2 ^ 31 : Nat) ≤ x then (0x7fffffff, true)
  else (a + b, false)

/-- G32 rows added value by value, and how many additions saturated. -/
def g32Row : List Byte → List Byte → List Byte × Nat
  | a0 :: a1 :: a2 :: a3 :: ar, b0 :: b1 :: b2 :: b3 :: br =>
    let v := g32Add (BitVec.ofNat 32 (leNat [a0, a1, a2, a3])) (BitVec.ofNat 32 (leNat [b0, b1, b2, b3]))
    let r := g32Row ar br
    (leBytes 4 v.1.toNat ++ r.1, b2n v.2 + r.2)
  | a, _ => (a, 0)

/-- Row r of a home's layer is not finite: its scale byte is 0xFF (R88, R92). -/
def nonfinite (s : State) (l : Nat) (f : Ferry) (i : Nat) : Bool :=
  boundByte s l (homeId f) f.hdr.layer.toNat (64 * f.hdr.seq.toNat + i) == some 0xff

/-- A GRADIENT ferry with the landing's contribution added to each row below ROWS, those above being zero; a row that is not
finite is zero with its poison bit set (R56, R90, R92). -/
def addGradient (s : State) (l : Nat) (f : Ferry) : Ferry × State :=
  let c := takeContrib s l f
  let s := c.2
  let rows := (upto f.hdr.rows).map fun i =>
    if nonfinite s l f i then (List.replicate 512 (0 : Byte), 0)
    else
      match c.1[i]? with
      | some r => g32Row (fRow f i) (fitTo 0 512 r)
      | none => (fRow f i, 0)
  let bad := (upto f.hdr.rows).filter fun i => nonfinite s l f i
  let psn := bad.foldl (fun (p : BitVec 64) i => p ||| BitVec.ofNat 64 (2 ^ i)) f.poison
  ({ f with payload := rows.map fun r => r.1, poison := psn },
   countRsN s l .g32Sat (rows.foldl (fun n r => n + r.2) 0))

/-- A gather SCALE ferry with each byte of its rows below ROWS the larger of its own and the landing's (R56, R89). -/
def mergeBounds (s : State) (l : Nat) (f : Ferry) : Ferry × State :=
  let c := takeBounds s l f
  let rows := (upto f.hdr.rows).map fun i =>
    (fRow f i).zipWith (fun (a b : Byte) => if a.toNat < b.toNat then b else a) (fitTo 0 512 (c.1.getD i []))
  ({ f with payload := rows }, c.2)

/-- Poisoned rows of a ferry. -/
def psnRows (f : Ferry) : List Nat := maskBits 64 f.poison.toNat

/-- The bound bytes of a SCALE ferry's rows below ROWS recorded (R56, R59, R89). -/
def recordBounds (s : State) (l : Nat) (f : Ferry) : State :=
  let x := getLand s l
  setLand s l
    { x with bounds := (putRowsRec x.bounds
        ⟨homeId f, f.hdr.layer.toNat, f.hdr.seq.toNat, (upto f.hdr.rows).map fun i => fRow f i, psnRows f, []⟩) }

/-- The gradient rows of a ferry that retires at its home with their scale bytes, and the rows that are not finite counted
(R59, R92, R93). -/
def storeGradient (s : State) (l : Nat) (f : Ferry) : State :=
  let x := getLand s l
  let s := setLand s l
    { x with gradArea := (putRowsRec x.gradArea
        ⟨homeId f, f.hdr.layer.toNat, f.hdr.seq.toNat, (upto f.hdr.rows).map fun i => fRow f i, psnRows f,
          (upto f.hdr.rows).map fun i => (boundByte s l (homeId f) f.hdr.layer.toNat (64 * f.hdr.seq.toNat + i)).getD 0⟩) }
  countRsN s l .gradNonfinite ((upto f.hdr.rows).filter fun i => nonfinite s l f i).length

/-! ## Action of a ring stop on a ferry (R55, R59, R60) -/

/-- Rows of an OFFSET-CARRY ferry after its first, written at DEST to the offset area that the first row names
(R59). -/
def storeOffset (s : State) (l : Nat) (f : Ferry) : State :=
  let base := Config.offsetArea (fRow f 0)
  (upto (f.hdr.rows - 1)).foldl (fun s i =>
    let off := base + 512 * i
    if off + 512 ≤ stackBytes ∧ off % 512 = 0 ∧ !rangeScrubs s l off 512 then
      writeStack s l off (fRow f (i + 1)) (bit f.poison.toNat (i + 1))
    else s) s

/-- The landing's action on a ferry that it does not reject, whether it is its own or arrives. A landing whose array
is not ON consumes nothing; a GRADIENT or SCALE ferry that passes it is poisoned whole (R60). -/
def actOn (s : State) (l : Nat) (f : Ferry) : Ferry × State :=
  if !arrayOn s l then
    if isGrad f ∨ f.hdr.kind = 3 then ({ f with poison := 0xffffffffffffffff }, countRs s l .nocontrib) else (f, s)
  else if isDatum f then (f, deliver s l f)
  else if isGrad f then addGradient s l f
  else if isGather f then mergeBounds s l f
  else if isPublish f then (f, recordBounds s l f)
  else (f, s)

/-- What the retiring landing does beyond it (R59). -/
def retire (s : State) (l : Nat) (f : Ferry) : State :=
  let home := homeId f == 32 * s.modnum.toNat + l
  if !arrayOn s l ∨ !home then s
  else if isGrad f then storeGradient s l f
  else if isGather f then recordBounds s l f
  else s

/-- A slot leaves the ring stop: with the landing's present hold bit, its ferry or empty; past the edge of an extended
crossing, its ferry leaves as a TC0 frame (R67, R98). -/
def forward (s : State) (l : Nat) (d : Dir) (k : Nat) (f : Option Ferry) : State :=
  let x := getTSlot s d k
  let hold := BitVec.ofNat 32 (putBits x.hold.toNat l l (b2n (holdBit s l)))
  let stamp := s.crs.stamps
  let s := { s with crs := { s.crs with stamps := stamp + 1 } }
  match nextLive s d l with
  | some _ => setTSlot s d k ⟨f, hold, some l, stamp⟩
  | none =>
    let s := setTSlot s d k ⟨none, hold, some l, stamp⟩
    let role := entryRole s (match d with | .cw => 1 | .ccw => 2)
    match f with
    | some f =>
      if groupDown s role then setFlag s rXcause 7
      else if fenced s then s
      else pushFrame s role 0 (.ferry f hold)
    | none => s

/-- A good ferry acted on, then retired or forwarded. -/
def passFerry (s : State) (l : Nat) (d : Dir) (k : Nat) (f : Ferry) : State :=
  if isCarry f then
    if f.hdr.dest.val = l ∧ f.lmodule = s.modnum ∧ arrayOn s l then forward (storeOffset s l f) l d k none
    else forward s l d k (some f)
  else
    let r := actOn (noteSeen s l f) l f
    let s' := afterFerry r.2 l f
    if retiresAt s l f then forward (retire s' l r.1) l d k none else forward s' l d k (some r.1)

/-- N_live: the live landings of the crossing (R55, R63). -/
def liveCount (s : State) : Nat := (liveIds s).length

/-- The checks on a ferry that arrives with a good header (R63). -/
def damage (s : State) (f : Ferry) : Option RsEvent :=
  if !kindKnown f.hdr then some .badKind
  else if liveCount s ≤ f.hops then some .stray
  else if !circulating s f.hdr.version.toNat then some .staleVer
  else none

/-- The owner's pace credit when its own slot reaches it (R70). -/
def addCredit (s : State) (l : Nat) : State :=
  let x := getLand s l
  setLand s l { x with credit := satAdd 512 x.credit (paceEff s + 1) }

/-- SLOT_ARRIVAL: a slot arrives at a live ring stop (R54, R55, R57 to R60, R63, R67, R70). -/
def execSlotArrival (l : Fin 32) (d : Dir) (slot : Nat) (hdrBad crcBad : Bool) (s : State) : Res :=
  let l := l.val
  if !liveLand s l ∨ !uncoreOn s l ∨ !slotOk s slot ∨ !arrivesAt s d slot l then .next s
  else
    let s := noteSlot s l d slot
    let s := if !s.crs.ext ∧ ownsSlot s l d slot then addCredit s l else s
    let x := getTSlot s d slot
    let s := if atEdge s d x ∧ x.ferry = none then setTSlot s d slot { x with hold := 0 } else s
    if hdrBad then .next (forward (countRs s l .hdrLoss) l d slot none)
    else
      match (getTSlot s d slot).ferry with
      | none => .next (forward s l d slot none)
      | some f =>
        if emptyHdr f.hdr then .next (forward s l d slot none)
        else
          let f := { f with hops := f.hops + 1 }
          let s := if crcBad then countRs s l .crc else s
          let f := if crcBad then { f with poison := 0xffffffffffffffff } else f
          match damage s f with
          | some e => .next (forward (countRs s l e) l d slot none)
          | none => .next (passFerry s l d slot f)

/-! ## Launch (R51 to R53, R56, R58, R63 to R65, R70, R75, R89, R90, R99, R100) -/

/-- The live launchers: live landings with their array ON that launch a slice of this module (R64). -/
def launchers (s : State) : List Nat :=
  (liveLands s).filter fun l => arrayOn s l && !(launches s l).isEmpty

/-- Position of a launcher among the live launchers (R64). -/
def launchPos (s : State) (l : Nat) : Nat := (launchers s).idxOf l

/-- The launcher's share of the lap has begun: T0 + k x STAGGER, 0 taken as 1 (R64, R566). -/
def staggerPassed (s : State) (l : Nat) : Bool :=
  rdPair s 0x40018 + launchPos s l * max 1 (wfld s.crs.lapCtl 15 0) ≤ s.time.toNat

/-- The ferries of a kind that collects are launched by the gradient launcher: GRADIENT and gather SCALE (R51). -/
def collects (h : FerryHdr) : Bool := h.kind == 2 || (h.kind == 3 && h.sub == 0)

/-- The home of the ferry that the landing may launch in this direction and slot, as 32 x module + landing; none where it
may not (R51 to R53, R75, R89, R90). -/
def launchHome (s : State) (l : Nat) (d : Dir) (k : Nat) (h : FerryHdr) : Option Nat :=
  let own := 32 * s.modnum.toNat + h.home.val
  let parity := h.seq.toNat % 2 == (match d with | .cw => 0 | .ccw => 1)
  let mine := s.crs.ext || (ownsSlot s l d k && (h.kind == 1 || sliceHome s (k % s.crs.nc) == some h.home.val))
  let low := decide (quarter s k < shareAt s l)
  if h.kind = 1 then
    let shorter := match linksTo s .cw l h.dest.val, linksTo s .ccw l h.dest.val with
      | some a, some b => if a ≤ b then some Dir.cw else some .ccw
      | some _, none => some .cw
      | none, some _ => some .ccw
      | none, none => none
    if h.dest.val ≠ l ∧ shorter = some d ∧ mine ∧ !low then some own else none
  else if collects h then
    let home := gradHome s d l
    if parity ∧ home % 32 = h.home.val ∧ (s.crs.ext ∨ (mine ∧ low)) then some home else none
  else if h.kind = 0 ∨ h.kind = 3 then
    if parity ∧ launcherOf s h.home.val = some l ∧ (s.crs.ext ∨ (mine ∧ !low)) then some own else none
  else none

/-- What a landing has launched of one home, kind and pass in a layer; the kinds that collect go by direction. -/
def launchedOf (x : Landing) (home layer : Nat) (d : Dir) (h : FerryHdr) : Launched :=
  let dir := if collects h then some d else none
  let same (e : Launched) : Bool :=
    e.home == home && e.layer == layer && e.kind == h.kind.toNat && e.sub == (if h.kind = 3 then h.sub.toNat else 0) &&
      e.dir == dir
  match x.launched.find? same with
  | some e => e
  | none => ⟨home, layer, h.kind.toNat, if h.kind = 3 then h.sub.toNat else 0, dir, 0, x.lready⟩

/-- The SEQ that a launcher sends next of a home and kind: ascending within the layer (R53). -/
def nextSeq (e : Launched) : Nat :=
  match e.dir with
  | none => e.n
  | some .cw => 2 * e.n
  | some .ccw => 2 * e.n + 1

/-- The bound bytes of a GRADIENT ferry's rows have come home and been published as far as this landing: every landing has
formed its own (R88, R89). -/
def scaled (s : State) (l home layer seq : Nat) : Bool := (boundByte s l home layer (64 * seq)).isSome

/-- The ferry is due: of the layer that the landing launches, whose gap and whose dependency point before it have passed;
the next in SEQ order and within the slice's count; a GRADIENT ferry after the scale passes of its rows (R53, R65, R88). -/
def ferryDue (s : State) (l : Nat) (d : Dir) (home : Nat) (h : FerryHdr) : Bool :=
  let x := getLand s l
  match curLayer s l, sliceOf s home with
  | some y, some slice =>
    let e := launchedOf x home y.layer.toNat d h
    let q := h.seq.toNat
    y.layer == h.layer && decide (x.lready.toNat ≤ s.time.toNat) && q == nextSeq e &&
      decide (q < ltCount y h.kind.toNat slice) &&
      (h.kind != 0 || y.points.all fun p => p.seq != q || decide (e.time.toNat + p.gap ≤ s.time.toNat)) &&
      (h.kind != 2 || scaled s l home y.layer.toNat q)
  | _, _ => false

/-- The ferry is the last of its kind that the landing sends for the layer (R56). -/
def isLast (s : State) (l : Nat) (h : FerryHdr) : Bool :=
  match curLayer s l with
  | some y => launchedIn (getLand s l) y.layer.toNat h.kind.toNat + 1 == launchTotal s l y h.kind.toNat
  | none => false

/-- A launch is recorded; a landing that has sent its layer goes on (R65). -/
def noteLaunch (s : State) (l : Nat) (d : Dir) (home : Nat) (h : FerryHdr) : State :=
  let x := getLand s l
  let e := launchedOf x home h.layer.toNat d h
  let new := { e with n := e.n + 1, time := s.time }
  let s := setLand s l { x with launched := (x.launched.filter fun y => y != e) ++ [new] }
  passLayers l (s.crs.lt.layers.length + 1) s

/-- The payload and poison of a launch: rows of the launcher's stacks, an uncorrectable row poisoned; zeros for the
ferries that collect; the home's final bounds for a publish ferry. None where there is nothing to read. -/
def launchPayload (s : State) (l : Nat) (h : FerryHdr) (off : Nat) : Option (List (List Byte) × BitVec 64 × State) :=
  let zeros := List.replicate 64 (List.replicate 512 (0 : Byte))
  match h.kind.toNat, h.sub.toNat with
  | 2, _ | 3, 0 => some (zeros, 0, s)
  | 3, _ =>
    (findRows (getLand s l).bounds (32 * s.modnum.toNat + h.home.val) h.layer.toNat h.seq.toNat).map fun r =>
      (r.rows.take h.rows, r.psn.foldl (fun (p : BitVec 64) i => p ||| BitVec.ofNat 64 (2 ^ i)) 0, s)
  | _, _ =>
    let n := 512 * h.rows
    if off % 64 ≠ 0 ∨ stackBytes < off + n ∨ rangeScrubs s l off n then none
    else
      let rows := (upto h.rows).map fun i => stackData s l (off + 512 * i) 512
      let psn := (upto h.rows).foldl (fun (p : BitVec 64) i =>
        if (rows.getD i ([], false)).2 then p ||| BitVec.ofNat 64 (2 ^ i) else p) 0
      some (rows.map fun r => r.1, psn, readLines s l off n)

/-- Launches on an extended crossing are free to go: the latest hold notice of every module is clear, this one's
included, and no module is being cut out (R100, R420). -/
def extClear (s : State) : Bool :=
  !s.crs.ext || (!s.crs.lastHold && (s.crs.notices.all fun n => !n.held) && !s.crs.cutHold && rdFld s rRing 24 24 == 0)

/-- The conditions of a launch on the slot, the hold word and the pace credit (R52, R70, R99, R100, R422). -/
def mayLaunch (s : State) (l : Nat) (d : Dir) (k : Nat) (carry : Bool) : Bool :=
  let x := getTSlot s d k
  liveLand s l && arrayOn s l && slotOk s k && x.last == some l && x.ferry.isNone && x.hold == 0 &&
    256 ≤ (getLand s l).credit && !fatal s && extClear s && (carry || s.crs.inLap && staggerPassed s l)

/-- FERRY_LAUNCH: a launcher fills one of its own empty slots as it passes the ring stop. The launcher acts on its own
ferry at launch (R55, R63). -/
def execFerryLaunch (l : Fin 32) (d : Dir) (slot : Nat) (h : FerryHdr) (off : Nat) (s : State) : Res :=
  let n := l.val
  let carry := h.kind == 1
  if !mayLaunch s n d slot carry ∨ h.rows = 0 ∨ 64 < h.rows then .next s
  else
    match launchHome s n d slot h with
    | none => .next s
    | some home =>
      if !carry ∧ (h.version ≠ s.crs.lapVer ∨ !ferryDue s n d home h) then .next s
      else
        match launchPayload s n h off with
        | none => .next s
        | some (rows, psn, s) =>
          let x := getLand s n
          let s := setLand s n { x with credit := x.credit - 256 }
          let h := launchHdr l h (isLast s n h)
          let f : Ferry := ⟨h, d, 0, l, s.modnum, BitVec.ofNat 11 (home / 32), psn, s.time, rows⟩
          match damage s f with
          | some e => .next (forward (countRs s n e) n d slot none)
          | none =>
            if carry then .next (forward s n d slot (some f))
            else
              let r := actOn (noteSeen s n f) n f
              let s' := noteLaunch (afterFerry r.2 n f) n d home h
              .next (if retiresAt s n f then forward (retire s' n r.1) n d slot none else forward s' n d slot (some r.1))

/-- A ferry enters the module from a far port with its hold word, in a free slot before the entry landing (R98). -/
def enterFerry (s : State) (f : Ferry) (hold : Word) : State :=
  let free (k : Nat) : Bool := atEdge s f.dir (getTSlot s f.dir k) && (getTSlot s f.dir k).ferry.isNone
  match (upto ((train s f.dir).length + 1 + 4 * s.crs.nc)).find? free with
  | some k =>
    let stamp := s.crs.stamps
    setTSlot { s with crs := { s.crs with stamps := stamp + 1 } } f.dir k ⟨some f, hold, none, stamp⟩
  | none => s

/-- PACE_CREDIT_TICK: on an extended crossing a launcher gains credit by time (R99). -/
def execPaceCreditTick (l : Fin 32) (s : State) : Res :=
  if s.crs.ext ∧ liveLand s l.val ∧ uncoreOn s l.val then .next (addCredit s l.val) else .next s

/-! ## Injection (R60, R116, R118, R294, R295) -/

/-- The handle of a tile (R118). -/
def tileHandle (f : Ferry) (tg slot : Nat) : Dword :=
  let k := f.hdr.chain.val
  BitVec.ofNat 64
    (f.hdr.layer.toNat + f.hdr.stripe.toNat * 2 ^ 12 + k * 2 ^ 22 + tg * 2 ^ 26 + slot * 2 ^ 30 +
      ownerCore tg k * 2 ^ 36 + f.hdr.seq.toNat * 2 ^ 44)

/-- The tiles that a weight ferry posts: one for each token group that had work when it arrived, ascending (R115). -/
def postTiles (s : State) (l : Nat) (q : Queued) (slot : Nat) : State :=
  if q.f.hdr.sub = 0 then
    (maskBits 16 q.mask.toNat).foldl (fun s g =>
      let x := getLand s l
      setLand s l
        { x with
          tiles := x.tiles ++ [⟨x.tileNum, q.f.hdr.chain.val, g, q.num, tileHandle q.f g slot, false, false⟩]
          tileNum := x.tileNum + 1 }) s
  else s

/-- CHAIN_INJECTION: the head of a chain's injection queue goes into one ferry-buffer slot of every active core of the
chain, its valid rows with their poison bits; a row under an operand hold waits in its core's chain-port buffer, and the
ferry stays in the queue while one of those buffers is full before its last row; each buffer that its rows fill is counted
once (R60, R116, R257, R294, R295). -/
def execChainInjection (l : Fin 32) (k : Fin 16) (s : State) : Res :=
  let l := l.val
  let x := getLand s l
  match injQueue x k.val with
  | [] => .next s
  | q :: rest =>
    match (upto (fbDepth s l)).find? fun i => (getFSlot x k.val i).isNone with
    | none => .next s
    | some slot =>
      let cores := (activeCores s l).filter fun c => c % 16 == k.val
      let rows := (upto (min 64 q.f.hdr.rows)).map fun i => (fRow q.f i, bit q.f.poison.toNat i)
      let base := rdFld s (lcBase l + 0x90) 12 0 + 64 * slot
      let fills := cores.filter fun c => chainFills s l c base rows.length && !q.stalled.contains c
      if !arrayOn s l ∨ absentLand s l then .next s
      else if cores.any fun c => !chainTakes s l c base rows.length then
        let full := fills.filter fun c => !chainTakes s l c base rows.length
        let s := setLand s l { x with inject := tput [] k.val ({ q with stalled := q.stalled ++ full } :: rest) x.inject }
        .next (full.foldl (fun s c => chainFull s l c) s)
      else
        let s := fills.foldl (fun s c => chainFull s l c) s
        let s := setLand s l
          { x with
            inject := tput [] k.val rest x.inject
            fslots := tput none (k.val * 32 + slot) (some ⟨q.f.hdr, launcherId q.f, q.f.dir, q.num, q.upTo⟩) x.fslots }
        let s := cores.foldl (fun s c => writeRowsHeld s l c base .chain rows) s
        .next (releaseSlots (postTiles s l q slot) l)

/-- The landing's part in a collecting ferry as the double buffer holds it: G32 rows of the recorded scales, or bound bytes
in rows of 512; with how many sums left the 32-bit range (R87, R88). -/
def waveRows (s : State) (l : Nat) (w : WaveItem) : Rows × Nat :=
  match w.rows with
  | .gradient rs =>
    let out := rs.zipIdx.map fun r =>
      contribRow s ((boundByte s l w.home w.layer.toNat (64 * w.seq.toNat + r.2)).getD 0) r.1
    (⟨w.home, w.layer.toNat, w.seq.toNat, out.map fun r => r.1, [], []⟩, out.foldl (fun n r => n + r.2) 0)
  | .bounds rs =>
    let bs := rs.map rowBound
    (⟨w.home, w.layer.toNat, w.seq.toNat, (upto (ceilDiv bs.length 512)).map fun i => (bs.drop (512 * i)).take 512, [], []⟩, 0)

/-- An item of the list is a contribution to a GRADIENT ferry. -/
def waveGrad (w : WaveItem) : Bool :=
  match w.rows with
  | .gradient _ => true
  | .bounds _ => false

/-- The GRADIENT ferries of a wave of a layer, by home (32 x module + landing) and SEQ: one of every home in each
direction (R91). -/
def waveKeys (s : State) (y : LtLayer) (k : Nat) : List (Nat × Nat) :=
  (landingOrder s).flatMap fun h => ([2 * k, 2 * k + 1].filter fun q => decide (q < ltOf s y 2 h)).map fun q => (h, q)

/-- The list's contributions are those to the wave of a layer that the landing has to fetch next, one for every ferry of it,
whose rows' scales are recorded (R88, R91). -/
def wholeWave (s : State) (l : Nat) (y : LtLayer) (wave : List WaveItem) : Bool :=
  let gs := wave.filter waveGrad
  let keys := waveKeys s y (wavesOf (getLand s l) y.layer.toNat).fetched
  waveDue s.crs.lt (wavesOf (getLand s l) y.layer.toNat) && gs.length == keys.length &&
    (keys.all fun k => gs.any fun w => w.home == k.1 && w.seq.toNat == k.2 && w.layer == y.layer) &&
    keys.all fun k => scaled s l k.1 y.layer.toNat k.2

/-- A contribution goes into the double buffer. -/
def fetchItem (s : State) (l : Nat) (w : WaveItem) : State :=
  let r := waveRows s l w
  let s := countRsN s l .g32Sat r.2
  let x := getLand s l
  setLand s l (match w.rows with
    | .gradient _ => { x with contrib := putRowsRec x.contrib r.1 }
    | .bounds _ => { x with contribScale := putRowsRec x.contribScale r.1 })

/-- The landing has fetched its contributions to one more wave of a layer. -/
def waveFetched (s : State) (l : Nat) (y : LtLayer) : State :=
  let w := wavesOf (getLand s l) y.layer.toNat
  setWaves s l { w with fetched := w.fetched + 1 }

/-- GRADIENT_WAVE_FETCHED: the landing's contributions to the next wave of a layer are in the double buffer, whole, and the
wave's part of its hold bit clears; the double buffer holds the wave in progress and the next. A list that is not such a
wave is not fetched; one of bound bytes alone fetches those for gather SCALE ferries (R88, R91; log 47). -/
def execGradientWaveFetched (l : Fin 32) (wave : List WaveItem) (s : State) : Res :=
  if !arrayOn s l.val ∨ !liveLand s l.val then .next s
  else if wave.any waveGrad then
    match s.crs.lt.layers.find? fun y => s.crs.inLap && wholeWave s l.val y wave with
    | some y => .next (waveFetched (wave.foldl (fun s w => fetchItem s l.val w) s) l.val y)
    | none => .next s
  else .next (wave.foldl (fun s w => fetchItem s l.val w) s)

/-! ## Abandoning a lap, closing the crossing (R94 to R97, R543, R596) -/

def rCrsCause : Nat := 0x40008

/-- Every ferry on the crossing is retired (R94 step 2). -/
def emptyTrains (s : State) : State :=
  let s := { s with trainCw := [], trainCcw := [] }
  (upto 32).foldl (fun s l => setLand s l { getLand s l with lastCw := none, lastCcw := none }) s

/-- The lap in progress is abandoned, to run again: CRS.CAUSE.ABANDON (R94 step 2, R95). -/
def abandonLap (s : State) : State :=
  let s := emptyTrains s
  if s.crs.inLap then
    setFlag { s with crs := { s.crs with inLap := false, rerun := some s.crs.lapVer } } rCrsCause 1
  else s

/-- A landing failure during training ends the step: no lap runs again, and the gradients collected are dropped (R96). -/
def endStep (s : State) : State :=
  if s.crs.lt.training then
    (upto 32).foldl (fun s l =>
        setLand s l { getLand s l with gradArea := [], contrib := [], contribScale := [], bounds := [], waves := [] })
      { s with crs := { s.crs with rerun := none } }
  else s

/-- Every launcher's pace credit is 0 (R70). -/
def clearCredit (s : State) : State :=
  (upto 32).foldl (fun s l => setLand s l { getLand s l with credit := 0 }) s

/-- XPT.RING names two other modules, the split has both ring groups, and the system has another member: the crossing is
extended (R98, R428; log 30). -/
def ringNamed (s : State) : Bool :=
  let own := s.modnum.toNat
  !(rolePorts s 1).isEmpty && !(rolePorts s 2).isEmpty && rdFld s rRing 10 0 != own && rdFld s rRing 21 11 != own &&
    (members s).any fun m => m != own

/-- Outside laps the crossing joins or leaves an extended crossing: its trains are empty, pace credit is 0, and the launch
table is taken up anew (R46, R70, R98). -/
def updExt (s : State) : State :=
  let e := ringNamed s
  if s.crs.inLap ∨ e = s.crs.ext then s
  else
    let s := clearCredit (emptyTrains s)
    updHolds { s with crs := { s.crs with ext := e, nc := 0, ltUse := 0, lt := {}, notices := [], cutHold := false } }

/-- CRS.LAPCTL.SHADOW in effect (R567). -/
def shadowOn (s : State) : Bool := wfld s.crs.lapCtl 16 16 == 1

/-- The shadow holder of a landing's slice: the next live landing in CW order (R94). -/
def shadowHolder (s : State) (home : Nat) : Option Nat :=
  (ringFrom false .cw home).find? fun k => liveLand s k && k != home

/-- A landing holds a home's slice of a version in a shadow area, in full (R567, R388). -/
def hasShadow (s : State) (l home ver : Nat) : Bool :=
  s.crs.shadows.any fun x => x.land == l && x.home == home && x.ver == ver && x.done

/-- CRS.LAPSTAT.SHREADY: every live landing holds the shadow slice of the live landing before it, of the live version
(R566, R567). -/
def shReady (s : State) : Bool :=
  shadowOn s && liveVer s != 0 && (liveLands s).all fun h =>
    match shadowHolder s h with
    | some x => hasShadow s x h (liveVer s)
    | none => false

/-- A home slice has a launcher of a version: the home with its array ON, or a stand-in with its array ON that holds
the slice (R596). -/
def hasLauncher (s : State) (home ver : Nat) : Bool :=
  match standIn s home with
  | some l => arrayOn s l && hasShadow s l home ver
  | none => liveLand s home && arrayOn s home

/-- The holder stands in for a home landing, unless it stands in for another (R94 step 4, R596). -/
def setStandIn (s : State) (home : Nat) : State :=
  match shadowHolder s home with
  | some l =>
    if (getLand s l).standFor = none ∧ standIn s home = none then
      setLand s l { getLand s l with standFor := some home }
    else s
  | none => s

/-- A landing that launches its own slice again takes its slots back from its stand-in (R596, R544). -/
def takeBack (s : State) (home : Nat) : State :=
  match standIn s home with
  | some l => setLand s l { getLand s l with standFor := none }
  | none => s

/-- At a lap boundary: live landings with their array ON take their slots back; with shadow homing and SHREADY, the
holder of a home whose array is not ON stands in for it (R596). -/
def boundaryStandIns (s : State) : State :=
  (presentLands s).foldl (fun s h =>
    if liveLand s h ∧ arrayOn s h then takeBack s h else if shReady s then setStandIn s h else s) s

/-- The crossing can be closed around a landing: both its neighbours by number are live (R22, R97). -/
def canSpan (s : State) (l : Nat) : Bool := liveLand s ((l + 31) % 32) && liveLand s ((l + 1) % 32)

end Sys2Proof.Machine
end

