-- ==== Sys2Proof/Machine/Sha.lean ====
section
/-! DEFINITION. SHA-384 (R384, R390, R392, R473): the hash of FIPS 180-4, which the spec names and does not print
(PRESUMED, log 13), and the Merkle root over 1 MB leaves. -/

namespace Sys2Proof.Machine

/-! ## Constants -/

/-- The whole part of the k-th root of n, found bit by bit downward from bit i - 1, above the bits found so far. -/
def rootFrom (k n : Nat) : Nat → Nat → Nat
  | 0, found => found
  | i + 1, found =>
    let more := found + 2 ^ i
    rootFrom k n i (if more ^ k ≤ n then more else found)

/-- The first 64 bits of the fraction of the k-th root of p, for p below 2^10. -/
def rootFraction (k p : Nat) : Dword := BitVec.ofNat 64 (rootFrom k (p * 2 ^ (64 * k)) 74 0)

/-- The primes below n, ascending. -/
def primesBelow (n : Nat) : List Nat :=
  (upto n).filter fun p => decide (2 ≤ p) && (upto 21).all fun d => decide (d < 2) || decide (p ≤ d) || p % d != 0

/-- The round constants: fractions of the cube roots of the 80 primes up to 409. -/
def shaK : List Dword := (primesBelow 410).map (rootFraction 3)

/-- The initial chaining value of SHA-384: fractions of the square roots of the ninth to the sixteenth prime. -/
def shaInit : List Dword := ((primesBelow 54).drop 8).map (rootFraction 2)

/-! ## Compression -/

/-- The exclusive or of a word's rotations to the right. -/
def xorRots (x : Dword) (ns : List Nat) : Dword := ns.foldl (fun y n => y ^^^ x.rotateRight n) 0

/-- The big-endian number in bytes. -/
def beNat : List Byte → Nat := fun bs => bs.foldl (fun n b => 256 * n + b.toNat) 0

/-- The n big-endian bytes of a number. -/
def beBytes (n x : Nat) : List Byte := (leBytes n x).reverse

/-- The 16 words of a 128 B block. -/
def blockWords : Nat → List Byte → List Dword
  | 0, _ => []
  | n + 1, bs => BitVec.ofNat 64 (beNat (bs.take 8)) :: blockWords n (bs.drop 8)

/-- The word that follows the sixteen newest words of the schedule, newest first. -/
def nextWord (w : List Dword) : Dword :=
  let near := w.getD 1 0
  let far := w.getD 14 0
  (w.getD 6 0 + w.getD 15 0) + ((xorRots near [19, 61] ^^^ near >>> 6) + (xorRots far [1, 8] ^^^ far >>> 7))

/-- The message schedule, newest word first: n further words. -/
def schedule : Nat → List Dword → List Dword
  | 0, w => w
  | n + 1, w => schedule n (nextWord w :: w)

/-- Each bit of x chooses between the bits of y and z. -/
def chooseBits (x y z : Dword) : Dword := z ^^^ (x &&& (y ^^^ z))

/-- Each bit that at least two of three words have. -/
def mostBits (x y z : Dword) : Dword := (x &&& (y ||| z)) ||| (y &&& z)

/-- One round on the eight working words; kw is the sum of the schedule's word and the round constant. -/
def shaRound (v : List Dword) (kw : Dword) : List Dword :=
  let at' (i : Nat) : Dword := v.getD i 0
  let into := kw + at' 7 + xorRots (at' 4) [14, 18, 41] + chooseBits (at' 4) (at' 5) (at' 6)
  let top := into + xorRots (at' 0) [28, 34, 39] + mostBits (at' 0) (at' 1) (at' 2)
  top :: v.take 3 ++ (at' 3 + into) :: (v.drop 4).take 3

/-- The chaining value after a block. -/
def shaBlock (h : List Dword) (block : List Byte) : List Dword :=
  let w := (schedule 64 (blockWords 16 block).reverse).reverse
  let v := (w.zipWith (fun x k => x + k) shaK).foldl shaRound h
  h.zipWith (fun a b => a + b) v

/-- The chaining value after n blocks. -/
def shaBlocks : Nat → List Dword → List Byte → List Dword
  | 0, h, _ => h
  | n + 1, h, bs => shaBlocks n (shaBlock h (bs.take 128)) (bs.drop 128)

/-- A message with its padding. -/
def shaPad (bs : List Byte) : List Byte :=
  let z := (239 - bs.length % 128) % 128
  bs ++ (0x80 : Byte) :: List.replicate z 0 ++ beBytes 16 (8 * bs.length)

/-- SHA-384 as one big-endian number of 384 bits (R597). -/
def sha384 (bs : List Byte) : BitVec 384 :=
  let p := shaPad bs
  let h := shaBlocks (p.length / 128) shaInit p
  BitVec.ofNat 384 ((h.take 6).foldl (fun n w => 2 ^ 64 * n + w.toNat) 0)

/-- The 48 bytes of a digest, d0 first. -/
def digBytes (d : BitVec 384) : List Byte := beBytes 48 d.toNat

/-! ## The Merkle root (R384) -/

/-- A leaf's digest. -/
def leafDigest (bs : List Byte) : BitVec 384 := sha384 ((0 : Byte) :: bs)

/-- One level up: a node without a right partner moves up unchanged. -/
def merkleUp : List (BitVec 384) → List (BitVec 384)
  | a :: b :: r => sha384 ((1 : Byte) :: digBytes a ++ digBytes b) :: merkleUp r
  | r => r

/-- The root after at most n levels. -/
def merkleRoot : Nat → List (BitVec 384) → BitVec 384
  | _, [] => 0
  | _, [a] => a
  | 0, a :: _ => a
  | n + 1, r => merkleRoot n (merkleUp r)

end Sys2Proof.Machine
end

