-- ==== Sys2Proof/Machine/Windows.lean ====
section
/-! DEFINITION. Remote windows: opening, closing, generations, admission and the counts of refusals; the answers of the
mailbox (R370 to R380, R477, R479). -/

namespace Sys2Proof.Machine

/-! ## Windows of a unit (R370) -/

/-- Number of a unit: a landing, or 32 + quay. -/
def unitNum : Unit' → Nat
  | .land l => l.val
  | .quay q => 32 + q.val

/-- QC.CAUSE of a quay (R576). -/
def rQcause (q : Nat) : Nat := quayBase q + 0xb0000

def winCount (u : Nat) : Nat := if u < 32 then 1024 else 256

/-- First register of window i of unit u. -/
def winBase (u i : Nat) : Nat := if u < 32 then lcBase u + 0x30000 + 16 * i else quayBase (u - 32) + 0xc0000 + 16 * i

/-- Register WCTL of window i of unit u. -/
def rWctl (u i : Nat) : Nat := winBase u i + 12

def winFlag (s : State) (u i b : Nat) : Bool := rdFld s (rWctl u i) b b == 1
def winOpen (s : State) (u i : Nat) : Bool := winFlag s u i 8
def winClosing (s : State) (u i : Nat) : Bool := winFlag s u i 9

/-- Present generation: the closes counted in GEN and the resets that reached the unit (R375, R378). -/
def winGen (s : State) (u i : Nat) : BitVec 8 := BitVec.ofNat 8 (rdFld s (rWctl u i) 7 0) + tget 0 s.hm.winGen u

/-- Job number of a window: JOBNUM of WSRC.JOB (R482). -/
def winJob (s : State) (u i : Nat) : Nat := rdFld s (winBase u i + 8) 15 6

/-- Whether a register number is that of a WCTL of unit u, and which (R370). -/
def wctlOf (u o : Nat) : Option Nat :=
  let b := winBase u 0
  if b ≤ o ∧ o < b + 16 * winCount u ∧ (o - b) % 16 = 12 then some ((o - b) / 16) else none

/-- Windows of a unit that are open or closing, ascending: those whose WCTL differs from its reset word. -/
def busyWins (s : State) (u : Nat) : List Nat :=
  (s.regs.filterMap fun e => wctlOf u e.1).filter fun i => winOpen s u i || winClosing s u i

/-- The units of the module. -/
def unitList : List Nat := upto 36

def winKey (u i : Nat) : Nat := 1024 * u + i

/-! ## Opening and closing (R375 to R378) -/

/-- A window's registers written by the harbourmaster, OPEN apart. -/
def writeWin (s : State) (u i : Nat) (w : WinSpec) : State :=
  let b := winBase u i
  let s := wr (wr s b w.base) (b + 4) w.pages
  let s := wr s (b + 8)
    (BitVec.ofNat 32 (w.job.toNat + b2n w.host * 2 ^ 16 + b2n w.quay * 2 ^ 17 + w.space.toNat * 2 ^ 24))
  wrFld s (b + 12) 13 10 (b2n w.rd + 2 * b2n w.wr + 4 * b2n w.amo + 8 * b2n w.inc)

/-- OPEN = 1 is written: at once, or when the close in progress completes (R376). A landing with an open window is not free
(R482). -/
def openWin (s : State) (u i : Nat) : State :=
  if winClosing s u i then { s with hm := { s.hm with reopen := sadd (winKey u i) s.hm.reopen } }
  else wrFld (if u < 32 then wrFld s (lcBase u + 0xc) 10 10 0 else s) (rWctl u i) 8 8 1

/-- OPEN = 0 is written: the cut (R375 step 1). -/
def closeWin (s : State) (u i : Nat) : State :=
  wrFld { s with hm := { s.hm with reopen := sdel (winKey u i) s.hm.reopen } } (rWctl u i) 9 8 2

/-- Some access that the window admitted has not completed at the target (R375 step 2). -/
def winBusy (s : State) (u i : Nat) : Bool := s.accs.any fun a => a.via == some (winKey u i) && a.res.isNone

/-- The close completes: GEN advances, CLOSING clears, and a waiting opening takes effect (R375 step 3, R376). -/
def finishClose (s : State) (u i : Nat) : State :=
  let s := wrFld s (rWctl u i) 7 0 (rdFld s (rWctl u i) 7 0 + 1)
  let s := wrFld s (rWctl u i) 9 9 0
  if s.hm.reopen.contains (winKey u i) then
    wrFld { s with hm := { s.hm with reopen := sdel (winKey u i) s.hm.reopen } } (rWctl u i) 8 8 1
  else s

/-- A reset that reaches a unit closes all its windows and advances each generation by 1 (R378). -/
def resetWins (s : State) (u : Nat) : State :=
  let b := winBase u 0
  let keep (e : Nat × Word) : Option (Nat × Word) :=
    if b ≤ e.1 ∧ e.1 < b + 16 * winCount u then
      match wctlOf u e.1 with
      | some _ => if wfld e.2 7 0 = 0 then none else some (e.1, e.2 &&& 0xff)
      | none => none
    else some e
  { s with
    regs := s.regs.filterMap keep
    hm := { s.hm with
      winGen := tput 0 u (tget 0 s.hm.winGen u + 1) s.hm.winGen
      reopen := s.hm.reopen.filter fun k => k / 1024 != u } }

/-- Every window that a test picks is closed (R380). -/
def closeWins (s : State) (p : Nat → Nat → Bool) : State :=
  unitList.foldl (fun s u =>
    ((busyWins s u).filter fun i => p u i).foldl (fun s i => if winOpen s u i then closeWin s u i else
      { s with hm := { s.hm with reopen := sdel (winKey u i) s.hm.reopen } }) s) s

/-- A write of an HM field by another master is ignored (R470). -/
def hmWrite (s : State) : State := setFlag s 0x70004 0

/-! ## The mailbox's answers (R477, R479) -/

/-- First register of channel c. -/
def rMbx (c : Nat) : Nat := 0x71000 + 0x400 * c

/-- Status codes (R479). -/
inductive MCode where
  | ok | badop | badarg | denied | conflict | mismatch | sigfail | nokey | overruled | full
deriving DecidableEq, Repr

def MCode.num : MCode → Nat
  | .ok => 0 | .badop => 1 | .badarg => 2 | .denied => 3 | .conflict => 4 | .mismatch => 5 | .sigfail => 6
  | .nokey => 7 | .overruled => 8 | .full => 9

/-- The words of a payload, 64 of them. -/
def payloadWords : Nat → List Byte → List Word
  | 0, _ => []
  | n + 1, bs => BitVec.ofNat 32 (leNat (bs.take 4)) :: payloadWords n (bs.drop 4)

/-- A request ends: STATE DONE, its code and its response payload, zero beyond it. -/
def mbxDone (s : State) (c : Nat) (code : MCode) (out : List Byte) : State :=
  let s := wr s (rMbx c + 4) (BitVec.ofNat 32 (2 + code.num * 2 ^ 8 + out.length * 2 ^ 16))
  let s := wrFld s (rMbx c) 31 31 0
  (payloadWords 64 out).zipIdx.foldl (fun s x => wr s (rMbx c + 0x200 + 4 * x.2) x.1) s

/-! ## Commands -/

/-- The target of a window exists and its block answers: an uncore domain or a quay that is ON. -/
def unitOn (s : State) (u : Nat) : Bool :=
  if u < 32 then !absentLand s u && uncoreOn s u else quayOn s (u - 32)

/-- WINDOW_OPEN: the harbourmaster writes a window with OPEN = 1 (R370, R376). -/
def execWindowOpen (m : Master) (u : Unit') (i : Nat) (w : WinSpec) (s : State) : Res :=
  let n := unitNum u
  if m ≠ .hm then .next (hmWrite s)
  else if winCount n ≤ i ∨ !unitOn s n then .next s
  else .next (openWin (writeWin s n i w) n i)

/-- WINDOW_CLOSE: the harbourmaster writes OPEN = 0 (R375). -/
def execWindowClose (m : Master) (u : Unit') (i : Nat) (s : State) : Res :=
  let n := unitNum u
  if m ≠ .hm then .next (hmWrite s)
  else if winCount n ≤ i ∨ !unitOn s n then .next s
  else .next (closeWin s n i)

/-! ## Admission (R371 to R374, R379) -/

/-- Who an access comes from, at its target: a landing or a quay of a module, or the host of a module. -/
inductive WSrc where
  | land (m l c : Nat)
  | quay (m q : Nat)
  | host (m : Nat)
deriving DecidableEq, Repr

/-- What an access needs of a window: reads, writes, AMOADD, remote increments. -/
structure Need where
  rd  : Bool := false
  wr  : Bool := false
  amo : Bool := false
  inc : Bool := false
deriving DecidableEq, Repr

/-- The source may use the window: a landing that the tenancy table binds to the window's job, a quay engine acting for
that job with QUAY = 1, the host with HOST = 1 (R371). A quay engine of this module acts for the job that the target landing
is bound to (log 80). The table holds nothing of another module: whether a source there is bound is open (log 17). -/
def srcBound (s : State) (u i : Nat) (a : WSrc) : Bool :=
  match a with
  | .land m l _ =>
    if m = s.modnum.toNat then winJob s u i != 0 && rdFld s (lcBase l + 0xc) 9 0 == winJob s u i
    else Config.remoteBound s.free (32 * m + l) (winJob s u i)
  | .quay m q =>
    rdFld s (winBase u i + 8) 17 17 == 1 &&
      if m = s.modnum.toNat then winJob s u i != 0 && (32 ≤ u || rdFld s (lcBase u + 0xc) 9 0 == winJob s u i)
      else Config.remoteBound s.free (32 * m + q) (winJob s u i)
  | .host _ => rdFld s (winBase u i + 8) 16 16 == 1

/-- The window covers bytes [off, off + n) of a space. -/
def winCovers (s : State) (u i space off n : Nat) : Bool :=
  let b := winBase u i
  let base := (rd s b).toNat * 4096
  rdFld s (b + 8) 27 24 == space && decide (base ≤ off) && decide (off + n ≤ base + (rd s (b + 4)).toNat * 4096)

/-- A window admits an access (R371). -/
def admits (s : State) (u i space off n : Nat) (a : WSrc) (k : Need) : Bool :=
  winOpen s u i && winCovers s u i space off n && srcBound s u i a &&
    (!k.rd || winFlag s u i 10) && (!k.wr || winFlag s u i 11) && (!k.amo || winFlag s u i 12) &&
    (!k.inc || winFlag s u i 13)

/-- A signal-only packet needs the window's INC, whatever range it covers (R374). -/
def admitsSignal (s : State) (u i : Nat) (a : WSrc) : Bool := winOpen s u i && srcBound s u i a && winFlag s u i 13

/-- A refusal is counted in LC.WINSTAT and its source recorded in LC.WINLAST (R379); a quay has no such registers. -/
def countRefusal (s : State) (u : Nat) (stale : Bool) (a : WSrc) : State :=
  if 32 ≤ u then s
  else
    let o := lcBase u + 0xa0
    let lo := if stale then 0 else 16
    let s := countUp s o (lo + 15) lo 1 (some (lcBase u + 4, 4))
    let src := match a with
      | .land m l c => c + l * 2 ^ 8 + m * 2 ^ 13
      | .quay m q => q * 2 ^ 8 + m * 2 ^ 13 + 2 ^ 25
      | .host m => m * 2 ^ 13 + 2 ^ 24
    wr s (o + 4) (BitVec.ofNat 32 (src + b2n stale * 2 ^ 26))

end Sys2Proof.Machine
end

