-- ==== Sys2Proof/Machine/Plans.lean ====
section
/-! DEFINITION. Version areas, slice maps and plans; the commands of the storage initiator (R46, R381 to R389). -/

namespace Sys2Proof.Machine

/-! ## Memory that the module reads directly (R385, R389) -/

/-- Module, unit, space and offset of a global address (R23). -/
def modOf (a : Dword) : Nat := dfld a 63 53
def unitOf (a : Dword) : Nat := dfld a 52 48
def offOf (a : Dword) : Nat := dfld a 43 0

/-- Bytes of quay SRAM: 64 MB (R24). -/
def sramBytes : Nat := 0x4000000

/-- n bytes of stack memory or quay SRAM of this module from a global address, and what the read does to the lines of a
stack; no bytes where they lie elsewhere, cannot be reached, or a line delivers poison (R363, R364; log 76). -/
def ownBytes (s : State) (a : Dword) (n : Nat) : Option (List Byte) × State :=
  let u := unitOf a
  let o := offOf a
  if modOf a ≠ s.modnum.toNat then (none, s)
  else if spaceOf a = 0 ∧ o + n ≤ stackBytes ∧ stackReach s u o n then
    let d := stackData s u o n
    (if d.2 then none else some d.1, readLines s u o n)
  else if spaceOf a = 4 ∧ o + n ≤ sramBytes ∧ u < 4 ∧ quayOn s u then (some (getBytes s (memKey u 4 o) n), s)
  else (none, s)

/-- The little-endian number in bytes [i, i + n). -/
def field (bs : List Byte) (i n : Nat) : Nat := leNat ((bs.drop i).take n)

/-! ## Version areas (R388) -/

/-- First register of LC.VAREAk, USE, first byte and length of the area. -/
def rArea (l k : Nat) : Nat := lcBase l + 0xe0 + 8 * k
def areaUse (s : State) (l k : Nat) : Nat := rdFld s (rArea l k + 4) 29 28
def areaBase (s : State) (l k : Nat) : Nat := rdFld s (rArea l k) 27 0 * 4096
def areaSize (s : State) (l k : Nat) : Nat := rdFld s (rArea l k + 4) 27 0 * 4096
def setUse (s : State) (l k u : Nat) : State := wrFld s (rArea l k + 4) 29 28 u

/-- The first area of a list whose USE is u. -/
def areaWith (s : State) (l u : Nat) (ks : List Nat) : Option Nat := ks.find? fun k => areaUse s l k == u

def homeAreas : List Nat := [0, 1]
def shadowAreas : List Nat := [2, 3]

/-- The area holds a slice that was loaded again, and stays LIVE until a rejoin or a release (R388). -/
def keptArea (s : State) (l k : Nat) : Bool := s.crs.shadows.any fun x => x.reload && x.land == l && x.k == k

/-- Every area of USE u becomes USE v; a shadow area that becomes FREE holds no slice. -/
def changeUse (s : State) (u v : Nat) : State :=
  let s := (presentLands s).foldl (fun s l =>
    (upto 4).foldl (fun s k => if areaUse s l k = u ∧ !keptArea s l k then setUse s l k v else s) s) s
  { s with crs := { s.crs with shadows := s.crs.shadows.filter fun x => areaUse s x.land x.k != 0 } }

/-! ## The slice map (R389) -/

/-- Bytes of a slice in a map, and of the whole image. -/
def sliceLen (m : List SExt) (h : Nat) : Nat := m.foldl (fun n e => if e.slice = h then n + e.len else n) 0
def imageLen (m : List SExt) : Nat := m.foldl (fun n e => n + e.len) 0

/-- Entries of a slice map from their bytes: the place that each must have in the image follows, and each takes the
next place in its slice's area. None where one breaks R389. -/
def mapEntries (slices : Nat) : Nat → Nat → Tab Nat → List Byte → Option (List SExt)
  | 0, _, _, _ => some []
  | n + 1, ioff, used, bs =>
    let len := field bs 8 4
    let h := field bs 12 2
    let pos := tget 0 used h
    if field bs 0 8 ≠ ioff ∨ len % 512 ≠ 0 ∨ slices ≤ h ∨ field bs 14 2 ≠ 0 then none
    else
      match mapEntries slices n (ioff + len) (tput 0 h (pos + len) used) (bs.drop 16) with
      | some r => some (⟨ioff, len, h, pos⟩ :: r)
      | none => none

/-- The slice map that CRS.SMAP names, checked, and what its reads do (R389). -/
def readSmap (s : State) : Option (List SExt) × State :=
  let a := BitVec.ofNat 64 (rdPair s 0x40020)
  match ownBytes s a 16 with
  | (none, s) => (none, s)
  | (some h, s) =>
    let n := field h 4 4
    if field h 0 4 ≠ 0x504d5359 ∨ n = 0 ∨ 1048576 < n ∨ field h 8 2 ≠ sliceCount s ∨ field h 10 6 ≠ 0 then (none, s)
    else
      match ownBytes s (a + 16) (16 * n) with
      | (none, s) => (none, s)
      | (some b, s) => (mapEntries (sliceCount s) n 0 [] b, s)

/-- The home's area taken as incoming for a slice of n bytes; none where it is missing or too small (R388). -/
def takeHomeArea (s : State) (home n : Nat) : Option State :=
  match areaWith s home 0 homeAreas with
  | some k => if n ≤ areaSize s home k then some (setUse s home k 2) else none
  | none => none

/-- The shadow holder's area taken as incoming for a home's slice of n bytes (R388). -/
def takeShadowArea (s : State) (home ver n : Nat) : Option State :=
  match shadowHolder s home with
  | some x =>
    match areaWith s x 0 shadowAreas with
    | some k =>
      if n ≤ areaSize s x k then
        let s := setUse s x k 2
        some { s with crs := { s.crs with shadows := s.crs.shadows ++ [⟨x, k, home, ver, false, false⟩] } }
      else none
    | none => none
  | none => none

/-- The incoming areas taken for a slice map: the home area and, with shadow homing, the holder's shadow area of each
home of this module; none where one is missing or too small (R388). A home that is out of the crossing takes nothing
itself, and its holder's shadow area in every case, since its stand-in launches from there (log 77). -/
def takeAreas (s : State) (m : List SExt) (ver : Nat) : Option State :=
  (homeSlices s).foldl (fun (a : Option State) hs =>
    let size := sliceLen m hs.2
    a.bind fun s =>
      if !liveLand s hs.1 then takeShadowArea s hs.1 ver size
      else (takeHomeArea s hs.1 size).bind fun s => if shadowOn s then takeShadowArea s hs.1 ver size else some s)
    (some s)

/-- The parts of image bytes [off, off + n): the extent, the first byte within it and the length. -/
def imageParts (m : List SExt) (off n : Nat) : List (SExt × Nat × Nat) :=
  (m.filter fun e => overlaps e.ioff e.len off n).map fun e =>
    let a := max e.ioff off
    (e, a - e.ioff, min (e.ioff + e.len) (off + n) - a)

/-- A place in the stacks for bytes of an image: landing, offset, first of the bytes, how many. -/
structure Place where
  land : Nat
  off  : Nat
  src  : Nat
  len  : Nat
deriving DecidableEq, Repr

/-- The places of image bytes [off, off + n) in the areas of one USE: the home's area, and its shadow area (R387). `only`
names the one home whose shadow area alone is written, for a reload. -/
def imagePlaces (s : State) (m : List SExt) (use ver : Nat) (only : Option Nat) (off n : Nat) : List Place :=
  (imageParts m off n).flatMap fun p =>
    match sliceHome s p.1.slice with
    | none => []
    | some home =>
      let at' := p.1.pos + p.2.1
      let src := p.1.ioff + p.2.1 - off
      let own := match only, areaWith s home use homeAreas with
        | none, some k => if liveLand s home then [⟨home, areaBase s home k + at', src, p.2.2⟩] else []
        | _, _ => []
      let sh := if only = none ∨ only = some home then
          (s.crs.shadows.filter fun x => x.home == home && x.ver == ver && !x.done).map fun x =>
            ⟨x.land, areaBase s x.land x.k + at', src, p.2.2⟩
        else []
      own ++ sh

/-- Every place can be written now: no stack of one scrubs or is OFF (R367). -/
def placesReach (s : State) (ps : List Place) : Bool := ps.all fun p => stackReach s p.land p.off p.len

/-- Bytes of an image put into their places. -/
def putPlaces (s : State) (ps : List Place) (data : List Byte) : State :=
  ps.foldl (fun s p => writeStack s p.land p.off ((data.drop p.src).take p.len) false) s

/-- The canonical image of the incoming version from its home areas, and what the reads do to the lines; the slices that
other modules hold are theirs (R86, R363, R364, R384; log 14). -/
def imageRead (s : State) (m : List SExt) (ver : BitVec 16) : List Byte × State :=
  m.foldl (fun a e =>
    match sliceHome a.2 e.slice with
    | some n =>
      match areaWith a.2 n 2 homeAreas with
      | some k =>
        let o := areaBase a.2 n k + e.pos
        (a.1 ++ (stackData a.2 n o e.len).1, readLines a.2 n o e.len)
      | none => a
    | none => (a.1 ++ (upto e.len).map fun i => Config.remoteByte ver (e.ioff + i), a.2)) ([], s)

/-- Bytes copied between stacks by line, each with its poison (R365). -/
def copyStack (s : State) (l off k dest n : Nat) : State :=
  (upto (ceilDiv n 64)).foldl (fun s i =>
    let m := min 64 (n - 64 * i)
    let d := stackData s l (off + 64 * i) m
    writeStack (readLine s l ((off + 64 * i) / 64 * 64)) k (dest + 64 * i) d.1 d.2) s

/-- Both ends of a copy can be reached (R367). -/
def copyReach (s : State) (l off k dest n : Nat) : Bool := stackReach s l off n && stackReach s k dest n

/-! ## Plans (R385, R386) -/

/-- Entries of a plan from their bytes; none where a reserved byte is not zero or TGT is above 15. -/
def planEntries : Nat → List Byte → Option (List PlanEntry)
  | 0, _ => some []
  | n + 1, bs =>
    if field bs 27 5 ≠ 0 ∨ 15 < field bs 24 1 ∨ field bs 8 4 = 0 then none
    else
      match planEntries n (bs.drop 32) with
      | some r =>
        some (⟨field bs 0 8, field bs 8 4, field bs 12 4, field bs 16 8, field bs 24 1, field bs 25 1,
          field bs 26 1⟩ :: r)
      | none => none

/-- A plan's header and entries: PKIND, the version and the reserved bytes hold (R385). -/
def readPlan (s : State) (reg pkind version : Nat) : Option (List Byte × List PlanEntry) :=
  let a := BitVec.ofNat 64 (rdPair s reg)
  if spaceOf a ≠ 4 then none
  else
    match (ownBytes s a 64).1 with
    | none => none
    | some h =>
      let n := field h 8 4
      if field h 0 4 ≠ 0x4e4c5059 ∨ field h 4 1 ≠ pkind ∨ field h 5 3 ≠ 0 ∨ n = 0 ∨ 65536 < n ∨
          field h 12 2 ≠ version ∨ field h 14 2 ≠ 0 ∨ field h 21 3 ≠ 0 ∨ field h 40 24 ≠ 0 then none
      else
        match (ownBytes s (a + 64) (32 * n)).1 with
        | none => none
        | some b => (planEntries n b).map fun es => (h, es)

/-- A plan entry put in its place by MOFF. -/
def insertEntry (e : PlanEntry) : List PlanEntry → List PlanEntry
  | [] => [e]
  | f :: r => if e.moff ≤ f.moff then e :: f :: r else f :: insertEntry e r

/-- Extents in ascending MOFF cover blocks [off, size) exactly once, each on a 1 MB boundary and all but the last a
whole number of MB long (R386). -/
def coversFrom (size : Nat) : Nat → List PlanEntry → Bool
  | off, [] => off == size
  | off, e :: r =>
    e.moff == off && off % 2 ^ 20 == 0 && (r.isEmpty || 4096 * e.blocks % 2 ^ 20 == 0) &&
      coversFrom size (off + 4096 * e.blocks) r

/-- A load plan for an image of size bytes: it covers the image's blocks (R386). -/
def loadPlanOk (size : Nat) (es : List PlanEntry) : Bool :=
  (es.all fun e => e.land == 0 && e.kind == 0) &&
    coversFrom (4096 * ceilDiv size 4096) 0 (es.foldr insertEntry [])

/-! ## NVMe commands (R381 to R383) -/

/-- A connection to the target has been made or asked for. -/
def hasQp (s : State) (t : Nat) : Bool := s.xpt.qps.any fun q => q.tgt == t

/-- The target has answered the Connect. -/
def connected (s : State) (t : Nat) : Bool :=
  hasQp s t && !(s.sto.cmds.any fun c => c.tgt == t && c.use == .connect)

/-- I/O commands that the queues of a controller hold: 1 to 8 queues of 2 to 128 entries (R381; log 78). -/
def queueRoom (t : Nat) : Nat := (Config.ioQueues t).val.succ * (min 126 (Config.queueEntries t) + 2)

/-- The commands to a target that wait and find a place in its queues, oldest first. -/
def sendable (s : State) (t : Nat) : List NvCmd :=
  let mine := s.sto.cmds.filter fun c => c.tgt == t && c.use != .connect
  (mine.filter fun c => !c.sent).take (queueRoom t - (mine.filter fun c => c.sent).length)

/-- Packet sequence numbers count modulo 2^24. -/
def psnMod : Nat := 16777216

/-- The next sequence number of the connection to a target. -/
def qpNext (s : State) (t : Nat) : Nat := ((s.xpt.qps.find? fun q => q.tgt == t).map fun q => q.next).getD 0

/-- A packet leaves on the connection to a target: it takes the next sequence number, and waits for its acknowledgement
(R424). -/
def sendPacket (s : State) (t : Nat) (o : Nat → Out) : State :=
  let n := qpNext s t
  emit { s with xpt := { s.xpt with qps := s.xpt.qps.map fun q =>
    if q.tgt = t then { q with next := (n + 1) % psnMod, unacked := q.unacked ++ [(n, o n)] } else q } } (o n)

/-- A command leaves. -/
def sendNvme (s : State) (c : NvCmd) : State :=
  sendPacket { s with sto := { s.sto with
    cmds := s.sto.cmds.map fun d => if d.id = c.id then { d with sent := true } else d } } c.tgt
    fun n => .nvme c.tgt c.op c.nsid c.slba c.blocks c.fua c.data n

/-- The commands that wait for a connected target leave as far as its queues have room. -/
def pump (s : State) (t : Nat) : State := if connected s t then (sendable s t).foldl sendNvme s else s

/-- A command joins those without a completion. -/
def addNvme (s : State) (c : NvCmd) : State :=
  { s with sto := { s.sto with cmds := s.sto.cmds ++ [{ c with id := s.sto.next }], next := s.sto.next + 1 } }

/-- A command issued to its target. -/
def issueNvme (s : State) (use : NvUse) (tgt op nsid slba blocks : Nat) (fua : Bool) (data : List Byte) : State :=
  pump (addNvme s ⟨0, use, tgt, op, nsid, slba, blocks, data, fua, false⟩) tgt

/-- Blocks of an extent in commands of at most 1 MB: number of the first block within it, and the count. -/
def chunks (blocks : Nat) : List (Nat × Nat) :=
  (upto (ceilDiv blocks 256)).map fun i => (256 * i, min 256 (blocks - 256 * i))

/-- Reads of an extent, each for the use that its byte offset gives. -/
def readExtent (s : State) (e : PlanEntry) (use : Nat → NvUse) : State :=
  (chunks e.blocks).foldl (fun s c => issueNvme s (use (4096 * c.1)) e.tgt 2 e.nsid (e.slba + c.1) c.2 false []) s

/-- A connection to a target: a new queue pair on its far port, and a Connect with KATO = 0, the controller enabled and
its state read by its properties; a discovery controller is asked for its discovery log (R381, R382, R397, R424; log 78). -/
def connect (s : State) (t : Nat) : State :=
  let s := { s with
    xpt := { s.xpt with
      qps := (s.xpt.qps.filter fun q => q.tgt ≠ t) ++ [{ port := Config.targetPort t % 16, qp := s.xpt.nextQp, tgt := t }]
      nextQp := s.xpt.nextQp + 1 } }
  let s := addNvme s ⟨0, .connect, t, 3, 0, 0, 0, leBytes 4 0, false, true⟩
  let ops := if Config.discovery t then [3, 4, 5, 6] else [3, 4, 5]
  ops.foldl (fun s op => sendPacket s t fun n => .nvme t op 0 0 0 false (leBytes 4 0) n) s

/-- Connections to the targets of an operation, where none is there. -/
def connectAll (s : State) (ts : List Nat) : State :=
  ts.eraseDups.foldl (fun s t => if hasQp s t then s else connect s t) s

/-- The connection to a target ends, with its Connect. -/
def dropQp (s : State) (t : Nat) : State :=
  { s with
    xpt := { s.xpt with qps := s.xpt.qps.filter fun q => q.tgt != t }
    sto := { s.sto with cmds := s.sto.cmds.filter fun c => !(c.tgt == t && c.use == .connect) } }

/-- The operation that a command serves. -/
def NvUse.opOf : NvUse → Option NvOp
  | .connect => none
  | .load _ => some .load
  | .reload h v _ => some (.reload h v)
  | .slot _ | .table _ | .object _ _ | .write => some .ckpt

/-- Some command of an operation has no completion yet. -/
def opBusy (s : State) (o : NvOp) : Bool := s.sto.cmds.any fun c => c.use.opOf == some o

/-- An operation has ended: its connections have been lost by none (R383). -/
def endOp (s : State) (o : NvOp) : State := { s with sto := { s.sto with lost := s.sto.lost.filter fun x => x != o } }

/-- The commands of an operation are no longer outstanding, and those that wait behind them go on. -/
def dropCmds (s : State) (o : NvOp) : State :=
  let s := { s with sto := { s.sto with
    cmds := s.sto.cmds.filter fun c => c.use.opOf != some o
    lost := s.sto.lost.filter fun x => x != o } }
  (upto 16).foldl pump s

/-- STO.LERR or STO.CERR takes an error (R395). -/
def storeErr (s : State) (reg code tgt status : Nat) : State :=
  wr s reg (BitVec.ofNat 32 (2 ^ 31 + code + tgt % 16 * 2 ^ 8 + status % 2 ^ 15 * 2 ^ 16))

/-- Codes of STO.CERR and STO.LERR (R395). -/
inductive StoErr where
  | unreachable | status | timeout | digest | plan | aborted
deriving DecidableEq, Repr

def StoErr.num : StoErr → Nat
  | .unreachable => 1 | .status => 2 | .timeout => 3 | .digest => 4 | .plan => 5 | .aborted => 6

def rLerr : Nat := 0x8001c
def rCerr : Nat := 0x80018

end Sys2Proof.Machine
end

