-- ==== Sys2Proof/Machine/Versions.lean ====
section
/-! DEFINITION. Weight versions: LOAD, LOCAL, TURN and ABANDON, the digest, the turn point, shadow copies, the reload
of a failed landing's slice, the closing of the crossing (R76 to R97, R387, R388, R416, R567, R597). -/

namespace Sys2Proof.Machine

def rVctl : Nat := 0x40100
def rVstat : Nat := 0x40104
def rVnum : Nat := 0x40108
def rCkevt : Nat := 0x80028

/-- The states of the incoming version (R81). -/
inductive LState where
  | idle | loading | verifying | ready | failed
deriving DecidableEq, Repr

def LState.num : LState → Nat
  | .idle => 0 | .loading => 1 | .verifying => 2 | .ready => 3 | .failed => 4

def lstate (s : State) : Nat := rdFld s rVstat 2 0
def inLstate (s : State) (x : LState) : Bool := lstate s == x.num
def setLstate (s : State) (x : LState) : State := wrFld s rVstat 2 0 x.num

/-- CRS.VCTL.TURN reads 1: a turn is armed. -/
def turnArmed (s : State) : Bool := rdFld s rVctl 17 17 == 1

/-- Reasons of CRS.VSTAT.WHY (R81). -/
inductive VRefusal where
  | turnNotReady | loadBusy | abandonLate | badVersion
deriving DecidableEq, Repr

def VRefusal.num : VRefusal → Nat
  | .turnNotReady => 1 | .loadBusy => 2 | .abandonLate => 3 | .badVersion => 4

/-- A write to CRS.VCTL is refused (R84). -/
def refuseVersion (s : State) (r : VRefusal) : State := setFlag (wrFld s rVstat 8 6 r.num) rVstat 5

/-- The masters that reach the registers of the module: virtual functions do not (R437, R550). -/
def reachesModule : Master → Bool
  | .vf _ _ => false
  | _ => true

/-- An order to CRS.VCTL: INCOMING takes its value, then the order is carried out. -/
def versionOrder (s : State) (m : Master) (incoming : BitVec 16) (f : State → State) : State :=
  if reachesModule m then f (wrFld s rVctl 15 0 incoming.toNat) else s

/-- The refusal of a LOAD or LOCAL (R78, R83, R84, R86). -/
def loadRefusal (s : State) (v : Nat) : Option VRefusal :=
  if (!inLstate s .idle && !inLstate s .failed) || retVer s != 0 then some .loadBusy
  else if v = 0 ∨ v = liveVer s ∨ v = retVer s then some .badVersion
  else none

/-- The incoming areas return to FREE (R388). -/
def freeIncoming (s : State) : State :=
  let s := changeUse s 2 0
  { s with sto := { s.sto with incMap := [], leaves := [] } }

/-- The orders LOAD and LOCAL read 1 no longer. -/
def endLoadOrder (s : State) : State := wrFld (wrFld s rVctl 16 16 0) rVctl 19 19 0

/-- A load or LOCAL fails: LSTATE FAILED, its reason in STO.LERR, the incoming areas freed (R83 step 3b, R86, R387,
R568). -/
def failLoad (s : State) (code : StoErr) (tgt status : Nat) : State :=
  let s := if s.crs.viaLocal then s else setFlag s rCkevt 1
  let s := storeErr (setLstate (endLoadOrder s) .failed) rLerr code.num tgt status
  freeIncoming (dropCmds s .load)

/-- LOAD accepted: plan, slice map and areas are checked before any data moves; then every extent is read (R83 step 1,
R386, R387). -/
def startLoad (s : State) (v : BitVec 16) : State :=
  let s := setFlag (setLstate s .loading) rVctl 16
  let s := { s with crs := { s.crs with incoming := v, viaLocal := false } }
  let m := readSmap s
  let s := m.2
  match readPlan s 0x80000 1 v.toNat, m.1 with
  | some (_, es), some m =>
    match takeAreas s m v.toNat with
    | some t =>
      if !loadPlanOk (imageLen m) es then failLoad s .plan 0 0
      else
        let s := { t with sto := { t.sto with incMap := m, leaves := [] } }
        let s := connectAll s (es.map fun e => e.tgt)
        es.foldl (fun s e => readExtent s e fun o => .load (e.moff + o)) s
    | none => failLoad s .plan 0 0
  | _, _ => failLoad s .plan 0 0

/-- LOAD (R83 step 1, R84). -/
def execLoad (m : Master) (incoming : BitVec 16) (s : State) : Res :=
  .next <| versionOrder s m incoming fun s =>
    match loadRefusal s incoming.toNat with
    | some r => refuseVersion s r
    | none => startLoad s incoming

/-- LOCAL accepted: slice map and areas are checked, and every home must hold its slice; with shadow homing the copies
follow, without it the hashing (R86). A home that is out of the crossing fails the version with PLAN: DESIGN CHOICE
(log 112). -/
def startLocal (s : State) (v : BitVec 16) : State :=
  let s := setFlag (setLstate s .loading) rVctl 19
  let s := { s with crs := { s.crs with incoming := v, viaLocal := true } }
  match readSmap s with
  | (some m, s) =>
    if !((homeSlices s).all fun h => liveLand s h.1) then failLoad s .plan 0 0
    else
      match takeAreas s m v.toNat with
      | none => failLoad s .plan 0 0
      | some s =>
        let s := { s with sto := { s.sto with incMap := m, leaves := [] } }
        if shadowOn s then s else setLstate s .verifying
  | (none, s) => failLoad s .plan 0 0

/-- LOCAL (R84, R86). -/
def execLocalVersion (m : Master) (incoming : BitVec 16) (s : State) : Res :=
  .next <| versionOrder s m incoming fun s =>
    match loadRefusal s incoming.toNat with
    | some r => refuseVersion s r
    | none => startLocal s incoming

/-- The module is the crossing master of an extended crossing (R416). -/
def crossingMaster (s : State) : Bool := (members s).all fun m => s.modnum.toNat ≤ m

/-- 1 ms in TIMECLK. -/
def tick1ms : Nat := 200000

/-- VTURN with a T0 to every module of the crossing (R416). -/
def sendVturn (s : State) (t0 : Dword) : State :=
  let s := { s with crs := { s.crs with turnT0 := t0 }, xpt := { s.xpt with vturnGot := [] } }
  ((members s).filter fun k => k ≠ s.modnum.toNat).foldl
    (fun s k => sendMsg s 7 k [(s.crs.incoming.toNat : Int), (t0.toNat : Int)]) s

/-- TURN (R83 step 4, R84, R416). -/
def execTurn (m : Master) (incoming : BitVec 16) (s : State) : Res :=
  .next <| versionOrder s m incoming fun s =>
    if !inLstate s .ready then refuseVersion s .turnNotReady
    else if turnArmed s then s
    else
      let s := setFlag s rVctl 17
      if s.crs.ext ∧ crossingMaster s then sendVturn s (s.time + BitVec.ofNat 64 tick1ms) else s

/-- ABANDON (R84). -/
def execAbandon (m : Master) (incoming : BitVec 16) (s : State) : Res :=
  .next <| versionOrder s m incoming fun s =>
    if turnArmed s then refuseVersion s .abandonLate
    else if inLstate s .idle then s
    else if inLstate s .failed then setLstate s .idle
    else freeIncoming (dropCmds (setLstate (endLoadOrder s) .idle) .load)

/-! ## The end of a load (R83 steps 2 and 3, R86, R387, R597) -/

/-- LAST_SLICE_WRITTEN: every extent of the load is stored (R83 step 2). -/
def execLastSliceWritten (s : State) : Res :=
  if inLstate s .loading ∧ !s.crs.viaLocal ∧ !opBusy s .load then
    .next (setLstate (endOp s .load) .verifying)
  else .next s

/-- Shadow slices of a version are stored. -/
def shadowsDone (s : State) (v : Nat) : State :=
  { s with
    crs := { s.crs with shadows := s.crs.shadows.map fun x => if x.ver = v then { x with done := true } else x } }

/-- A copy between stacks: from a landing and offset to another, so many bytes. -/
structure Copy where
  land : Nat
  off  : Nat
  dest : Nat
  at'  : Nat
  len  : Nat
deriving DecidableEq, Repr

/-- The copies of LOCAL with shadow homing: each home's incoming slice to its holder's incoming shadow area (R86 step 2). -/
def localCopies (s : State) : List Copy :=
  (s.crs.shadows.filter fun x => x.ver == s.crs.incoming.toNat && !x.done).filterMap fun x =>
    match areaWith s x.home 2 homeAreas, (homeSlices s).find? fun h => h.1 == x.home with
    | some k, some h => some ⟨x.home, areaBase s x.home k, x.land, areaBase s x.land x.k, sliceLen s.sto.incMap h.2⟩
    | _, _ => none

/-- LOCAL_COPY_COMPLETE: the copies are stored; not while a stack that they read or write cannot be reached (R86 step 2,
R367). -/
def execLocalCopyComplete (s : State) : Res :=
  let cs := localCopies s
  if !inLstate s .loading ∨ !s.crs.viaLocal ∨ !(cs.all fun c => copyReach s c.land c.off c.dest c.at' c.len) then .next s
  else
    let s := cs.foldl (fun s c => copyStack s c.land c.off c.dest c.at' c.len) s
    .next (setLstate (shadowsDone s s.crs.incoming.toNat) .verifying)

/-- The expected digest in CRS.VDIG, and a digest written there (R597). -/
def vdig (s : State) : BitVec 384 :=
  BitVec.ofNat 384 ((upto 12).foldl (fun n i => n + (rd s (0x40140 + 4 * i)).toNat * 2 ^ (32 * i)) 0)
def setVdig (s : State) (d : BitVec 384) : State :=
  (upto 12).foldl (fun s i => wr s (0x40140 + 4 * i) (BitVec.ofNat 32 (d.toNat / 2 ^ (32 * i)))) s

/-- The root over leaf digests in ascending number. -/
def rootOf (ds : List (BitVec 384)) : BitVec 384 := merkleRoot ds.length ds

/-- The 1 MB leaves of n bytes. -/
def leavesOf : Nat → List Byte → List (BitVec 384)
  | 0, _ => []
  | n + 1, bs => leafDigest (bs.take (2 ^ 20)) :: leavesOf n (bs.drop (2 ^ 20))

/-- The root over the leaves of an image. -/
def imageRoot (bs : List Byte) : BitVec 384 := rootOf (leavesOf (ceilDiv bs.length (2 ^ 20)) bs)

/-- The incoming version is READY with the root that the module computed for it (R79, R83 step 3a). -/
def versionReady (s : State) (d : BitVec 384) : State := setLstate { s with crs := { s.crs with incDig := d } } .ready

/-- The incoming home areas can be read (R367). -/
def imageReach (s : State) (m : List SExt) : Bool :=
  m.all fun e =>
    match sliceHome s e.slice with
    | some n =>
      match areaWith s n 2 homeAreas with
      | some k => stackReach s n (areaBase s n k + e.pos) e.len
      | none => true
    | none => true

/-- DIGEST_COMPLETE: the root of a load is compared with CRS.VDIG, and a root that differs fails the load with DIGEST; that
of a LOCAL version is written there (R83 step 3, R86 step 4, R387). -/
def execDigestComplete (s : State) : Res :=
  if !inLstate s .verifying then .next s
  else if s.crs.viaLocal then
    if !imageReach s s.sto.incMap then .next s
    else
      let r := imageRead s s.sto.incMap s.crs.incoming
      let d := imageRoot r.1
      .next (versionReady (setVdig (endLoadOrder r.2) d) d)
  else
    let d := rootOf (s.sto.leaves.filterMap fun e => e.2)
    if d = vdig s then
      .next (versionReady (shadowsDone (setFlag (endLoadOrder s) rCkevt 1) s.crs.incoming.toNat) d)
    else .next (setFlag (failLoad s .digest 0 0) rVstat 3)

/-! ## Turn and retirement (R83 steps 5 to 8) -/

/-- Requests pinned to a version (R81). -/
def pinnedTo (s : State) (v : Nat) : Nat :=
  (s.reqs.filter fun r => r.st == .active && r.ver.toNat == v && v != 0).length

/-- The turn point: the live version retires and the incoming one is live (R83 step 5). SVC.CTXMAX follows the live image
(R464; log 18). -/
def turnPoint (s : State) : State :=
  let old := liveVer s
  let s := changeUse (changeUse s 1 3) 2 1
  let s := wr s rVnum (BitVec.ofNat 32 (s.crs.incoming.toNat + old * 2 ^ 16))
  let s := setLstate (wrFld s rVctl 17 17 0) .idle
  let s := wrFld s rVstat 4 4 (b2n (old != 0 && pinnedTo s old != 0))
  let s := wrFld s 0x68404 23 0 (Config.ctxMax s.crs.incDig)
  let s := { s with
    crs := { s.crs with retDig := s.crs.liveDig, liveDig := s.crs.incDig, incDig := 0, turnT0 := 0 }
    sto := { s.sto with retMap := s.sto.liveMap, liveMap := s.sto.incMap, incMap := [], leaves := [] } }
  setFlag s rCrsCause 4

/-- At the end of a lap without pinned requests the retiring version is retired and its areas freed (R83 steps 7 and
8). -/
def retireVersion (s : State) : State :=
  if retVer s ≠ 0 ∧ pinnedTo s (retVer s) = 0 then
    let s := changeUse (wrFld (wrFld s rVnum 31 16 0) rVstat 4 4 0) 3 0
    setFlag { s with crs := { s.crs with retDig := 0 }, sto := { s.sto with retMap := [] } } rCrsCause 5
  else s

/-! ## Shadow copies (R567) -/

/-- The missing shadow slice of home h of the live version is copied into the lower FREE shadow area of its holder that is
large enough, once both stacks can be reached (R567, R367). -/
def copyShadow (s : State) (h slice : Nat) : State :=
  match shadowHolder s h, areaWith s h 1 homeAreas with
  | some x, some k =>
    let n := sliceLen s.sto.liveMap slice
    match shadowAreas.find? fun j => areaUse s x j == 0 && n ≤ areaSize s x j with
    | none => s
    | some j =>
      if !liveLand s h ∨ hasShadow s x h (liveVer s) ∨ !copyReach s h (areaBase s h k) x (areaBase s x j) n then s
      else
        let s := setUse (copyStack s h (areaBase s h k) x (areaBase s x j) n) x j 1
        { s with crs := { s.crs with shadows := s.crs.shadows ++ [⟨x, j, h, liveVer s, true, false⟩] } }
  | _, _ => s

/-- SHADOW_COPY_COMPLETE: every missing shadow slice of the live version is copied from its home. -/
def execShadowCopyComplete (s : State) : Res :=
  if !shadowOn s ∨ liveVer s = 0 then .next s
  else .next ((homeSlices s).foldl (fun s h => copyShadow s h.1 h.2) s)

/-! ## Reload of a failed landing's slice (R94 step 4, R388) -/

/-- The slice map of a version that circulates. -/
def mapOf (s : State) (v : Nat) : List SExt := if v = liveVer s then s.sto.liveMap else s.sto.retMap

/-- The reads of a load plan's extents that hold parts of a slice. -/
def readSlice (s : State) (es : List PlanEntry) (slice home v : Nat) : State :=
  let mine := (mapOf s v).filter fun e => e.slice == slice
  let s := connectAll s (es.map fun e => e.tgt)
  es.foldl (fun s e =>
    (chunks e.blocks).foldl (fun s c =>
      let off := e.moff + 4096 * c.1
      if mine.any fun p => overlaps p.ioff p.len off (4096 * c.2) then
        issueNvme s (.reload home v off) e.tgt 2 e.nsid (e.slba + c.1) c.2 false []
      else s) s) s

/-- The reload of a home's slice of a version starts: its holder's lower FREE shadow area that is large enough, and reads
of the extents of the load plan that hold parts of the slice. The area is LIVE until a rejoin or a release frees it. With
no area or no plan of the version, it fails with PLAN and laps wait (R388). -/
def startReload (s : State) (home v : Nat) : State :=
  let bad := storeErr s rLerr StoErr.plan.num 0 0
  if (s.sto.reloads.any fun r => r.home == home && r.ver == v) then s
  else
    match shadowHolder s home, (homeSlices s).find? fun h => h.1 == home, readPlan s 0x80000 1 v with
    | some x, some h, some (_, es) =>
      match shadowAreas.find? fun j => areaUse s x j == 0 && sliceLen (mapOf s v) h.2 ≤ areaSize s x j with
      | none => bad
      | some j =>
        let s := setUse s x j 1
        readSlice { s with
          crs := { s.crs with shadows := s.crs.shadows ++ [⟨x, j, home, v, false, true⟩] }
          sto := { s.sto with reloads := s.sto.reloads ++ [⟨home, x, j, v⟩] } } es h.2 home v
    | _, _, _ => bad

/-- Shadow areas that a test picks are FREE and hold no slice. -/
def freeShadows (s : State) (p : Shadow → Bool) : State :=
  let s := (s.crs.shadows.filter p).foldl (fun s x => setUse s x.land x.k 0) s
  { s with crs := { s.crs with shadows := s.crs.shadows.filter fun x => !p x } }

/-- Reloads that a test picks end, their commands and areas given up. -/
def dropReloads (s : State) (p : Reload → Bool) : State :=
  let s := (s.sto.reloads.filter p).foldl (fun s r =>
    freeShadows (dropCmds s (.reload r.home r.ver)) fun x => x.land == r.land && x.k == r.k) s
  { s with sto := { s.sto with reloads := s.sto.reloads.filter fun r => !p r } }

/-- A reload fails: its area is FREE again, its reason in STO.LERR, and laps wait (R388, R596). -/
def failReload (s : State) (home ver : Nat) (code : StoErr) (tgt status : Nat) : State :=
  dropReloads (storeErr s rLerr code.num tgt status) fun r => r.home == home && r.ver == ver

/-- SLICE_RELOAD_COMPLETE: a slice of the home is stored, and the holder launches it (R94 step 4). -/
def execSliceReloadComplete (l : Fin 32) (s : State) : Res :=
  let done (r : Reload) : Bool := r.home == l.val && !opBusy s (.reload r.home r.ver)
  if !s.sto.reloads.any done then .next s
  else
    let rs := s.sto.reloads.filter done
    let s := rs.foldl (fun s r => endOp s (.reload r.home r.ver)) s
    let s := { s with
      sto := { s.sto with reloads := s.sto.reloads.filter fun r => !done r }
      crs := { s.crs with shadows := s.crs.shadows.map fun x =>
        if (rs.any fun r => r.land == x.land && r.k == x.k) then { x with done := true } else x } }
    .next (setStandIn s l.val)

/-! ## Closing the crossing (R94, R97, R543) -/

/-- A home that has left the crossing gets a launcher for every version that circulates: its holder at once where that
holds the slice (R94 step 4, R596), else, for a landing that has failed, after a reload (R94 step 4). -/
def giveLauncher (s : State) (home : Nat) (failed : Bool) : State :=
  if liveLand s home then s
  else
    match shadowHolder s home with
    | none => s
    | some x =>
      let vs := [liveVer s, retVer s].filter fun v => v != 0
      let s := if vs.any fun v => hasShadow s x home v then setStandIn s home else s
      vs.foldl (fun s v => if hasShadow s x home v ∨ !failed then s else startReload s home v) s

/-- The crossing is closed around a landing: the lap is abandoned, in training for good, the landing is out, the slots are
owned anew, and its slices find a launcher; before READY that waits (R94 steps 1 to 4, R96, R538). One that has not failed
takes steps 1 to 3 alone, and its holder stands in for it where it holds the slice (R503, R596). The shadow slice is used
only where SHREADY was 1 (R567); what the landing itself held is lost with it. A crossing that cannot be closed opens, and
nothing else follows (R97, R566). -/
def cutLanding (s : State) (l : Nat) (failed : Bool) : State :=
  let ready := shReady s
  let closes := canSpan s l
  let s := endStep (abandonLap s)
  let other := (getLand s l).standFor
  let s := dropReloads s fun r => r.land == l
  let s := setLand s l { getLand s l with out := true, standFor := none }
  let s := freeShadows s fun x => x.land == l || (!ready && x.home == l && circulating s x.ver)
  let s := updHolds (noticeHold (clearCredit s))
  let s := if closes then setFlag s rCrsCause 2 else s
  if !isReady s ∨ !closes then s
  else
    let s := giveLauncher s l failed
    match other with
    | some h => giveLauncher s h (landFailed s h)
    | none => s

/-- The launchers that landings lost before READY are found (R538). -/
def lateLaunchers (s : State) : State :=
  (presentLands s).foldl (fun s h => giveLauncher s h (landFailed s h)) s

end Sys2Proof.Machine
end

