-- ==== Sys2Proof/Machine/Storage.lean ====
section
/-! DEFINITION. The storage initiator's completions, losses and timeouts; checkpoint writes and restores (R383, R387,
R390 to R395). -/

namespace Sys2Proof.Machine

def rCkstat : Nat := 0x80014
def rCkseq : Nat := 0x80020

/-- STO.CKSTAT.STATE (R395). -/
inductive CkState where
  | idle | writing | committing | done | failed | restoring
deriving DecidableEq, Repr

def CkState.num : CkState → Nat
  | .idle => 0 | .writing => 1 | .committing => 2 | .done => 3 | .failed => 4 | .restoring => 5

def setCkState (s : State) (x : CkState) : State := wrFld s rCkstat 2 0 x.num

/-- The refusals of R393. -/
inductive CkRefusal where
  | busy | plan | overlap | noRecord
deriving DecidableEq, Repr

def CkRefusal.num : CkRefusal → Nat
  | .busy => 1 | .plan => 2 | .overlap => 3 | .noRecord => 4

/-- An order is refused: REFUSED and WHY. -/
def refuseCk (s : State) (r : CkRefusal) : State := setFlag (wrFld s rCkstat 11 8 r.num) rCkstat 4

def setCk (s : State) (c : Ckpt) : State := { s with sto := { s.sto with ck := c } }

/-- STO.CKCTL.WRITE, RESTORE and ABORT read 1 no longer: an operation has ended (log 81). -/
def clearCkOrder (s : State) : State := wrFld s 0x80010 2 0 0

/-- The operation's reads of the slots refuse it: STATE is as before the order (R393). -/
def lateRefusal (s : State) (r : CkRefusal) : State :=
  let b := s.sto.ck.before
  clearCkOrder (wrFld (setCk (refuseCk (dropCmds s .ckpt) r) {}) rCkstat 2 0 b)

/-- The operation ends (R568). -/
def endCk (s : State) (x : CkState) : State :=
  setFlag (clearCkOrder (setCkState (setCk (dropCmds s .ckpt) {}) x)) rCkevt 0

/-- The operation fails: STATE FAILED, its reason in STO.CERR (R383, R394, R395). -/
def failCk (s : State) (code : StoErr) (tgt status : Nat) : State :=
  endCk (storeErr s rCerr code.num tgt status) .failed

/-! ## The initiator's way to the stacks (R367, R371) -/

/-- The quay whose far port serves a target. -/
def quayOf (tgt : Nat) : Nat := Config.targetPort tgt % 16 / 4

/-- An open window with QUAY = 1 of the landing admits the quay's RDMA engine to a range of its stacks (R371). -/
def quayAdmits (s : State) (q l off n : Nat) (k : Need) : Bool :=
  (busyWins s l).any fun i => admits s l i 0 off n (.quay s.modnum.toNat q) k

/-- What bars the initiator from a place: the stack cannot be reached, or no window admits the access. -/
def barred (s : State) (q : Nat) (k : Need) (p : Place) : Bool :=
  !stackReach s p.land p.off p.len || !quayAdmits s q p.land p.off p.len k

/-- An operation fails. -/
def failOp (s : State) (o : NvOp) (code : StoErr) (tgt status : Nat) : State :=
  match o with
  | .load => failLoad s code tgt status
  | .reload h v => failReload s h v code tgt status
  | .ckpt => failCk s code tgt status

/-- An access of the initiator to its places in the stacks. A place that bars it is counted where a window refuses it, and
fails the operation with ABORTED: QC.CAUSE.RDMA (R367, R371, R379, R576; log 80). -/
def usePlaces (s : State) (o : NvOp) (tgt : Nat) (k : Need) (ps : List Place) (f : State → State) : State :=
  let q := quayOf tgt
  match ps.find? fun p => barred s q k p with
  | none => f s
  | some p =>
    let s := if stackReach s p.land p.off p.len then countRefusal s p.land false (.quay s.modnum.toNat q) else s
    failOp (setFlag s (rQcause q) 3) o .aborted tgt 0

/-! ## Commit records (R392) -/

/-- The big-endian digest in bytes [i, i + 48). -/
def digField (bs : List Byte) (i : Nat) : BitVec 384 := BitVec.ofNat 384 (beNat ((bs.drop i).take 48))

/-- A signature or public key of 96 bytes, most significant byte first. -/
def sigField (bs : List Byte) (i : Nat) : BitVec 768 := BitVec.ofNat 768 (beNat ((bs.drop i).take 96))

/-- The number of the device key of a module with a serial number (R487; log 11). -/
def deviceKey (serial : Dword) : Nat := serial.toNat

def recSeq (bs : List Byte) : Nat := field bs 8 8
def recSigned (bs : List Byte) : Bool := bit (field bs 26 2) 0
def recSigner (bs : List Byte) : Nat := field bs 288 8

/-- A slot holds a valid record. -/
def recValid (s : State) (bs : List Byte) : Bool :=
  bs.length == 4096 && field bs 0 4 == 0x524b4359 && field bs 4 4 == 1 &&
    digField bs 4048 == sha384 (bs.take 4048) &&
    (!recSigned bs ||
      Config.ecdsaVerify (sigField bs 296) (sha384 (bs.take 192)) (sigField bs 192) &&
        (recSigner bs != s.fuses.serial.toNat ||
          sigField bs 296 == Config.ecdsaPublic (deviceKey s.fuses.serial)))

/-- The newest valid record of the two slots, and whether slot B holds it. -/
def newestRec (s : State) : Option (List Byte × Bool) :=
  let a := s.sto.ck.slotA
  let b := s.sto.ck.slotB
  match recValid s a, recValid s b with
  | true, true => if recSeq a < recSeq b then some (b, true) else some (a, false)
  | true, false => some (a, false)
  | false, true => some (b, true)
  | false, false => none

/-! ## Orders (R390, R393 to R395) -/

/-- The checks on a checkpoint plan's entries: extents of stack memory of live landings, known kinds, targets of the table
(R385, R393). -/
def ckPlanOk (s : State) (es : List PlanEntry) : Bool :=
  es.all fun e => liveLand s e.land && e.moff + 4096 * e.blocks ≤ stackBytes && 1 ≤ e.kind && e.kind ≤ 6 && e.tgt < 16

/-- An operation starts with the reads of both commit slots. -/
def startCk (s : State) (restore : Bool) : State :=
  if s.sto.ck.step ≠ .idle then refuseCk s .busy
  else
    match readPlan s 0x80008 2 0 with
    | none => refuseCk s .plan
    | some (h, es) =>
      if !ckPlanOk s es ∨ 15 < field h 20 1 then refuseCk s .plan
      else
        let c : Ckpt :=
          { step := .slots, restore := restore, sup := rdFld s 0x80010 3 3 == 1, sign := rdFld s 0x80010 4 4 == 1
            before := rdFld s rCkstat 2 0, plan := es, cnsid := field h 16 4, ctgt := field h 20 1
            slbaA := field h 24 8, slbaB := field h 32 8 }
        let s := setFlag (setCk s c) 0x80010 (if restore then 1 else 0)
        let s := setCkState (wrFld s rCkstat 3 3 0) (if restore then .restoring else .writing)
        let s := if restore then
            wrFld (wrFld { s with sto := { s.sto with expand := false } } rCkstat 5 5 0) rCkstat 31 16 0
          else s
        let s := connectAll s (c.ctgt :: es.map fun e => e.tgt)
        [(false, c.slbaA), (true, c.slbaB)].foldl (fun s x => issueNvme s (.slot x.1) c.ctgt 2 c.cnsid x.2 1 false []) s

/-- CHECKPOINT_WRITE (R390, R393). -/
def execCheckpointWrite (m : Master) (s : State) : Res :=
  .next (if reachesModule m then startCk s false else s)

/-- RESTORE (R393, R394). -/
def execRestore (m : Master) (s : State) : Res :=
  .next (if reachesModule m then startCk s true else s)

/-- CHECKPOINT_ABORT: the operation stops, and no record is written (R395). -/
def execCheckpointAbort (m : Master) (s : State) : Res :=
  .next (if reachesModule m ∧ s.sto.ck.step ≠ .idle then failCk s .aborted 0 0 else s)

/-! ## Object tables (R390) -/

/-- The 32 B of a plan entry. -/
def entryBytes (e : PlanEntry) : List Byte :=
  leBytes 8 e.moff ++ leBytes 4 e.blocks ++ leBytes 4 e.nsid ++ leBytes 8 e.slba ++ leBytes 1 e.tgt ++
    leBytes 1 e.land ++ leBytes 1 e.kind ++ leBytes 5 0

/-- An object-table entry of 128 B. -/
def tableEntry (e : PlanEntry) (d : BitVec 384) : List Byte :=
  entryBytes e ++ leBytes 8 (4096 * e.blocks) ++ digBytes d ++ leBytes 40 0

/-- The entries of an object table and their digests. -/
def tableObjects : Nat → List Byte → List (PlanEntry × BitVec 384)
  | 0, _ => []
  | n + 1, bs =>
    (⟨field bs 0 8, field bs 8 4, field bs 12 4, field bs 16 8, field bs 24 1, field bs 25 1, field bs 26 1⟩,
      digField bs 40) :: tableObjects n (bs.drop 128)

/-- Objects of the newest record's table. -/
def recObjects (s : State) (r : List Byte) : List (PlanEntry × BitVec 384) :=
  tableObjects (field r 28 4) s.sto.ck.table

/-- Extents on one namespace of one target share a block. -/
def extentsMeet (a b : PlanEntry) : Bool :=
  a.tgt == b.tgt && a.nsid == b.nsid && overlaps a.slba a.blocks b.slba b.blocks

/-- A commit slot as an extent. -/
def slotExtent (c : Ckpt) (slba : Nat) : PlanEntry := ⟨0, 1, c.cnsid, slba, c.ctgt, 0, 0⟩

/-! ## Steps of a checkpoint write (R390) -/

/-- Objects of the plan that are written: supplements only with SUP (R395). -/
def ckObjects (c : Ckpt) : List PlanEntry := c.plan.filter fun e => e.kind != 2 || c.sup

/-- The places of a plan's object, one for each command that reads it. -/
def objectPlaces (e : PlanEntry) : List Place :=
  (chunks e.blocks).map fun k => ⟨e.land, e.moff + 4096 * k.1, 4096 * k.1, 4096 * k.2⟩

/-- An object is read from the stacks, hashed and written (R390 step 2). -/
def writeObject (s : State) (e : PlanEntry) : State :=
  if s.sto.ck.step = .idle then s
  else usePlaces s .ckpt e.tgt { rd := true } (objectPlaces e) fun s =>
    let d := (stackData s e.land e.moff (4096 * e.blocks)).1
    let s := readLines s e.land e.moff (4096 * e.blocks)
    let c := s.sto.ck
    let s := setCk s { c with table := c.table ++ tableEntry e (sha384 d) }
    (chunks e.blocks).foldl (fun s k =>
      issueNvme s .write e.tgt 1 e.nsid (e.slba + k.1) k.2 false ((d.drop (4096 * k.1)).take (4096 * k.2))) s

/-- Every object is read, hashed and written: READDONE (R390 step 2). -/
def writeObjects (s : State) : State :=
  let c := s.sto.ck
  let s := (ckObjects c).foldl writeObject (setCk s { c with step := .objects, table := [] })
  if s.sto.ck.step = .idle then s else setFlag s rCkstat 3

/-- Flush of every namespace written (R390 steps 3 to 5). -/
def flushAll (s : State) (ns : List (Nat × Nat)) (step : CkStep) : State :=
  ns.eraseDups.foldl (fun s n => issueNvme s .write n.1 0 n.2 0 0 false [])
    (setCk s { s.sto.ck with step := step })

/-- Blocks of an object table. -/
def tableBlocks (t : List Byte) : Nat := ceilDiv t.length 4096

/-- The object table is written to the namespace of the commit slots, at a place that the spec leaves open (R390 step
4; log 15). -/
def writeTable (s : State) : State :=
  let c := s.sto.ck
  let b := Config.tableBlock s.free
  (chunks (tableBlocks c.table)).foldl (fun s k =>
    issueNvme s .write c.ctgt 1 c.cnsid (b + k.1) k.2 false (fitTo 0 (4096 * k.2) (c.table.drop (4096 * k.1))))
    (setCkState { setCk s { c with step := .table, tblock := b } with free := s.free + 1 } .committing)

/-- The program digest of the job that holds the first object's landing (R392, R474). -/
def ckProgram (s : State) : BitVec 384 :=
  match s.sto.ck.plan with
  | [] => 0
  | e :: _ => ((s.hm.jobs.find? fun j => j.num == rdFld s (lcBase e.land + 0xc) 9 0).bind fun j => j.prog).getD 0

/-- The device key signs provenance and commit records (R487). -/
def signsRecords (s : State) : Bool := s.fuses.lcs == 1 || s.fuses.lcs == 2

/-- A commit record: bytes 0 to 191, the signature, the digest of the whole (R392). STEP, which software supplies, has
no place in the spec: a free value (log 16). In a state in which the device key signs none, the record is unsigned (R487). -/
def commitRecord (s : State) : List Byte :=
  let c := s.sto.ck
  let seq := match newestRec s with | some r => recSeq r.1 + 1 | none => 1
  let signed := c.sign && signsRecords s
  let flags := b2n signed + 2 * b2n c.sup + 4 * b2n ((ckObjects c).any fun e => e.kind == 4)
  let body := leBytes 4 0x524b4359 ++ leBytes 4 1 ++ leBytes 8 seq ++ leBytes 8 (Config.freeDword s.free).toNat ++
    leBytes 2 (liveVer s) ++ leBytes 2 flags ++ leBytes 4 (ckObjects c).length ++ digBytes (ckProgram s) ++
    digBytes s.crs.liveDig ++ leBytes 4 c.cnsid ++ leBytes 4 (tableBlocks c.table) ++
    leBytes 8 c.tblock ++ digBytes (sha384 c.table)
  let key := deviceKey s.fuses.serial
  let sign := if signed then beBytes 96 (Config.ecdsaSign key (sha384 body)).toNat ++
      leBytes 8 s.fuses.serial.toNat ++ beBytes 96 (Config.ecdsaPublic key).toNat
    else leBytes 200 0
  let all := fitTo 0 4048 (body ++ sign)
  all ++ digBytes (sha384 all)

/-- The commit record is written with FUA to the slot that does not hold the newest valid record (R390 step 5). -/
def writeRecord (s : State) : State :=
  let c := s.sto.ck
  let toB := match newestRec s with | some r => !r.2 | none => false
  let r := commitRecord s
  let s := { setCk s { c with step := .record, table := r } with free := s.free + 1 }
  issueNvme s .write c.ctgt 1 c.cnsid (if toB then c.slbaB else c.slbaA) 1 true r

/-- The newest record's table is read. -/
def readTable (s : State) (r : List Byte) : State :=
  let c := s.sto.ck
  (chunks (field r 132 4)).foldl (fun s k =>
    issueNvme s (.table (4096 * k.1)) c.ctgt 2 (field r 128 4) (field r 136 8 + k.1) k.2 false [])
    (setCk s { c with step := .oldTable, table := List.replicate (4096 * field r 132 4) 0 })

/-- The overlap check of a checkpoint write, against the newest record's objects and the slots (R393). -/
def afterOldTable (s : State) (old : List PlanEntry) : State :=
  let c := s.sto.ck
  let taken := slotExtent c c.slbaA :: slotExtent c c.slbaB :: old
  if c.plan.any fun e => taken.any fun o => extentsMeet e o then lateRefusal s .overlap
  else writeObjects s

/-! ## Steps of a restore (R394) -/

/-- The objects of a checked table are read. A restore whose table does not match its digest fails with DIGEST; one that
names a place outside stack memory or a live landing is refused (R393). -/
def startObjects (s : State) (r : List Byte) : State :=
  let c := s.sto.ck
  let os := recObjects s r
  if sha384 (c.table.take (128 * field r 28 4)) ≠ digField r 144 then failCk s .digest c.ctgt 0
  else if !ckPlanOk s (os.map fun o => o.1) then lateRefusal s .plan
  else
    let s := connectAll (setCk s { c with step := .objects }) (os.map fun o => o.1.tgt)
    os.zipIdx.foldl (fun s o => readExtent s o.1.1 fun off => .object o.2 off) s

/-- The digest of a restored object, over its bytes as they were read, is checked; one that does not match poisons every
line of the object (R394). -/
def checkObject (s : State) (i : Nat) (e : PlanEntry) (d : BitVec 384) : State :=
  let n := 4096 * e.blocks
  if sha384 (fitTo 0 n (tget [] s.sto.ck.got i)) = d then s
  else
    let s := if stackReach s e.land e.moff n then poisonStack s e.land e.moff n else s
    storeErr (setCk s { s.sto.ck with failed := true }) rCerr StoErr.digest.num e.tgt 0

/-- The restore ends when every object's digest has been checked; with FLAGS.SUPPLEMENT the regions that the program then
restores lossy count (R394). -/
def finishRestore (s : State) (r : List Byte) : State :=
  let s := (recObjects s r).zipIdx.foldl (fun s o => checkObject s o.2 o.1.1 o.1.2) s
  endCk { s with sto := { s.sto with expand := bit (field r 26 2) 1 } } (if s.sto.ck.failed then .failed else .done)

/-! ## Completions (R383, R387, R390, R394) -/

/-- The next step of a checkpoint operation whose commands have all completed. -/
def nextCkStep (s : State) : State :=
  let c := s.sto.ck
  let ns := (ckObjects c).map fun e => (e.tgt, e.nsid)
  match c.step with
  | .idle => s
  | .slots =>
    match newestRec s with
    | none => if c.restore then lateRefusal s .noRecord else afterOldTable s []
    | some (r, _) =>
      let s := wrPair s rCkseq (recSeq r)
      let s := if c.restore ∧ recSigned r ∧ recSigner r ≠ s.fuses.serial.toNat then setFlag s rCkstat 5 else s
      readTable s r
  | .oldTable =>
    match newestRec s with
    | none => s
    | some (r, _) => if c.restore then startObjects s r else afterOldTable s ((recObjects s r).map fun o => o.1)
  | .objects =>
    if c.restore then
      match newestRec s with
      | some (r, _) => finishRestore s r
      | none => s
    else flushAll s ns .flushObjects
  | .flushObjects => writeTable s
  | .table => flushAll s [(c.ctgt, c.cnsid)] .flushTable
  | .flushTable => writeRecord s
  | .record => flushAll s [(c.ctgt, c.cnsid)] .flushRecord
  | .flushRecord => endCk (wrPair s rCkseq (recSeq c.table)) .done

/-- Steps that have no command of their own follow at once. -/
def runCk : Nat → State → State
  | 0, s => s
  | n + 1, s => if s.sto.ck.step = .idle ∨ opBusy s .ckpt then s else runCk n (nextCkStep s)

/-- Bytes put into a list at a place. -/
def putAt (xs : List Byte) (i : Nat) (bs : List Byte) : List Byte := fitTo 0 i xs ++ bs ++ xs.drop (i + bs.length)

/-- The places of bytes at an offset within a command's data, in the stacks. -/
def cmdPlaces (s : State) (u : NvUse) (off n : Nat) : List Place :=
  match u with
  | .load o => imagePlaces s s.sto.incMap 2 s.crs.incoming.toNat none (o + off) n
  | .reload h v o => imagePlaces s (mapOf s v) 1 v (some h) (o + off) n
  | .object i o =>
    match (newestRec s).bind fun r => (recObjects s r.1)[i]? with
    | some (e, _) => [⟨e.land, e.moff + o + off, 0, n⟩]
    | none => []
  | _ => []

/-- Data of a command that goes to the stacks, from an offset within it: RDMA writes through windows with QUAY = 1 (R387,
R394). -/
def storeData (s : State) (c : NvCmd) (off : Nat) (data : List Byte) : State :=
  match c.use.opOf with
  | some o =>
    let ps := cmdPlaces s c.use off data.length
    usePlaces s o c.tgt { wr := true } ps fun s => putPlaces s ps data
  | none => s

/-- What the module keeps of a completed command's data: digests of leaves, slots, tables, restored objects. -/
def keepData (s : State) (c : NvCmd) (bs : List Byte) : State :=
  let ck := s.sto.ck
  match c.use with
  | .load off =>
    let bs := bs.take (imageLen s.sto.incMap - off)
    { s with sto := { s.sto with leaves := tput none (off / 2 ^ 20) (some (leafDigest bs)) s.sto.leaves } }
  | .slot b => setCk s (if b then { ck with slotB := bs } else { ck with slotA := bs })
  | .table off => setCk s { ck with table := putAt ck.table off bs }
  | .object i off => setCk s { ck with got := tput [] i (putAt (tget [] ck.got i) off bs) ck.got }
  | _ => s

/-- The operations that a target serves: those with a command there, and a checkpoint whose plan names it (R382, R383). -/
def opsAt (s : State) (t : Nat) : List NvOp :=
  let c := s.sto.ck
  let named := c.step ≠ .idle ∧ (c.ctgt = t ∨ !c.restore ∧ (ckObjects c).any fun e => e.tgt == t)
  ((if named then [NvOp.ckpt] else []) ++
    (s.sto.cmds.filter fun c => c.tgt == t).filterMap fun c => c.use.opOf).eraseDups

/-- QC.CAUSE.RDMA of the quay that serves a target: an operation completed with an error (R576). -/
def rdmaError (s : State) (t : Nat) : State := setFlag s (rQcause (quayOf t)) 3

/-- A target that cannot be reached: every operation that names it fails with TGT_UNREACHABLE (R382). -/
def targetLost (s : State) (t : Nat) : State :=
  (opsAt s t).foldl (fun s o => failOp s o .unreachable t 0) (dropQp (rdmaError s t) t)

/-- A command completes with success: its data is used, the commands that wait for its target go on, and a checkpoint's
next step follows once the step's commands have all completed. -/
def commandDone (s : State) (c : NvCmd) (data : List Byte) : State :=
  let s := pump { s with sto := { s.sto with cmds := s.sto.cmds.filter fun d => d.id ≠ c.id } } c.tgt
  if c.op ≠ 2 then if c.use.opOf = some .ckpt then runCk 8 s else s
  else
    let bs := fitTo 0 (4096 * c.blocks) data
    let s := storeData (keepData s c bs) c 0 bs
    if c.use.opOf = some .ckpt then runCk 8 s else s

/-- NVME_COMPLETION: a target that refuses the Connect is unreachable; another error status fails the operation with
NVME_STATUS (R382, R383). -/
def execNvmeCompletion (cmd : Nat) (status : BitVec 15) (data : List Byte) (s : State) : Res :=
  match s.sto.cmds.find? fun c => c.id == cmd && c.sent with
  | none => .next s
  | some c =>
    match c.use.opOf with
    | none => .next (if status = 0 then commandDone s c [] else targetLost s c.tgt)
    | some o =>
      .next (if status = 0 then commandDone s c data else failOp (rdmaError s c.tgt) o .status c.tgt status.toNat)

/-- An operation at a target whose connection is lost: it goes on over the new connection, once; a second loss fails it with
TGT_UNREACHABLE (R382, R383). -/
def loseOp (s : State) (t : Nat) (o : NvOp) : State :=
  if s.sto.lost.contains o then failOp s o .unreachable t 0
  else { s with sto := { s.sto with lost := s.sto.lost ++ [o] } }

/-- The connection to a target is lost: the initiator reconnects for the operations that go on, and every outstanding command
is issued again (R383). -/
def loseConnection (s : State) (t : Nat) : State :=
  if !hasQp s t then s
  else
    let os := opsAt s t
    let s := os.foldl (fun s o => loseOp s t o) (dropQp s t)
    let s := { s with sto := { s.sto with
      cmds := s.sto.cmds.map fun c => if c.tgt = t then { c with sent := false } else c } }
    if (opsAt s t).isEmpty then s else connect s t

/-- CONNECTION_LOSS: the initiator reconnects (R383). A target to which no new connection can be made is unreachable
(R382). -/
def execConnectionLoss (tgt : Fin 16) (reconnected : Bool) (s : State) : Res :=
  let t := tgt.val
  if !hasQp s t then .next s
  else if !reconnected then .next (targetLost s t)
  else .next (loseConnection (if (opsAt s t).isEmpty then s else rdmaError s t) t)

/-- NVME_TIMEOUT: a command that has been sent has no completion after 30 s: its operation fails with TIMEOUT; a target
that does not answer the Connect is unreachable (R382, R383). -/
def execNvmeTimeout (cmd : Nat) (s : State) : Res :=
  match s.sto.cmds.find? fun c => c.id == cmd && c.sent with
  | none => .next s
  | some c =>
    match c.use.opOf with
    | none => .next (targetLost s c.tgt)
    | some o => .next (failOp (rdmaError s c.tgt) o .timeout c.tgt 0)

end Sys2Proof.Machine
end

