-- ==== Sys2Proof/Machine/Service.lean ====
section
/-! DEFINITION. Queue sets: entries, requests, result records, doorbells, resets and the coalescing of results; admission,
placement, the draw of tokens and the closing of requests (R440, R445 to R464, R493 to R496, R561 to R563). -/

namespace Sys2Proof.Machine

/-! ## PCIe functions that own queue sets (R435 to R437, R440) -/

def getPcie (s : State) (p : Nat) : PciePort := tget {} s.pcie p
def setPcie (s : State) (p : Nat) (x : PciePort) : State := { s with pcie := tput {} p x s.pcie }

/-- A configuration word of a function, as far as software has written it. -/
def cfgWord (s : State) (p fn o : Nat) : Word := tget 0 (getPcie s p).cfg (4096 * fn + o)

/-- Offset of the power management capability; its PowerState lies at + 0x04 (log 19). -/
def oPm : Nat := 0x40

/-- The function is in D3hot (R434). -/
def inD3 (s : State) (p fn : Nat) : Bool := wfld (cfgWord s p fn (oPm + 4)) 1 0 == 3

/-- Bus Master Enable, bit 2 of the Command register of PCI, in D0. -/
def busMaster (s : State) (p fn : Nat) : Bool :=
  (getPcie s p).up && wfld (cfgWord s p fn 0x04) 2 2 == 1 && !inD3 s p fn

/-- Offset of the SR-IOV capability; its Control register lies at + 0x08, NumVFs at + 0x10 (log 19). -/
def oSriov : Nat := 0x160

/-- Virtual function fn, 1 to 32, of a port is enabled. -/
def vfEnabled (s : State) (p fn : Nat) : Bool :=
  wfld (cfgWord s p 0 (oSriov + 8)) 0 0 == 1 && 1 ≤ fn && fn ≤ min 32 (wfld (cfgWord s p 0 (oSriov + 0x10)) 15 0)

/-- Port and function that own queue set q: its virtual function where it is bound, else the physical one (R437). -/
def qsPort (q : Nat) : Nat := q / 32
def qsBound (s : State) (q : Nat) : Bool := vfEnabled s (qsPort q) (q % 32 + 1)
def qsFn (s : State) (q : Nat) : Nat := if qsBound s q then q % 32 + 1 else 0

/-- DMA for a queue set may take place (R440). -/
def dmaOk (s : State) (q : Nat) : Bool := busMaster s (qsPort q) (qsFn s q)

/-! ## Registers of a queue set (R456, R563) -/

def rQs (q o : Nat) : Nat := 0x60000 + 0x200 * q + o
def getQs (s : State) (q : Nat) : QSet := tget {} s.qsets q
def setQs (s : State) (q : Nat) (x : QSet) : State := { s with qsets := tput {} q x s.qsets }

def qsEn (s : State) (q : Nat) : Bool := rdFld s (rQs q 0) 0 0 == 1
def qsRmode (s : State) (q : Nat) : Bool := rdFld s (rQs q 0) 1 1 == 1
def qsJob (s : State) (q : Nat) : BitVec 16 := BitVec.ofNat 16 (rdFld s (rQs q 0x34) 15 0)

/-- Depth of the ring of results: the board's 1,024 slots, or the result queue (R450, R454). -/
def qsDepth (s : State) (q : Nat) : Nat := if qsRmode s q then 2 ^ rdFld s (rQs q 0) 19 16 else 1024

/-- Records posted and not consumed. -/
def qsOpen (s : State) (q : Nat) : Nat := (rd s (rQs q 0x24) - rd s (rQs q 0x20)).toNat

/-- What a master may write of a queue set: nothing, RESET only, or all (R437, R456). -/
inductive QAccess where
  | none | reset | all
deriving DecidableEq, Repr

def qsAccess (s : State) (m : Master) (q : Nat) : QAccess :=
  match m with
  | .bmc => .none
  | .pf _ => if qsBound s q then .reset else .all
  | .vf p i => if 32 * p.val + i.val = q ∧ qsBound s q then .all else .none
  | _ => .all

/-! ## Records (R449 to R454) -/

/-- Fields of a request entry (R446). -/
def reqFlag (raw : List Byte) (i : Nat) : Bool := bit (field raw 1 1) i
def reqId (raw : List Byte) : Nat := field raw 4 4
def reqIn (raw : List Byte) : Nat := field raw 16 4
def reqMax (raw : List Byte) : Nat := field raw 20 4
def reqReport (raw : List Byte) : Nat := field raw 2 2

/-- Token IDs as INT32, in order. -/
def tokBytes (ts : List Word) : List Byte := ts.flatMap fun t => leBytes 4 t.toNat

/-- A record's bytes, PHASE and TIME zero, and the write of its tokens that are not inline (R449). -/
def recordOf (raw : List Byte) (state err flags pos : Nat) (toks : List Word) (prov : Nat) : HeldRec :=
  let inl := decide (toks.length ≤ 6) && !reqFlag raw 2
  let addr := field raw 48 8 + 4 * (pos - reqIn raw)
  let body := if inl then fitTo 0 24 (tokBytes toks) else leBytes 8 addr ++ leBytes 16 0
  { rseq := 0
    bytes := [BitVec.ofNat 8 state, 0] ++ leBytes 2 toks.length ++ leBytes 4 (reqId raw) ++ leBytes 8 0 ++
      leBytes 2 (flags + b2n inl) ++ leBytes 2 err ++ leBytes 4 pos ++ body ++ leBytes 8 prov ++ leBytes 8 0
    writes := if inl ∨ toks = [] then [] else [(BitVec.ofNat 64 addr, tokBytes toks)] }

/-- A record with its RSEQ, PHASE and TIME. -/
def stampRec (r : HeldRec) (phase : Bool) (t : Dword) : List Byte :=
  r.bytes.take 1 ++ [BitVec.ofNat 8 (b2n phase)] ++ (r.bytes.drop 2).take 6 ++ leBytes 8 r.rseq ++
    (r.bytes.drop 16).take 40 ++ leBytes 8 t.toNat

/-- A write to host memory by the owner of a queue set. -/
def hostWrite (s : State) (q : Nat) (w : Dword × List Byte) : State := emit s (.host (qsPort q) w.1 w.2)

/-- A read of host memory by the owner of a queue set (R440). -/
def hostRead (s : State) (q : Nat) (addr : Dword) (len : Nat) : State := emit s (.hostRead (qsPort q) addr len)

/-- U counts a posted record, and PEND rises when U reaches QS.COAL.COUNT, 0 taken as 1 (R561). -/
def coalesce (s : State) (q : Nat) : State :=
  let x := getQs s q
  let s := setQs s q { x with fresh := x.fresh + 1, first := if x.fresh = 0 then s.time else x.first }
  if max 1 (rdFld s (rQs q 0x38) 7 0) ≤ x.fresh + 1 then wrFld s (rQs q 0x3c) 2 2 1 else s

/-- PEND clears and U is zero (R561). -/
def clearPend (s : State) (q : Nat) : State := setQs (wrFld s (rQs q 0x3c) 2 2 0) q { getQs s q with fresh := 0 }

/-- A record is posted: what goes before it, then the record, to the board or to the result queue, bytes 8 to 63 first
(R450, R453). PHASE is stated for a result queue alone; on the board it is a free value (log 1). -/
def postNow (s : State) (q : Nat) (r : HeldRec) : State :=
  let ws := r.writes ++ (match r.prov with | some p => [p] | none => [])
  let s := ws.foldl (fun s w => hostWrite s q w) s
  let s :=
    if qsRmode s q then
      let n := 2 ^ rdFld s (rQs q 0) 19 16
      let bs := stampRec r ((r.rseq - 1) / n % 2 == 0) s.time
      let a := BitVec.ofNat 64 (rdPair s (rQs q 0x10) + 64 * ((r.rseq - 1) % n))
      hostWrite (hostWrite s q (a + 8, bs.drop 8)) q (a, bs.take 8)
    else
      let x := getQs s q
      let bs := stampRec r (Config.freeBool s.free) s.time
      setQs { s with free := s.free + 1 } q { x with board := tput [] ((r.rseq - 1) % 1024) bs x.board }
  coalesce (wr s (rQs q 0x24) (rd s (rQs q 0x24) + 1)) q

/-- A record may be posted now: the queue set enabled and in no reset, room, no halt, its signature made, DMA possible where it
takes DMA. -/
def canPost (s : State) (q : Nat) (r : HeldRec) : Bool :=
  qsEn s q && !(getQs s q).resetting && decide (qsOpen s q < qsDepth s q) && !(getQs s q).halted && !r.unsigned &&
    (dmaOk s q || !qsRmode s q && r.writes.isEmpty && r.prov.isNone)

/-- A new record takes the next RSEQ; it is posted, or waits in quay SRAM behind those that wait (R450, R454). While a
reset of the queue set is pending it is discarded (R455). -/
def addRec (s : State) (q : Nat) (r : HeldRec) : State :=
  let x := getQs s q
  if x.resetting then s
  else
    let r := { r with rseq := x.rseq }
    let s := setQs s q { x with rseq := x.rseq + 1 }
    if x.held.isEmpty ∧ canPost s q r then postNow s q r
    else
      let s := if x.held.isEmpty then setFlag s (rQs q 0x28) 3 else s
      setQs s q { getQs s q with held := x.held ++ [r] }

/-! ## Provenance records (R493 to R495) -/

def findJob (s : State) (n : Nat) : Option Job := s.hm.jobs.find? fun j => j.num == n

/-- JOBNUM and TENANT of a tenancy ID (R481). -/
def idJob (t : BitVec 16) : Nat := t.toNat / 64
def idTenant (t : BitVec 16) : Nat := t.toNat % 64

/-- Every landing of a job is sealed (R474). -/
def jobSealed (j : Job) : Bool := j.prog.isSome && !j.lands.isEmpty && j.lands.all fun l => j.sealed.contains l

/-- Offset extents of a tenancy ID, none for a tenant without offsets. -/
def offsetsOf (s : State) (t : BitVec 16) : List Extent :=
  match (findJob s (idJob t)).bind fun j => j.tenants.find? fun x => x.id == t with
  | some x => x.extents
  | none => []

/-- The offset bytes of a tenant for a version, extent by extent; an extent may hold none (R74, R494). -/
def offsetParts (s : State) (t v : BitVec 16) : List (List Byte) :=
  (offsetsOf s t).filterMap fun e => Config.offsetPart (getBytes s (stackKey e.land e.off) e.len) v

/-- OFFDIG: the digest of the tenant's offset bytes for a version, in the order of its extents; zero without offsets. -/
def offsetDigest (s : State) (t v : BitVec 16) : BitVec 384 :=
  if (offsetsOf s t).isEmpty then 0 else sha384 (offsetParts s t v).flatten

/-- Digest of a version that the module holds. -/
def verDigest (s : State) (v : BitVec 16) : BitVec 384 :=
  if v.toNat = liveVer s then s.crs.liveDig else if v.toNat = retVer s then s.crs.retDig else 0

/-- The provenance record of a request that closes; the signature is still zero (R493, R494). -/
def provRecord (s : State) (r : Req) (cancelled : Bool) : List Byte :=
  let sign := reqFlag r.raw 1
  let noOff := (offsetsOf s r.tenant).isEmpty
  let prog := match findJob s (idJob r.tenant) with | some j => if jobSealed j then j.prog.getD 0 else 0 | none => 0
  let inDig := sha384 ((r.raw.drop 16).take 32 ++ tokBytes r.input)
  let outDig := sha384 (tokBytes r.toks ++
    if r.poisoned then [0x50, 0x4f, 0x49, 0x53, 0x4f, 0x4e, 0x45, 0x44] else [])
  let digs := digBytes prog ++ digBytes (verDigest s r.ver) ++ digBytes r.offDig ++ digBytes inDig ++ digBytes outDig
  let flags := b2n sign + 2 * b2n r.poisoned + 4 * b2n r.replayed + 8 * b2n cancelled + 16 * b2n noOff +
    32 * b2n r.readmitted
  [0x59, 0x50, 0x52, 0x56] ++ leBytes 2 1 ++ leBytes 2 flags ++ leBytes 4 (reqId r.raw) ++ leBytes 2 r.q ++
    leBytes 2 r.tenant.toNat ++ leBytes 2 r.ver.toNat ++ leBytes 2 s.modnum.toNat ++ leBytes 4 r.toks.length ++
    leBytes 8 s.time.toNat ++ digs ++ digBytes (sha384 digs) ++ leBytes 128 0

/-! ## Requests that end (R455, R460) -/

/-- Every request changed. -/
def mapReqs (s : State) (f : Req → Req) : State := { s with reqs := s.reqs.map f }

/-- The active requests at a landing. -/
def reqsAt (s : State) (l : Nat) : List Req := s.reqs.filter fun r => r.st == .active && r.land == l && !r.lost

/-- Bit of LC.TGMASK of a token group for a version: the live half, or the retiring half (R122). -/
def maskBit (s : State) (v : BitVec 16) (g : Nat) : Nat := if v.toNat = liveVer s then g else 16 + g

/-- Purser firmware sets a bit of LC.TGMASK where some request that is not paused takes the token group (R122, R458). -/
def updMask (s : State) (l : Nat) (v : BitVec 16) (g : Nat) : State :=
  let b := (reqsAt s l).any fun r => r.ver == v && r.tg == g && !r.paused
  let i := maskBit s v g
  wrFld s (lcBase l + 0x8c) i i (b2n b)

/-- A request leaves the module: its token group and its KV pages are free. -/
def dropReq (s : State) (r : Req) : State :=
  let s := { s with reqs := s.reqs.filter fun x => x.uid ≠ r.uid }
  if r.st = .active ∧ !r.lost then updMask s r.land r.ver r.tg else s

/-- Sticky flags of a request's records (R462). -/
def stickyFlags (r : Req) : Nat := 2 * b2n r.poisoned + 4 * b2n r.replayed + 64 * b2n r.readmitted

/-- The states of a record (R449). -/
def sPartial : Nat := 2
def sFinal : Nat := 3
def sFailed : Nat := 4
def sCancelled : Nat := 5

/-- A request closes: its closing record carries the tokens that no earlier record carried; a FINAL or CANCELLED record
follows the provenance record that PROV asks for, and its signature where SIGN is set (R449, R460, R496). -/
def closeReq (s : State) (r : Req) (state err flags : Nat) : State :=
  let prov := reqFlag r.raw 0 && (state == sFinal || state == sCancelled)
  let addr := field r.raw 56 8
  let x := recordOf r.raw state err (flags + stickyFlags r + 32 * b2n prov) (reqIn r.raw + r.posted)
    (r.toks.drop r.posted) (if prov then addr else 0)
  let x := if prov then
      { x with prov := some (BitVec.ofNat 64 addr, provRecord s r (state == sCancelled)), unsigned := reqFlag r.raw 1 }
    else x
  addRec (dropReq s r) r.q x

/-- A FAILED record for an entry that is not admitted (R445, R447). -/
def failEntry (s : State) (q : Nat) (raw : List Byte) (err : Nat) : State :=
  addRec s q (recordOf raw sFailed err 0 (reqIn raw) [] 0)

/-! ## Resets of a queue set (R455) -/

/-- Steps 2 to 5 of a reset, once its requests have ended. -/
def finishQsReset (s : State) (q : Nat) : State :=
  let s := setQs s q {}
  let s := wr (wr (wr (wr s (rQs q 0x18) 0) (rQs q 0x1c) 0) (rQs q 0x20) 0) (rQs q 0x24) 0
  let s := wrFld (wrFld s (rQs q 0x28) 2 2 0) (rQs q 0) 2 2 0
  clearPend s q

/-- Every request of a queue set ends without a record. -/
def endRequests (s : State) (q : Nat) : State :=
  (s.reqs.filter fun r => r.q == q).foldl (fun s r => dropReq s r) s

/-- A reset of a queue set: its waiting requests end at once, those of the batch at the lap boundary (R455). -/
def resetQs (s : State) (q : Nat) : State :=
  let s := setQs (wrFld s (rQs q 0) 2 2 1) q { getQs s q with resetting := true, entries := [] }
  let s := (s.reqs.filter fun r => r.q == q && r.st == .waiting).foldl (fun s r => dropReq s r) s
  if s.crs.inLap ∧ s.reqs.any (fun r => r.q == q) then s else finishQsReset (endRequests s q) q

/-- HELD_RECORD_POST: the first waiting record is posted once it may be; the reset of a kill follows the last one (R454, R484,
R496). -/
def execHeldRecordPost (q : Fin 64) (s : State) : Res :=
  match (getQs s q.val).held with
  | [] => .next s
  | r :: rest =>
    if canPost s q.val r then
      let s := postNow (setQs s q.val { getQs s q.val with held := rest }) q.val r
      .next (if rest.isEmpty ∧ (getQs s q.val).closing then resetQs s q.val else s)
    else .next s

/-- Queue sets whose reset waits for the lap boundary end it there. -/
def lapResets (s : State) : State :=
  (upto 64).foldl (fun s q => if (getQs s q).resetting then finishQsReset (endRequests s q) q else s) s

/-- A write of QS.CTL (R455, R456). -/
def writeQsCtl (s : State) (m : Master) (q : Nat) (v : Word) : State :=
  let o := rQs q 0
  match qsAccess s m q with
  | .none => s
  | .reset => if wfld v 2 2 = 1 then resetQs s q else s
  | .all =>
    let s := if qsEn s q then s
      else wrFld (wrFld (wrFld s o 1 1 (wfld v 1 1)) o 11 8 (wfld v 11 8)) o 19 16 (wfld v 19 16)
    let s := if qsEn s q then s else setQs s q { getQs s q with fresh := 0 }
    let s := wrFld s o 0 0 (wfld v 0 0)
    if wfld v 0 0 = 0 ∨ wfld v 2 2 = 1 then resetQs s q else s

/-- QUEUE_SET_ENABLE: a write of QS.CTL. -/
def execQueueSetEnable (m : Master) (q : Fin 64) (v : Word) (s : State) : Res := .next (writeQsCtl s m q.val v)

/-- QUEUE_SET_RESET: a write of QS.CTL (R455). -/
def execQueueSetReset (m : Master) (q : Fin 64) (v : Word) (s : State) : Res := .next (writeQsCtl s m q.val v)

/-! ## Doorbells (R448, R452) -/

/-- REQUEST_DOORBELL: a write of QS.RQTAIL. -/
def execRequestDoorbell (m : Master) (q : Fin 64) (t : Word) (s : State) : Res :=
  let o := rQs q.val 0x18
  if qsAccess s m q.val ≠ .all then .next s
  else if (t - rd s (o + 4)).toNat ≤ 2 ^ rdFld s (rQs q.val 0) 11 8 then .next (wr s o t)
  else .next (setFlag s (rQs q.val 0x28) 0)

/-- The slots of the records below h are released. -/
def releaseRecs (s : State) (q : Nat) (h : Word) : State :=
  let x := getQs s q
  let from' := (rd s (rQs q 0x20)).toNat
  let n := (h - rd s (rQs q 0x20)).toNat
  let gone (k : Nat) : Bool := decide (1024 ≤ n) || decide ((k + 1024 - from' % 1024) % 1024 < n)
  wr (setQs s q { x with board := x.board.filter fun e => !gone e.1 }) (rQs q 0x20) h

/-- RESULT_DOORBELL: a write of QS.RHEAD; one that reaches RTAIL clears PEND (R452, R561). -/
def execResultDoorbell (m : Master) (q : Fin 64) (h : Word) (s : State) : Res :=
  let o := rQs q.val 0x20
  if qsAccess s m q.val ≠ .all then .next s
  else if (h - rd s o).toNat ≤ qsOpen s q.val then
    let s := releaseRecs s q.val h
    .next (if h = rd s (rQs q.val 0x24) then clearPend s q.val else s)
  else .next (setFlag s (rQs q.val 0x28) 1)

/-! ## Coalescing (R561 to R563) -/

/-- COALESCE_TIMER: QS.COAL.TIMER µs have passed since the first of U records (R561). -/
def execCoalesceTimer (q : Fin 64) (s : State) : Res :=
  let x := getQs s q.val
  let t := rdFld s (rQs q.val 0x38) 23 8
  .next (if t ≠ 0 ∧ 1 ≤ x.fresh ∧ x.first.toNat + 200 * t ≤ s.time.toNat then wrFld s (rQs q.val 0x3c) 2 2 1 else s)

/-- A write of QS.IRQ: ENREC and ENCAUSE, PEND cleared by 1, EOI sets the armed flag (R561 to R563). -/
def writeQsIrq (s : State) (m : Master) (q : Nat) (v : Word) : State :=
  if qsAccess s m q = .all then
    let s := wrFld s (rQs q 0x3c) 1 0 (wfld v 1 0)
    let s := if wfld v 2 2 = 1 then clearPend s q else s
    if wfld v 3 3 = 1 then wrFld s (rQs q 0x3c) 4 4 1 else s
  else s

/-- PEND_CLEAR: a write of QS.IRQ. -/
def execPendClear (m : Master) (q : Fin 64) (v : Word) (s : State) : Res := .next (writeQsIrq s m q.val v)

/-- QS_EOI: a write of QS.IRQ. -/
def execQsEoi (m : Master) (q : Fin 64) (v : Word) (s : State) : Res := .next (writeQsIrq s m q.val v)

/-! ## Entries (R446 to R448, R457) -/

/-- Entries of a queue set wait in its ring, and it may fetch them (R448, R457, R531). -/
def mayFetch (s : State) (q : Nat) : Bool :=
  let x := getQs s q
  qsEn s q && !x.halted && !x.resetting && !x.closing && dmaOk s q && isReady s && rd s (rQs q 0x18) != rd s (rQs q 0x1c)

/-- The queue set whose turn it is to have entries fetched, after the one visited last. -/
def fetchTurn (s : State) : Option Nat := ((upto 64).map fun i => (s.fetched + 1 + i) % 64).find? fun q => mayFetch s q

/-- Address of entry i of a request ring (R448). -/
def entryAddr (s : State) (q i : Nat) : Dword :=
  BitVec.ofNat 64 (rdPair s (rQs q 8) + 64 * (i % 2 ^ rdFld s (rQs q 0) 11 8))

/-- ENTRY_FETCH: the queue set whose turn it is has up to 32 entries read from its ring and copied, in order (R448,
R457). -/
def execEntryFetch (q : Fin 64) (entries : List (List Byte)) (s : State) : Res :=
  let x := getQs s q.val
  let o := rQs q.val 0x18
  let head := (rd s (o + 4)).toNat
  let n := min (min 32 entries.length) (rd s o - rd s (o + 4)).toNat
  if fetchTurn s ≠ some q.val then .next s
  else
    let s := (upto n).foldl (fun s i => hostRead s q.val (entryAddr s q.val (head + i)) 64) { s with fetched := q.val }
    let new := (entries.take n).map fun e => (s.time, fitTo 0 64 e)
    .next (wr (setQs s q.val { x with entries := x.entries ++ new }) (o + 4) (rd s (o + 4) + BitVec.ofNat 32 n))

/-- The next entry of a queue set with a test on its OPC, taken up. -/
def takeEntry (s : State) (q : Nat) (p : Nat → Bool) : Option (Dword × List Byte × State) :=
  let x := getQs s q
  match x.entries with
  | [] => none
  | e :: rest =>
    if x.halted ∨ x.resetting ∨ !p (field e.2 0 1) then none
    else some (e.1, e.2, setQs s q { x with entries := rest })

/-- NOP: consumed without effect (R446). -/
def execNop (q : Fin 64) (s : State) : Res :=
  match takeEntry s q.val fun n => n == 0 with
  | some (_, _, s) => .next s
  | none => .next s

/-- RESERVED_REQUEST_OPCODE: FAILED with BADREQ (R447). -/
def execReservedRequestOpcode (q : Fin 64) (s : State) : Res :=
  match takeEntry s q.val fun n => 3 ≤ n with
  | some (_, e, s) => .next (failEntry s q.val e 1)
  | none => .next s

/-- A finite FP32 code, its value above 0, and at most 1. -/
def fpFinite (c : Nat) : Bool := bits c 30 23 != 255
def fpPositive (c : Nat) : Bool := fpFinite c && !bit c 31 && c != 0

/-- Every field of a GENERATE entry is in range (R446). -/
def reqOk (s : State) (raw : List Byte) : Bool :=
  let temp := field raw 32 4
  let topp := field raw 36 4
  let n := reqIn raw
  let ctx := rdFld s 0x68404 23 0
  field raw 1 1 < 8 && field raw 8 8 % 4 == 0 && 1 ≤ n && n + 1 ≤ ctx && 1 ≤ reqMax raw && n + reqMax raw ≤ ctx &&
    (bits temp 30 0 == 0 || fpPositive temp) && fpPositive topp && topp ≤ 0x3f800000 &&
    1 ≤ field raw 40 1 && field raw 40 1 ≤ 64 && field raw 41 3 == 0 &&
    field raw 48 8 != 0 && field raw 48 8 % 4 == 0 && field raw 56 8 % 64 == 0 &&
    (reqFlag raw 0 || field raw 56 8 == 0)

/-- GENERATE: an entry in range joins its queue set's waiting list with the input tokens, which are read from INADDR in host
memory once DMA may take place; any other fails with BADREQ, as every one does while QS.TENANT.JOB is 0 (R440, R445, R447,
R457). -/
def execGenerate (q : Fin 64) (input : List Word) (s : State) : Res :=
  match takeEntry s q.val fun n => n == 1 with
  | none => .next s
  | some (t, e, u) =>
    if qsJob u q.val = 0 ∨ !reqOk u e then .next (failEntry u q.val e 1)
    else if !dmaOk s q.val then .next s
    else
      let u := hostRead u q.val (BitVec.ofNat 64 (field e 8 8)) (4 * reqIn e)
      let r : Req :=
        { uid := u.nextReq, q := q.val, tenant := qsJob u q.val, raw := e, input := fitTo 0 (reqIn e) input, copied := t }
      .next { u with reqs := u.reqs ++ [r], nextReq := u.nextReq + 1 }

/-- CANCEL: waiting requests with the REQID close as CANCELLED at once, active ones at the end of a lap whose T0 is
later; NOTFOUND where there is none, BADREQ where another field is not zero (R446, R447, R460). -/
def execCancel (q : Fin 64) (s : State) : Res :=
  match takeEntry s q.val fun n => n == 2 with
  | none => .next s
  | some (t, e, s) =>
    let hit (r : Req) : Bool := r.q == q.val && reqId r.raw == reqId e
    if field e 1 3 ≠ 0 ∨ field e 8 56 ≠ 0 then .next (failEntry s q.val e 1)
    else if !(s.reqs.any hit) then .next (failEntry s q.val e 7)
    else
      let s := mapReqs s fun r => if hit r ∧ r.cancel = none then { r with cancel := some t } else r
      .next ((s.reqs.filter fun r => hit r && r.st == .waiting).foldl (fun s r => closeReq s r sCancelled 0 0) s)

/-- NO_VERSION_TIMEOUT: with no live version, a request at the head of its waiting list, copied 60 s ago or more, fails with
NO_VERSION (R457). -/
def execNoVersionTimeout (q : Fin 64) (s : State) : Res :=
  match s.reqs.find? fun r => r.q == q.val && r.st == .waiting with
  | some r =>
    .next (if liveVer s = 0 ∧ r.copied.toNat + 60000 * tick1ms ≤ s.time.toNat then closeReq s r sFailed 3 0 else s)
  | none => .next s

/-- HOST_DMA_COMPLETION: a DMA request that completes with an error fails the request that it served with ERR DMA and
halts the queue set until its reset (R440). -/
def execHostDmaCompletion (q : Fin 64) (uid : Option Nat) (error : Bool) (s : State) : Res :=
  if !error then .next s
  else
    let s := match uid.bind fun u => s.reqs.find? fun r => r.uid == u && r.q == q.val with
      | some r => closeReq s r sFailed 4 0
      | none => s
    let s := setFlag (setQs s q.val { getQs s q.val with halted := true }) (rQs q.val 0x28) 2
    .next (if (getQs s q.val).closing then resetQs s q.val else s)

/-! ## Admission and placement (R74, R457, R458) -/

/-- Positions that a request needs. -/
def positionsOf (r : Req) : Nat := reqIn r.raw + reqMax r.raw

/-- Free KV pages of a landing. -/
def kvFree (s : State) (l : Nat) : Nat :=
  Config.kvTotal - (reqsAt s l).foldl (fun n r => n + Config.kvPages (positionsOf r)) 0

/-- Landings that can take a request: live, array ON, bound to its job, with fewer than MAXREQ requests and enough free
pages. -/
def takers (s : State) (r : Req) : List Nat :=
  (liveLands s).filter fun l =>
    arrayOn s l && rdFld s (lcBase l + 0xc) 9 0 == idJob r.tenant &&
      decide ((reqsAt s l).length < max 1 (wfld s.crs.batchUse 10 0)) &&
      decide (Config.kvPages (positionsOf r) ≤ kvFree s l)

/-- The landing with the most free pages, ties to the lower. -/
def bestLand (s : State) (ls : List Nat) : Option Nat :=
  ls.foldl (fun (a : Option Nat) l =>
    match a with
    | some b => if kvFree s b < kvFree s l then some l else a
    | none => some l) none

/-- Positions of a request's prefill: its inputs, and the tokens that a re-admission starts from (R459, R463). -/
def prefillOf (r : Req) : Nat := reqIn r.raw + r.base

/-- Positions that a lap adds to a request in prefill at most (R459). -/
def chunk (s : State) : Nat := max 1 (wfld s.crs.batchUse 23 12)

/-- Tokens of a request in the next lap of its version: a part of its prefill, or one. -/
def tokensOf (s : State) (r : Req) : Nat := max 1 (min (chunk s) (prefillOf r - r.filled))

/-- The token group with the fewest tokens, ties to the lower. -/
def bestGroup (s : State) (l : Nat) : Nat :=
  let n (g : Nat) : Nat := ((reqsAt s l).filter fun r => r.tg == g).foldl (fun n r => n + tokensOf s r) 0
  (upto 16).foldl (fun b g => if n g < n b then g else b) 0

/-- The tenant has an offset for the version, or no offsets at all (R74). -/
def offsetOk (s : State) (r : Req) (v : BitVec 16) : Bool :=
  (offsetsOf s r.tenant).isEmpty || !(offsetParts s r.tenant v).isEmpty

/-- A request is placed: pinned to a version at a landing and token group, its tenant's offsets for the version loaded. -/
def placeReq (s : State) (r : Req) (v : BitVec 16) (l g : Nat) : State :=
  let d := offsetDigest s r.tenant v
  let s := { s with reqs := s.reqs.map fun x =>
    if x.uid = r.uid then { x with st := .active, ver := v, offDig := d, land := l, tg := g } else x }
  updMask s l v g

/-- The next queue set in turn with a waiting request, after the one served last. -/
def nextQs (s : State) (blocked : List Nat) : Option Req :=
  let order := (upto 64).map fun i => (s.served + 1 + i) % 64
  (order.filterMap fun q =>
    if blocked.contains q ∨ (getQs s q).resetting ∨ (getQs s q).halted then none
    else s.reqs.find? fun r => r.q == q && r.st == .waiting).head?

/-- Admission at a lap boundary of the live version; the bound is the number of tries. -/
def admitLoop (v : BitVec 16) : Nat → List Nat → State → State
  | 0, _, s => s
  | n + 1, blocked, s =>
    match nextQs s blocked with
    | none => s
    | some r =>
      if !offsetOk s r v then admitLoop v n blocked (closeReq s r sFailed 2 0)
      else
        match bestLand s (takers s r) with
        | none => admitLoop v n (r.q :: blocked) s
        | some l => admitLoop v n blocked { placeReq s r v l (bestGroup s l) with served := r.q }

def admitRequests (s : State) : State :=
  let n := (s.reqs.filter fun r => r.st == .waiting).length
  if liveVer s = 0 then s else admitLoop (BitVec.ofNat 16 (liveVer s)) (n + 64) [] s

/-- Requests of a queue set that holds 4,096 records take no token group in the lap that starts (R454). -/
def pauseReqs (s : State) : State :=
  let s := mapReqs s fun r => { r with paused := decide (4096 ≤ (getQs s r.q).held.length) }
  s.reqs.foldl (fun s r => if r.st = .active ∧ !r.lost then updMask s r.land r.ver r.tg else s) s

/-- READMISSION: a request of a failed landing starts again on another landing from its inputs, the tokens that its
records carried, and its seed (R95, R463). `keepsBits` says that the image is batch-invariant and no tile that held the
request replayed. It waits for READY after a reset of purser firmware (R538). -/
def execReadmission (uid : Nat) (land : Fin 32) (tg : Fin 16) (keepsBits : Bool) (s : State) : Res :=
  match s.reqs.find? fun r => r.uid == uid && r.lost with
  | none => .next s
  | some r =>
    if !isReady s ∨ !liveLand s land.val ∨ !arrayOn s land.val then .next s
    else
      let s := { s with reqs := s.reqs.map fun x =>
        if x.uid = uid then
          { x with
            land := land.val, tg := tg.val, lost := false, filled := 0, toks := x.toks.take x.posted,
            base := x.posted, drew := false, readmitted := x.readmitted || !keepsBits }
        else x }
      .next (updMask s land.val r.ver tg.val)

/-! ## The draw (R461, R462) -/

/-- An FP32 value rounded once, and e^x of a code. -/
def roundFp32 (v : Val) : Nat := (encodeElem 0 v rne false).1
def expCode (c : Nat) : Nat :=
  match layoutOf 0 with
  | some f => (fExp (decodeElem 0 c)).code f rne
  | none => 0

/-- Candidate a comes before b: the higher logit, then the lower index. -/
def before (a b : Word × Nat) : Bool :=
  let o := (decodeElem 0 a.1.toNat).order (decodeElem 0 b.1.toNat)
  decide (0 < o) || (o == 0 && decide (a.2 ≤ b.2))

def insertCand (a : Word × Nat) : List (Word × Nat) → List (Word × Nat)
  | [] => [a]
  | b :: r => if before a b then a :: b :: r else b :: insertCand a r

def sortCands (cs : List (Word × Nat)) : List (Word × Nat) := cs.foldr insertCand []

/-- mix64: the steps of sr_bits without the final mask (R215). -/
def mix64 (seed : Dword) (pos : Nat) : Dword :=
  let z := seed + BitVec.ofNat 64 (pos + 1) * 0x9e3779b97f4a7c15
  let z := (z ^^^ (z >>> 30)) * 0xbf58476d1ce4e5b9
  let z := (z ^^^ (z >>> 27)) * 0x94d049bb133111eb
  z ^^^ (z >>> 31)

/-- The weight q of a candidate: floor(w x 2^24) of w = exp((l - l1) x t). -/
def candWeight (t l1 l : Nat) : Nat :=
  let d := roundFp32 ((decodeElem 0 l).add false (decodeElem 0 l1).negate)
  let w := expCode (roundFp32 ((decodeElem 0 d).mul (decodeElem 0 t)))
  match decodeElem 0 w with
  | .num false n d e => let u := inUnits n d e (-24); u.1 / u.2
  | _ => 0

/-- The first place at which a prefix sum passes a test. -/
def prefixAt (p : Nat → Bool) : Nat → Nat → List Nat → Nat
  | _, i, [] => i
  | sum, i, q :: r => if p (sum + q) then i else prefixAt p (sum + q) (i + 1) r

/-- The token drawn; none where there is no candidate. -/
def draw (raw : List Byte) (pos : Nat) (cands : List (Word × Nat)) : Option Word :=
  let cs := (sortCands cands).take (field raw 40 1)
  let temp := field raw 32 4
  match cs with
  | [] => none
  | c1 :: _ =>
    if bits temp 30 0 = 0 then some (BitVec.ofNat 32 c1.2)
    else
      let t := roundFp32 ((Val.num false 1 1 0).div (decodeElem 0 temp))
      let qs := cs.map fun c => candWeight t c1.1.toNat c.1.toNat
      let sum := qs.foldl (· + ·) 0
      let p24 := (rneInt ((decodeElem 0 (field raw 36 4)).scale 24) 0).toNat
      let m := prefixAt (fun x => p24 * sum ≤ x * 2 ^ 24) 0 0 qs
      let sm := (qs.take (m + 1)).foldl (· + ·) 0
      let target := (mix64 (BitVec.ofNat 64 (field raw 24 8)) pos).toNat * sm / 2 ^ 64
      (cs[prefixAt (fun x => target < x) 0 0 qs]?).map fun c => BitVec.ofNat 32 c.2

/-- A PARTIAL record once REPORT tokens have no record (R449). -/
def reportReq (s : State) (r : Req) : State :=
  let n := reqReport r.raw
  if n ≠ 0 ∧ n ≤ r.toks.length - r.posted then
    let x := recordOf r.raw sPartial 0 (stickyFlags r) (reqIn r.raw + r.posted) ((r.toks.drop r.posted).take n) 0
    addRec { s with reqs := s.reqs.map fun y => if y.uid = r.uid then { y with posted := y.posted + n } else y } r.q x
  else s

/-- A request was cancelled before the lap's T0 (R460). -/
def cancelled (r : Req) (t0 : Nat) : Bool :=
  match r.cancel with
  | some t => decide (t.toNat < t0)
  | none => false

/-- What a lap of a request's version does to it at its landing: prefill, then one token, its records and its end, a CANCEL
before any other (R459 to R462; log 119). A tile that replayed marks each request that shared it (R133). A request that had
its part of the lap before the lap was abandoned has no other in the re-run (R95). -/
def lapReq (s : State) (t0 : Nat) (toks : List LapTok) (r : Req) : State :=
  let put (r : Req) : State := { s with reqs := s.reqs.map fun x => if x.uid = r.uid then r else x }
  let filled := min (prefillOf r) (r.filled + chunk s)
  let k := (toks.find? fun x => x.uid == r.uid).getD ⟨r.uid, [], false, false⟩
  let gone := cancelled r t0
  if r.drew then s
  else
    let r := { r with filled := filled, replayed := r.replayed || k.replayed, drew := true }
    if filled < prefillOf r then (if gone then closeReq (put r) r sCancelled 0 0 else put r)
    else
      let r := { r with poisoned := r.poisoned || k.poisoned }
      match draw r.raw (reqIn r.raw + r.toks.length) k.cands with
      | none => if gone then closeReq (put r) r sCancelled 0 0 else closeReq (put r) r sFailed 5 0
      | some t =>
        let r := { r with toks := r.toks ++ [t] }
        let last := decide (reqMax r.raw ≤ r.toks.length)
        let stop := field r.raw 44 4 != 0xffffffff && t.toNat == field r.raw 44 4
        let flags := 8 * b2n stop + 16 * b2n last
        if gone then closeReq (put r) r sCancelled 0 flags
        else if last ∨ stop then closeReq (put r) r sFinal 0 flags
        else reportReq (put r) r

end Sys2Proof.Machine
end

