-- ==== Sys2Proof/Machine/Jobs.lean ====
section
/-! DEFINITION. Jobs: quarantine, kill, release, grant, the end of a scrub, and a landing's release from its job (R327,
R380, R396, R481 to R486, R543, R557). -/

namespace Sys2Proof.Machine

/-! ## LC.BIND (R482, R572) -/

def rBind (l : Nat) : Nat := lcBase l + 0xc
def bindJob (s : State) (l : Nat) : Nat := rdFld s (rBind l) 9 0
def landFree (s : State) (l : Nat) : Bool := rdFld s (rBind l) 10 10 == 1
def landScrubs (s : State) (l : Nat) : Bool := rdFld s (rBind l) 12 12 == 1

/-- Data of a landing that quarantine hides: of its cores, and of its other memories until the kill's scrub has ended and the job
is gone (R485). -/
def dbgQuar (s : State) (l sp : Nat) : Bool :=
  quarantined s l && (sp == 1 || sp == 2 || bindJob s l != 0 || landScrubs s l)

/-- A landing that no job holds becomes free once it is scrubbed and its windows are closed (R482). -/
def updFree (s : State) (l : Nat) : State :=
  if bindJob s l = 0 ∧ !landScrubs s l ∧ (busyWins s l).isEmpty ∧ !absentLand s l ∧ !landFailed s l ∧ uncoreOn s l then
    wrFld s (rBind l) 10 10 1
  else s

/-! ## Quarantine (R114, R179, R322, R484) -/

/-- A thread of a quarantined core: IDLE, its priority and its fault record kept (R114, R166). -/
def stopThread (t : Thread) : Thread :=
  { prio := t.prio, fcode := t.fcode, deferred := t.deferred, more := t.more, fpc := t.fpc, info := t.info }

/-- Entries of a table in a range of keys changed; one that reaches its default is dropped. -/
def mapRange {α : Type} [DecidableEq α] (d : α) (t : Tab α) (lo n : Nat) (f : α → α) : Tab α :=
  t.filterMap fun e =>
    if lo ≤ e.1 ∧ e.1 < lo + n then (if f e.2 = d then none else some (e.1, f e.2)) else some e

/-- A quarantined core: its queues and its drain port are empty, its contexts IDLE, its accumulator slots clear but for what
they keep of their last drains (R265). -/
def stopCore (k : Core) : Core :=
  { slots := mapRange {} k.slots 0 8 Slot.cleared, stat := k.stat, statPsn := k.statPsn, ctrs := k.ctrs
    tagPeak := k.tagPeak, lastRun := k.lastRun }

/-- Accesses of a landing's cores are those of no thread and no arming, and carry no increment (R322). -/
def orphanAccs (s : State) (l : Nat) : State :=
  { s with
    accs := s.accs.map fun a =>
      match streamCore a.src, a.src with
      | some (k, c), _ => if k = l then { a with src := .stale (coreRef k c) 0, inc := none } else a
      | none, .gone k => if k.land.val = l then { a with inc := none } else a
      | none, _ => a }

/-- The cores of a landing enter quarantine (R484 step 1). -/
def quarantineLand (s : State) (l : Nat) : State :=
  let s := { s with
    threads := mapRange {} s.threads (4096 * l) 4096 stopThread
    cores := mapRange {} s.cores (256 * l) 256 stopCore }
  wrFld (orphanAccs s l) (rBind l) 11 11 1

/-- Scratchpads, scalar memories and the deckhand's job area are zero (R484 step 2). -/
def clearLandMem (s : State) (l : Nat) : State :=
  let s := scrubRange s (memKey l 1 0) (2 ^ 32)
  let s := scrubRange s (memKey l 2 0) (2 ^ 25)
  scrubRange s (memKey l 6 0x100000) 0x100000

/-! ## Versions of a job (R486) -/

/-- Some area of the version whose areas have a USE, LIVE, INCOMING or RETIRING, lies on one of the landings: the version is
the job's (log 22). -/
def areaOn (s : State) (ls : List Nat) (u : Nat) : Bool :=
  ls.any fun l => (upto 4).any fun k =>
    match s.crs.shadows.find? fun x => x.reload && x.land == l && x.k == k with
    | some x => x.ver == if u = 1 then liveVer s else if u = 3 then retVer s else 0
    | none => areaUse s l k == u

/-- The incoming version of a killed job is abandoned. -/
def dropIncoming (s : State) (ls : List Nat) : State :=
  if areaOn s ls 2 then
    let s := wrFld s rVctl 17 17 0
    freeIncoming (dropCmds (setLstate (endLoadOrder s) .idle) .load)
  else s

/-- The live and the retiring version of a job whose landings are scrubbed are freed, with the reloads into them (R388,
R484 step 5, R486). -/
def freeVersions (s : State) (ls : List Nat) : State :=
  let live := areaOn s ls 1
  let ret := areaOn s ls 3
  let s := freeShadows (dropReloads s fun r => ls.contains r.land) fun x => x.reload && ls.contains x.land
  let s :=
    if ret then
      let s := changeUse (wrFld (wrFld s rVnum 31 16 0) rVstat 4 4 0) 3 0
      { s with crs := { s.crs with retDig := 0 }, sto := { s.sto with retMap := [] } }
    else s
  if live then
    let s := abandonLap s
    let s := changeUse (wrFld s rVnum 15 0 0) 1 0
    { s with crs := { s.crs with liveDig := 0, rerun := none }, sto := { s.sto with liveMap := [] } }
  else s

/-- A checkpoint write that reads the job's landings fails with ABORTED (R396, R486). -/
def abortCkpt (s : State) (ls : List Nat) : State :=
  let c := s.sto.ck
  if c.step ≠ .idle ∧ !c.restore ∧ c.plan.any (fun e => ls.contains e.land) then failCk s .aborted 0 0 else s

/-- Another landing holds a landing's slice of the live version, or loads it again (R94 step 4, R596). -/
def sliceKept (s : State) (l : Nat) : Bool := s.crs.shadows.any fun x => x.home == l && x.ver == liveVer s && x.land != l

/-- A reset reaches a landing's stacks: the incoming version that it holds a part of is lost, and the live version too where
no other landing holds the slice; a checkpoint write or restore of its memory ends; every connection is dropped, and what is
outstanding goes on over a new one (R79, R383, R396). -/
def storageReset (s : State) (l : Nat) : State :=
  let s := dropReloads (dropIncoming s [l]) fun r => r.land == l
  let s := if landFailed s l ∨ sliceKept s l then s else freeVersions s [l]
  let s := (upto 16).foldl (fun s t => loseConnection s t) s
  let c := s.sto.ck
  let objs := if c.restore then (match newestRec s with | some r => (recObjects s r.1).map fun o => o.1 | none => []) else []
  if c.step ≠ .idle ∧ ((c.plan ++ objs).any fun e => e.land == l) then failCk s .aborted 0 0 else s

/-! ## Kill and release (R484) -/

def setJobs (s : State) (f : List Job → List Job) : State := { s with hm := { s.hm with jobs := f s.hm.jobs } }
def mapJob (s : State) (n : Nat) (f : Job → Job) : State :=
  setJobs s fun js => js.map fun j => if j.num = n then f j else j

/-- Queue sets whose QS.TENANT.JOB passes a test. -/
def qsOf (s : State) (p : BitVec 16 → Bool) : List Nat := (upto 64).filter fun q => p (qsJob s q)

/-- Records that wait in quay SRAM are discarded; the next record takes the number of the first of them (R484 step 3; log
22). -/
def discardHeld (s : State) (q : Nat) : State :=
  let x := getQs s q
  setQs s q { x with rseq := x.rseq - x.held.length, held := [] }

/-- Entries that were copied and not yet taken up are requests too: those that generate fail with ERR KILLED (R484 step 4). -/
def failCopied (s : State) (q : Nat) : State :=
  let es := ((getQs s q).entries.map fun e => e.2).filter fun e => field e 0 1 == 1
  es.foldl (fun s e => failEntry s q e 6) s

/-- A queue set of a kill is reset once the records that wait, those of the kill last, are posted; at once where it posts no
more (R440, R484 step 4; log 22). -/
def resetAfterKill (s : State) (q : Nat) : State :=
  let x := getQs s q
  if x.held.isEmpty ∨ x.halted ∨ x.resetting ∨ !qsEn s q then resetQs s q
  else setQs s q { x with entries := [], closing := true }

/-- Requests that pass a test close with ERR KILLED, or end without a record; then their queue sets are reset. -/
def endTenancy (s : State) (p : BitVec 16 → Bool) (records : Bool) : State :=
  let s := (s.reqs.filter fun r => p r.tenant).foldl
    (fun s r => if records then closeReq s r sFailed 6 0 else dropReq s r) s
  let s := if records then (qsOf s p).foldl (fun s q => failCopied s q) s else s
  (qsOf s p).foldl (fun s q => if records then resetAfterKill s q else resetQs s q) s

/-- A window that names the job, or one of the job's landings. -/
def winOfJob (s : State) (j : Job) (u i : Nat) : Bool := winJob s u i == j.num || j.lands.contains u

/-- Some window of the job is still open or closing. -/
def jobWinsBusy (s : State) (j : Job) : Bool := unitList.any fun u => (busyWins s u).any fun i => winOfJob s j u i

/-- Step 5: both stacks of every landing are scrubbed, and the job's versions are freed. -/
def scrubJob (s : State) (j : Job) : State :=
  let s := freeVersions s j.lands
  let s := (j.lands.filter fun l => uncoreOn s l).foldl (fun s l => scrubLanding s l) s
  mapJob s j.num fun j => { j with scrubs := true }

/-- The job registry: every job with a landing grant, ascending; an unsealed job's digest is zero (R473, R474). -/
def jobRegistry (s : State) : BitVec 384 :=
  let js := (upto 1024).filterMap fun n => findJob s n
  sha384 ((js.filter fun j => !j.lands.isEmpty).flatMap fun j =>
    leBytes 2 j.num ++ digBytes (if jobSealed j then j.prog.getD 0 else 0))

/-- Block 18 changes: after a GRANT, a SEAL, and the end of a KILL or RELEASE (R473). -/
def noteRegistry (s : State) : State := { s with hm := { s.hm with registry := some (jobRegistry s) } }

/-- Step 6: the landings are free, and the job has left the table. -/
def endJob (s : State) (j : Job) : State :=
  let s := setJobs s fun js => js.filter fun x => x.num ≠ j.num
  let s := (qsOf s fun t => idJob t == j.num && t != 0).foldl (fun s q => wrFld s (rQs q 0x34) 15 0 0) s
  let s := noteRegistry (j.lands.foldl (fun s l => updFree (wrFld s (rBind l) 9 0 0) l) s)
  j.waiters.foldl (fun s c => mbxDone s c .ok []) s

/-- A kill in progress goes on: step 5 once its windows are closed, step 6 once its landings are scrubbed. -/
def continueKill (s : State) (n : Nat) : State :=
  match findJob s n with
  | none => s
  | some j =>
    if !j.dying then s
    else
      let s := if !j.scrubs ∧ !jobWinsBusy s j then scrubJob s j else s
      match findJob s n with
      | some j => if j.scrubs ∧ !(j.lands.any fun l => landScrubs s l) then endJob s j else s
      | none => s

def continueKills (s : State) : State := s.hm.jobs.foldl (fun s j => continueKill s j.num) s

/-- KILL of a job, with records, or RELEASE of it, without: steps 1 to 4, and what follows them (R484, R486). -/
def killJob (s : State) (j : Job) (records : Bool) : State :=
  let s := mapJob s j.num fun j => { j with dying := true }
  let s := j.lands.foldl (fun s l => clearLandMem (quarantineLand s l) l) s
  let s := dropIncoming (abortCkpt s j.lands) j.lands
  let s := closeWins s fun u i => winOfJob s j u i
  let s := (qsOf s fun t => idJob t == j.num && t != 0).foldl (fun s q => discardHeld s q) s
  let s := endTenancy s (fun t => idJob t == j.num && t != 0) records
  continueKill s j.num

/-- KILL of a tenant: its requests, its queue sets, its offset extents (R484). -/
def killTenant (s : State) (j : Job) (t : Tenant) : State :=
  let s := endTenancy s (fun x => x == t.id) true
  let s := t.extents.foldl (fun s e => scrubRange s (stackKey e.land e.off) e.len) s
  mapJob s j.num fun j => { j with tenants := j.tenants.filter fun x => x.id ≠ t.id }

/-- A reset reaches a landing of a job: the job is killed, and the reset's own scrub stands for step 5 there (R486,
R528). A failed landing has left its job before. -/
def killForReset (s : State) (l : Nat) : State :=
  match s.hm.jobs.find? fun j => j.lands.contains l && !j.dying with
  | some j => killJob s j true
  | none => s

/-- A landing is released from its job, which keeps its other landings (R543 step 3). -/
def releaseLand (s : State) (l : Nat) : State :=
  let s := setJobs s fun js => js.map fun j =>
    { j with lands := j.lands.filter fun x => x ≠ l, sealed := j.sealed.filter fun x => x ≠ l }
  wrFld (wrFld s (rBind l) 9 0 0) (rBind l) 10 10 0

/-! ## Grant (R327, R482, R557) -/

/-- The words of a core's engine error records (R206). -/
def isEerrWord (o : Nat) : Bool := 0x120 ≤ o % 0x400 && o % 0x400 < 0x148

/-- The word of a core-view register with every RC and W1C bit at its reset value; with its VALID an engine error record is
cleared whole (R206, R557). -/
def grantWord (o : Nat) (v : Word) : Word :=
  if isEerrWord o then 0
  else match regDef o with
  | some d => v &&& ~~~(BitVec.ofNat 32 (d.rc ||| d.w1c))
  | none => v

/-- The settings of a core's pairs of counters. -/
def isPairWord (o : Nat) : Bool := 0x380 ≤ o % 0x400 && o % 0x400 < 0x3c0

/-- Each word of a landing's core registers takes a value made from its own. -/
def mapCoreRegs (s : State) (l : Nat) (f : Nat → Word → Word) : State :=
  let lo := coreBase l 0
  { s with
    regs := s.regs.filterMap fun e =>
      if lo ≤ e.1 ∧ e.1 < lo + 0x40000 then
        let v := f e.1 e.2
        if v = resetWord e.1 then none else some (e.1, v)
      else some e }

/-- RC and W1C leaves, CORE.CAUSE and CORE.SMSTAT of a landing's cores are at reset: at the grant, and when the array domain
leaves ON (R482, R557; log 100). -/
def loseLeaves (s : State) (l : Nat) : State :=
  let s := mapCoreRegs s l fun o v => if isPairWord o then v else grantWord o v
  { s with cores := mapRange {} s.cores (256 * l) 256 fun k => { k with tagPeak := 0 } }

/-- RC and W1C leaves, CORE.CAUSE, CORE.SMSTAT and the pair settings of a landing's cores are at reset. -/
def grantRegs (s : State) (l : Nat) : State := mapCoreRegs s l fun o v => if isPairWord o then 0 else grantWord o v

/-- No master of this module counts a landing as arrived (R327, R344). -/
def dropArrivals (s : State) (l : Nat) : State :=
  let off (xs : List (Nat × Nat)) : List (Nat × Nat) := xs.filter fun p => p != (l, s.modnum.toNat)
  (presentLands s).foldl (fun s k =>
    let x := getLand s k
    setLand s k
      { x with groups := mapRange {} x.groups 0 16 fun g => { g with got := off g.got, gotNext := off g.gotNext } }) s

/-- Closure arrival state of a landing's cores is zero, at the landing and at the masters that it told (R327). -/
def grantGroups (s : State) (l : Nat) : State :=
  let s := dropArrivals s l
  let x := getLand s l
  setLand s l
    { x with
      groups := mapRange {} x.groups 0 16 fun g =>
        { g with now := [], next := [], clas := [], got := [], gotNext := [], bar := false, barNext := false, sent := false
                 sentNext := false } }

/-- A landing is granted to a job: quarantine clears, counters and arrival state are zero, the landing is bound. -/
def grantLand (s : State) (n l : Nat) : State :=
  let s := { s with cores := mapRange {} s.cores (256 * l) 256 fun k => { k with ctrs := [], moved := none, tagPeak := 0 } }
  let s := grantGroups (grantRegs s l) l
  wr s (rBind l) (BitVec.ofNat 32 n)

/-! ## Commands -/

/-- SCRUB_COMPLETE: the stack can be read again; when both stacks of a landing are scrubbed, what waited goes on (R366,
R367, R484). -/
def execScrubComplete (l : Fin 32) (stack : Fin 2) (s : State) : Res :=
  let n := l.val
  if !scrubbing s n stack.val then .next s
  else
    let s := wrFld s (scBase n stack.val) 24 24 0
    if scrubbing s n (1 - stack.val) then .next s
    else .next (continueKills (updFree (wrFld s (rBind n) 12 12 0) n))

/-- WINDOW_CLOSE_COMPLETE: the last access that the window admitted has completed (R375 step 3). The harbourmaster is
told. -/
def execWindowCloseComplete (u : Unit') (i : Nat) (s : State) : Res :=
  let n := unitNum u
  if winCount n ≤ i ∨ !winClosing s n i ∨ winBusy s n i then .next s
  else
    let s := finishClose s n i
    let done := s.hm.closes.filter fun c => c.u == n && c.idx == i
    let s := { s with hm := { s.hm with closes := s.hm.closes.filter fun c => !(c.u == n && c.idx == i) } }
    let s := done.foldl (fun s c => mbxDone s c.ch .ok []) s
    .next (continueKills (if n < 32 then updFree s n else s))

end Sys2Proof.Machine
end

