-- ==== Sys2Proof/Machine/Power.lean ====
section
/-! DEFINITION. Power domains and their transitions, the loss of a landing, module-fatal errors, safety values, the power
cap and pace (R40 to R45, R466, R467, R498 to R511, R540 to R543, R557, R596). -/

namespace Sys2Proof.Machine

def setPwr (s : State) (p : Pwr) : State := { s with pwr := p }

/-! ## Module-fatal errors (R541, R542) -/

def rErrstat : Nat := 0x58
def rBootstat : Nat := 0x4c
def setStage (s : State) (n : Nat) : State := wrFld s rBootstat 3 0 n

/-- The FAULT message on every group (R415, R542). -/
def sendFault (s : State) : State := sendAll s 0x0009 []

/-- A module-fatal error: its record, stage FATAL, GLB.CAUSE.FATAL, and FAULT to the neighbours. The first record
stands. QUAY_FATAL is an error of the quay's fabric, or of its management core, which then has faulted: QC.CAUSE.MCORE (R541,
R576). Which of the two it is, is free (log 1). -/
def moduleFatal (s : State) (code unit : Nat) : State :=
  if fatal s then s
  else
    let s := wr s rErrstat ((rd s rErrstat &&& 0x3f) ||| BitVec.ofNat 32 (2 ^ 6 + code * 2 ^ 8 + unit * 2 ^ 16))
    let s := setFlag (setStage s 0xf) 0x30 2
    let s := if code = 2 ∧ Config.freeBool s.free then setFlag s (rQcause (unit % 4)) 1 else s
    let s := if code = 2 then { s with free := s.free + 1 } else s
    sendFault { s with boot := { s.boot with fatalAt := s.time } }

/-- FUNIT for no unit. -/
def noUnit : Nat := 0x3f

/-! ## What a domain loses and gains (R42, R43, R366, R378, R557, R596) -/

/-- The words of a range of registers return to their reset values. -/
def dropRegs (s : State) (lo n : Nat) : State := { s with regs := tclear s.regs lo n }

/-- Requests placed on a landing wait for their re-admission (R95, R596). -/
def loseReqs (s : State) (l : Nat) : State :=
  mapReqs s fun r => if r.st = .active ∧ r.land = l then { r with lost := true } else r

/-- The array of a landing leaves ON: the lap in progress is abandoned, and with SHREADY the shadow holder stands in for
the landing (R596). The causes and leaves of its cores are lost (R557). -/
def arrayLeaves (s : State) (l : Nat) : State :=
  let ready := shReady s
  let s := loseReqs (loseLeaves s l) l
  let s := if s.crs.inLap then abandonLap s else s
  let x := getLand s l
  let s := setLand s l { x with ran := x.ran + (s.edges - x.onEdge) }
  if ready ∧ liveLand s l then setStandIn s l else s

/-- The array of a landing is OFF: scratchpads, scalar memories, threads, counters, tiles, ferries and core registers are
lost (R43, R557). -/
def arrayOff (s : State) (l : Nat) : State :=
  let s := orphanAccs s l
  let s := { s with threads := tclear s.threads (4096 * l) 4096, cores := tclear s.cores (256 * l) 256 }
  let s := scrubRange (scrubRange s (memKey l 1 0) (2 ^ 32)) (memKey l 2 0) (2 ^ 25)
  let s := dropRegs s (coreBase l 0) 0x40000
  let x := getLand s l
  updHold (grantGroups (setLand s l { x with inject := [], tiles := [], fslots := [] }) l) l

/-- The array of a landing enters ON: CYCLE starts, and posts that waited make their threads READY (R113, R138). -/
def arrayEnters (s : State) (l : Nat) : State :=
  let s := setLand s l { getLand s l with onEdge := s.edges }
  { s with
    threads := mapRange {} s.threads (4096 * l) 4096 fun t => if t.due then { t with due := false, st := .ready } else t }

/-- A transaction on the AVSBus of a landing's rail: tried once more where it is not acknowledged, and PWR.CAUSE.AVSERR
where it is not again (R500). `a` and `b` say whether the two tries are. -/
def avs (s : State) (l : Nat) (op : AvsOp) (a b : Bool) : State × Bool :=
  let o := Out.avs (l / 8) (l % 8) op
  let s := emit s o
  if a then (s, true)
  else if b then (emit s o, true)
  else (setFlag (emit s o) 0x20000 2, false)

/-- A voltage written to a rail, which keeps its last acknowledged voltage where the write fails (R500). -/
def writeVcore (s : State) (l mv : Nat) (a b : Bool) : State :=
  let r := avs s l (.voltageWrite mv) a b
  if r.2 then { r.1 with pwr := { r.1.pwr with vcore := tput 0 l mv r.1.pwr.vcore } } else r.1

/-- The VCORE rail of a boarding array is set to the landing's fused set point (R501), 750 mV where none is given
(log 5). Whether the rail acknowledges is free (log 1). -/
def setVcore (s : State) (l : Nat) : State :=
  writeVcore { s with free := s.free + 2 } l (tget 750 s.fuses.vcore l) (Config.freeBool s.free)
    (Config.freeBool (s.free + 1))

/-- A stack's contents are lost. -/
def loseStacks (s : State) (l : Nat) : State := scrubRange s (stackKey l 0) (2 ^ 44)

/-- The uncore of a landing leaves ON: its job is killed, storage operations on its stacks end, its windows close, its
registers, ring stop and deckhand are lost, and its stacks unless in self-refresh; its hold bit is gone (R42, R100, R378,
R396, R528, R557). -/
def uncoreLeaves (s : State) (l : Nat) (sref : Bool) : State :=
  let s := resetWins (storageReset (killForReset s l) l) l
  let lo := lcBase l
  let s := dropRegs (dropRegs s lo 0x30000) (lo + 0x34000) 0xcc000
  let s := { s with threads := tclear s.threads (131072 + l) 1 }
  let s := scrubRange s (memKey l 6 0) (2 ^ 21)
  let s := if sref then setFlag (setFlag s (scBase l 0) 25) (scBase l 1) 25 else loseStacks s l
  let x := getLand s l
  let s := setLand s l { out := x.out, standFor := x.standFor }
  let s := { s with boot := { s.boot with deckhands := sdel l s.boot.deckhands } }
  noticeHold { s with crs := { s.crs with shadows := s.crs.shadows.filter fun e => e.land != l } }

/-- The uncore of a landing enters ON, which is a LANDING reset where it left ON before: an array that was CLOCK-STOPPED
loses what an array that is OFF loses; both stacks are scrubbed unless they kept their contents, and deckhand firmware is
loaded (R42, R352, R366, R522, R529). -/
def uncoreEnters (s : State) (l : Nat) (sref : Bool) : State :=
  let s := arrayOff s l
  let s := if sref then s else scrubLanding s l
  { s with boot := { s.boot with deckhands := sadd l s.boot.deckhands } }

/-- A quay leaves ON: its windows close, its SRAM is scrubbed, its registers are lost, and the link of its PCIe port, PE0
at Q0 and PE1 at Q2, is down (R378, R523). -/
def quayLeaves (s : State) (q : Nat) : State :=
  let s := resetWins s (32 + q)
  let s := scrubRange s (memKey q 4 0) (2 ^ 26)
  let s := dropRegs s (quayBase q) 0xc0000
  if q = 0 ∨ q = 2 then setPcie s (q / 2) { getPcie s (q / 2) with up := false, cfg := [], pend := [] } else s

/-- A port of a PHY bank that leaves ON is DOWN with fresh link state: its STATE, its far end and its counts are lost; a
Slipway port that was UP sets LINKDOWN, and its group GROUPDOWN with its last port (R402, R430, R432, R557). -/
def portOff (s : State) (p : Nat) : State :=
  let r := portRole s p
  let was := groupDown s r
  let s := if slipUp s p then setFlag s rXcause 0 else s
  let s := wrFld (wrFld s (rPort p) 2 0 0) (rPort p) 22 8 0
  let s := [4, 8, 0xc].foldl (fun s o => wr s (rPort p + o) 0) (setPort s p {})
  groupFalls s r was

/-- The ports of a PHY bank that leaves ON. -/
def bankLeaves (s : State) (b : Nat) : State := (upto 8).foldl (fun s i => portOff s (8 * b + i)) s

/-- A PHY bank enters ON: its ports train, those without a role are HELD, and GROUPWAIT runs from here (R399, R401, R432,
R530; log 113). -/
def bankEnters (s : State) (b : Nat) : State :=
  let s := (upto 8).foldl (fun s i =>
    let p := 8 * b + i
    wrFld s (rPort p) 2 0 (if portEth s p ∨ portRole s p ≠ 0 then 1 else 3)) s
  { s with boot := { s.boot with waited := sdel b s.boot.waited, bankAt := tput 0 b s.time s.boot.bankAt } }

def srefSt (s : State) (d : Nat) : Bool := rdFld s (rPd d) 5 5 == 1

/-- A domain takes a state, with what it loses on leaving ON or OFF and gains on entering ON. -/
def setDom (s : State) (d v : Nat) : State :=
  let old := domState s d
  if old = v then s
  else
    let s := wrFld s (rPd d) 3 2 v
    if d < 32 then
      let s := if old = 2 then arrayLeaves s d else s
      let s := if v = 0 then arrayOff s d else s
      let s := if old = 0 then setVcore s d else s
      if v = 2 then arrayEnters s d else s
    else if d < 64 then
      let s := if old = 2 then uncoreLeaves s (d - 32) (srefSt s d) else s
      if v = 2 then uncoreEnters s (d - 32) (srefSt s d) else s
    else if d < 68 then
      if old = 2 then quayLeaves s (d - 64) else s
    else if d < 70 then s
    else if v = 2 then bankEnters s (d - 70) else bankLeaves s (d - 70)

/-- A domain is forced to a state at once: any transition of it ends. REQ is kept (R499). -/
def forceDom (s : State) (d v : Nat) : State :=
  let s := setPwr s { s.pwr with goal := tput none d none s.pwr.goal }
  wrFld (setDom s d v) (rPd d) 6 6 0

/-- PDn.SREFST, and SC.CAUSE.SREF of the landing's stacks. -/
def setSref (s : State) (d : Nat) (sref : Bool) : State :=
  let s := wrFld s (rPd d) 5 5 (b2n sref)
  if 32 ≤ d ∧ d < 64 then
    wrFld (wrFld s (scBase (d - 32) 0) 25 25 (b2n sref)) (scBase (d - 32) 1) 25 25 (b2n sref)
  else s

/-- Array and uncore of a landing are forced OFF, and its stack contents are lost, in self-refresh too (R543 step 2). -/
def forceLandOff (s : State) (l : Nat) : State :=
  loseStacks (forceDom (forceDom (setSref s (32 + l) false) l 0) (32 + l) 0) l

/-! ## Losing a landing (R94, R540, R543) -/

def rLfail : Nat := 0x50

/-- A failed landing whose domains are OFF and whose rejoin no one has ordered: nothing of it is there to fail. -/
def landDead (s : State) (l : Nat) : Bool :=
  landFailed s l && !tget false s.boot.rejoins l && rdFld s 0x54 l l == 0 && domState s l == 0 && domState s (32 + l) == 0

/-- A landing-fatal error: its code; the crossing closes around the landing, or opens, which is module-fatal; windows,
job, requests and power follow. A failed landing whose domains are ON again is lost again, with its rejoin (R540, R543,
R545). -/
def landingFatal (s : State) (l code : Nat) : State :=
  if absentLand s l ∨ landDead s l then s
  else
    let s := wrFld s (0x60 + 4 * (l / 4)) (8 * (l % 4) + 7) (8 * (l % 4)) code
    let s := wrFld { s with boot := { s.boot with rejoins := tput false l false s.boot.rejoins } } 0x54 l l 0
    let open' := liveLand s l && !canSpan s l
    let s := loseReqs s l
    let s := if liveLand s l then cutLanding s l true else s
    let s := setFlag (setFlag s rLfail l) 0x30 0
    let s := if open' then moduleFatal (setFlag s rCrsCause 3) 3 l else s
    forceLandOff (releaseLand s l) l

/-! ## Requests and transitions (R41, R45, R502 to R504) -/

/-- The domains that a domain requires (R40). -/
def requires (d : Nat) : List Nat :=
  if d < 32 then [32 + d]
  else if d < 64 then [64 + (d - 32) / 8]
  else if d < 68 then [69]
  else if d = 69 then [68]
  else if d = 70 then [64, 65]
  else if d = 71 then [66, 67]
  else []

/-- The domains of a landing that is absent (R45). -/
def absentDom (s : State) (d : Nat) : Bool := d < 64 && absentLand s (d % 32)

def pdRefused (s : State) : State := setFlag s 0x20000 0
def pdReq (s : State) (d : Nat) : Nat := rdFld s (rPd d) 1 0
def pdSref (s : State) (d : Nat) : Bool := rdFld s (rPd d) 4 4 == 1
def pdForced (s : State) (d : Nat) : Bool := rdFld s (rPd d) 7 7 == 1
def goalOf (s : State) (d : Nat) : Option (Nat × Bool) := tget none s.pwr.goal d

/-- The next transition of a domain starts where its request and its state differ and none runs; BUSY shows it. -/
def startMove (s : State) (d : Nat) : State :=
  if (goalOf s d).isSome ∨ pdForced s d then s
  else if domState s d = pdReq s d ∧ srefSt s d = pdSref s d then wrFld s (rPd d) 6 6 0
  else
    let g := (pdReq s d, pdSref s d)
    wrFld (setPwr s { s.pwr with goal := tput none d (some g) s.pwr.goal }) (rPd d) 6 6 1

/-- An accepted request. -/
def takeRequest (s : State) (d req : Nat) (sref : Bool) : State :=
  startMove (wrFld (wrFld s (rPd d) 1 0 req) (rPd d) 4 4 (b2n sref)) d

/-- Masters that may request domain states (R502): the harbourmaster, physical functions, purser firmware. -/
def mayRequest : Master → Bool
  | .hm | .pf _ | .purser _ _ | .deckhand _ => true
  | _ => false

/-- A request for self-refresh is accepted while the landing is cut out and its array is not ON (R503). -/
def srefOk (s : State) (l : Nat) : Bool := (getLand s l).out && !arrayOn s l

/-- A request for a domain that has boarded (R41, R502, R503). Stacks whose uncore is OFF with their contents lost may be put
in self-refresh too: DESIGN CHOICE (log 111). -/
def requestDom (s : State) (d req : Nat) (sref : Bool) : State :=
  let l := d - 32
  let uncore := decide (32 ≤ d ∧ d < 64)
  let lower (s : State) : State :=
    if uncore ∧ (req < domState s l ∨ req < pdReq s l) then takeRequest s l (min req (pdReq s l)) false else s
  if req = 3 ∨ (64 ≤ d ∧ d < 70 ∧ req ≠ 2) then pdRefused s
  else if req = 2 ∧ domState s d ≠ 2 ∧ !((requires d).all fun r => domState s r == 2) then pdRefused s
  else if uncore ∧ sref ∧ !srefSt s d ∧ !srefOk s l then pdRefused s
  else if uncore ∧ req ≠ 2 ∧ domState s d = 2 ∧ liveLand s l then
    if !canSpan s l then pdRefused s
    else
      let s := cutLanding (loseReqs s l) l false
      takeRequest (lower s) d req sref
  else takeRequest (lower s) d req sref

/-- DOMAIN_REQUEST: a write of PWR.PDn. Before the domain's boarding time REQ and SREF are replaced and nothing more; ON is
refused then too while a required domain is not ON, and self-refresh while the landing is in use (R41, R503, R505). -/
def execDomainRequest (m : Master) (d : Fin 72) (v : Word) (s : State) : Res :=
  let n := d.val
  if !mayRequest m ∨ absentDom s n then .next s
  else
    let req := wfld v 1 0
    let sref := decide (32 ≤ n ∧ n < 64) && wfld v 4 4 == 1
    let early := req = 2 ∧ !((requires n).all fun r => domState s r == 2)
    if !s.pwr.boarded.contains n ∧ req ≠ 3 ∧ !early then
      .next (if sref ∧ !srefOk s (n - 32) then pdRefused s else wrFld (wrFld s (rPd n) 1 0 req) (rPd n) 4 4 (b2n sref))
    else .next (requestDom s n req sref)

/-- The domains that require a domain have a state no higher than its goal, and move to none (R41). An ON request for one of
them that came while its required domain was still ON makes the move wait: DESIGN CHOICE (log 110). -/
def dependentsLow (s : State) (d v : Nat) : Bool :=
  (upto 72).all fun k => !(requires k).contains d ||
    decide (domState s k ≤ v) && (match goalOf s k with | some g => decide (g.1 ≤ v) | none => true)

/-! ## Boarding (R505, R529) -/

/-- A domain may come to its boarding time: it is there, its power and its clock are, and what it requires is ON. -/
def mayBoard (s : State) (d : Nat) : Bool :=
  !absentDom s d && !pdForced s d && !s.boot.noClock && !s.boot.pinLow && (requires d).all fun r => domState s r == 2

/-- A domain boards at its boarding time: its request is ON. -/
def boards (s : State) (d : Nat) : Bool := mayBoard s d && pdReq s d == 2

/-- A domain at its boarding time: skipped where its request is not ON; else it boards once what it requires is ON. -/
def boardDom (s : State) (d : Nat) : State :=
  if !mayBoard s d then s
  else
    let s := setPwr s { s.pwr with boarded := sadd d s.pwr.boarded }
    if pdReq s d ≠ 2 then s else startMove s d

/-! ## VCORE (R500, R501) -/

/-- VCORE_ADJUST: one step of at most 5 mV within 600 mV to 900 mV, at most one in 1 ms; a transaction that fails is tried
once more, and then the rail keeps its voltage and AVSERR is set. -/
def execVcoreAdjust (l : Fin 32) (stepMv : Int) (acks : Bool × Bool) (s : State) : Res :=
  let n := l.val
  let v := ((tget 0 s.pwr.vcore n : Nat) : Int) + stepMv
  if !arrayOn s n ∨ stepMv < -5 ∨ 5 < stepMv ∨ v < 600 ∨ 900 < v ∨ s.edges < tget 0 s.pwr.vcoreAt n then .next s
  else
    let s := setPwr s { s.pwr with vcoreAt := tput 0 n (s.edges + edges1ms) s.pwr.vcoreAt }
    .next (writeVcore s n v.toNat acks.1 acks.2)

/-! ## Safety values (R466 to R468, R508) -/

/-- Rank of a master with safety values (R520). -/
def safetyIdx : Master → Option Nat
  | .hm => some 0
  | .bmc => some 1
  | .pf p => some (2 + p.val)
  | .purser _ _ | .deckhand _ => some 4
  | .remote _ => some 5
  | .core _ _ | .vf _ _ => none

def effCap (s : State) : Nat := safeEff s .cap
def effTlim (s : State) : Nat := safeEff s .tlim

/-- Owner field of a quantity in PWR.RMOWN0 and RMOWN1 (R467, R520). -/
def ownFld : Qty → Nat × Nat × Nat
  | .cap => (0x20060, 10, 0)
  | .tlim => (0x20060, 21, 11)
  | .run => (0x20064, 10, 0)

/-- A value clamped to its effecter's range (R443, R508). -/
def clampQty (q : Qty) (v : Nat) : Nat :=
  match q with
  | .cap => min 24000 (max 4000 v)
  | .tlim => min 95 (max 60 v)
  | .run => min 1 v

/-- A master's order for a safety quantity, and whether it was overruled: a remote manager that does not own the value
may only make it safer; one that leaves the effective value unchanged, since another master holds a safer value, is recorded
(R466, R467). -/
def orderSafety (s : State) (m : Master) (q : Qty) (v : Nat) : State × Bool :=
  match safetyIdx m with
  | none => (s, false)
  | some i =>
    let v := clampQty q v
    let own := ownFld q
    let set (s : State) : State × Bool :=
      let e := safeEff s q
      let s := wrFld s (rSafe i) q.hi q.lo v
      (s, safeEff s q == e && safer q e v)
    match m with
    | .remote k =>
      if safer q v (safeVal s i q) then set (wrFld s own.1 own.2.1 own.2.2 k.toNat)
      else if v = safeVal s i q ∨ rdFld s own.1 own.2.1 own.2.2 = k.toNat then set s
      else (s, true)
    | _ => set s

/-- Where SVC.PFOVR keeps the record of a port's physical function; the second port's lies beyond BAR0 in the model's
numbering, since one offset shows each function its own (R468). -/
def rPfovr (p : Nat) : Nat := if p = 0 then 0x68408 else 0x5000000

/-- SVC.PFOVR records an overruled order of a physical function at a BAR0 offset (R468). -/
def notePfovr (s : State) (p off : Nat) : State :=
  if rdFld s (rPfovr p) 0 0 = 1 then setFlag s (rPfovr p) 1
  else wr s (rPfovr p) (BitVec.ofNat 32 (1 + bits off 25 2 * 4))

/-- CMD_OVERRULED as a master reads it: PLDM's completion code, or the mailbox's status (R468, R479). -/
def overruledCode : Master → Nat
  | .bmc | .remote _ => 0xa0
  | _ => 8

/-- How a master learns that its register write lost or was recorded without effect: SVC.PFOVR, QS.CAUSE.OVERRULED, or the
status of the write (R468). -/
def noteOverruled (s : State) (m : Master) (off : Nat) : State :=
  match m with
  | .pf p => notePfovr s p.val off
  | .vf p i => setFlag s (rQs (32 * p.val + i.val) 0x28) 4
  | _ => emit s (.status m (overruledCode m))

/-- A register write of a safety quantity, with the notice that its master gets. -/
def writeSafety (s : State) (m : Master) (q : Qty) (off v : Nat) : State :=
  let r := orderSafety s m q v
  noticeHold (if r.2 then noteOverruled r.1 m off else r.1)

/-- The register of a safety quantity's own value, and the value that a word written there gives (R508). -/
def Qty.reg : Qty → Nat
  | .cap => 0x20004 | .tlim => 0x20008 | .run => 0x2000c
def Qty.val (q : Qty) (v : Word) : Nat :=
  match q with
  | .cap => wfld v 14 0
  | .tlim => wfld v 6 0
  | .run => wfld v 0 0

/-- A master's write of a safety quantity's register. -/
def setSafety (s : State) (m : Master) (q : Qty) (v : Word) : State := writeSafety s m q q.reg (q.val v)

/-- SETCAP, SETTLIM, SETRUN: writes of the writing master's own value (R508). -/
def execSetcap (m : Master) (v : Word) (s : State) : Res := .next (setSafety s m .cap v)
def execSettlim (m : Master) (v : Word) (s : State) : Res := .next (setSafety s m .tlim v)
def execSetrun (m : Master) (v : Word) (s : State) : Res := .next (setSafety s m .run v)

/-! ## Orders that meet (R34, R465) -/

/-- Rank of a master, 0 the highest. The spec ranks no core and no deckhand: they stand with purser firmware (log 90). -/
def masterRank : Master → Nat
  | .hm => 0
  | .bmc => 1
  | .pf _ => 2
  | .purser _ _ | .deckhand _ | .core _ _ => 3
  | .remote _ => 4
  | .vf _ _ => 5

/-- What decides between masters of one rank, the lower first: the port, the module number; none between the others. -/
def masterTie : Master → Nat
  | .pf p | .vf p _ => p.val
  | .remote m => m.toNat
  | _ => 0

/-- The order of a prevails over that of b; between equals the later one does, which is b's. -/
def prevails (a b : Master) : Bool :=
  masterRank a < masterRank b || (masterRank a == masterRank b && masterTie a < masterTie b)

/-- The order of a for a safety quantity prevails over that of b: the safer one, and between equals that of the higher rank. -/
def safetyPrevails (q : Qty) (a : Master) (v : Nat) (b : Master) (w : Nat) : Bool :=
  safer q v w || (!safer q w v && prevails a b)

/-! ## Pace and holds (R71, R509 to R511, R515) -/

def rThmCause : Nat := 0x30000

/-- LIM is the smallest of the three limits, and the hold bits follow the pace (R67, R68). -/
def updLim (s : State) : State := updHolds (wrFld s rPace 7 0 (min s.pwr.capLim (min s.pwr.thmLim s.pwr.flowLim)))

/-- A boarding hold begins: GHOLD, and THM.CAUSE.HOLD where it was 0. -/
def setGhold (s : State) : State :=
  if ghold s then s else noticeHold (setFlag (setFlag s rPace 16) rThmCause 0)

/-- PACE_WRITE: a write of CRS.PACE sets REQ and the software hold (R509, R515, R566). It ends the hold of a cut-out on the
launches of an extended crossing, whose laps may then restart (R420 step 4; log 89). -/
def execPaceWrite (m : Master) (v : Word) (s : State) : Res :=
  if reachesModule m then
    let s := { s with crs := { s.crs with cutHold := false } }
    .next (updHolds (noticeHold (wrFld (setPwr s { s.pwr with swHold := wfld v 8 8 == 1 }) rPace 15 8 (wfld v 7 0))))
  else .next s

/-- The cap limit after a window of measured power m with base power b: 0 where m does not exceed b (R509). -/
def nextCapLim (lim cap m b : Nat) : Nat :=
  if m ≤ b then 0
  else if cap < m then
    if cap ≤ b then 0 else (lim + 1) * (cap - b) / (m - b) - 1
  else if 100 * m < 98 * cap then min 255 (lim + 4)
  else lim

/-- A Current read of each VCORE rail whose quay is ON; whether a rail answers is free (R500, R507; log 1). -/
def readCurrents (s : State) : State :=
  ((presentLands s).filter fun l => quayOn s (l / 8)).foldl (fun s l =>
    (avs { s with free := s.free + 2 } l .currentRead (Config.freeBool s.free) (Config.freeBool (s.free + 1))).1) s

/-- CAP_WINDOW: the measure of a 1 ms window, from the rails' currents among others, the cap limit, and CAPFAIL with a hold
after 10 windows in a row above the cap at limit 0 (R507, R509, R510). -/
def execCapWindow (meas base : Nat) (s : State) : Res :=
  let s := readCurrents s
  let s := wr s 0x20014 (BitVec.ofNat 32 (meas % 2 ^ 16 + base % 2 ^ 16 * 2 ^ 16))
  let cap := effCap s
  let lim := nextCapLim s.pwr.capLim cap meas base
  let run := if cap < meas then s.pwr.overCap + 1 else 0
  let s := updLim (setPwr s { s.pwr with capLim := lim, overCap := run })
  .next (if lim = 0 ∧ 10 ≤ run then setGhold (setFlag s 0x20000 1) else s)

end Sys2Proof.Machine
end

