-- ==== Sys2Proof/Machine/Heat.lean ====
section
/-! DEFINITION. The heat governor: the forecast and the boarding hold, the coolant demand, the thermal and flow limits, the
trip, forecast events, flow pulses (R509, R513 to R519, R521, R586). -/

namespace Sys2Proof.Machine

/-! ## Settings (R521) -/

def rThmStat : Nat := 0x3001c
def rThmStat2 : Nat := 0x30020
def rFcst : Nat := 0x30024
def rDmd : Nat := 0x30028

/-- A forecast takes up the fields of THM.LOOP, THM.BASE, THM.JCFG and THM.FLOW (R521). -/
def takeThm (s : State) : State :=
  setPwr s { s.pwr with loop := rd s 0x30004, base := rd s 0x30008, jcfg := rd s 0x3000c, flow := rd s 0x30010 }

/-- τ in s, clamped to 10 to 300, and θ in s, to 1 to 60. -/
def tauS (s : State) : Nat := min 300 (max 10 (wfld s.pwr.loop 8 0))
def thetaS (s : State) : Nat := min 60 (max 1 (wfld s.pwr.loop 14 9))

/-- Steps of 100 ms of the forecast, and the spacing of the points of an event. -/
def fcSteps (s : State) : Nat := 10 * (thetaS s + 3 * tauS s)
def fcSpacing (s : State) : Nat := ceilDiv (fcSteps s) 32

/-- 1 s and 1 µs in TIMECLK. -/
def secTicks : Nat := 200000000
def usTicks : Nat := 200

/-- Pulses of COOL_FLOW in the last n TIMECLK. -/
def pulsesIn (s : State) (n : Nat) : Nat := (s.pwr.pulses.filter fun t => s.edges ≤ t + n).length

/-- Pulses of the last second, and pulses per L. -/
def flowCount (s : State) : Nat := pulsesIn s secTicks
def flowK (s : State) : Nat := wfld s.pwr.flow 11 0

/-! ## The forecast (R514) -/

/-- Temperatures inside the forecast are integers of 2^-40 °C; the spec states no precision (log 23). -/
def fxOne : Int := (2 ^ 40 : Nat)

/-- 1 - e^(-0.1 s / τ). -/
def fcAlpha (s : State) : Int :=
  let e := expE 60 (Encl.ofQ 60 (-1) (10 * tauS s) 0)
  fxOne - e.1.lo * (2 ^ e.2.toNat : Nat) / (2 ^ ((-e.2).toNat + 20) : Nat)

/-- Average measured heat of the last 1 s. -/
def avgHeat (s : State) : Nat :=
  let xs := s.pwr.heat.take 10
  xs.foldl (· + ·) 0 / max 1 xs.length

/-- Planned heat at step k, with n laps more than THM.PLAN.LAPS; LAPS at 0xFFFF has no end. -/
def plannedHeat (s : State) (n k : Nat) : Nat :=
  let laps := rdFld s 0x30014 15 0
  if laps = 0xffff ∨ 1000 * k < (laps + n) * s.pwr.lapLen then avgHeat s else rdFld s 0x20014 31 16

/-- Heat at step k - d: planned, or measured history. -/
def heatAt (s : State) (n k d : Nat) : Nat := if d ≤ k then plannedHeat s n (k - d) else s.pwr.heat.getD (d - k - 1) 0

/-- The inlet temperature to which heat q drives the loop. -/
def inletGoal (s : State) (q : Nat) : Int :=
  let kq : Nat := wfld s.pwr.loop 24 15
  let base := wfld s.pwr.base 25 10
  (wfld s.pwr.base 9 0 : Nat) * fxOne / 10 + kq * ((q : Int) - (base : Nat)) * fxOne / 100000

/-- The forecast has its divisors: flow, heat capacity, heat of the last second. -/
def fcDefined (s : State) : Bool :=
  flowCount s != 0 && flowK s != 0 && wfld s.pwr.jcfg 25 15 != 0 && s.pwr.hotDen != 0

/-- The hottest junction above inlet temperature t at heat q. -/
def junction (s : State) (t : Int) (q : Nat) : Int :=
  let water := fxOne * (q * 10 * flowK s : Nat) / (wfld s.pwr.jcfg 25 15 * flowCount s * 60 : Nat)
  let rise := fxOne * (wfld s.pwr.jcfg 9 0 * q * s.pwr.hotNum : Nat) / (1000 * s.pwr.hotDen : Nat)
  t + water + rise

/-- A forecast as it is computed. -/
structure Fcst where
  tin   : Int
  peak  : Int
  tpeak : Nat
  /-- Points, newest first. -/
  points : List (Nat × Int)
deriving DecidableEq, Repr

/-- A temperature in 0.1 °C, to nearest (log 23). -/
def tenths (t : Int) : Int := (t * 20 + fxOne) / (2 * fxOne)

/-- Steps k, k + 1, … of a forecast with n laps more: to the end of the horizon for the peak, and to the last of the 32
points of an event, which may lie past it. -/
def fcLoop (s : State) (n : Nat) : Nat → Nat → Fcst → Fcst
  | 0, _, x => x
  | f + 1, k, x =>
    let t := x.tin + fcAlpha s * (inletGoal s (heatAt s n k (10 * thetaS s)) - x.tin) / fxOne
    let q := plannedHeat s n k
    let j := junction s t q
    let best := decide (k ≤ fcSteps s) && (k == 1 || decide (x.peak < j))
    fcLoop s n f (k + 1)
      { tin := t
        peak := if best then j else x.peak
        tpeak := if best then k else x.tpeak
        points := if k % fcSpacing s = 0 ∧ k ≤ 31 * fcSpacing s then (q, tenths t) :: x.points else x.points }

/-- The forecast from now with n laps more. -/
def forecast (s : State) (n : Nat) : Fcst :=
  let t0 := s.pwr.inlet * fxOne / 10
  fcLoop s n (max (fcSteps s) (31 * fcSpacing s)) 1 ⟨t0, t0, 0, [(plannedHeat s n 0, s.pwr.inlet)]⟩

/-- A value where its field can hold it, else a free value (log 1): the spec gives no code for a temperature below 0 °C or
beyond a field. -/
def fieldOr (s : State) (n : Nat) (x : Int) : Nat × State :=
  if 0 ≤ x ∧ x < (2 ^ n : Nat) then (x.toNat, s)
  else ((Config.freeDword s.free).toNat % 2 ^ n, { s with free := s.free + 1 })

/-- The forecast peak in 0.1 °C with n laps more, and the time to it; free values where a divisor is zero. -/
def peakOf (s : State) (n : Nat) : Int × Nat × State :=
  let x := forecast s n
  if fcDefined s then (tenths x.peak, x.tpeak, s)
  else
    ((((Config.freeDword s.free).toNat % 2 ^ 11 : Nat) : Int), (Config.freeDword (s.free + 1)).toNat % 2 ^ 20,
      { s with free := s.free + 2 })

/-- The junction limit less THM.JCFG.MARGIN, in 0.1 °C (R515). -/
def holdLimit (s : State) : Int := 10 * ((effTlim s : Nat) : Int) - 10 * ((wfld s.pwr.jcfg 14 10 : Nat) : Int)

/-- A forecast with a peak at least 2 °C below the threshold ends the boarding hold (R515). -/
def endGhold (s : State) (peak : Int) : State :=
  if peak ≤ holdLimit s - 20 then noticeHold (wrFld s rPace 16 16 0) else s

/-- The forecast before a lap's T0, that lap included: a boarding hold where the peak reaches the threshold, its end where
the peak lies at least 2 °C below it (R515). -/
def lapForecast (s : State) : State :=
  let r := peakOf (takeThm s) 1
  if holdLimit r.2.2 ≤ r.1 then setGhold r.2.2 else endGhold r.2.2 r.1

/-- The coolant demand: the largest planned heat over θ + τ (R517). -/
def coolDuty (s : State) : Nat :=
  let qf := (upto (10 * (thetaS s + tauS s) + 1)).foldl (fun m k => max m (plannedHeat s 0 k)) 0
  min 255 (max ((255 * qf + 12000) / 24000) (rdFld s rDmd 15 8))

/-- The governor's measured inputs of a forecast: heat of the 100 ms just past, lap length in 0.1 ms, heat of the
hottest landing and of the module in the last second. -/
def noteHeat (s : State) (heat lapLen hotNum hotDen : Nat) : State :=
  setPwr s { s.pwr with
    heat := (heat :: s.pwr.heat).take 600
    lapLen := lapLen
    hotNum := hotNum
    hotDen := hotDen }

/-- FORECAST_TICK: the forecast every 100 ms, THM.FCST, the end of a boarding hold, COOL_DMD (R514, R515, R517). -/
def execForecastTick (heat lapTenths hotNum hotDen : Nat) (s : State) : Res :=
  let s := noteHeat (takeThm s) heat lapTenths hotNum hotDen
  let n := b2n (ghold s)
  let r := peakOf s n
  let s := r.2.2
  let p := fieldOr s 11 r.1
  let s := wr p.2 rFcst (BitVec.ofNat 32 (p.1 + r.2.1 % 2 ^ 20 * 2 ^ 11))
  let s := endGhold s r.1
  let s := setPwr s { s.pwr with
    points := (forecast s n).points.reverse
    fcTime := s.time
    fcEdge := s.edges
    fcStep := fcSpacing s }
  .next (wrFld s rDmd 7 0 (coolDuty s))

/-- FORECAST_STALL: once no forecast was completed for 1 s, the coolant demand is full (R517). -/
def execForecastStall (s : State) : Res :=
  .next (if s.pwr.fcEdge + secTicks ≤ s.edges then wrFld s rDmd 7 0 255 else s)

/-! ## Measured temperatures (R516, R518) -/

/-- A sensor reads outside -10 °C to 150 °C. -/
def sensorBad (t : Int) : Bool := decide (t < -100) || decide (1500 < t)

def setSensor (s : State) : State := setFlag s rThmCause 6

/-- The trip: every array domain is forced OFF, and the module-fatal error TRIP follows (R516, R541). -/
def trip (s : State) (unit : Nat) : State :=
  let s := (presentLands s).foldl (fun s l => forceDom s l 0) { s with boot := { s.boot with tripped := true } }
  moduleFatal (setFlag s rThmCause 2) 4 unit

/-- The thermal limit after a check of a junction at j, with the limit TL, in 0.1 °C. -/
def nextThmLim (s : State) (j tl : Int) : State :=
  let p := s.pwr
  let s := setPwr s <|
    if tl ≤ j then { p with thmLim := 0, thmHot := true }
    else if tl - 20 ≤ j then { p with thmLim := p.thmLim * 7 / 8, thmHot := true }
    else if p.thmHot ∧ tl - 40 ≤ j then p
    else { p with thmLim := min 255 (p.thmLim + 4), thmHot := false }
  let s := if tl - 20 ≤ j then setFlag s rThmCause 1 else s
  if tl ≤ j then setGhold s else s

/-- THERMAL_CHECK: the governor acts on the hottest measured junction, in 0.1 °C (R516, R518). -/
def execThermalCheck (hottest : Int) (unit : Fin 36) (s : State) : Res :=
  let s := if sensorBad hottest then setSensor s else s
  let p := fieldOr s 11 hottest
  let s := wrFld (wrFld p.2 rThmStat 10 0 p.1) rThmStat2 15 10 unit.val
  let j := if sensorBad hottest then 1050 else hottest
  let s := updLim (nextThmLim s j (10 * ((effTlim s : Nat) : Int)))
  .next (if 1050 ≤ j then trip s unit.val else s)

/-! ## Flow and inlet (R518, R586) -/

/-- COOL_FLOW_PULSE: a pulse of at least 20 µs in either state is counted; pulses older than 2 s count for nothing. -/
def execCoolFlowPulse (us : Nat) (s : State) : Res :=
  if us < 20 then .next s
  else
    let old := s.pwr.pulses.filter fun t => s.edges ≤ t + 2 * secTicks
    .next (setPwr s { s.pwr with pulses := s.edges :: old })

/-- TIMECLK since a moment; 0 without one. -/
def since (s : State) (t : Option Nat) : Nat :=
  match t with
  | some x => s.edges - x
  | none => 0

/-- The flow limit after a check, with the flow below FLOWMIN, above it, or neither: FLOWLOW after 2 s below, until 10 s
above; FLOWLOSS without a pulse for 2 s, counted from the reset at the earliest. -/
def nextFlowLim (s : State) (below above : Bool) : State :=
  let p := s.pwr
  let s := setPwr s { p with
    lowAt := if below then some (p.lowAt.getD s.edges) else none
    okAt := if above then some (p.okAt.getD s.edges) else none }
  let low := below && 2 * secTicks ≤ since s s.pwr.lowAt
  let loss := pulsesIn s (2 * secTicks) == 0 && 2 * secTicks ≤ s.edges
  let flowLow := low || (s.pwr.flowLow && !(above && 10 * secTicks ≤ since s s.pwr.okAt))
  let s := setPwr s { s.pwr with flowLow := flowLow, flowLim := if loss then 0 else if flowLow then 127 else 255 }
  let s := if low then setGhold (setFlag s rThmCause 3) else s
  if loss then setGhold (setFlag s rThmCause 4) else s

/-- The flow is below FLOWMIN; free where FLOWK is 0, since the flow is then undefined (log 1). -/
def flowBelow (s : State) : Bool :=
  if flowK s = 0 then Config.freeBool s.free else flowCount s * 60 < wfld s.pwr.flow 19 12 * flowK s

/-- The flow is above FLOWMIN; free, but not below as well, where FLOWK is 0 (log 1). -/
def flowAbove (s : State) : Bool :=
  if flowK s = 0 then !Config.freeBool s.free && Config.freeBool (s.free + 1)
  else wfld s.pwr.flow 19 12 * flowK s < flowCount s * 60

/-- The flow in 0.1 L/min; free where it is undefined or beyond its field. -/
def flowShown (s : State) : Nat × State :=
  fieldOr s 11 (if flowK s = 0 then -1 else ((flowCount s * 600 / flowK s : Nat) : Int))

/-- FLOW_CHECK: flow, inlet and outlet each second, temperatures in 0.1 °C (R518). -/
def execFlowCheck (inlet outlet : Int) (s : State) : Res :=
  let s := if sensorBad inlet ∨ sensorBad outlet then setSensor s else s
  let used := if sensorBad inlet then 400 else inlet
  let s := setPwr s { s.pwr with inlet := used }
  let s := if 400 < used then setGhold (setFlag s rThmCause 5) else s
  let s := updLim (nextFlowLim s (flowBelow s) (flowAbove s))
  let f := flowShown { s with free := s.free + 2 }
  let i := fieldOr f.2 10 inlet
  let o := fieldOr i.2 10 outlet
  .next (wrFld (wrFld (wrFld o.2 rThmStat 31 21 f.1) rThmStat 20 11 i.1) rThmStat2 9 0 o.1)

/-! ## The forecast event (R519) -/

/-- The 148 bytes of a forecast. -/
def forecastBytes (s : State) : List Byte :=
  let t (x : Int) : List Byte := leBytes 2 (x % 65536).toNat
  let flags := b2n (ghold s) + 2 * b2n s.pwr.thmHot + 4 * b2n s.pwr.flowLow + 8 * b2n (stopped s)
  [1, 32] ++ leBytes 2 s.pwr.fcStep ++ leBytes 8 s.pwr.fcTime.toNat ++ leBytes 2 (s.pwr.fcSeq % 65536) ++
    [BitVec.ofNat 8 (rdFld s rDmd 7 0), BitVec.ofNat 8 flags] ++ leBytes 2 (rdFld s rFcst 10 0) ++
    leBytes 2 (rdFld s 0x20014 15 0) ++ fitTo 0 128 (s.pwr.points.flatMap fun p => leBytes 2 p.1 ++ t p.2)

/-- Events are sent over a transport: SMBus, or PCIe VDM while its port's link is up; none over I3C (R519). -/
def sendsEvents (s : State) (t : Nat) : Bool := t == 0 || (2 ≤ t && (getPcie s (t - 2)).up)

/-- Event class of a heat forecast (R519). -/
def heatClass : Nat := 0xf0

/-- The planned heat of the first point of the last forecast. -/
def firstHeat (s : State) : Nat := ((s.pwr.points.head?).map Prod.fst).getD 0

/-- A forecast event is due: none has been sent, 1 s has passed, GHOLD has changed, the peak has moved by more than 1 °C, or
the planned heat of the first point by more than 5 % (R519). -/
def heatDue (s : State) : Bool :=
  let p := s.pwr
  let peak := rdFld s rFcst 10 0
  let q := firstHeat s
  (match p.evEdge with | none => true | some e => decide (e + secTicks ≤ s.edges)) || ghold s != p.evHold ||
    decide (p.evPeak + 10 < peak) || decide (peak + 10 < p.evPeak) ||
    decide (5 * p.evHeat < 100 * (q - p.evHeat)) || decide (5 * p.evHeat < 100 * (p.evHeat - q))

/-- HEAT_FORECAST: with a forecast made and an event due, an event to the event receiver over SMBus or PCIe VDM; the latest
forecast is held for a poll over I3C. -/
def execHeatForecast (s : State) : Res :=
  if s.pwr.points.isEmpty ∨ !heatDue s then .next s
  else
    let bs := forecastBytes s
    let s := setPwr s { s.pwr with
      fcSeq := s.pwr.fcSeq + 1, evEdge := some s.edges, evHold := ghold s, evPeak := rdFld s rFcst 10 0
      evHeat := firstHeat s }
    let s := { s with mgmt := { s.mgmt with event := some bs } }
    match s.mgmt.receiver with
    | some (t, eid) => .next (if sendsEvents s t then emit s (.event t eid heatClass bs) else s)
    | none => .next s

end Sys2Proof.Machine
end

