-- ==== Sys2Proof/Machine/Laps.lean ====
section
/-! DEFINITION. Laps: the lap boundary, the turn point, the start and the end of a lap, the missing header, the optimiser's
result (R46, R64 to R66, R71, R76, R77, R83, R93 to R95, R122, R457 to R464, R515, R544, R566, R567, R596). -/

namespace Sys2Proof.Machine

/-! ## The launch table and lap control (R46, R464, R567) -/

/-- A new launch table is taken up where its slice count is the crossing's; else LOAD_SLICES, and the table in use stays.
Another slice count means other trains, loop time and hold threshold (R46, R49, R68). -/
def takeTable (s : State) (t : LaunchTable) : State :=
  let base := BitVec.ofNat 64 (rdPair s 0x40010)
  if base = s.crs.ltUse then s
  else if t.slices ≠ sliceCount s then setFlag s rCrsCause 0
  else
    let same := s.crs.nc = t.slices
    let s := { s with crs := { s.crs with ltUse := base, nc := t.slices, lt := t } }
    if same then s else updHolds (emptyTrains s)

/-- CRS.LAPCTL and SVC.BATCH take effect. -/
def takeLapRegs (s : State) : State :=
  { s with crs := { s.crs with lapCtl := rd s 0x40000, batchUse := rd s 0x68400 } }

/-! ## Rejoined landings (R544 steps 2 and 3) -/

/-- A landing whose copies are complete returns: it is live, its stand-in gives its slots back, without shadow homing the
copy of its slice that was reloaded is freed, every launcher's credit is zero, its bits in GLB.LFAIL and GLB.LFCODE clear, and
it is free (R70, R100, R388, R544 steps 2 and 3). -/
def rejoinLand (s : State) (l : Nat) : State :=
  let s := setLand s l { getLand s l with out := false, standFor := none, lastCw := none, lastCcw := none }
  let s := clearCredit (takeBack s l)
  let s := dropReloads s fun r => r.home == l
  let s := if shadowOn s then s else freeShadows s fun x => x.home == l
  let s := wrFld (wrFld s 0x50 l l 0) 0x54 l l 0
  let s := wrFld s (0x60 + 4 * (l / 4)) (8 * (l % 4) + 7) (8 * (l % 4)) 0
  let s := { s with boot := { s.boot with rejoins := tput false l false s.boot.rejoins } }
  updFree (setFlag (updHolds (noticeHold s)) 0x30 1) l

/-- Rejoins that a lap boundary completes. -/
def boundaryRejoins (s : State) : State :=
  (presentLands s).foldl (fun s l =>
    if tget false s.boot.rejoins l ∧ rdFld s 0x54 l l = 1 ∧ uncoreOn s l then rejoinLand s l else s) s

/-! ## The version due (R76, R83, R84, R95, R416) -/

/-- The turn point lies at this T0: a turn is armed, on an extended crossing for a T0 that VTURN named. -/
def turnDue (s : State) (t0 : Dword) : Bool :=
  turnArmed s && inLstate s .ready && (!s.crs.ext || (s.crs.turnT0 != 0 && s.crs.turnT0.toNat ≤ t0.toNat))

/-- Version of the lap that starts, and whether its T0 is the turn point: an abandoned lap runs again first, then a turn,
then the laps alternate while a retiring version is pinned. -/
def versionDue (s : State) (t0 : Dword) : Nat × Bool :=
  match s.crs.rerun with
  | some v => (if circulating s v.toNat then v.toNat else liveVer s, false)
  | none =>
    if turnDue s t0 then (s.crs.incoming.toNat, true)
    else if retVer s ≠ 0 ∧ pinnedTo s (retVer s) ≠ 0 ∧ s.crs.lapVer.toNat = liveVer s then (retVer s, false)
    else (liveVer s, false)

/-- Every home slice of this module has a launcher of the version. -/
def allLaunchers (s : State) (v : Nat) : Bool := (presentLands s).all fun h => hasLauncher s h v

/-- The turn point at a lap's T0: token-group masks of the live version become those of the retiring one. -/
def turnLap (s : State) : State :=
  let s := turnPoint s
  (presentLands s).foldl (fun s l =>
    if uncoreOn s l then
      let m := rdFld s (lcBase l + 0x8c) 15 0
      wr s (lcBase l + 0x8c) (BitVec.ofNat 32 (m * 2 ^ 16))
    else s) s

/-! ## The start of a lap (R64, R122) -/

/-- A landing at the start of a lap of version v: its token-group masks take effect, and it has received and launched
nothing. The bound bytes of a layer that the lap's scale passes gather anew are gone (R89). -/
def lapLand (s : State) (v : Nat) (t0 : Dword) (l : Nat) : State :=
  let x := getLand s l
  let lo := BitVec.ofNat 16 (rdFld s (lcBase l + 0x8c) 15 0)
  let hi := BitVec.ofNat 16 (rdFld s (lcBase l + 0x8c) 31 16)
  let anew (r : Rows) : Bool := s.crs.lt.layers.any fun y => y.layer.toNat == r.layer && ltTotal y 3 != 0
  setLand s l
    { x with
      seen := [], launched := [], lpos := 0, lready := t0, ended := false, contrib := [], contribScale := []
      waves := [], waveHold := false, bounds := x.bounds.filter fun r => !anew r
      tgLive := if v = liveVer s then lo else x.tgLive
      tgRet := if v = retVer s ∧ v ≠ liveVer s then hi else x.tgRet }

/-- A landing enters the first layer for which it launches something (R65, R91). -/
def enterLap (s : State) (l : Nat) : State := passLayers l (s.crs.lt.layers.length + 1) (enterLayer s l)

/-- A lap of version v starts at T0; in a re-run of an abandoned lap, requests keep what they had of it (R95). -/
def beginLap (s : State) (v : Nat) (t0 : Dword) : State :=
  let s := if v = liveVer s then admitRequests s else s
  let s := if s.crs.rerun.isSome then s else mapReqs s fun r => if r.ver.toNat = v then { r with drew := false } else r
  let s := wrPair (pauseReqs s) 0x40018 t0.toNat
  let s := { s with crs := { s.crs with
    inLap := true, lapVer := BitVec.ofNat 16 v, rerun := none, stalled := false } }
  let s := (liveLands s).foldl (fun s l => lapLand s v t0 l) s
  (liveLands s).foldl enterLap s

/-- The crossing controller may start laps: READY, no module-fatal error, no lap in progress, a launch table, no boarding
hold of another module, and a closed ring on an extended crossing (R46, R100, R422, R515, R531, R542). -/
def lapsRun (s : State) : Bool :=
  isReady s && !fatal s && !s.crs.inLap && s.crs.nc != 0 &&
    (!s.crs.ext || (s.crs.notices.all fun n => !n.boarding) && rdFld s rRing 24 24 == 0)

/-- Orders and landings that a lap boundary takes up. -/
def boundary (s : State) (t : LaunchTable) : State :=
  boundaryStandIns (boundaryRejoins (takeLapRegs (takeTable (updExt s) t)))

/-- A lap in which a wait watchdog fired is abandoned by purser firmware, to run again (R63, R95, R121). -/
def dropStalled (s : State) : State :=
  if s.crs.inLap ∧ s.crs.stalled then
    let s := abandonLap s
    { s with crs := { s.crs with stalled := false } }
  else s

/-- LAP_START: at a lap boundary the crossing controller takes up what waits for it, and starts a lap at T0 unless no
version or no launcher of a slice is there, or a hold is in effect (R64, R71, R515, R596), that of a cut-out among them
(R420). Under STOP admission goes on (R511). `lt` is what the launch table at
CRS.LTBASE says. -/
def execLapStart (t0 : Dword) (lt : LaunchTable) (s : State) : Res :=
  if !isReady s ∨ fatal s ∨ t0.toNat < s.time.toNat then .next s
  else
    let s := dropStalled s
    if s.crs.inLap ∨ s.crs.cutHold then .next s
    else
      let s := boundary s lt
      let v := versionDue s t0
      if v.1 = 0 ∨ !lapsRun s then .next s
      else if !allLaunchers s v.1 then .next (setFlag s rCrsCause 6)
      else
        let s := lapForecast s
        if bhold s then .next (if stopped s then admitRequests s else s)
        else .next (beginLap (if v.2 then turnLap s else s) v.1 t0)

/-! ## The end of a lap (R66) -/

/-- Landing l has the LAST ferry of every kind that a live launcher of this module sends for a layer. -/
def ownLasts (s : State) (l k : Nat) (y : LtLayer) : Bool :=
  let id := 32 * s.modnum.toNat + k
  ltKinds.all fun kind => launchTotal s k y kind == 0 ||
    (getLand s l).seen.any fun e => e.launcher == id && e.layer == y.layer.toNat && e.kind == kind && e.last

/-- Landing l has the LAST ferry of every kind from the launcher, in another module, of a home's ferries of a layer: the
launcher whose ferries of that home it has received. -/
def remoteLasts (s : State) (l home slice : Nat) (y : LtLayer) : Bool :=
  let seen := (getLand s l).seen.filter fun e => e.layer == y.layer.toNat
  ltKinds.all fun kind => ltCount y kind slice == 0 ||
    seen.any fun e => e.home == home && e.kind == kind &&
      seen.any fun f => f.launcher == e.launcher && f.kind == kind && f.last

/-- Landing l has received the LAST ferry of the launch table's final layer from every live launcher (R66). -/
def lapReceived (s : State) (l : Nat) : Bool :=
  match s.crs.lt.layers.getLast? with
  | none => true
  | some y =>
    ((launchers s).all fun k => ownLasts s l k y) &&
      (landingOrder s).zipIdx.all fun h => h.1 / 32 == s.modnum.toNat || remoteLasts s l h.1 h.2 y

/-- What a lap does to the requests of a landing (R459 to R462). -/
def lapReqs (s : State) (l : Nat) (toks : List LapTok) : State :=
  let t0 := rdPair s 0x40018
  ((reqsAt s l).filter fun r => r.ver == s.crs.lapVer && !r.paused).foldl (fun s r => lapReq s t0 toks r) s

/-- The lap has ended at every live landing: CRS.LAPSTAT.LAPS counts it, a version without pinned requests retires, and
queue sets whose reset waits end their requests (R66, R83 step 7, R455). -/
def finishLap (s : State) : State :=
  if (liveLands s).all fun l => (getLand s l).ended then
    lapResets (retireVersion { s with crs := { s.crs with inLap := false, laps := s.crs.laps + 1 } })
  else s

/-- LAP_END: the lap ends at a landing. -/
def execLapEnd (l : Fin 32) (toks : List LapTok) (s : State) : Res :=
  let n := l.val
  if !s.crs.inLap ∨ !liveLand s n ∨ (getLand s n).ended ∨ !lapReceived s n ∨ s.time.toNat < rdPair s 0x40018 then
    .next s
  else
    let s := setLand s n { getLand s n with ended := true }
    .next (finishLap (lapReqs s n toks))

/-! ## A missing header (R94, R540) -/

/-- NO_HEADER_TIMEOUT: a neighbour sees no valid header of the landing for 64 RINGCLK. A landing whose ring stop runs
sends headers; the event says that it does not. -/
def execNoHeaderTimeout (l : Fin 32) (s : State) : Res :=
  if liveLand s l.val then .next (landingFatal s l.val 1) else .next s

/-! ## The optimiser step (R93) -/

/-- The home has every GRADIENT ferry of its slice: of each layer, as many as the launch table gives it. -/
def gradsComplete (s : State) (l : Nat) : Bool :=
  let home := 32 * s.modnum.toNat + l
  match sliceOf s home with
  | none => false
  | some slice => s.crs.lt.layers.all fun y =>
      (upto (ltCount y 2 slice)).all fun q => (findRows (getLand s l).gradArea home y.layer.toNat q).isSome

/-- A G32 row of a ferry as FP32: each integer times the row's scale 2^E, rounded once with RNE (R89, R93 step 1). -/
def g32ToFp32 (s : State) (r : Rows) (i : Nat) (row : List Byte) : List Byte :=
  let e := rowScale s (r.scale.getD i 0)
  (upto 128).flatMap fun j =>
    let v := (BitVec.ofNat 32 (leNat ((row.drop (4 * j)).take 4))).toInt
    leBytes 4 (encodeElem fFP32 (Val.mk v 1 e false) rne false).1

/-- GRADIENT_SLICE_COMPLETE: the home has every GRADIENT ferry of its slice. It converts the rows to FP32, and runs the
program's optimiser, whose repacked result, which the program computes, goes into the landing's incoming home area: the one
that is FREE until LOCAL (R86, R93, R388). -/
def execGradientSliceComplete (l : Fin 32) (off : Nat) (data : List Byte) (s : State) : Res :=
  let n := l.val
  let x := getLand s n
  if !liveLand s n ∨ !arrayOn s n ∨ x.gradArea.isEmpty ∨ !gradsComplete s n then .next s
  else
    let out := x.gradArea.map fun r => { r with rows := r.rows.zipIdx.map fun p => g32ToFp32 s r p.2 p.1 }
    let s := setLand s n { x with gradArea := [], gradFp32 := out }
    match areaWith s n 0 homeAreas with
    | some k =>
      let at' := areaBase s n k + off
      if off + data.length ≤ areaSize s n k ∧ stackReach s n at' data.length then .next (writeStack s n at' data false)
      else .next s
    | none => .next s

end Sys2Proof.Machine
end

