-- ==== Sys2Proof/Machine/Reset.lean ====
section
/-! DEFINITION. Resets, start-up, boot, READY, the loss and the rejoin of a landing, the power inputs (R38, R39, R378, R396,
R399 to R401, R471 to R473, R499, R505, R513, R522 to R549, R586, R587). -/

namespace Sys2Proof.Machine

/-! ## Resets of the whole module (R522 to R524, R538) -/

/-- The resets that reach every domain but PD68, or all. -/
inductive RKind where
  | powerOn | pin | clkLoss | module
deriving DecidableEq, Repr

/-- GLB.RSTCAUSE.LAST, and the number of the kind's own flag. -/
def RKind.num : RKind → Nat
  | .powerOn => 0 | .pin => 1 | .clkLoss => 2 | .module => 3

/-- The reset reaches PD68. -/
def RKind.reachesAon : RKind → Bool
  | .powerOn | .pin => true
  | .clkLoss | .module => false

/-- Bits of a register word that a reset keeps (R378, R400, R421, R466, R467, R523). -/
def keptBits (k : RKind) (o : Nat) : Nat :=
  let aon := !k.reachesAon
  if k = .powerOn then 0
  else if o = 0x40 ∨ (0x60 ≤ o ∧ o < 0x80) ∨ o = 0x20018 ∨ o = 0x2001c then 0xffffffff
  else if o = 0x20000 then 0x1f8
  else if o = 0x30000 then 4
  else if aon ∧ ((0x20040 ≤ o ∧ o < 0x20058) ∨ o = 0x20060 ∨ o = 0x20064) then 0xffffffff
  else if aon ∧ o = rRing then 0x2000000
  else if aon ∧ o = 0x50000 then 0xf
  else if unitList.any fun u => (wctlOf u o).isSome then 0xff
  else 0

/-- The register words after a reset: the kept bits, every other bit at its reset value. -/
def keptRegs (k : RKind) (rs : Tab Word) : Tab Word :=
  rs.filterMap fun e =>
    let m := BitVec.ofNat 32 (keptBits k e.1)
    let v := (e.2 &&& m) ||| (resetWord e.1 &&& ~~~m)
    if v = resetWord e.1 then none else some (e.1, v)

/-- Window generations after a reset: zero at power-up, else each one more (R378). -/
def resetGens (k : RKind) (g : Tab (BitVec 8)) : Tab (BitVec 8) :=
  if k = .powerOn then [] else unitList.foldl (fun t u => tput 0 u (tget 0 g u + 1) t) g

/-- Domains that a deasserted power input holds OFF (R499). -/
def inputDoms (n : Nat) : List Nat :=
  match n with
  | 0 => upto 72
  | 1 => (upto 72).filter fun d => d < 68 || 70 ≤ d
  | n => (upto 8).flatMap fun i => [8 * (n - 2) + i, 32 + 8 * (n - 2) + i]

/-- PWR.PDn.FORCED follows the inputs that are deasserted. -/
def updForced (s : State) : State :=
  (upto 72).foldl (fun s d => wrFld s (rPd d) 7 7 (b2n (s.pwr.bad.any fun n => (inputDoms n).contains d))) s

/-- Copies in boot flash, tried ones forgotten by a POWER-ON or PIN reset (R535). -/
def resetFlash (k : RKind) (t : Tab (Option FlashCopy)) : Tab (Option FlashCopy) :=
  if k.reachesAon then t.map fun e => (e.1, e.2.map fun f => { f with tried := false }) else t

/-- The test access port after a reset: boundary scan and core debug end where the life-cycle state does not give them
without DEBUG_UNLOCK (R490, R588). -/
def keptTap (t : Tap) (lcs : BitVec 3) : Tap :=
  if (t.ir = 0 ∨ t.ir = 2 ∨ t.ir = 8) ∧ lcs ≠ 0 ∧ lcs ≠ 3 then { t with ir := 0x1f, drive := false } else t

/-- The module after a reset (R523, R524): memories scrubbed, every domain OFF, PD68 kept where the reset does not reach
it. -/
def wipe (s : State) (k : RKind) : State :=
  let fell := s.boot.fell
  let s : State := { (State.reset) with
    pending := s.pending
    time := if k = .powerOn then 0 else s.time
    regs := keptRegs k s.regs
    nextId := s.nextId
    sto := { next := s.sto.next }
    hm := {
      opKey := if s.fuses.lcs = 2 then s.hm.opKey else none
      wrapKey := if s.fuses.lcs = 2 then s.hm.wrapKey else none
      winGen := resetGens k s.hm.winGen
      nonce := s.hm.nonce + 1 }
    xpt := { stepped := s.xpt.stepped && k != .powerOn, nextQp := s.xpt.nextQp }
    pcie := s.pcie.map fun e => (e.1, { low := e.2.low })
    pwr := { bad := s.pwr.bad, vcore := s.pwr.vcore, inlet := s.pwr.inlet, boarded := if k.reachesAon then [] else [68] }
    boot := {
      flash := resetFlash k s.boot.flash
      straps := s.boot.straps
      fell := fell && k == .module
      resetAt := if k = .powerOn then 0 else s.time
      noClock := s.boot.noClock
      pinLow := s.boot.pinLow }
    tap := if k = .powerOn then { held := s.tap.held } else keptTap s.tap s.fuses.lcs
    fuses := s.fuses
    modnum := s.modnum
    free := s.free
    outs := s.outs }
  let s := if k.reachesAon then s else wrFld s (rPd 68) 3 2 2
  let s := wrFld s 0x40 18 16 k.num
  updForced (if k = .powerOn then s else setFlag s 0x40 k.num)

/-- A POWER-ON reset still runs: PWR_OK_0 is low, or the always-on domain has not boarded since. -/
def powerOnRuns (s : State) : Bool := s.pwr.bad.contains 0 || (rdFld s 0x40 18 16 == RKind.powerOn.num && domState s 68 != 2)

/-- A reset of greater reach still runs (R538): a POWER-ON reset, or the pin is low. -/
def greaterRuns (s : State) (k : RKind) : Bool := (k != .powerOn && powerOnRuns s) || (!k.reachesAon && s.boot.pinLow)

/-- A reset, unless one of greater reach covers it. -/
def doReset (s : State) (k : RKind) : State := if greaterRuns s k then s else wipe s k

/-- A MODULE reset with a further flag of GLB.RSTCAUSE; where a greater one covers it, neither (R538). -/
def moduleResetWith (s : State) (flag : Nat) : State :=
  if greaterRuns s .module then s else setFlag (wipe s .module) 0x40 flag

/-- The straps as they are sampled; a strap that changes in its window gives any pattern (R587). -/
def sampleStraps (s : State) (straps : BitVec 3) (stable : Bool) : State :=
  let v := if stable then straps else Config.freeSplit s.free
  let s := { s with free := if stable then s.free else s.free + 1, boot := { s.boot with straps := v } }
  wrFld s 0x50000 3 0 v.toNat

/-- PWR_OK_0 asserts: a POWER-ON reset while ROOTCLK is present; without it the module stays in the reset of the clock's
loss until the clock is there (R39, R522). -/
def powerUp (s : State) (straps : BitVec 3) (stable : Bool) : State :=
  let s := { s with pwr := { s.pwr with bad := sdel 0 s.pwr.bad } }
  if s.boot.noClock then updForced s else sampleStraps (wipe s .powerOn) straps stable

/-- POWER_ON_RESET: PWR_OK_0 asserts. -/
def execPowerOnReset (straps : BitVec 3) (strapsStable : Bool) (s : State) : Res := .next (powerUp s straps strapsStable)

/-- The filter of SYS_RST_N and PERST#: a pulse under 2 µs is ignored, one of 10 µs or more acts, and one between them acts or
not (R586, R590; log 1). -/
def pulseActs (s : State) (lowNs : Nat) : Bool × State :=
  (decide (10000 ≤ lowNs) || (decide (2000 ≤ lowNs) && Config.freeBool s.free), { s with free := s.free + 1 })

/-- PIN_RESET: SYS_RST_N is low for a time. While PWR_OK_0 is low or a POWER-ON reset runs it adds nothing but that the module
leaves reset when both have ended (R538, R586). -/
def execPinReset (lowNs : Nat) (straps : BitVec 3) (strapsStable : Bool) (s : State) : Res :=
  let r := pulseActs s lowNs
  let low : State := { r.2 with boot := { r.2.boot with pinLow := true } }
  if !r.1 then .next r.2
  else .next (if greaterRuns s .pin then low else sampleStraps (doReset low .pin) straps strapsStable)

/-- SYS_RST_RELEASE: the pin rises, and start-up proceeds. -/
def execSysRstRelease (s : State) : Res :=
  .next (if s.boot.pinLow then { s with boot := { s.boot with pinLow := false, resetAt := s.time } } else s)

/-- CLOCK_LOSS: ROOTCLK is absent for more than 2 µs (R39). -/
def execClockLoss (absentNs : Nat) (s : State) : Res :=
  if absentNs ≤ 2000 then .next s
  else .next (doReset { s with boot := { s.boot with noClock := true } } .clkLoss)

/-- CLOCK_RETURN: ROOTCLK has been present for 1 ms. -/
def execClockReturn (s : State) : Res :=
  .next (if s.boot.noClock then { s with boot := { s.boot with noClock := false, resetAt := s.time } } else s)

/-- A keyed order: KEY is 0x5A and GO is 1 (R547). -/
def keyed (v : Word) : Bool := wfld v 7 0 == 0x5a && wfld v 8 8 == 1

/-- MODULE_RESET: a write of GLB.RSTMOD. -/
def execModuleReset (m : Master) (v : Word) (s : State) : Res :=
  .next (if reachesModule m ∧ keyed v then doReset s .module else s)

/-! ## PURSER resets (R79, R396, R526, R527) -/

/-- Loads, restores and checkpoint writes in progress are abandoned; connections are dropped. -/
def dropStorage (s : State) : State :=
  let s := if inLstate s .loading ∨ inLstate s .verifying then
      freeIncoming (dropCmds (setLstate (endLoadOrder s) .idle) .load)
    else s
  let s := s.sto.reloads.foldl (fun s r => failReload s r.home r.ver .aborted 0 0) s
  let s := if s.sto.ck.step ≠ .idle then failCk s .aborted 0 0 else s
  { s with sto := { s.sto with cmds := [], lost := [] }, xpt := { s.xpt with qps := [] } }

/-- A PURSER reset: boarding hold until READY, queue sets reset, quay SRAM scrubbed, quay windows closed, deckhands
restarted. Start-up begins again at QUAYS where it had come there and no module-fatal error is in effect (R529, R542). -/
def purserReset (s : State) (flag : Nat) : State :=
  let s := noticeHold (setPwr s { s.pwr with purHold := true })
  let s := (upto 64).foldl (fun s q => resetQs s q) (dropStorage s)
  let s := (upto 4).foldl (fun s q => scrubRange (resetWins s (32 + q)) (memKey q 4 0) (2 ^ 26)) s
  let s := { s with threads := s.threads.filter fun e => e.1 < 131072 }
  let s := wrFld s rBootstat 4 4 0
  let s := if fatal s ∨ rdFld s rBootstat 3 0 < 3 then s else setStage s 3
  let s := { s with boot := { s.boot with
    resetAt := s.time
    quaysAt := s.time
    served := s.time
    deckhands := (presentLands s).filter fun l => uncoreOn s l } }
  wrFld (setFlag s 0x40 flag) 0x40 18 16 4

/-- PURSER_RESET: a write of GLB.RSTPUR; a reset of the module covers it (R538, R547). -/
def execPurserReset (m : Master) (v : Word) (s : State) : Res :=
  if !reachesModule m ∨ !keyed v ∨ s.pwr.bad.contains 0 ∨ s.boot.pinLow ∨ s.boot.noClock then .next s
  else .next (purserReset s 8)

/-- PURSER_WATCHDOG: channel 0 has submitted no request for PURWD, in units of 10 ms (R527). -/
def execPurserWatchdog (s : State) : Res :=
  if quayOn s 0 ∧ s.boot.served.toNat + s.boot.cfg.purwd * 10 * tick1ms ≤ s.time.toNat then .next (purserReset s 7)
  else .next s

/-! ## Boot flash and the boot chain (R399 to R401, R471, R472, R533, R534, R536) -/

/-- A copy of a component: 0 monitor, 1 purser firmware, 2 boot configuration record; copy 0 is A. From the factory the A
copies of the monitor and of purser firmware are valid and active, and no record is (log 24). -/
def flashCopy (s : State) (c k : Nat) : FlashCopy :=
  match tget none s.boot.flash (2 * c + k) with
  | some f => f
  | none =>
    { sig := c < 2 && k == 0, digest := Config.factoryDigest c, seq := if c < 2 ∧ k = 0 then some 0 else none }

def setCopy (s : State) (c k : Nat) (f : FlashCopy) : State :=
  { s with boot := { s.boot with flash := tput none (2 * c + k) (some f) s.boot.flash } }

/-- Every field of a boot configuration record is in range (R533). -/
def recordOk (bs : List Byte) : Bool :=
  bs.length == 352 && field bs 0 4 == 0x52434259 && field bs 4 2 == 1 && field bs 6 2 < 16 && field bs 8 1 < 8 &&
    field bs 9 1 < 128 && field bs 10 2 < 2048 && 10 ≤ field bs 14 2 && field bs 14 2 ≤ 6000 && 1 ≤ field bs 16 2 &&
    field bs 16 2 ≤ 1000 && (bs.drop 20).take 236 == List.replicate 236 0

/-- A valid copy: its signature verifies and its security version is not below the fuse counter. -/
def copyValid (s : State) (c k : Nat) : Bool :=
  let f := flashCopy s c k
  f.sig && decide (tget 0 s.fuses.svn c ≤ f.svn) && (c != 2 || recordOk f.image)

/-- The copy marked active: the one whose marker has the higher sequence number. -/
def activeCopy (s : State) (c : Nat) : Nat :=
  match (flashCopy s c 0).seq, (flashCopy s c 1).seq with
  | some a, some b => if a < b then 1 else 0
  | none, some _ => 1
  | _, none => 0

/-- A copy is marked active: its marker takes the next 32-bit sequence number, and its CRC-32C holds (R536). -/
def markActive (s : State) (comp k : Nat) : State :=
  let a := (flashCopy s comp 0).seq.getD 0
  let b := (flashCopy s comp 1).seq.getD 0
  setCopy s comp k { flashCopy s comp k with seq := some ((if a < b then b else a) + 1) }

/-- The copy that runs: the valid one with the higher security version, on a tie the active one, otherwise A. After the boot
watchdog's fallback it is purser firmware's other copy, which the watchdog marked active, though it be the older one
(R535, R537; log 114). -/
def chosenCopy (s : State) (c : Nat) : Option Nat :=
  match copyValid s c 0, copyValid s c 1 with
  | false, false => none
  | true, false => some 0
  | false, true => some 1
  | true, true =>
    let a := (flashCopy s c 0).svn
    let b := (flashCopy s c 1).svn
    some (if c = 1 ∧ s.boot.fell then activeCopy s c else if a = b then activeCopy s c else if a < b then 1 else 0)

/-- A component runs: its copy is noted and measured in its block, with its security version where it is the copy marked
active, and a copy that is not the active one sets HMB.CAUSE.BOOTFALLBACK. -/
def runCopy (s : State) (c : Nat) : State :=
  match chosenCopy s c with
  | none => s
  | some k =>
    let f := flashCopy s c k
    let svn := if k = activeCopy s c then f.svn else 0
    let s := setCopy s c k { f with tried := true }
    let s := { s with boot := { s.boot with
      digests := tput 0 (2 + c) f.digest s.boot.digests
      ran := tput 0 c (k + 1) s.boot.ran
      ranSvn := tput 0 c svn s.boot.ranSvn } }
    if k ≠ activeCopy s c ∨ (c = 1 ∧ s.boot.fell) then setFlag s 0x70004 3 else s

/-- Copy of a component that ran: 0 none, 1 A, 2 B. -/
def ranCopy (s : State) (c : Nat) : Nat := tget 0 s.boot.ran c

/-- The ports take their modes and roles: at most 8 Ethernet ports, the lowest; the others that the record names are
held DOWN with XPT.CAUSE.CONFIG (R399, R401). -/
def setPorts (s : State) (mask split : Nat) : State :=
  let named := maskBits 16 mask
  let s := if 8 < named.length then setFlag s rXcause 8 else s
  let eth := named.take 8
  let s := wrFld s 0x50000 19 4 (eth.foldl (fun n p => n + 2 ^ p) 0)
  (upto 16).foldl (fun s p =>
    let s := wrFld s (rPort p) 3 3 (b2n (eth.contains p))
    wrFld s (rPort p) 6 4 (if named.contains p then 0 else splitRole split p)) s

/-- The split: from a valid field of the record, else from the straps; only a reset that reaches PD68 changes it
(R400). -/
def setSplit (s : State) (rec : Option Nat) : State :=
  if rdFld s 0x40 18 16 ≤ 1 then
    match rec with
    | some v => wrFld s 0x50000 3 0 (v + 8)
    | none => wrFld s 0x50000 3 0 s.boot.straps.toNat
  else s

/-- The boot configuration record takes effect, or the defaults of R534 with GLB.BOOTSTAT.CFGDEF. -/
def applyRecord (s : State) : State :=
  let bs := match chosenCopy s 2 with | some k => (flashCopy s 2 k).image | none => []
  let have' := (chosenCopy s 2).isSome
  let s := if have' then s else setFlag s rBootstat 5
  let s := setSplit s (if have' ∧ bit (field bs 6 2) 0 then some (field bs 8 1) else none)
  let cfg : BootCfg := if have' then
      { perstMod := bit (field bs 6 2) 1, tmaster := bit (field bs 6 2) 2, shadow := bit (field bs 6 2) 3
        mgmtAddr := field bs 9 1, purwd := field bs 14 2, groupWait := field bs 16 2 }
    else {}
  let s := { s with boot := { s.boot with cfg := cfg }, modnum := BitVec.ofNat 11 (if have' then field bs 10 2 else 0) }
  setPorts s (if have' then field bs 12 2 else 0) (rdFld s 0x50000 2 0)

/-- The stage rises to n; SAFE and FATAL stand. -/
def raiseStage (s : State) (n : Nat) : State := if rdFld s rBootstat 3 0 < n then setStage s n else s

/-- Digest of the fuse state: life-cycle state, grade, security-version counters (R473 block 5). The order and widths of
its bytes are the model's (log 11). -/
def fuseDigest (s : State) : BitVec 384 :=
  sha384 ([BitVec.ofNat 8 s.fuses.lcs.toNat, BitVec.ofNat 8 s.fuses.grade.toNat] ++
    (upto 3).flatMap fun c => leBytes 2 (tget 0 s.fuses.svn c))

/-- ROM and monitor: the monitor's copy, then purser firmware and the record; with no valid monitor the ROM stays and no
quay boards (R471, R472). Stage MONITOR begins (R529). -/
def bootChain (s : State) : State :=
  if s.boot.chained ∨ s.boot.romOnly then s
  else if (chosenCopy s 0).isNone then { s with boot := { s.boot with romOnly := true } }
  else
    let s := runCopy (runCopy (runCopy (raiseStage s 2) 0) 1) 2
    let s := wrFld s 0x70000 3 3 (b2n (ranCopy s 0 == 2))
    let s := wrFld s rBootstat 6 6 (b2n (ranCopy s 1 == 2))
    let s := { s with boot := { s.boot with digests := tput 0 5 (fuseDigest s) s.boot.digests } }
    let s := applyRecord s
    { s with boot := { s.boot with chained := true, fell := false } }

/-- The harbourmaster releases the quays: stage QUAYS begins, and with it the watchdogs (R527, R529, R535). -/
def releaseQuays (s : State) : State :=
  if s.boot.released then s
  else
    { raiseStage s 3 with boot := { s.boot with released := true, quaysAt := s.time, served := s.time } }

/-! ## Boarding (R505, R529, R530) -/

/-- The stage that a domain's boarding begins: ROM with PD69, LANDINGS with the first uncore (R529). -/
def stageOf (d : Nat) : Nat := if d = 69 then 1 else if 32 ≤ d ∧ d < 64 then 4 else 0

/-- BOARDING: a domain reaches its boarding time. The first quay's is when the harbourmaster releases the quays, which
the ROM and the monitor come before. -/
def execBoarding (d : Fin 72) (s : State) : Res :=
  let n := d.val
  let up (s : State) : State := boardDom (if boards s n then raiseStage s (stageOf n) else s) n
  if n = 68 ∨ n = 69 then .next (up s)
  else if domState s 69 ≠ 2 ∨ !s.boot.chained ∨ s.boot.noClock ∨ s.boot.pinLow then .next s
  else .next (up (releaseQuays s))

/-- DOMAIN_TRANSITION_COMPLETE: the transition in progress ends, and one to a replaced request starts (R502, R504). Stacks
enter self-refresh before their domain leaves ON, and leave it after the domain is ON (R42). With PD69 ON the ROM runs, and the
monitor after it (R471, R472). -/
def execDomainTransitionComplete (d : Fin 72) (s : State) : Res :=
  let n := d.val
  match goalOf s n with
  | none => .next s
  | some (v, sref) =>
    if v < 2 ∧ !dependentsLow s n v then .next s
    else if v = 2 ∧ !((requires n).all fun r => domState s r == 2) then .next s
    else
      let s := setPwr s { s.pwr with goal := tput none n none s.pwr.goal }
      let s := if domState s n = 2 then setDom (setSref s n sref) n v else setDom s n v
      let s := startMove (setSref s n sref) n
      .next (if n = 69 ∧ v = 2 then bootChain s else s)

/-- GROUPWAIT_EXPIRY: GROUPWAIT ms have passed since a PHY bank came ON. -/
def execGroupwaitExpiry (bank : Fin 2) (s : State) : Res :=
  let b := bank.val
  let due := (tget 0 s.boot.bankAt b).toNat + s.boot.cfg.groupWait * tick1ms
  if domState s (70 + b) = 2 ∧ due ≤ s.time.toNat then
    .next { s with boot := { s.boot with waited := sadd b s.boot.waited } }
  else .next s

/-- Every domain whose REQ is ON is ON, the domains of failed landings apart (R530, R538). -/
def domsReady (s : State) : Bool :=
  (upto 72).all fun d =>
    absentDom s d || (d < 64 && landFailed s (d % 32)) || pdReq s d != 2 || domState s d == 2

/-- No stack of a landing that is on scrubs. -/
def scrubsDone (s : State) : Bool :=
  (presentLands s).all fun l => !uncoreOn s l || (!scrubbing s l 0 && !scrubbing s l 1)

/-- Purser firmware runs on every live quay and deckhand. -/
def firmwareRuns (s : State) : Bool :=
  ranCopy s 1 != 0 && (presentLands s).all fun l => !uncoreOn s l || s.boot.deckhands.contains l

/-- A group has a port that is UP. -/
def groupUp (s : State) (r : Nat) : Bool := (rolePorts s r).any fun p => portUp s p

/-- Every Slipway group of the split is UP, or GROUPWAIT has passed for its banks. -/
def groupsReady (s : State) : Bool :=
  (upto 7).all fun r =>
    r == 0 || (rolePorts s r).isEmpty || groupUp s r || (rolePorts s r).all fun p => s.boot.waited.contains (p / 8)

/-- The module stands alone: pattern 0b111, or no group of it is UP. -/
def standsAlone (s : State) : Bool := rdFld s 0x50000 2 0 == 7 || (upto 7).all fun r => r == 0 || !groupUp s r

/-- Time: LOCKED, the time master, alone, or 1 s since the first group came UP. -/
def timeReady (s : State) : Bool :=
  rdFld s 0x50010 1 0 == 2 || rdFld s 0x50018 0 0 == 1 || s.boot.cfg.tmaster || standsAlone s ||
    match s.boot.firstUp with
    | some t => decide (t.toNat + 1000 * tick1ms ≤ s.time.toNat)
    | none => false

/-- The conditions of READY (R530). -/
def readyNow (s : State) : Bool :=
  s.boot.chained && !isReady s && !fatal s && rdFld s rBootstat 3 0 != 8 && domsReady s && scrubsDone s &&
    firmwareRuns s && groupsReady s && timeReady s

/-- The security-version fuses rise to those of the copies that ran as the active ones (R472, R537). -/
def raiseSvn (s : State) : State :=
  (upto 3).foldl (fun s c => { s with fuses := { s.fuses with
    svn := tput 0 c (max (tget 0 s.fuses.svn c) (tget 0 s.boot.ranSvn c)) s.fuses.svn } }) s

/-- READY: GLB.BOOTSTAT, GLB.CAUSE.READY, what the record sets at READY, the end of a PURSER reset's hold, and the
launchers of landings lost before (R526, R530, R533, R538, R548). -/
def execReady (s : State) : Res :=
  if !readyNow s then .next s
  else
    let ms := min 0xffff ((s.time.toNat - s.boot.resetAt.toNat) / tick1ms)
    let s := setFlag (setStage s 7) rBootstat 4
    let s := if rdFld s 0x50010 1 0 = 2 then s else setFlag s rBootstat 7
    let s := setFlag (wrFld s rBootstat 31 16 ms) 0x30 3
    let s := if s.boot.cfg.shadow then setFlag s 0x40000 16 else s
    let s := if s.boot.cfg.tmaster then becomeMaster (setFlag s 0x50018 0) else s
    let s := raiseSvn (noticeHold (setPwr s { s.pwr with purHold := false }))
    .next (lateLaunchers s)

/-- BOOT_WATCHDOG: READY is not reached 5 s after stage QUAYS began: the other purser copy, or SAFE (R535). -/
def execBootWatchdog (s : State) : Res :=
  if isReady s ∨ fatal s ∨ !s.boot.chained ∨ rdFld s rBootstat 3 0 = 8 ∨
      s.time.toNat < s.boot.quaysAt.toNat + 5000 * tick1ms then .next s
  else
    let k := if ranCopy s 1 = 1 then 1 else 0
    let f := flashCopy s 1 k
    if copyValid s 1 k ∧ !f.tried then
      let s := markActive s 1 k
      .next (moduleResetWith { s with boot := { s.boot with fell := true } } 5)
    else .next (setStage s 8)

/-! ## Errors (R540 to R542) -/

/-- LANDING_FATAL: an error of R540. -/
def execLandingFatal (l : Fin 32) (code : BitVec 8) (s : State) : Res :=
  .next (if 1 ≤ code.toNat ∧ code.toNat ≤ 6 then landingFatal s l.val code.toNat else s)

/-- DECKHAND_HEARTBEAT_TIMEOUT: a deckhand sends no heartbeat to its quay for 100 ms. -/
def execDeckhandHeartbeatTimeout (l : Fin 32) (s : State) : Res :=
  .next (if s.boot.deckhands.contains l.val ∧ uncoreOn s l.val then landingFatal s l.val 4 else s)

/-- The deckhand of a landing is in FAULT with FETCH_ECC. -/
def deckhandBad (s : State) (l : Nat) : Bool :=
  let t := tget {} s.threads (131072 + l)
  t.st == .fault && t.fcode == FCode.fetchEcc.num

/-- FETCH_ECC in a deckhand is landing-fatal (R540); the loss of the landing follows with the next TIMECLK edge (log 115). -/
def loseDeckhands (s : State) : State :=
  ((presentLands s).filter (deckhandBad s)).foldl (fun s l => landingFatal s l 4) s

/-- A module-fatal error; with HM_FAULT the always-on logic orders the reset at once (R542). -/
def fatalError (s : State) (code unit : Nat) : State :=
  let s := moduleFatal s code unit
  if code = 1 then moduleResetWith s 6 else s

/-- MODULE_FATAL: an error of R541. -/
def execModuleFatal (code : BitVec 8) (unit : BitVec 6) (s : State) : Res :=
  .next (if 1 ≤ code.toNat ∧ code.toNat ≤ 6 then fatalError s code.toNat unit.toNat else s)

/-- HM_WATCHDOG: the harbourmaster has not serviced the always-on watchdog for 100 ms. -/
def execHmWatchdog (s : State) : Res := .next (if domState s 69 = 2 then fatalError s 1 noUnit else s)

/-- FATAL_AUTORESET: FATALDLY after a module-fatal error, with AUTORST; after a trip once every junction reads below the
limit less 10 °C (R542, R550). -/
def execFatalAutoreset (s : State) : Res :=
  let dly := max 1 (rdFld s 0x5c 15 8) * 10 * tick1ms
  let cool := !s.boot.tripped || decide (rdFld s rThmStat 10 0 + 100 < 10 * effTlim s)
  if fatal s ∧ rdFld s 0x5c 0 0 = 1 ∧ s.boot.fatalAt.toNat + dly ≤ s.time.toNat ∧ cool then
    .next (moduleResetWith s 6)
  else .next s

/-! ## Rejoin (R544, R545) -/

def rejoining (s : State) (l : Nat) : Bool := rdFld s 0x54 l l == 1

/-- A rejoin is refused. -/
def rejoinBad (s : State) (l : Nat) : Bool :=
  !uncoreOn s l || !arrayOn s l || !landFailed s l || rdFld s rVstat 4 4 == 1 ||
    landFailed s ((l + 1) % 32) || landFailed s ((l + 31) % 32)

/-- REJOIN: a write of GLB.REJOIN. -/
def execRejoin (m : Master) (v : Word) (s : State) : Res :=
  if !reachesModule m then .next s
  else
    .next <| ((maskBits 32 v.toNat).filter fun l => !rejoining s l).foldl (fun s l =>
      if rejoinBad s l then wrFld (setFlag s rErrstat 0) rErrstat 5 1 l else setFlag s 0x54 l) s

/-- The live landing before a landing in ring order. -/
def prevLive (s : State) (l : Nat) : Option Nat :=
  (ringFrom false .ccw l).find? fun k => liveLand s k && k != l

/-- The copy of the landing's home slice of the live version, from its shadow holder into a FREE home area, with the area. -/
def homeBack (s : State) (l : Nat) : Option (Copy × Nat) :=
  let v := liveVer s
  match s.crs.shadows.find? (fun x => x.home == l && x.ver == v && x.done), (homeSlices s).find? (fun h => h.1 == l) with
  | some x, some h =>
    let n := sliceLen s.sto.liveMap h.2
    (homeAreas.find? fun k => areaUse s l k == 0 && n ≤ areaSize s l k).map fun k =>
      (⟨x.land, areaBase s x.land x.k, l, areaBase s l k, n⟩, k)
  | _, _ => none

/-- The copy of the shadow slice that the landing holds, from its previous live landing's home area, with the area. -/
def shadowBack (s : State) (l : Nat) : Option (Copy × Nat) :=
  match (prevLive s l).bind fun p => (homeSlices s).find? fun h => h.1 == p with
  | some h =>
    let n := sliceLen s.sto.liveMap h.2
    match areaWith s h.1 1 homeAreas, shadowAreas.find? fun k => areaUse s l k == 0 && n ≤ areaSize s l k with
    | some j, some k => some (⟨h.1, areaBase s h.1 j, l, areaBase s l k, n⟩, k)
    | _, _ => none
  | none => none

/-- The copies of a rejoin: none without a live version (R544 step 1). -/
def rejoinCopies (s : State) (l : Nat) : List Copy :=
  if liveVer s = 0 then []
  else ((homeBack s l).toList ++ if shadowOn s then (shadowBack s l).toList else []).map fun c => c.1

def takeHome (s : State) (l : Nat) : State :=
  match homeBack s l with
  | some (c, k) => setUse (copyStack s c.land c.off c.dest c.at' c.len) l k 1
  | none => s

def takeShadow (s : State) (l : Nat) : State :=
  match shadowBack s l with
  | some (c, k) =>
    let s := setUse (copyStack s c.land c.off c.dest c.at' c.len) l k 1
    { s with crs := { s.crs with shadows := s.crs.shadows ++ [⟨l, k, c.land, liveVer s, true, false⟩] } }
  | none => s

/-- REJOIN_COPY_COMPLETE: both slices are in the landing's stacks; not while one of them has no copy that is whole or no area
to go to, nor while a stack of the copies cannot be reached (R544 step 1, R367). -/
def execRejoinCopyComplete (l : Fin 32) (s : State) : Res :=
  let n := l.val
  let there : Bool := liveVer s == 0 || ((homeBack s n).isSome && (!shadowOn s || (shadowBack s n).isSome))
  let reach : Bool := there && (rejoinCopies s n).all fun c => copyReach s c.land c.off c.dest c.at' c.len
  if !rejoining s n ∨ tget false s.boot.rejoins n ∨ !uncoreOn s n ∨ !arrayOn s n ∨ !reach then .next s
  else
    let s := if liveVer s = 0 then s else takeHome s n
    let s := if liveVer s ≠ 0 ∧ shadowOn s then takeShadow s n else s
    .next { s with boot := { s.boot with rejoins := tput false n true s.boot.rejoins } }

/-! ## Power inputs (R499, R513, R541, R586) -/

/-- Landings of a row that lose power leave the crossing, which opens (R97, R499). -/
def loseRow (s : State) (r : Nat) : State :=
  let ls := (upto 8).map fun i => 8 * r + i
  let s := abandonLap (ls.foldl (fun s l => loseReqs s l) s)
  let s := ls.foldl (fun s l => setLand s l { getLand s l with out := true, standFor := none }) s
  moduleFatal (setFlag s rCrsCause 3) 3 noUnit

/-- The stamp of a power failure (R513). -/
def stampFail (s : State) (n : Nat) : State :=
  setFlag (setFlag (wrPair s 0x20018 s.time.toNat) 0x20000 3) 0x20000 (3 + n)

/-- PWR_OK_DEASSERT: a low pulse of 100 ns or more forces the input's domains OFF; shorter ones are ignored. -/
def execPwrOkDeassert (n : Fin 6) (lowNs : Nat) (s : State) : Res :=
  let k := n.val
  if lowNs < 100 ∨ s.pwr.bad.contains k then .next s
  else
    let s := setPwr s { s.pwr with bad := sadd k s.pwr.bad }
    let s := if k = 0 then s else stampFail s k
    let s := if k = 1 then moduleFatal s 5 noUnit else if 2 ≤ k then loseRow s (k - 2) else s
    let s := (inputDoms k).foldl (fun s d => forceDom s d 0) s
    let s := setPwr s { s.pwr with boarded := s.pwr.boarded.filter fun d => !(inputDoms k).contains d }
    .next (updForced s)

/-- PWR_OK_ASSERT: an input that was deasserted asserts, and its domains board again at their places in R505. That of
PWR_OK_0 is a POWER-ON reset, whose straps this event does not name: free (R522; log 1). -/
def execPwrOkAssert (n : Fin 6) (s : State) : Res :=
  if !s.pwr.bad.contains n.val then .next s
  else if n = 0 then .next (powerUp s 0 false)
  else .next (updForced (setPwr s { s.pwr with bad := sdel n.val s.pwr.bad }))

end Sys2Proof.Machine
end

