-- ==== Sys2Proof/Machine/Targets.lean ====
section
/-! DEFINITION. The targets of global addresses: the address checks, power states, reads and writes of the memories (R23 to
R27, R150, R152, R156, R298, R299, R361 to R367, R576). -/

namespace Sys2Proof.Machine

/-! ## Parts of a global address (R23) -/

def gaMod (a : Dword) : Nat := dfld a 63 53
def gaUnit (a : Dword) : Nat := dfld a 52 48
def gaSpace (a : Dword) : Nat := dfld a 47 44
def gaOff (a : Dword) : Nat := dfld a 43 0

/-- Core and row, or core, of an offset of space 0x1 or 0x2 (R24). -/
def rowCore (off : Nat) : Nat := off / 2 ^ 24
def rowNum (off : Nat) : Nat := off % 2 ^ 24 / 512
def smCore (off : Nat) : Nat := off / 2 ^ 17

/-- The spaces that a landing holds, and those that a quay holds. -/
def landSpace (sp : Nat) : Bool := sp < 4 || sp == 6
def quaySpace (sp : Nat) : Bool := sp == 4 || sp == 5

/-- A quay of register space 0x5 has a register block at the offset: the module blocks on Q0, QC.CAUSE and QC.SRAMCE, and
the windows (R576). -/
def quayRegAt (q off : Nat) : Bool :=
  (q == 0 && off < 0xa0000) || off == 0xb0000 || off == 0xb0004 || (0xc0000 ≤ off && off < 0xc1000)

/-- The offset lies in the extent of its space (R24), for n bytes; space 0x1 takes whole aligned rows, the register
spaces take 4 B and 8 B. -/
def extentOk' (unit sp off n : Nat) : Bool :=
  match sp with
  | 0 => off + n ≤ stackBytes
  | 1 => n == 512 && off % 512 == 0 && off < 2 ^ 32 && bits off 23 22 == 0 && rowNum off < nRows
  | 2 => off + n ≤ 2 ^ 25
  | 3 => off + n ≤ 2 ^ 20 && n ≤ 8
  | 4 => off + n ≤ 2 ^ 26 && unit < 4
  | 5 => off + n ≤ 2 ^ 20 && n ≤ 8 && unit < 4 && quayRegAt unit off
  | 6 => off + n ≤ 2 ^ 21
  | _ => false

/-- An access of n bytes within this module meets a condition of R25. DESIGN CHOICE (log 92): a stream row of space 0x2 that
runs across two cores' scalar memories names the core of its first byte. -/
def addrBad (s : State) (unit sp off n : Nat) : Bool :=
  !extentOk' unit sp off n ||
    (landSpace sp && (absentLand s unit || landFailed s unit)) ||
    (sp == 1 && !coreActive s unit (rowCore off)) || (sp == 2 && !coreActive s unit (smCore off))

/-- The target of an access is in a domain that is ON, and its stack neither scrubs nor is in self-refresh (R27, R367). -/
def targetOn (s : State) (unit sp off n : Nat) : Bool :=
  match sp with
  | 0 => uncoreOn s unit && !rangeScrubs s unit off n && !(linesOf off n).any fun o => selfRefresh s unit (stackOf o)
  | 1 | 2 => arrayOn s unit
  | 3 => if off < 0x40000 ∨ 0x80000 ≤ off then uncoreOn s unit else arrayOn s unit
  | 4 | 5 => quayOn s unit
  | _ => uncoreOn s unit

/-! ## Words of scalar memory, quay SRAM and deckhand memory (R150, R576) -/

/-- QC.CAUSE and QC.SRAMCE of a quay. -/
def rQsramce (q : Nat) : Nat := quayBase q + 0xb0004

/-- A word read from one of these memories: a correctable error is corrected and counted; quay SRAM notes an
uncorrectable one. -/
def readWord (s : State) (unit sp u : Nat) : State :=
  if uncorrectable s u then (if sp = 4 then setFlag s (rQcause unit) 0 else s)
  else if correctable s u then
    let s := freshCheck s u
    match sp with
    | 2 => countCore s unit (smCore (u % 2 ^ 44)) 0x3c8 15 0 1 8
    | 4 => countUp s (rQsramce unit) 15 0 1 (some (rQcause unit, 4))
    | _ => s
  else s

/-- The word reads as an uncorrectable error from now on: the mark of a poisoned write (R150). -/
def markWord (s : State) (u : Nat) : State := { s with uerr := sadd u s.uerr, cerr := sdel u s.cerr }

/-- A word after n bytes from off were written: a whole word takes fresh check bits. -/
def writtenWord (s : State) (unit sp k n : Nat) (psn : Bool) (u : Nat) : State :=
  let s := if k ≤ u ∧ u + 8 ≤ k + n then freshCheck s u else readWord s unit sp u
  if psn then markWord s u else s

/-! ## Memories -/

/-- Bytes and poison that a read of n bytes delivers. -/
def memData (s : State) (unit sp off n : Nat) : List Byte × Bool :=
  let k := memKey unit sp off
  match sp with
  | 0 => stackData s unit off n
  | 1 => rowData s unit (rowCore off) (rowNum off)
  | _ => (getBytes s k n, (unitsOf k n).any fun u => uncorrectable s u)

/-- What a read does to the marks that it meets. -/
def memRead (s : State) (unit sp off n : Nat) : State :=
  match sp with
  | 0 => readLines s unit off n
  | 1 => readRowMarks s unit (rowCore off) (rowNum off)
  | _ => (unitsOf (memKey unit sp off) n).foldl (fun s u => readWord s unit sp u) s

/-- A write shorter than a word meets an uncorrectable error in its word: it has no effect (R150). -/
def partBad (s : State) (unit sp off n : Nat) : Bool :=
  let k := memKey unit sp off
  2 ≤ sp && (unitsOf k n).any fun u => uncorrectable s u && !(decide (k ≤ u) && decide (u + 8 ≤ k + n))

/-- A write with the writer's poison. -/
def memWrite (s : State) (unit sp off : Nat) (bs : List Byte) (psn : Bool) : State :=
  let k := memKey unit sp off
  match sp with
  | 0 =>
    let s := writeStack s unit off bs psn
    if psn then (linesOf off bs.length).foldl (fun s o => setPoison s (stackKey unit o) true) s else s
  | 1 => putRow s unit (rowCore off) (rowNum off) bs psn
  | _ => putBytes ((unitsOf k bs.length).foldl (fun s u => writtenWord s unit sp k bs.length psn u) s) k bs

end Sys2Proof.Machine
end

