-- ==== Sys2Proof/Machine/Mailbox.lean ====
section
/-! DEFINITION. The harbourmaster's mailbox: the acceptance of requests and every operation of R478 (R471 to R490, R495,
R496, R531, R564). The spec lays out no payload; the layouts of the responses are the model's (log 26). -/

namespace Sys2Proof.Machine

/-! ## Acceptance (R475 to R480, R531) -/

def rHmStat : Nat := 0x70000
def rHmCause : Nat := 0x70004

/-- The monitor runs: PD69 is ON, and the ROM found a valid copy (R471). -/
def hmRuns (s : State) : Bool := domState s 69 == 2 && !s.boot.romOnly

/-- STATE of a channel is BUSY. -/
def mbxBusy (s : State) (c : Nat) : Bool := rdFld s (rMbx c + 4) 2 0 == 1

/-- A write to REQ or PIN while BUSY is ignored (R477). -/
def busyWrite (s : State) : State := setFlag s rHmCause 2

/-- GO is written while STATE is not BUSY: the request waits for the harbourmaster, and one submitted on channel 0 serves the
purser watchdog (R477, R527). -/
def submit (s : State) (c : Nat) : State :=
  let s := wrFld (wrFld s (rMbx c + 4) 2 0 1) (rMbx c) 31 31 1
  let s := { s with hm := { s.hm with posted := sadd c s.hm.posted } }
  if c = 0 then { s with boot := { s.boot with served := s.time } } else s

/-- The harbourmaster accepts the request of a channel: COUNT advances (R477). -/
def accept (s : State) (c : Nat) : State :=
  let s := { s with hm := { s.hm with posted := sdel c s.hm.posted, lastCh := c } }
  wr s (rMbx c + 8) (rd s (rMbx c + 8) + 1)

/-- Channels 0 to 15, the management cores; 48 and 49, the physical functions. -/
def quayChan (c : Nat) : Bool := decide (c < 16)
def hostChan (c : Nat) : Bool := c == 48 || c == 49
def anyChan (_ : Nat) : Bool := true

/-- Operation codes that R478 names. -/
def mbxOps : List Nat := [0, 1, 2, 3, 4, 5, 6, 7, 0x10, 0x11, 0x12, 0x20, 0x21, 0x30, 0x31, 0x40, 0x41, 0x50]

/-- HMB.Cc.REQ.OP is the operation, or one that R478 does not name for none. -/
def opPosted (s : State) (c : Nat) (op : Option Nat) : Bool :=
  let x := rdFld s (rMbx c) 15 0
  match op with
  | some n => x == n
  | none => !mbxOps.contains x

/-- The channel is the next in turn of those whose request waits, after the one served last (R480). -/
def inTurn (s : State) (c : Nat) : Bool :=
  let place (k : Nat) : Nat := (k + 49 - s.hm.lastCh % 50) % 50
  s.hm.posted.all fun k => decide (place c ≤ place k)

/-- Bytes of a request's payload that an operation takes: its items in the order of R478 (log 26). -/
def lenOk (op n : Nat) : Bool :=
  match op with
  | 0 => n == 0
  | 1 => n == 1
  | 2 => 2 ≤ n && (n - 2) % 17 == 0 && n ≤ 138
  | 3 => n == 18
  | 4 => n == 6
  | 5 => n == 3
  | 6 | 7 => n == 2
  | 0x10 => n == 13
  | 0x11 => n == 4
  | 0x12 => n == 3
  | 0x20 => n == 9
  | 0x21 => n == 192
  | 0x30 => 27 ≤ n && (n - 3) % 8 == 0 && n ≤ 256
  | 0x31 => n == 2
  | 0x40 => n == 97 || n == 129
  | 0x41 => n == 96
  | 0x50 => n == 2
  | _ => true

/-- First register of a channel's PIN, and the first n bytes there. -/
def rPin (c : Nat) : Nat := rMbx c + 0x100
def pinBytes (s : State) (c n : Nat) : List Byte := ((upto 64).flatMap fun i => leBytes 4 (rd s (rPin c + 4 * i)).toNat).take n

/-- LEN of a channel's request (R477). -/
def reqLen (s : State) (c : Nat) : Nat := rdFld s (rMbx c) 24 16

/-- The owner writes PIN, then REQ with OP, LEN and GO; a payload beyond PIN has no place there, and a LEN no operation takes. -/
def writeReq (s : State) (c op : Nat) (pay : List Byte) : State :=
  let ws := payloadWords (min 64 ((pay.length + 3) / 4)) pay
  let s := ws.zipIdx.foldl (fun s w => wr s (rPin c + 4 * w.2) w.1) s
  submit (wrFld (wrFld s (rMbx c) 15 0 op) (rMbx c) 24 16 (min 511 pay.length)) c

/-- PIN and LEN hold the payload, or a payload of no length that the operation takes: the harbourmaster copies it as it accepts
GO. -/
def payPosted (s : State) (c : Nat) (op : Option Nat) (pay : List Byte) : Bool :=
  match op with
  | some n => !lenOk n (reqLen s c) || (reqLen s c == min 511 pay.length && pinBytes s c pay.length == pay)
  | none => true

/-- One request with its payload: its GO is written, unless register writes have submitted it; then the harbourmaster accepts
it, where the channel is the next in turn and its registers hold this request. A channel that the operation does not allow,
and an operation before READY that R531 does not name, receive DENIED; a LEN that does not match OP, BADARG (R477 to R480). -/
def request (s : State) (c : Nat) (op : Option Nat) (pay : List Byte) (chans : Nat → Bool) (early : Bool)
    (body : State → State) : State :=
  if domState s 69 ≠ 2 then s
  else
    let waits := s.hm.posted.contains c
    if mbxBusy s c ∧ !waits then busyWrite s
    else
      let s := if waits then s else writeReq s c (op.getD 0xffff) pay
      if !hmRuns s ∨ !opPosted s c op ∨ !payPosted s c op pay ∨ !inTurn s c then s
      else
        let s := accept s c
        if !chans c ∨ (!early ∧ !isReady s) then mbxDone s c .denied []
        else if !(match op with | some n => lenOk n (reqLen s c) | none => true) then mbxDone s c .badarg []
        else body s

/-- MAILBOX_NOP. -/
def execMailboxNop (ch : Fin 50) (s : State) : Res :=
  .next (request s ch.val (some 0) [] anyChan true fun s => mbxDone s ch.val .ok [])

/-- MAILBOX_RESERVED_OP: an operation code that R478 does not name. -/
def execMailboxReservedOp (ch : Fin 50) (s : State) : Res :=
  .next (request s ch.val none [] anyChan true fun s => mbxDone s ch.val .badop [])

/-! ## Jobs and tenants (R481, R483) -/

/-- A tenancy ID of its job and tenant numbers. -/
def tenancyId (j t : Nat) : BitVec 16 := BitVec.ofNat 16 (64 * j + t)

/-- The job that a job ID, with TENANT = 0, names. -/
def jobOf (s : State) (id : BitVec 16) : Option Job := if idTenant id = 0 then findJob s (idJob id) else none

/-- A tenancy ID names a job of the table, or a tenant of one. -/
def idKnown (s : State) (id : BitVec 16) : Bool :=
  match findJob s (idJob id) with
  | some j => idTenant id == 0 || j.tenants.any fun t => t.id == id
  | none => false

/-- JOB_CREATE. -/
def createJob (s : State) (c : Nat) (debug : Bool) : State :=
  if s.fuses.lcs = 4 then mbxDone s c .denied []
  else
    match ((upto 1023).map fun i => i + 1).find? fun n => (findJob s n).isNone with
    | some n =>
      if 256 ≤ s.hm.jobs.length then mbxDone s c .full []
      else mbxDone (setJobs s fun js => js ++ [{ num := n, debug := debug }]) c .ok (leBytes 2 (64 * n))
    | none => mbxDone s c .full []

def execJobCreate (ch : Fin 50) (debug : Bool) (s : State) : Res :=
  .next (request s ch.val (some 1) (leBytes 1 (b2n debug)) quayChan false fun s => createJob s ch.val debug)

/-- An offset extent on a landing of the job, from 4 KB boundary to 4 KB boundary. -/
def extentOk (j : Job) (e : Extent) : Bool :=
  j.lands.contains e.land && e.off % 4096 == 0 && e.len % 4096 == 0 && decide (e.off + e.len ≤ stackBytes)

/-- TENANT_ADD. -/
def addTenant (s : State) (c : Nat) (id : BitVec 16) (es : List Extent) : State :=
  match jobOf s id with
  | none => mbxDone s c .badarg []
  | some j =>
    if j.dying then mbxDone s c .conflict []
    else if 8 < es.length ∨ !es.all (fun e => extentOk j e) then mbxDone s c .badarg []
    else
      let used := (s.hm.jobs.map fun x => x.tenants.length).foldl (· + ·) 0
      match ((upto 63).map fun i => tenancyId j.num (i + 1)).find? fun t => !j.tenants.any fun x => x.id == t with
      | some t =>
        if 1024 ≤ used then mbxDone s c .full []
        else mbxDone (mapJob s j.num fun j => { j with tenants := j.tenants ++ [⟨t, es⟩] }) c .ok (leBytes 2 t.toNat)
      | none => mbxDone s c .full []

def execTenantAdd (ch : Fin 50) (job : BitVec 16) (extents : List (Fin 32 × Nat × Nat)) (s : State) : Res :=
  .next (request s ch.val (some 2)
    (leBytes 2 job.toNat ++ extents.flatMap fun e => leBytes 1 e.1.val ++ leBytes 8 e.2.1 ++ leBytes 8 e.2.2) quayChan false
    fun s => addTenant s ch.val job (extents.map fun e => ⟨e.1.val, e.2.1, e.2.2⟩))

/-! ## Measured programs (R474, R482, R487) -/

/-- The image without the extents that its header names as the launch table and the slice map. -/
def measured (bs : List Byte) (skip : List (Nat × Nat)) : List Byte :=
  (bs.zipIdx.filter fun x => !skip.any fun e => decide (e.1 ≤ x.2) && decide (x.2 < e.1 + e.2)).map fun x => x.1

/-- The image lies in a byte-addressed memory of this module that can be read: not in a quarantined landing (R485; log 27). -/
def imageOk (s : State) (a : Dword) (n : Nat) : Bool :=
  let sp := gaSpace a
  gaMod a == s.modnum.toNat && [0, 2, 4, 6].contains sp && !addrBad s (gaUnit a) sp (gaOff a) n &&
    !(landSpace sp && dbgQuar s (gaUnit a) sp) && targetOn s (gaUnit a) sp (gaOff a) n

/-- Only vendor-signed test images run in BLANK and RETURNED. -/
def lcsTakes (s : State) (d : BitVec 384) : Bool :=
  match s.fuses.lcs.toNat with
  | 1 | 2 => true
  | 0 | 3 => Config.vendorTest d
  | _ => false

/-- A quay's hash engine reports an internal error: QC.CAUSE.HASH (R576). -/
def hashError (s : State) (quay : Nat) (bad : Bool) : State :=
  if bad ∧ quayOn s quay then setFlag s (rQcause quay) 2 else s

/-- MEASURE: the program digest; the landings must be sealed against it again. The image's header names the extents left out
and the code. Where the hash engine reports an internal error the digest is a free value (log 1). -/
def measureJob (s : State) (c : Nat) (id : BitVec 16) (a : Dword) (n quay : Nat) (engineError : Bool) : State :=
  match jobOf s id with
  | none => mbxDone s c .badarg []
  | some j =>
    let bs := (memData s (gaUnit a) (gaSpace a) (gaOff a) n).1
    let code := Config.imageCode bs
    if j.dying then mbxDone s c .conflict []
    else if !imageOk s a n ∨ n < code.1 + code.2 then mbxDone s c .badarg []
    else
      let d := if engineError then Config.freeDigest s.free else sha384 (measured bs (Config.imageSkip bs))
      let s := hashError { s with free := s.free + b2n engineError } quay engineError
      if !lcsTakes s d then mbxDone s c .denied []
      else
        let s := mapJob (memRead s (gaUnit a) (gaSpace a) (gaOff a) n) j.num fun j =>
          { j with prog := some d, codeOff := 0, code := (bs.drop code.1).take code.2, sealed := [] }
        mbxDone s c .ok (digBytes d)

def execMeasure (ch : Fin 50) (job : BitVec 16) (addr : Dword) (len : Nat) (quay : Fin 4) (engineError : Bool) (s : State) :
    Res :=
  .next (request s ch.val (some 3) (leBytes 2 job.toNat ++ leBytes 8 addr.toNat ++ leBytes 8 len) quayChan false
    fun s => measureJob s ch.val job addr len quay.val engineError)

/-- The job may run in the present life-cycle state: in BLANK and RETURNED one whose measured image is a vendor-signed test
image, in RETIRED none (R487). -/
def mayRunJob (s : State) (j : Job) : Bool := signsRecords s || (match j.prog with | some d => lcsTakes s d | none => false)

/-- GRANT: every landing of the mask is free, and is bound to the job, which the life-cycle state lets run. -/
def grantJob (s : State) (c : Nat) (id : BitVec 16) (mask : Word) : State :=
  match jobOf s id with
  | none => mbxDone s c .badarg []
  | some j =>
    let ls := maskBits 32 mask.toNat
    if j.dying ∨ !ls.all (fun l => landFree s l) then mbxDone s c .conflict []
    else if !mayRunJob s j then mbxDone s c .denied []
    else
      let s := ls.foldl (fun s l => grantLand s j.num l) s
      let s := noteRegistry (mapJob s j.num fun j => { j with lands := ls.foldl (fun t l => sadd l t) j.lands })
      mbxDone s c .ok []

def execGrant (ch : Fin 50) (job : BitVec 16) (mask : Word) (s : State) : Res :=
  .next (request s ch.val (some 4) (leBytes 2 job.toNat ++ leBytes 4 mask.toNat) quayChan false fun s => grantJob s ch.val job mask)

/-- A core's scalar memory holds the measured code. -/
def codeThere (s : State) (j : Job) (l c : Nat) : Bool :=
  let k := memKey l 2 (c * 2 ^ 17 + j.codeOff)
  getBytes s k j.code.length == j.code && !(unitsOf k j.code.length).any fun u => uncorrectable s u

/-- SEAL: the code of every active core of the landing is read back. -/
def sealLand (s : State) (c : Nat) (id : BitVec 16) (l : Nat) : State :=
  match jobOf s id with
  | none => mbxDone s c .badarg []
  | some j =>
    if j.dying then mbxDone s c .conflict []
    else if !j.lands.contains l then mbxDone s c .badarg []
    else if j.prog.isNone ∨ !arrayOn s l then mbxDone s c .denied []
    else if (activeCores s l).all fun k => codeThere s j l k then
      mbxDone (noteRegistry (mapJob s j.num fun j => { j with sealed := sadd l j.sealed })) c .ok []
    else mbxDone (noteRegistry (mapJob s j.num fun j => { j with sealed := sdel l j.sealed })) c .mismatch []

def execSeal (ch : Fin 50) (job : BitVec 16) (l : Fin 32) (s : State) : Res :=
  .next (request s ch.val (some 5) (leBytes 2 job.toNat ++ leBytes 1 l.val) quayChan false fun s => sealLand s ch.val job l.val)

/-! ## Kill and release (R480, R484) -/

/-- The end of a job, asked on a channel: it answers when step 6 is done, also where a kill is in progress. -/
def endJobOn (s : State) (c : Nat) (j : Job) (records : Bool) : State :=
  let s := mapJob s j.num fun j => { j with waiters := j.waiters ++ [c] }
  if j.dying then s else killJob s { j with waiters := j.waiters ++ [c] } records

/-- KILL of a job or of one tenant. -/
def killId (s : State) (c : Nat) (id : BitVec 16) : State :=
  match findJob s (idJob id) with
  | none => mbxDone s c .badarg []
  | some j =>
    if idTenant id = 0 then endJobOn s c j true
    else
      match j.tenants.find? fun t => t.id == id with
      | none => mbxDone s c .badarg []
      | some t => if j.dying then endJobOn s c j true else mbxDone (killTenant s j t) c .ok []

def execKill (ch : Fin 50) (id : BitVec 16) (s : State) : Res :=
  .next (request s ch.val (some 6) (leBytes 2 id.toNat) (fun c => quayChan c || hostChan c) false fun s => killId s ch.val id)

/-- RELEASE of a job. -/
def releaseJob (s : State) (c : Nat) (id : BitVec 16) : State :=
  match jobOf s id with
  | none => mbxDone s c .badarg []
  | some j => endJobOn s c j false

def execRelease (ch : Fin 50) (job : BitVec 16) (s : State) : Res :=
  .next (request s ch.val (some 7) (leBytes 2 job.toNat) quayChan false fun s => releaseJob s ch.val job)

/-! ## Windows and bindings (R375 to R377, R480, R482) -/

/-- The next window of a unit that is neither open nor closing, in rotation. -/
def nextWindow (s : State) (u : Nat) : Option Nat :=
  let n := winCount u
  let busy := busyWins s u
  ((upto n).map fun i => (tget 0 s.hm.nextWin u + i) % n).find? fun i => !busy.contains i

/-- WIN_OPEN: the handle is the index, then the generation. -/
def openFor (s : State) (c u : Nat) (w : WinSpec) : State :=
  match jobOf s w.job with
  | none => mbxDone s c .badarg []
  | some j =>
    if j.dying then mbxDone s c .conflict []
    else if 6 < w.space.toNat ∨ !unitOn s u then mbxDone s c .badarg []
    else
      match nextWindow s u with
      | none => mbxDone s c .full []
      | some i =>
        let s := openWin (writeWin s u i w) u i
        let s := { s with hm := { s.hm with nextWin := tput 0 u ((i + 1) % winCount u) s.hm.nextWin } }
        mbxDone s c .ok (leBytes 2 i ++ leBytes 1 (winGen s u i).toNat)

/-- The payload of WIN_OPEN. -/
def winPayload (u : Unit') (w : WinSpec) : List Byte :=
  let flags := [w.host, w.quay, w.rd, w.wr, w.amo, w.inc].zipIdx.foldl (fun n x => n + b2n x.1 * 2 ^ x.2) 0
  leBytes 1 (unitNum u) ++ leBytes 1 w.space.toNat ++ leBytes 4 w.base.toNat ++ leBytes 4 w.pages.toNat ++
    leBytes 2 w.job.toNat ++ leBytes 1 flags

def execWinOpen (ch : Fin 50) (u : Unit') (w : WinSpec) (s : State) : Res :=
  .next (request s ch.val (some 0x10) (winPayload u w) quayChan false fun s => openFor s ch.val (unitNum u) w)

/-- WIN_CLOSE: the handle must match; the request is done when the close completes. -/
def closeFor (s : State) (c u i : Nat) (gen : BitVec 8) : State :=
  if winCount u ≤ i ∨ !unitOn s u ∨ winGen s u i ≠ gen ∨ (!winOpen s u i ∧ !winClosing s u i) then
    mbxDone s c .badarg []
  else
    let s := if winOpen s u i then closeWin s u i else s
    { s with hm := { s.hm with closes := s.hm.closes ++ [⟨c, u, i⟩] } }

def execWinClose (ch : Fin 50) (u : Unit') (idx : BitVec 10) (gen : BitVec 8) (s : State) : Res :=
  .next (request s ch.val (some 0x11) (leBytes 1 (unitNum u) ++ leBytes 2 idx.toNat ++ leBytes 1 gen.toNat) quayChan false
    fun s => closeFor s ch.val (unitNum u) idx.toNat gen)

/-- QS_BIND. -/
def bindQs (s : State) (c q : Nat) (id : BitVec 16) : State :=
  if !idKnown s id then mbxDone s c .badarg []
  else if (qsJob s q ≠ 0 ∧ qsJob s q ≠ id) ∨ (findJob s (idJob id)).any (fun j => j.dying) then
    mbxDone s c .conflict []
  else mbxDone (wrFld s (rQs q 0x34) 15 0 id.toNat) c .ok []

def execQsBind (ch : Fin 50) (q : Fin 64) (id : BitVec 16) (s : State) : Res :=
  .next (request s ch.val (some 0x12) (leBytes 1 q.val ++ leBytes 2 id.toNat) quayChan false fun s => bindQs s ch.val q.val id)

/-! ## Signatures (R487, R493, R495, R496) -/

/-- A closing record of a queue set that waits for its signature. -/
def unsignedRec (s : State) (q rseq : Nat) : Option HeldRec :=
  (getQs s q).held.find? fun r => r.rseq == rseq && r.unsigned

/-- PROGDIG of the record is zero: the request's job is not sealed. -/
def notSealed (r : HeldRec) : Bool :=
  match r.prov with
  | some p => (p.2.drop 32).take 48 == List.replicate 48 0
  | none => true

/-- Each record of a queue set's waiting ones with a number that waits for its signature changed. -/
def mapUnsigned (s : State) (q rseq : Nat) (f : List Byte → List Byte) : State :=
  let x := getQs s q
  setQs s q
    { x with
      held := x.held.map fun r =>
        if r.rseq = rseq ∧ r.unsigned then { r with unsigned := false, prov := r.prov.map fun p => (p.1, f p.2) } else r }

/-- A provenance record without a signature: SIGNED of FLAGS is 0 (R493). -/
def clearSigned (bs : List Byte) : List Byte := bs.take 6 ++ leBytes 1 ((bs.getD 6 0).toNat / 2 * 2) ++ bs.drop 7

/-- SIGN_PROV: the request joins the signing queue. A record of a job that is not sealed is denied, and posted unsigned, since the
request receives it (R495; log 121). -/
def queueSign (s : State) (c q rseq : Nat) : State :=
  if !signsRecords s then mbxDone s c .nokey []
  else
    match unsignedRec s q rseq with
    | none => mbxDone s c .badarg []
    | some r =>
      if notSealed r then mbxDone (mapUnsigned s q rseq clearSigned) c .denied []
      else if 8192 ≤ s.hm.signs.length then mbxDone (setFlag s rHmCause 4) c .full []
      else { s with hm := { s.hm with signs := s.hm.signs ++ [⟨c, q, rseq⟩] } }

def execSignProv (ch : Fin 50) (q : Fin 64) (rseq : Nat) (s : State) : Res :=
  .next (request s ch.val (some 0x20) (leBytes 1 q.val ++ leBytes 8 rseq) quayChan false fun s => queueSign s ch.val q.val rseq)

/-- The signature in bytes 320 to 415 of a provenance record (R493). -/
def signedProv (s : State) (bs : List Byte) : List Byte :=
  bs.take 320 ++
    beBytes 96 (Config.ecdsaSign (deviceKey s.fuses.serial) (sha384 (bs.take 320))).toNat ++ bs.drop 416

/-- The record of a queue set is signed. -/
def signRec (s : State) (q rseq : Nat) : State := mapUnsigned s q rseq (signedProv s)

/-- PROVENANCE_SIGNATURE_DONE: the first request of the signing queue is done; CONFLICT where its record has gone. -/
def execProvenanceSignatureDone (s : State) : Res :=
  match s.hm.signs with
  | [] => .next s
  | x :: rest =>
    if !hmRuns s then .next s
    else
      let s := { s with hm := { s.hm with signs := rest } }
      match unsignedRec s x.q x.rseq with
      | some _ => .next (mbxDone (signRec s x.q x.rseq) x.ch .ok [])
      | none => .next (mbxDone s x.ch .conflict [])

/-- SIGN_CKPT: signature, SIGNER and SIGKEY of bytes 0 to 191 of a commit record (R392). -/
def signCkpt (s : State) (c : Nat) (bs : List Byte) : State :=
  let key := deviceKey s.fuses.serial
  if !signsRecords s then mbxDone s c .nokey []
  else if bs.length ≠ 192 then mbxDone s c .badarg []
  else
    mbxDone s c .ok (beBytes 96 (Config.ecdsaSign key (sha384 bs)).toNat ++ leBytes 8 s.fuses.serial.toNat ++
      beBytes 96 (Config.ecdsaPublic key).toNat)

def execSignCkpt (ch : Fin 50) (bytes : List Byte) (s : State) : Res :=
  .next (request s ch.val (some 0x21) bytes quayChan false fun s => signCkpt s ch.val bytes)

/-! ## Keys and firmware (R425, R472, R478, R536) -/

/-- MACSEC_KEY: a key of a port, direction and association number replaces the one before it. -/
def installKey (s : State) (c port : Nat) (rx : Bool) (an : Nat) (wrapped : List Byte) : State :=
  match s.hm.wrapKey with
  | none => mbxDone s c .nokey []
  | some w =>
    match Config.unwrapKey w wrapped with
    | none => mbxDone s c .sigfail []
    | some key =>
      let old := s.hm.keys.filter fun k => !(k.port == port && k.rx == rx && k.an == an)
      mbxDone { s with hm := { s.hm with keys := old ++ [⟨port, rx, an, key⟩] } } c .ok []

def execMacsecKey (ch : Fin 50) (port : Fin 16) (rx : Bool) (an : BitVec 2) (wrapped : List Byte) (s : State) : Res :=
  .next (request s ch.val (some 0x30)
    (leBytes 1 port.val ++ leBytes 1 (b2n rx) ++ leBytes 1 an.toNat ++ wrapped) quayChan false fun s =>
      installKey s ch.val port.val rx an.toNat wrapped)

/-- FW_VERIFY: the copy is marked active for the next reset, or SIGFAIL. -/
def verifyCopy (s : State) (c comp k : Nat) : State :=
  if (flashCopy s comp k).sig then mbxDone (markActive s comp k) c .ok [] else mbxDone s c .sigfail []

def execFwVerify (ch : Fin 50) (component : Fin 3) (copyB : Bool) (s : State) : Res :=
  .next (request s ch.val (some 0x31) (leBytes 1 component.val ++ leBytes 1 (b2n copyB)) quayChan true fun s =>
    verifyCopy s ch.val component.val (b2n copyB))

/-! ## Life-cycle states and debug access (R487 to R490) -/

/-- HMB.NONCE. -/
def nonceNow (s : State) : Dword := Config.nonce s.hm.nonce

/-- The digest that a token signs: serial number, from-state, to-state and nonce, little-endian (log 27). -/
def tokenDigest (s : State) (goal : BitVec 3) : BitVec 384 :=
  sha384 (leBytes 8 s.fuses.serial.toNat ++ leBytes 1 s.fuses.lcs.toNat ++ leBytes 1 goal.toNat ++
    leBytes 8 (nonceNow s).toNat)

def vendorToken (s : State) (goal : BitVec 3) (token : BitVec 768) : Bool :=
  Config.ecdsaVerify Config.vendorKey (tokenDigest s goal) token
def operatorToken (s : State) (goal : BitVec 3) (token : BitVec 768) : Bool :=
  match s.hm.opKey with
  | some k => Config.ecdsaVerify k (tokenDigest s goal) token
  | none => false

/-- Whether a transition is one of R488, none where it is not, and whether its token verifies. -/
def lcAllowed (s : State) (goal : BitVec 3) (token : BitVec 768) : Option Bool :=
  match s.fuses.lcs.toNat, goal.toNat with
  | 0, 1 => some (vendorToken s goal token)
  | 1, 2 => some true
  | 2, 1 => some (operatorToken s goal token)
  | 1, 3 => some (vendorToken s goal token)
  | 2, 3 => some (operatorToken s goal token)
  | 0, 4 | 1, 4 | 2, 4 | 3, 4 => some (vendorToken s goal token || operatorToken s goal token)
  | _, _ => none

/-- An accepted transition: fuses, keys, nonce, and a MODULE reset (R489). -/
def lcMove (s : State) (goal : BitVec 3) (opKey : BitVec 768) (wrapKey : BitVec 256) : State :=
  let s := { s with
    fuses := { s.fuses with lcs := goal }
    hm := { s.hm with
      opKey := if goal = 2 then some opKey else none
      wrapKey := if goal = 2 then some wrapKey else none
      nonce := s.hm.nonce + 1 } }
  moduleResetWith s 4

/-- LC_REQUEST. -/
def lcRequest (s : State) (c : Nat) (goal : BitVec 3) (token opKey : BitVec 768) (wrapKey : BitVec 256) : State :=
  match lcAllowed s goal token with
  | none => mbxDone s c .denied []
  | some false => mbxDone s c .sigfail []
  | some true => lcMove s goal opKey wrapKey

def execLcRequest (ch : Fin 50) (target : BitVec 3) (token : BitVec 768) (opKey : BitVec 768) (wrapKey : BitVec 256)
    (s : State) : Res :=
  .next (request s ch.val (some 0x40)
    (leBytes 1 target.toNat ++ if target = 2 then leBytes 96 opKey.toNat ++ leBytes 32 wrapKey.toNat else leBytes 96 token.toNat)
    hostChan false fun s => lcRequest s ch.val target token opKey wrapKey)

/-- DEBUG_UNLOCK: a token of the operator key in OPERATIONAL, of the vendor root key in PROVISIONED (R490). -/
def debugUnlock (s : State) (c : Nat) (token : BitVec 768) : State :=
  let lcs := s.fuses.lcs
  if lcs ≠ 1 ∧ lcs ≠ 2 then mbxDone s c .denied []
  else if (lcs = 1 ∧ vendorToken s lcs token) ∨ (lcs = 2 ∧ operatorToken s lcs token) then
    let s := { s with hm := { s.hm with unlock := sha384 (beBytes 96 token.toNat) } }
    mbxDone (setFlag s rHmStat 4) c .ok []
  else mbxDone s c .sigfail []

def execDebugUnlock (ch : Fin 50) (token : BitVec 768) (s : State) : Res :=
  .next (request s ch.val (some 0x41) (leBytes 96 token.toNat) hostChan false fun s => debugUnlock s ch.val token)

/-! ## Fault reports (R564) -/

/-- INT.FREPORT takes a report; while VALID is 1 a further one sets MORE. -/
def noteReport (s : State) (c code unit : Nat) : State :=
  let o := 0x10024
  if rdFld s o 0 0 = 1 then setFlag s o 1
  else wr s o (BitVec.ofNat 32 (1 + c * 4 + code * 2 ^ 8 + unit * 2 ^ 16))

/-- FAULT_REPORT. -/
def execFaultReport (ch : Fin 50) (code : BitVec 8) (unit : BitVec 6) (s : State) : Res :=
  .next (request s ch.val (some 0x50) (leBytes 1 code.toNat ++ leBytes 1 unit.toNat) anyChan true fun s =>
    mbxDone (noteReport s ch.val code.toNat unit.toNat) ch.val .ok [])

end Sys2Proof.Machine
end

