-- ==== Sys2Proof/Machine/Mgmt.lean ====
section
/-! DEFINITION. The management bus: PLDM sensors, effecters, events and firmware updates, and the SPDM responder (R442 to
R444, R466 to R468, R471 to R473, R487, R491, R492, R519, R536). The PDR repository, the numbers of its sensors and the
bodies of SPDM responses are not in the spec (log 12). -/

namespace Sys2Proof.Machine

/-! ## Transports (R442, R491) -/

/-- Number of a transport. -/
def trNum : Transport → Nat
  | .smbus _ => 0 | .i3c => 1 | .vdm p => 2 + p.val | .doe p => 4 + p.val

/-- The transport carries a request: SMBus with a right PEC, and the PCIe ones while their port's link is up. -/
def trUp (s : State) : Transport → Bool
  | .smbus pec => pec
  | .i3c => true
  | .vdm p | .doe p => (getPcie s p.val).up

/-- The monitor answers a PLDM request on the transport; DOE carries SPDM alone. -/
def pldmOn (s : State) (t : Transport) : Bool := hmRuns s && trUp s t && trNum t < 4

/-- A PLDM request: its answer carries a completion code and data. -/
def pldm (s : State) (t : Transport) (f : State → State × Nat × List Byte) : State :=
  if pldmOn s t then
    let r := f s
    emit r.1 (.answer t r.2.1 r.2.2)
  else s

/-- An answer to a master: over TC3 as an MCTP packet where it is a remote manager, refused ones noted in XPT.CAUSE.UNREACH
(R411, R412); on the transport for any other. -/
def answerTo (s : State) (m : Master) (t : Transport) (code : Nat) (data : List Byte) : State :=
  match m with
  | .remote k =>
    match routeFrame s k.toNat 3 (.msg 0x100 s.modnum.toNat k.toNat [] (BitVec.ofNat 8 code :: data)) with
    | some s' => s'
    | none => setFlag s rXcause 7
  | _ => emit s (.answer t code data)

/-- A PLDM request of a master, as `pldm` has it; a remote manager's comes over TC3, whatever transport it names. -/
def pldmFor (s : State) (m : Master) (t : Transport) (f : State → State × Nat × List Byte) : State :=
  let there : Bool := match m with | .remote _ => hmRuns s | _ => pldmOn s t
  if there then
    let r := f s
    answerTo r.1 m t r.2.1 r.2.2
  else s

/-- SET_ENDPOINT_ID: the bus owner names the endpoint of a binding. -/
def execSetEndpointId (t : Transport) (eid : Byte) (s : State) : Res :=
  .next (pldm s t fun s => ({ s with mgmt := { s.mgmt with eids := tput 0 (trNum t) eid s.mgmt.eids } }, 0, [eid]))

/-! ## PDRs and sensors (R443) -/

/-- Completion codes of PLDM for a sensor or effecter that does not exist, and for a record handle (log 12); and
CMD_OVERRULED (R468). -/
def pldmNoSensor : Nat := 0x80
def pldmNoHandle : Nat := 0x82
def pldmOverruled : Nat := 0xa0

/-- The PDRs of R443 in its order, sensors and effecters numbered within their kinds (log 12). -/
def pdrs : List Config.Pdr :=
  let junctions (f : Nat → Config.PdrEntity) (n first : Nat) : List Config.Pdr :=
    (upto n).map fun i => ⟨.numericSensor, first + i, f i, .celsius, none⟩
  [⟨.numericSensor, 0, .modulePower, .watts, none⟩, ⟨.numericSensor, 1, .coolantInlet, .celsius, none⟩,
    ⟨.numericSensor, 2, .coolantOutlet, .celsius, none⟩, ⟨.numericSensor, 3, .coolantFlow, .litresPerMinute, none⟩,
    ⟨.numericSensor, 4, .moduleJunction, .celsius, none⟩] ++ junctions .landingJunction 32 5 ++
    junctions .quayJunction 4 37 ++
  [⟨.stateSensor, 0, .lifeCycle, .states, none⟩, ⟨.numericEffecter, 0, .powerCap, .watts, some (4000, 24000)⟩,
    ⟨.numericEffecter, 1, .junctionLimit, .celsius, some (60, 95)⟩, ⟨.stateEffecter, 0, .runState, .states, none⟩]

/-- GET_PDR: the record of a handle. -/
def execGetPdr (t : Transport) (handle : Nat) (s : State) : Res :=
  .next (pldm s t fun s =>
    match pdrs[handle]? with
    | some x => (s, 0, Config.pdrBytes x)
    | none => (s, pldmNoHandle, []))

/-- GET_PDR_REPOSITORY_INFO: how many records there are. -/
def execGetPdrRepositoryInfo (t : Transport) (s : State) : Res :=
  .next (pldm s t fun s => (s, 0, leBytes 4 pdrs.length))

/-- A value that the spec does not let the model compute: free (log 1). -/
def freeReading (s : State) : Nat × State := ((Config.freeDword s.free).toNat, { s with free := s.free + 1 })

/-- The hottest junction of a unit, a landing or 32 + quay: THM.STAT's, where that is the unit it names, and a free value of
at most that for any other (log 1). -/
def unitJunction (s : State) (u : Nat) : Nat × State :=
  let top := rdFld s rThmStat 10 0
  if rdFld s rThmStat2 15 10 = u then (top, s)
  else
    let r := freeReading s
    (min r.1 top, r.2)

/-- The numeric sensors by number: 0 input power, 1 inlet, 2 outlet, 3 flow, 4 hottest junction, 5 to 36 that of each
landing, 37 to 40 that of each quay (log 12). -/
def sensorValue (s : State) (n : Nat) : Option (Nat × State) :=
  match n with
  | 0 => some (rdFld s 0x20014 15 0, s)
  | 1 => some (rdFld s rThmStat 20 11, s)
  | 2 => some (rdFld s rThmStat2 9 0, s)
  | 3 => some (rdFld s rThmStat 31 21, s)
  | 4 => some (rdFld s rThmStat 10 0, s)
  | _ => if n < 41 then some (unitJunction s (n - 5)) else none

/-- GET_SENSOR_READING. -/
def execGetSensorReading (t : Transport) (sensor : Nat) (s : State) : Res :=
  .next (pldm s t fun s =>
    match sensorValue s sensor with
    | some (v, s) => (s, 0, leBytes 4 v)
    | none => (s, pldmNoSensor, []))

/-- GET_STATE_SENSOR_READINGS: sensor 0 is the life-cycle state. -/
def execGetStateSensorReadings (t : Transport) (sensor : Nat) (s : State) : Res :=
  .next (pldm s t fun s => if sensor = 0 then (s, 0, leBytes 1 s.fuses.lcs.toNat) else (s, pldmNoSensor, []))

/-! ## Effecters (R443, R466 to R468, R508) -/

/-- An order of a master over PLDM: CMD_OVERRULED where it loses or is recorded without effect. -/
def pldmOrder (s : State) (m : Master) (t : Transport) (q : Qty) (v : Nat) : State :=
  pldmFor s m t fun s =>
    let r := orderSafety s m q v
    (noticeHold r.1, if r.2 then pldmOverruled else 0, [])

/-- A master's order for a safety quantity by the way that it has: PLDM, or the quantity's register. -/
def masterOrder (s : State) (m : Master) (t : Transport) (q : Qty) (v : Nat) : State :=
  match m with
  | .bmc | .remote _ => pldmOrder s m t q v
  | _ => writeSafety s m q q.reg v

/-- An order that lost under R465 has no effect, and its master learns of it (R468). -/
def orderLost (s : State) (m : Master) (t : Transport) (q : Qty) : State :=
  match m with
  | .bmc | .remote _ => pldmFor s m t fun s => (s, pldmOverruled, [])
  | _ => noteOverruled s m q.reg

/-- A PLDM order for a safety quantity, met or not by another master's in the same slot: of two that meet the safer one
prevails, and otherwise that of the higher rank (R34, R465). -/
def meetOrders (s : State) (m : Master) (t : Transport) (q : Qty) (v : Nat) (met : Option (Master × Nat)) : State :=
  match met with
  | none => pldmOrder s m t q v
  | some (m', v') =>
    if m = m' ∨ safetyIdx m = none ∨ safetyIdx m' = none then masterOrder (pldmOrder s m t q v) m' t q v'
    else if safetyPrevails q m v m' v' then orderLost (pldmOrder s m t q v) m' t q
    else orderLost (masterOrder s m' t q v') m t q

/-- SET_NUMERIC_EFFECTER_VALUE: the cap or the limit. -/
def execSetNumericEffecterValue (m : Master) (t : Transport) (o : SafetyOrder) (s : State) : Res :=
  match o.val with
  | .cap w => .next (meetOrders s m t .cap w o.met)
  | .tlim c => .next (meetOrders s m t .tlim c o.met)
  | .stop _ => .next (pldmFor s m t fun s => (s, pldmNoSensor, []))

/-- SET_STATE_EFFECTER_STATES: the run state. -/
def execSetStateEffecterStates (m : Master) (t : Transport) (o : RunOrder) (s : State) : Res :=
  .next (meetOrders s m t .run (b2n o.stop) (o.met.map fun x => (x.1, b2n x.2)))

/-- A master's own value of a quantity and the effective one. -/
def effecterData (s : State) (m : Master) (q : Qty) : List Byte :=
  let own := match safetyIdx m with | some i => safeVal s i q | none => safeEff s q
  leBytes 2 own ++ leBytes 2 (safeEff s q)

/-- GET_NUMERIC_EFFECTER_VALUE: effecter 0 is the cap, 1 the limit. -/
def execGetNumericEffecterValue (m : Master) (t : Transport) (effecter : Fin 2) (s : State) : Res :=
  .next (pldmFor s m t fun s => (s, 0, effecterData s m (if effecter.val = 0 then .cap else .tlim)))

/-- GET_STATE_EFFECTER_STATES: the run state. -/
def execGetStateEffecterStates (m : Master) (t : Transport) (s : State) : Res :=
  .next (pldmFor s m t fun s => (s, 0, effecterData s m .run))

/-! ## Events (R519) -/

/-- SET_EVENT_RECEIVER: the transport and endpoint that the forecasts go to. -/
def execSetEventReceiver (t : Transport) (eid : Byte) (s : State) : Res :=
  .next (pldm s t fun s => ({ s with mgmt := { s.mgmt with receiver := some (trNum t, eid) } }, 0, []))

/-- POLL_FOR_PLATFORM_EVENT_MESSAGE: the forecast held, its event class first, which the poll takes (log 12). -/
def execPollForPlatformEventMessage (t : Transport) (s : State) : Res :=
  .next (pldm s t fun s =>
    match s.mgmt.event with
    | some bs => ({ s with mgmt := { s.mgmt with event := none } }, 0, BitVec.ofNat 8 heatClass :: bs)
    | none => (s, 0, []))

/-! ## Firmware updates (R444, R472, R533, R536) -/

/-- A copy as an update writes it. A boot configuration record carries its version and signature itself. The marker in
its own sector stands. -/
def newCopy (s : State) (comp k : Nat) (image : List Byte) (svn : Nat) (digest : BitVec 384) (sig : BitVec 768) :
    FlashCopy :=
  let isRec := comp == 2
  let body := if isRec then image.take 256 else image
  let sg := if isRec then sigField image 256 else sig
  let d := sha384 body
  { sig := (isRec || d == digest) && Config.ecdsaVerify Config.vendorKey d sg
    svn := if isRec then field image 18 2 else svn
    digest := d, image := image, seq := (flashCopy s comp k).seq }

/-- FIRMWARE_UPDATE: the inactive copy of a component is written. -/
def execFirmwareUpdate (component : Fin 3) (image : List Byte) (svn : BitVec 16) (digest : BitVec 384)
    (sig : BitVec 768) (s : State) : Res :=
  if !hmRuns s then .next s
  else
    let comp := component.val
    let k := 1 - activeCopy s comp
    .next (setCopy s comp k (newCopy s comp k image svn.toNat digest sig))

/-- ACTIVATE_FIRMWARE: it takes effect at the next reset, when the copy marked active runs. -/
def execActivateFirmware (component : Fin 3) (s : State) : Res :=
  .next (if hmRuns s then { s with mgmt := { s.mgmt with activated := sadd component.val s.mgmt.activated } } else s)

/-! ## SPDM (R473, R487, R491, R492) -/

/-- Error codes of SPDM (log 12). -/
def spdmInvalid : Nat := 1
def spdmUnexpected : Nat := 4
def spdmUnsupported : Nat := 7

def spdmState (s : State) (t : Transport) : Nat := tget 0 s.mgmt.spdm (trNum t)
def setSpdm (s : State) (t : Transport) (n : Nat) : State :=
  { s with mgmt := { s.mgmt with spdm := tput 0 (trNum t) n s.mgmt.spdm } }

/-- An SPDM request in a connection state of n or more; the ROM answers GET_VERSION and GET_CAPABILITIES alone. -/
def spdm (s : State) (t : Transport) (n : Nat) (rom : Bool) (f : State → State × Nat × List Byte) : State :=
  if domState s 69 ≠ 2 ∨ !trUp s t then s
  else
    let r := if s.boot.romOnly ∧ !rom then (s, spdmUnsupported, [])
      else if spdmState s t < n then (s, spdmUnexpected, [])
      else f s
    emit r.1 (.answer t r.2.1 r.2.2)

/-- GET_VERSION: the connection begins again. -/
def execGetVersion (t : Transport) (s : State) : Res :=
  .next (spdm s t 0 true fun s => (setSpdm s t 1, 0, Config.spdmBody 0x84 1))

/-- GET_CAPABILITIES. -/
def execGetCapabilities (t : Transport) (s : State) : Res :=
  .next (spdm s t 1 true fun s => (setSpdm s t 2, 0, Config.spdmBody 0xe1 2))

/-- NEGOTIATE_ALGORITHMS. -/
def execNegotiateAlgorithms (t : Transport) (s : State) : Res :=
  .next (spdm s t 2 false fun s => (setSpdm s t 3, 0, Config.spdmBody 0xe3 3))

/-- The certificate slots: slot 1 in OPERATIONAL only. -/
def slotThere (s : State) (k : Nat) : Bool := k == 0 || (k == 1 && s.fuses.lcs == 2)

/-- GET_DIGESTS: the slots present and the digest of each chain. -/
def execGetDigests (t : Transport) (s : State) : Res :=
  .next (spdm s t 3 false fun s =>
    let ks := (upto 2).filter fun k => slotThere s k
    (s, 0, leBytes 1 (ks.foldl (fun n k => n + 2 ^ k) 0) ++ ks.flatMap fun k => digBytes (sha384 (Config.certChain k))))

/-- GET_CERTIFICATE: a part of a chain. -/
def execGetCertificate (t : Transport) (slot off len : Nat) (s : State) : Res :=
  .next (spdm s t 3 false fun s =>
    let bs := Config.certChain slot
    if slotThere s slot ∧ off < bs.length then (s, 0, (bs.drop off).take len) else (s, spdmInvalid, []))

/-- The device key still signs SPDM: in every state but RETIRED. -/
def signsSpdm (s : State) : Bool := s.fuses.lcs != 4

/-- A body with the signature of the device key over the requester's nonce and the body (log 12). -/
def spdmSigned (s : State) (nonce : BitVec 256) (body : List Byte) : List Byte :=
  body ++ beBytes 96 (Config.ecdsaSign (deviceKey s.fuses.serial) (sha384 (beBytes 32 nonce.toNat ++ body))).toNat

/-- A measurement block. -/
def block (s : State) (n : Nat) : Option (BitVec 384) :=
  match n with
  | 1 => some Config.romDigest
  | 2 | 3 | 4 | 5 => some (tget 0 s.boot.digests n)
  | 6 =>
    if s.hm.unlock = 0 then some 0
    else some (sha384 (leBytes 1 (rdFld s rHmStat 4 4) ++ digBytes s.hm.unlock))
  | 16 => some s.crs.liveDig
  | 17 => some s.crs.retDig
  | 18 => some (s.hm.registry.getD (sha384 []))
  | _ => none

/-- The blocks that a measurement request names: index 0 asks their number, 0xff all of them. -/
def blocksOf (s : State) (index : Nat) : Option (List Byte) :=
  let all := [1, 2, 3, 4, 5, 6, 16, 17, 18]
  let show' (n : Nat) : List Byte := leBytes 1 n ++ digBytes ((block s n).getD 0)
  if index = 0 then some (leBytes 1 all.length)
  else if index = 0xff then some (all.flatMap show')
  else if all.contains index then some (show' index) else none

/-- CHALLENGE. -/
def execChallenge (t : Transport) (slot : Nat) (nonce : BitVec 256) (s : State) : Res :=
  .next (spdm s t 3 false fun s =>
    if !slotThere s slot then (s, spdmInvalid, [])
    else if !signsSpdm s then (s, spdmUnsupported, [])
    else (s, 0, spdmSigned s nonce (Config.spdmBody 0x83 3)))

/-- GET_MEASUREMENTS: one snapshot of the blocks, signed where the request asks it. -/
def execGetMeasurements (t : Transport) (index : Nat) (signed : Bool) (nonce : BitVec 256) (s : State) : Res :=
  .next (spdm s t 3 false fun s =>
    match blocksOf s index with
    | none => (s, spdmInvalid, [])
    | some bs =>
      if !signed then (s, 0, bs)
      else if !signsSpdm s then (s, spdmUnsupported, [])
      else (s, 0, spdmSigned s nonce bs))

end Sys2Proof.Machine
end

