-- ==== Sys2Proof/Machine/Debug.lean ====
section
/-! DEFINITION. The DBG block (R485, R490, R569 to R571). -/

namespace Sys2Proof.Machine

/-! ## The DBG block (R569 to R571) -/

def rDbgCtl : Nat := 0x90000
def rDbgStat : Nat := 0x90004
def rDbgAddr : Nat := 0x90008
def rDbgData : Nat := 0x90200

/-- DBG.STAT.STATUS. -/
inductive DStatus where
  | ok | quarantined | denied | address | domainOff | poison
deriving DecidableEq, Repr

def DStatus.num : DStatus → Nat
  | .ok => 0 | .quarantined => 1 | .denied => 2 | .address => 3 | .domainOff => 4 | .poison => 5

/-- Bytes of an access, none for the refused size. -/
def dbgSize (s : State) : Option Nat :=
  match rdFld s rDbgCtl 3 2 with
  | 0 => some 8 | 1 => some 64 | 2 => some 512 | _ => none

def dbgBusy (s : State) : Bool := rdFld s rDbgStat 1 0 == 1

/-- BLANK and RETURNED open every core (R490). -/
def lcsOpen (s : State) : Bool := s.fuses.lcs == 0 || s.fuses.lcs == 3

/-- The life-cycle state and the landing's job allow the access: any core in BLANK and RETURNED, a job created with DEBUG
in PROVISIONED and OPERATIONAL (R490). -/
def dbgAllowed (s : State) (l : Nat) : Bool :=
  lcsOpen s || (signsRecords s && match findJob s (bindJob s l) with | some j => j.debug | none => false)

/-- The first check that fails. -/
def dbgCheck (s : State) (a : Dword) (n : Nat) : DStatus :=
  let l := gaUnit a
  let sp := gaSpace a
  let off := gaOff a
  if gaMod a ≠ s.modnum.toNat ∨ !(sp == 0 || sp == 1 || sp == 2 || sp == 6) ∨ addrBad s l sp off n ∨ a.toNat % n ≠ 0 then
    .address
  else if !dbgAllowed s l then .denied
  else if dbgQuar s l sp then .quarantined
  else if !targetOn s l sp off n then .domainOff
  else .ok

/-- The address that DBG.ADDR holds. -/
def dbgAddr (s : State) : Dword := BitVec.ofNat 64 (rdPair s rDbgAddr)

/-- The first n bytes of DBG.DATA. -/
def dbgData (s : State) (n : Nat) : List Byte :=
  ((upto 128).flatMap fun i => leBytes 4 (rd s (rDbgData + 4 * i)).toNat).take n

/-- Bytes into DBG.DATA, from byte 0. -/
def setDbgData (s : State) (bs : List Byte) : State :=
  (payloadWords ((bs.length + 3) / 4) bs).zipIdx.foldl (fun s x => wr s (rDbgData + 4 * x.2) x.1) s

/-- The access is done. -/
def dbgDone (s : State) (x : DStatus) : State :=
  wr (wrFld s rDbgCtl 0 0 0) rDbgStat (BitVec.ofNat 32 (2 + 16 * x.num))

/-- A read that fails leaves zero in DBG.DATA. -/
def dbgReadFails (s : State) (x : DStatus) : State := dbgDone (setDbgData s (List.replicate 512 0)) x

/-- A read starts: its data is on its way, or it fails at once. -/
def dbgRead (s : State) : State :=
  let s := wrFld s rDbgCtl 1 1 0
  match dbgSize s with
  | none => dbgReadFails s .address
  | some n =>
    let a := dbgAddr s
    match dbgCheck s a n with
    | .ok =>
      let d := memData s (gaUnit a) (gaSpace a) (gaOff a) n
      let s := memRead s (gaUnit a) (gaSpace a) (gaOff a) n
      { wr (wrFld s rDbgCtl 0 0 1) rDbgStat 1 with
        dbg := some ⟨gaUnit a, memKey (gaUnit a) (gaSpace a) (gaOff a), d.1, d.2⟩ }
    | x => dbgReadFails s x

/-- A write of the DBG block. A row that an operand hold stalls waits as any row write does (R323). -/
def dbgWrite (s : State) : State :=
  let s := wrFld s rDbgCtl 1 1 1
  match dbgSize s with
  | none => dbgDone s .address
  | some n =>
    let a := dbgAddr s
    match dbgCheck s a n with
    | .ok =>
      let psn := rdFld s rDbgCtl 4 4 == 1
      let bs := dbgData s n
      let off := gaOff a
      let s := if gaSpace a = 1 then writeRowsHeld s (gaUnit a) (rowCore off) (rowNum off) .plain [(bs, psn)]
        else memWrite s (gaUnit a) (gaSpace a) off bs psn
      dbgDone s .ok
    | x => dbgDone s x

/-- DBG_READ: GO is written with WR = 0; ignored while BUSY. -/
def execDbgRead (m : Master) (s : State) : Res := .next (if reachesModule m ∧ !dbgBusy s then dbgRead s else s)

/-- DBG_WRITE: GO is written with WR = 1; ignored while BUSY. -/
def execDbgWrite (m : Master) (s : State) : Res := .next (if reachesModule m ∧ !dbgBusy s then dbgWrite s else s)

/-- DBG_ACCESS_COMPLETE: the data of a read returns, and the quarantine check is made again (R571). -/
def execDbgAccessComplete (s : State) : Res :=
  match s.dbg with
  | none => .next s
  | some x =>
    let s := { s with dbg := none }
    if dbgQuar s x.land (bits x.key 47 44) then .next (dbgReadFails s .quarantined)
    else .next (dbgDone (setDbgData s x.data) (if x.psn then .poison else .ok))

end Sys2Proof.Machine
end

