-- ==== Sys2Proof/Machine/Issue.lean ====
section
/-! DEFINITION. Engine commands at issue: fetch of two words, ILLEGAL, a full queue, refusals, entry into the queue
(R147, R150, R168 to R172, R202); the issue of every queued command; QUEUE_FULL_ISSUE; reserved instructions. -/

namespace Sys2Proof.Machine

/-- The two words of an engine command (R171). -/
def word0 (op : BitVec 6) (f : EForm) : Word := op ++ f.wctr ++ f.wmr ++ f.ra ++ f.rb ++ f.rc
def word1 (f : EForm) : Word := f.sctr ++ f.sinc ++ f.imm

/-- A command's queue in a core. -/
def getQueue (k : Core) : Eng → EQueue
  | .mtx => k.mtx | .vec => k.vec | .red => k.red | .se => k.se | .bank => k.bank

def setQueue (k : Core) (e : Eng) (q : EQueue) : Core :=
  match e with
  | .mtx => { k with mtx := q } | .vec => { k with vec := q } | .red => { k with red := q }
  | .se => { k with se := q } | .bank => { k with bank := q }

/-- A queue has no free place: 16 commands (R167, R598). -/
def queueFull (q : EQueue) : Bool := 16 ≤ q.cmds.length

/-- The command that a thread issues, with the registers it reads at issue (R172). -/
def readCmd (s : State) (w : ThreadRef) (t : Nat) (op : BitVec 6) (f : EForm) : EngCmd :=
  ⟨op, BitVec.ofNat 4 t, (getThr s w).pc, f.wctr, (src s w f.wmr).setWidth 48, f.sctr, f.sinc, f.imm,
    src s w f.ra, src s w f.rb, src s w f.rc⟩

/-- The refusal word: REASON, OP and word 1 (R202). -/
def refusalWord (op : BitVec 6) (f : EForm) (reason : Nat) : Dword :=
  BitVec.ofNat 64 (reason + op.toNat * 2 ^ 8 + (word1 f).toNat * 2 ^ 16)

/-- The fetch of an engine command: PC_END where its first word is the last of memory, FETCH_ECC for either word,
ILLEGAL on a deckhand and for unused fields that are not zero; else the body (R136, R147, R150). DESIGN CHOICE (log 93):
PC_END comes before ILLEGAL for the fields, and after ILLEGAL on a deckhand. -/
def issueE (s : State) (w : ThreadRef) (op : BitVec 6) (f : EForm) (body : State → Nat → Nat → Nat → State) : State :=
  if mayIssue s w then
    let s := noteRun s w
    let pc := (getThr s w).pc.toNat
    if fetchBad s w 0 then preciseFault s w .fetchEcc (BitVec.ofNat 64 (4 * pc))
    else if isDeckhand w then preciseFault s w .illegal ((word0 op f).setWidth 64)
    else if pc = 32767 then pcEnd s w
    else if fetchBad s w 1 then preciseFault s w .fetchEcc (BitVec.ofNat 64 (4 * (pc + 1)))
    else
      let s := correctWord (correctWord s w (unitBase (localKey w (4 * pc)))) w (unitBase (localKey w (4 * (pc + 1))))
      if illegalE op.toNat f then preciseFault s w .illegal ((word0 op f).setWidth 64)
      else
        match w with
        | .core l c t => body s l.val c.val t.val
        | .deckhand _ => s
  else s

/-- A queued command once a place is free: refused with ENGINE, or entered (R168, R202); the wait watchdog times one that
becomes the head (R177, R349). -/
def enter (s : State) (w : ThreadRef) (l c t : Nat) (op : BitVec 6) (f : EForm) (e : Eng) : State :=
  let cmd := readCmd s w t op f
  match firstReason (checksCommon f (src s w f.wmr) ++ checksOf cmd) with
  | some r => preciseFault s w .engine (refusalWord op f r)
  | none =>
    let k := getCore s l c
    let q := getQueue k e
    let q := if q.cmds.isEmpty then { q with since := runEdges s l, limit := wdogEdges s l, met := waitMet s l c cmd } else q
    advance (setCore s l c (setQueue k e { q with cmds := q.cmds ++ [cmd] })) w 2

/-- The issue of a queued command: the thread waits with WREASON 0x3 where the queue is full (R168). -/
def issueQueued (s : State) (w : ThreadRef) (op : BitVec 6) (f : EForm) (e : Eng) : State :=
  issueE s w op f fun s l c t =>
    if queueFull (getQueue (getCore s l c) e) then
      setThr s w { getThr s w with st := .wait, wait := .queue op f }
    else enter s w l c t op f e

/-- QUEUE_FULL_ISSUE: a place has freed and the command of the waiting thread issues (R168). -/
def execQueueFullIssue (w : ThreadRef) (s : State) : Res :=
  match w, (getThr s w).wait with
  | .core l c t, .queue op f =>
    match engineOf op.toNat with
    | some e =>
      if queueFull (getQueue (getCore s l.val c.val) e) ∨ !arrayOn s l.val then .next s
      else
        let s := setThr s w { getThr s w with st := .ready, wait := .none }
        .next (enter s w l.val c.val t.val op f e)
    | none => .next s
  | _, _ => .next s

/-- The IMM of a command with its sub-operation in IMM[17] (R170), or with its VOPC or ROP in place. -/
def withBit17 (f : EForm) (b : Bool) : EForm :=
  { f with imm := BitVec.ofNat 18 (putBits f.imm.toNat 17 17 (b2n b)) }
def withVopc (f : EForm) (op : Nat) : EForm := { f with imm := BitVec.ofNat 18 (putBits f.imm.toNat 7 0 op) }
def withRop (f : EForm) (op : Nat) : EForm := { f with imm := BitVec.ofNat 18 (putBits f.imm.toNat 2 0 op) }

/-- A VOP of one operation code (R191, R273). -/
def issueVop (s : State) (w : ThreadRef) (f : EForm) (op : Nat) : State := issueQueued s w 0x34 (withVopc f op) .vec

/-- A RED of one operation code (R194). -/
def issueRed (s : State) (w : ThreadRef) (f : EForm) (op : Nat) : State := issueQueued s w 0x37 (withRop f op) .red

def execMma (w : ThreadRef) (f : EForm) (s : State) : Res := .next (issueQueued s w 0x30 f .mtx)
def execMld (w : ThreadRef) (f : EForm) (s : State) : Res := .next (issueQueued s w 0x31 f .mtx)
def execMdr (w : ThreadRef) (f : EForm) (s : State) : Res := .next (issueQueued s w 0x32 f .mtx)
def execMz (w : ThreadRef) (f : EForm) (s : State) : Res := .next (issueQueued s w 0x33 f .mtx)
def execVopCopy (w : ThreadRef) (f : EForm) (s : State) : Res := .next (issueVop s w f 0x1)
def execVopAdd (w : ThreadRef) (f : EForm) (s : State) : Res := .next (issueVop s w f 0x2)
def execVopSub (w : ThreadRef) (f : EForm) (s : State) : Res := .next (issueVop s w f 0x3)
def execVopMul (w : ThreadRef) (f : EForm) (s : State) : Res := .next (issueVop s w f 0x4)
def execVopFma (w : ThreadRef) (f : EForm) (s : State) : Res := .next (issueVop s w f 0x5)
def execVopAxs (w : ThreadRef) (f : EForm) (s : State) : Res := .next (issueVop s w f 0x6)
def execVopAxsb (w : ThreadRef) (f : EForm) (s : State) : Res := .next (issueVop s w f 0x7)
def execVopMax (w : ThreadRef) (f : EForm) (s : State) : Res := .next (issueVop s w f 0x8)
def execVopMin (w : ThreadRef) (f : EForm) (s : State) : Res := .next (issueVop s w f 0x9)
def execVopAbs (w : ThreadRef) (f : EForm) (s : State) : Res := .next (issueVop s w f 0xa)
def execVopNeg (w : ThreadRef) (f : EForm) (s : State) : Res := .next (issueVop s w f 0xb)
def execVopCmpgt (w : ThreadRef) (f : EForm) (s : State) : Res := .next (issueVop s w f 0xc)
def execVopCmpge (w : ThreadRef) (f : EForm) (s : State) : Res := .next (issueVop s w f 0xd)
def execVopCmpeq (w : ThreadRef) (f : EForm) (s : State) : Res := .next (issueVop s w f 0xe)
def execVopSel (w : ThreadRef) (f : EForm) (s : State) : Res := .next (issueVop s w f 0xf)
def execVopExp (w : ThreadRef) (f : EForm) (s : State) : Res := .next (issueVop s w f 0x20)
def execVopExp2 (w : ThreadRef) (f : EForm) (s : State) : Res := .next (issueVop s w f 0x21)
def execVopLog (w : ThreadRef) (f : EForm) (s : State) : Res := .next (issueVop s w f 0x22)
def execVopLog2 (w : ThreadRef) (f : EForm) (s : State) : Res := .next (issueVop s w f 0x23)
def execVopRcp (w : ThreadRef) (f : EForm) (s : State) : Res := .next (issueVop s w f 0x24)
def execVopSqrt (w : ThreadRef) (f : EForm) (s : State) : Res := .next (issueVop s w f 0x25)
def execVopRsqrt (w : ThreadRef) (f : EForm) (s : State) : Res := .next (issueVop s w f 0x26)
def execVopTanh (w : ThreadRef) (f : EForm) (s : State) : Res := .next (issueVop s w f 0x27)
def execVopSigmoid (w : ThreadRef) (f : EForm) (s : State) : Res := .next (issueVop s w f 0x28)
def execVopSilu (w : ThreadRef) (f : EForm) (s : State) : Res := .next (issueVop s w f 0x29)
def execVopGelu (w : ThreadRef) (f : EForm) (s : State) : Res := .next (issueVop s w f 0x2a)
def execVopSin (w : ThreadRef) (f : EForm) (s : State) : Res := .next (issueVop s w f 0x2b)
def execVopCos (w : ThreadRef) (f : EForm) (s : State) : Res := .next (issueVop s w f 0x2c)
def execVopDiv (w : ThreadRef) (f : EForm) (s : State) : Res := .next (issueVop s w f 0x2d)
def execVopNrsqrt (w : ThreadRef) (f : EForm) (s : State) : Res := .next (issueVop s w f 0x2e)
def execVopSwiglu (w : ThreadRef) (f : EForm) (s : State) : Res := .next (issueVop s w f 0x2f)
def execVopRsub (w : ThreadRef) (f : EForm) (s : State) : Res := .next (issueVop s w f 0x30)
def execVopRmul (w : ThreadRef) (f : EForm) (s : State) : Res := .next (issueVop s w f 0x31)
def execVopRdiv (w : ThreadRef) (f : EForm) (s : State) : Res := .next (issueVop s w f 0x32)
def execVopRexpsub (w : ThreadRef) (f : EForm) (s : State) : Res := .next (issueVop s w f 0x33)
def execVopRscale (w : ThreadRef) (f : EForm) (s : State) : Res := .next (issueVop s w f 0x34)
def execPickge (w : ThreadRef) (f : EForm) (s : State) : Res := .next (issueVop s w f 0x40)
def execVcvt (w : ThreadRef) (f : EForm) (s : State) : Res := .next (issueQueued s w 0x35 f .vec)
def execVtab (w : ThreadRef) (f : EForm) (s : State) : Res := .next (issueQueued s w 0x36 f .vec)
def execRedSum (w : ThreadRef) (f : EForm) (s : State) : Res := .next (issueRed s w f 0)
def execRedMax (w : ThreadRef) (f : EForm) (s : State) : Res := .next (issueRed s w f 1)
def execRedMin (w : ThreadRef) (f : EForm) (s : State) : Res := .next (issueRed s w f 2)
def execRedMaxi (w : ThreadRef) (f : EForm) (s : State) : Res := .next (issueRed s w f 3)
def execRedMini (w : ThreadRef) (f : EForm) (s : State) : Res := .next (issueRed s w f 4)
def execPack (w : ThreadRef) (f : EForm) (s : State) : Res := .next (issueQueued s w 0x38 (withBit17 f false) .vec)
def execUnpk (w : ThreadRef) (f : EForm) (s : State) : Res := .next (issueQueued s w 0x38 (withBit17 f true) .vec)
def execRowfill (w : ThreadRef) (f : EForm) (s : State) : Res := .next (issueQueued s w 0x39 (withBit17 f false) .bank)
def execRowcopy (w : ThreadRef) (f : EForm) (s : State) : Res := .next (issueQueued s w 0x39 (withBit17 f true) .bank)
def execStrm (w : ThreadRef) (f : EForm) (s : State) : Res := .next (issueQueued s w 0x3a f .se)
def execRearm (w : ThreadRef) (f : EForm) (s : State) : Res := .next (issueQueued s w 0x3b f .se)

/-! ## What stands at a thread's PC (R134) -/

/-- The 32-bit word of the memory that a thread fetches from, at word index i. -/
def fetchWord (s : State) (w : ThreadRef) (i : Nat) : Word := BitVec.ofNat 32 (getNat s (localKey w (4 * i)) 4)

/-- The command that a thread issues next: the one spelled by the word at byte address 4 × PC of its memory, with the word
after it for an engine command (R134, R135, R142, R170). A command that memory does not spell is the sender's own: exec
gives it its effect all the same, so that the model allows more runs than the hardware has (log 91). -/
def commandAt (s : State) (w : ThreadRef) : Instr :=
  let pc := (getThr s w).pc.toNat
  decodeWords w (fetchWord s w pc) (fetchWord s w (pc + 1))

/-! ## Reserved instructions (R136, R142, R144, R160, R170, R202) -/

/-- A scalar word whose OP, FN or SYS sub-operation is reserved. -/
def reservedScalar (w0 : Word) : Bool :=
  let op := wfld w0 31 26
  let fn := wfld w0 5 0
  match op with
  | 0x00 => fn == 0 || 0x12 < fn
  | 0x0f | 0x1d | 0x1e | 0x1f | 0x25 | 0x3f => true
  | 0x24 => 1 < fn
  | 0x2e => fn != 0
  | 0x2f => 3 < wfld w0 25 21
  | _ => false

/-- A VOP or RED whose operation code is reserved (R202 SUBOP). -/
def reservedSubop (w0 w1 : Word) : Bool :=
  (wfld w0 31 26 == 0x34 && !vopKnown (wfld w1 7 0)) || (wfld w0 31 26 == 0x37 && 4 < wfld w1 2 0)

/-- RESERVED_INSTRUCTION: a reserved word faults with ILLEGAL (R136); a VOP or RED with a reserved operation code
takes the checks of R202, which refuse it. A word that is not reserved is no such instruction. -/
def execReservedInstruction (w : ThreadRef) (w0 w1 : Word) (s : State) : Res :=
  if reservedScalar w0 then .next (issue s w true w0 fun s => s)
  else if reservedSubop w0 w1 then
    let e := if wfld w0 31 26 = 0x34 then Eng.vec else Eng.red
    .next (issueQueued s w (BitVec.ofNat 6 (wfld w0 31 26)) (formOf w0 w1) e)
  else .next s

end Sys2Proof.Machine
end

