-- ==== Sys2Proof/Machine/Sync.lean ====
section
/-! DEFINITION. The sync commands SIG, WAIT, CLA and CLW, the release of waiters, the wait watchdog for threads, pair
registers and closures (R169, R200, R202, R329 to R330, R337 to R350). -/

namespace Sys2Proof.Machine

/-! ## Closure groups (R338, R344, R359) -/

/-- First register of closure group g of a landing. -/
def cgBase (l g : Nat) : Nat := lcBase l + 0x100 + 0x40 * g
def cgLmask (s : State) (l g : Nat) : Word := rd s (cgBase l g + 0x20)
def cgCtl (s : State) (l g : Nat) : Word := rd s (cgBase l g + 0x24)
def cgPer (s : State) (l g : Nat) : Word := rd s (cgBase l g + 0x28)
def cgEn (s : State) (l g : Nat) : Bool := wfld (cgCtl s l g) 0 0 == 1
def cgPeriodic (s : State) (l g : Nat) : Bool := wfld (cgCtl s l g) 1 1 == 1
def cgSys (s : State) (l g : Nat) : Bool := wfld (cgCtl s l g) 2 2 == 1

/-- Arrivals of a core that make its arrival for one generation (R341). -/
def cgNeed (s : State) (l g : Nat) : Nat := wfld (cgCtl s l g) 6 3 + 1

/-- The core mask names a core (R338). -/
def cgNames (s : State) (l g c : Nat) : Bool := bit (rd s (cgBase l g + 4 * (c / 32))).toNat (c % 32)

/-- The member cores of a landing: active cores of the core mask (R338). -/
def cgCores (s : State) (l g : Nat) : List Nat := (activeCores s l).filter fun c => cgNames s l g c

/-- The member landings: those of the landing mask that are present (R338). -/
def cgLands (s : State) (l g : Nat) : List Nat :=
  (presentLands s).filter fun k => bit (cgLmask s l g).toNat k

/-- The member landings of a module: those of the landing mask that are present there (R338). -/
def cgLandsIn (s : State) (l g m : Nat) : List Nat :=
  (presentIn s m).filter fun k => bit (cgLmask s l g).toNat k

/-- The member modules: the closure set where SYS is 1, else this module (R340). -/
def cgMods (s : State) (l g : Nat) : List Nat := if cgSys s l g then members s else [s.modnum.toNat]

/-- The module that holds the master (R344). -/
def cgMasterMod (s : State) (l g : Nat) : Nat := (cgMods s l g).foldl min s.modnum.toNat

/-- The master landing: the lowest-numbered live landing of the landing mask (R344). -/
def cgMasterLand (s : State) (l g : Nat) : Option Nat := (cgLands s l g).find? fun k => liveLand s k

/-- This landing is the group's master (R344). -/
def isMaster (s : State) (l g : Nat) : Bool :=
  cgMasterLand s l g == some l && cgMasterMod s l g == s.modnum.toNat

/-- The closure has no member beyond the landing (R344). -/
def cgSingle (s : State) (l g : Nat) : Bool := cgLands s l g == [l] && cgMods s l g == [s.modnum.toNat]

def setGroup (s : State) (l g : Nat) (x : Group) : State :=
  let y := getLand s l
  setLand s l { y with groups := tput {} g x y.groups }

/-- CGEVT of a group: OVERRUN, MISMATCH, REFUSED. -/
def cgOverrun (s : State) (l g : Nat) : State := countUp s (cgBase l g + 0x30) 7 0 1 none
def cgMismatch (s : State) (l g : Nat) : State := countUp s (cgBase l g + 0x30) 15 8 1 (some (lcBase l + 4, 5))
def cgRefused (s : State) (l g : Nat) : State := countUp s (cgBase l g + 0x30) 23 16 1 none

/-! ## Arrivals (R341, R342) -/

/-- A CLA of a thread: it counts toward GEN, else toward GEN + 1; none where it would count toward GEN + 2, and is
held. -/
def arrive (s : State) (l c t g : Nat) (sctr : BitVec 6) (sinc : BitVec 8) : Option State :=
  let x := getGroup s l g
  let need := cgNeed s l g
  let note (gen : BitVec 16) (x : Group) : State :=
    let w := coreThr l c t
    let y := getThr s w
    setThr (setGroup s l g { x with clas := x.clas ++ [⟨c, t, gen, sctr, sinc⟩] }) w
      { y with arrived := tput none g (some gen) y.arrived }
  if tget 0 x.now c < need then some (note x.gen { x with now := tput 0 c (tget 0 x.now c + 1) x.now })
  else if tget 0 x.next c < need then
    some (note (x.gen + 1) { x with next := tput 0 c (tget 0 x.next c + 1) x.next })
  else none

/-- A thread's last arrival in a group, if its generation has not released (R343). -/
def openArrival (s : State) (l g : Nat) (gen : BitVec 16) : Bool :=
  let x := getGroup s l g
  gen == x.gen || gen == x.gen + 1

/-! ## The sync commands (R169, R200) -/

/-- The core may arrive in a closure group: the group is enabled and its core mask names the core (R202, R345). -/
def takesCla (s : State) (l g c : Nat) : Bool := cgEn s l g && cgNames s l g c

/-- The refusal of a CLA with NOT_MEMBER (R202). -/
def refuseCla (s : State) (w : ThreadRef) (g : BitVec 4) (sctr : BitVec 6) (sinc : BitVec 8) : State :=
  preciseFault s w .engine (refusalWord 0x3e ⟨0, 0, 0, 0, 0, sctr, sinc, g.setWidth 18⟩ 0x0e)

/-- Refusals of a sync command beyond the common ones (R202). -/
def checksSync (s : State) (l c t : Nat) (op : SyncOp) (f : EForm) : List (Nat × Bool) :=
  match op with
  | .sig => [(0x0d, f.sctr == 0x3f)]
  | .wait => [(0x0d, f.wctr == 0x3f)]
  | .cla g => [(0x0e, !takesCla s l g.toNat c)]
  | .clw g =>
    [(0x0e, !cgNames s l g.toNat c), (0x0f, (tget none (getThr s (coreThr l c t)).arrived g.toNat).isNone)]

/-- The thread waits in the given way, timed by the wait watchdog from now (R349). -/
def park (s : State) (w : ThreadRef) (x : Wait) : State :=
  setThr s w
    { getThr s w with st := .wait, wait := x, since := runEdges s (thrLand w), limit := wdogEdges s (thrLand w) }

/-- The thread is READY and waits for nothing. -/
def unpark (s : State) (w : ThreadRef) : State :=
  let t := getThr s w
  setThr s w { t with st := .ready, wait := .none }

/-- A sync command whose wait-before is met, its signal-after aside, for a READY thread whose PC stands at the command. A
group whose EN was cleared, or that the core has left, while a CLA waited accepts it no more: it is refused as at issue
(R345; log 44). -/
def goSync (s : State) (l c t : Nat) (op : SyncOp) (sctr : BitVec 6) (sinc : BitVec 8) : State :=
  let w := coreThr l c t
  match op with
  | .sig | .wait => advance s w 2
  | .cla g =>
    if !takesCla s l g.toNat c then refuseCla s w g sctr sinc
    else
      match arrive s l c t g.toNat sctr sinc with
      | some s => advance s w 2
      | none => park s w (.cla g sctr sinc)
  | .clw g =>
    match tget none (getThr s w).arrived g.toNat with
    | some gen => if openArrival s l g.toNat gen then park s w (.clw g gen sctr sinc) else advance s w 2
    | none => advance s w 2

/-- The signal-after that a sync command applies once its wait-before is met: SIG, WAIT, and a CLW whose generation has
released (R200). -/
def syncAdd (s : State) (l c t : Nat) (op : SyncOp) (sctr : BitVec 6) (sinc : BitVec 8) : List Add :=
  let add (a : AddSrc) : List Add := if sctr = 0x3f then [] else [⟨sctr.toNat, sinc.toNat, a⟩]
  match op with
  | .sig | .wait => add (.thread t)
  | .cla _ => []
  | .clw g =>
    match tget none (getThr s (coreThr l c t)).arrived g.toNat with
    | some gen => if openArrival s l g.toNat gen then [] else add (.closure t)
    | none => add (.closure t)

/-- A sync command whose wait-before is met. -/
def runSync (s : State) (l c t : Nat) (op : SyncOp) (sctr : BitVec 6) (sinc : BitVec 8) : State :=
  goSync (addMany s l c (syncAdd s l c t op sctr sinc)) l c t op sctr sinc

/-- A sync command at issue: ILLEGAL and refusals as for every engine command; then its wait-before (R169, R329). -/
def issueSync (s : State) (w : ThreadRef) (code : BitVec 6) (f : EForm) (op : SyncOp) : State :=
  issueE s w code f fun s l c t =>
    match firstReason (checksCommon f (src s w f.wmr) ++ checksSync s l c t op f) with
    | some r => preciseFault s w .engine (refusalWord code f r)
    | none =>
      let mark := (src s w f.wmr).setWidth 48
      if f.wctr = 0x3f ∨ reached s l c f.wctr.toNat mark then runSync s l c t op f.sctr f.sinc
      else park s w (.ctr f.wctr mark op f.sctr f.sinc)

/-- The closure group that a CLA or CLW names. -/
def groupOf (f : EForm) : BitVec 4 := f.imm.setWidth 4

def execSig (w : ThreadRef) (f : EForm) (s : State) : Res := .next (issueSync s w 0x3c f .sig)
def execWait (w : ThreadRef) (f : EForm) (s : State) : Res := .next (issueSync s w 0x3d f .wait)
def execCla (w : ThreadRef) (f : EForm) (s : State) : Res :=
  .next (issueSync s w 0x3e (withBit17 f false) (.cla (groupOf f)))
def execClw (w : ThreadRef) (f : EForm) (s : State) : Res :=
  .next (issueSync s w 0x3e (withBit17 f true) (.clw (groupOf f)))

/-! ## Release of waiters (R329, R330) -/

/-- A thread that waits on a counter is released; its sync command goes on, its signal-after aside. -/
def releaseThread (s : State) (l c n t : Nat) : State :=
  let w := coreThr l c t
  match (getThr s w).wait with
  | .ctr m _ op sctr sinc => if m.toNat = n then goSync (unpark s w) l c t op sctr sinc else s
  | _ => s

/-- The signal-after of a thread that a counter releases. -/
def releaseAdd (s : State) (l c t : Nat) : List Add :=
  match (getThr s (coreThr l c t)).wait with
  | .ctr _ _ op sctr sinc => syncAdd s l c t op sctr sinc
  | _ => []

/-- The threads that wait on a counter whose mark is reached, at the moment of the release (R330). -/
def dueThreads (s : State) (l c n : Nat) : List Nat :=
  (upto 16).filter fun t =>
    match (getThr s (coreThr l c t)).wait with
    | .ctr m mark _ _ _ => m.toNat == n && reached s l c n mark
    | _ => false

/-- WAITER_RELEASE: every thread of the core whose mark on the counter is reached goes on, whatever the others do; their
signal-afters are additions of one CORECLK (R330, R335, R336). Engine commands start by ENGINE_COMMAND_START. -/
def execWaiterRelease (k : CoreRef) (ctr : Fin 48) (s : State) : Res :=
  let l := k.land.val
  let c := k.core.val
  .next (if arrayOn s l ∧ !quarantined s l then
    let due := dueThreads s l c ctr.val
    let adds := due.flatMap fun t => releaseAdd s l c t
    addMany (due.foldl (fun s t => releaseThread s l c ctr.val t) s) l c adds
  else s)

/-! ## The wait watchdog (R349 to R351) -/

/-- The number that a WAIT_TIMEOUT records: the counter, or 48 plus the group; none for a wait that the watchdog does
not time. -/
def timedWait (t : Thread) : Option Nat :=
  match t.wait with
  | .ctr c _ _ _ _ => some c.toNat
  | .clw g _ _ _ => some (48 + g.toNat)
  | .cla g _ _ => some (48 + g.toNat)
  | _ => none

/-- What the wait waits for has already happened: the release wins (R351). -/
def waitOver (s : State) (l c : Nat) (t : Thread) : Bool :=
  match t.wait with
  | .ctr n mark _ _ _ => reached s l c n.toNat mark
  | .clw g gen _ _ => !openArrival s l g.toNat gen
  | _ => false

/-- A notice to the master of a system closure that a watchdog fired on it, resent until acknowledged (R415). -/
def noticeWdog (s : State) (l g : Nat) : State :=
  let m := cgMasterMod s l g
  if cgSys s l g ∧ m ≠ s.modnum.toNat then
    let u : Unacked := ⟨g, (getGroup s l g).gen.toNat, m⟩
    sendMsg { s with xpt := { s.xpt with wdogs := s.xpt.wdogs ++ [u] } } 0x000a m [(g : Int), (u.gen : Int)]
  else s

/-- WAIT_TIMEOUT: the thread faults with WAIT_TIMEOUT once its wait has lasted the timeout (R349, R350). Not while the array
is CLOCK-STOPPED, nor where the release has come (R351). -/
def execWaitTimeout (w : ThreadRef) (s : State) : Res :=
  match w with
  | .deckhand _ => .next s
  | .core l c _ =>
    let t := getThr s w
    match timedWait t with
    | none => .next s
    | some n =>
      if t.st ≠ .wait ∨ !arrayOn s l.val ∨ waitOver s l.val c.val t ∨ !waitExpired s l.val t.since t.limit then .next s
      else
        let s := preciseFault s w .waitTimeout (BitVec.ofNat 64 n)
        let s := watchdogFired s l.val c.val
        .next (if 48 ≤ n then noticeWdog s l.val (n - 48) else s)

/-! ## Pair registers (R337) -/

/-- Every thread of the core is IDLE or FAULT and no engine command is queued (R337). -/
def pairTime (s : State) (l c : Nat) : Bool :=
  let k := getCore s l c
  ((upto 16).all fun t => let x := (getThr s (coreThr l c t)).st; x == .idle || x == .fault) &&
    k.mtx.cmds.isEmpty && k.vec.cmds.isEmpty && k.red.cmds.isEmpty && k.se.cmds.isEmpty && k.bank.cmds.isEmpty

/-- The settings of an enabling write are valid (R337). -/
def pairValid (s : State) (l c i : Nat) (v : Word) : Bool :=
  let p := pairP v
  let q := pairC v
  p < 48 && q < 48 && p != q && pairD v != 0 &&
    !((upto 16).any fun j =>
      let w := pairReg s l c j
      j != i && pairEn w && (pairP w == p || pairP w == q || pairC w == p || pairC w == q))

/-- A write of a pair register takes effect, or is ignored and sets PREFUSED (R337). -/
def writePair (s : State) (l c i : Nat) (v : Word) : State :=
  if pairTime s l c && (!pairEn v || pairValid s l c i v) then wr s (coreBase l c + 0x380 + 4 * i) v
  else setFlag s (coreBase l c + oChstat) 5

/-! ## Writes of a closure group (R338, R345) -/

/-- Some arrival of the landing counts toward GEN, or toward GEN + 1 (R359). -/
def cgOpen (x : Group) : Bool := !x.now.isEmpty
def cgAhead (x : Group) : Bool := !x.next.isEmpty

/-- Whether a register of the group takes the value: EN = 1 needs the landing's own bit (R338), and a period is at
least 200 (R359). -/
def cgTakes (s : State) (l g reg : Nat) (v : Word) : Bool :=
  if reg = 9 then !bit v.toNat 0 || bit (cgLmask s l g).toNat l
  else if reg = 10 then 200 ≤ v.toNat
  else true

/-- A write of CMASK0 to CMASK7, LMASK, CGCTL or CGPER, numbered 0 to 10 (R345). New settings of a master take the bar from a
generation whose arrival message differed from the old ones (DESIGN CHOICE, log 44). -/
def writeGroup (s : State) (l g reg : Nat) (v : Word) : State :=
  let x := getGroup s l g
  let v := if reg = 9 then v &&& 0x7f else v
  if cgOpen x ∨ cgAhead x ∨ !cgTakes s l g reg v then cgRefused s l g
  else setGroup (wr s (cgBase l g + 4 * reg) v) l g { x with bar := false, barNext := false }

/-! ## Completion of a generation (R343, R344, R346 to R348) -/

/-- The landing's own cores have arrived for GEN, or for GEN + 1. -/
def ownArrived (s : State) (l g : Nat) (ahead : Bool) : Bool :=
  let x := getGroup s l g
  let t := if ahead then x.next else x.now
  let cs := cgCores s l g
  !cs.isEmpty && cs.all fun c => cgNeed s l g ≤ tget 0 t c

/-- Every arrival of GEN has reached the master, and none came with other settings (R338, R344). -/
def cgComplete (s : State) (l g : Nat) : Bool :=
  if cgSingle s l g then ownArrived s l g false
  else
    let x := getGroup s l g
    !x.bar && (cgMods s l g).all fun m => (cgLandsIn s l g m).all fun k => x.got.contains (k, m)

/-- Re-alignment of the pairs of a core at a periodic release (R348). -/
def realignPair (s : State) (l c : Nat) (w : Word) : State :=
  if pairEn w ∧ pairRealign w then
    let p := getCtr s l c (pairP w)
    let q := getCtr s l c (pairC w)
    let skew := ctrEff p != ctrEff q
    let s := setCtr s l c (pairP w) { p with base := p.val }
    let s := setCtr s l c (pairC w) { q with base := q.val }
    if skew then raiseCore (setFlag s (coreBase l c + oChstat) 3) l c 7 else s
  else s

def realign (s : State) (l c : Nat) : State :=
  (upto 16).foldl (fun s i => realignPair s l c (pairReg s l c i)) s

/-- The CLWs of a core that wait on a generation, and the CLAs held in the group, ascending by thread. -/
def clwThreads (s : State) (l c g : Nat) (gen : BitVec 16) : List Nat :=
  (upto 16).filter fun t =>
    match (getThr s (coreThr l c t)).wait with
    | .clw h n _ _ => h.toNat == g && n == gen
    | _ => false
def heldClas (s : State) (l c g : Nat) : List Nat :=
  (upto 16).filter fun t =>
    match (getThr s (coreThr l c t)).wait with
    | .cla h _ _ => h.toNat == g
    | _ => false

/-- The signal-after of a waiting CLW. -/
def clwAdd (s : State) (l c t : Nat) : List Add :=
  match (getThr s (coreThr l c t)).wait with
  | .clw _ _ sctr sinc => if sctr = 0x3f then [] else [⟨sctr.toNat, sinc.toNat, .closure t⟩]
  | _ => []

/-- A held CLA counts toward the new GEN + 1 and its thread continues (R342). -/
def countHeld (s : State) (l c g t : Nat) : State :=
  let w := coreThr l c t
  match (getThr s w).wait with
  | .cla _ sctr sinc =>
    match arrive s l c t g sctr sinc with
    | some s => advance (unpark s w) w 2
    | none => s
  | _ => s

/-- The release at one core: re-alignment, signal-afters, CLWs, then held CLAs (R346, R348). `clas` are the CLAs
counted toward the generation. -/
def releaseCore (s : State) (l g : Nat) (gen : BitVec 16) (clas : List Cla) (periodic : Bool) (c : Nat) : State :=
  let s := if periodic then realign s l c else s
  let waits := clwThreads s l c g gen
  let adds := (clas.filter fun a => a.core == c && a.sctr != 0x3f).map fun a =>
    (⟨a.sctr.toNat, a.sinc.toNat, .closure a.thr⟩ : Add)
  let s := addMany s l c (adds ++ waits.flatMap fun t => clwAdd s l c t)
  let s := waits.foldl (fun s t => let w := coreThr l c t; advance (unpark s w) w 2) s
  (heldClas s l c g).foldl (fun s t => countHeld s l c g t) s

/-- GEN of a landing's group releases: it advances by 1, the arrivals toward GEN + 1 stand, and the release reaches
the member cores (R343, R346). -/
def releaseLanding (s : State) (g : Nat) (periodic : Bool) (l : Nat) : State :=
  let x := getGroup s l g
  let clas := x.clas.filter fun a => a.gen == x.gen
  let s := setGroup s l g
    { x with
      gen := x.gen + 1, now := x.next, next := [], clas := x.clas.filter fun a => a.gen != x.gen
      got := x.gotNext, gotNext := [], bar := x.barNext, barNext := false, sent := x.sentNext, sentNext := false }
  (cgCores s l g).foldl (fun s c => releaseCore s l g x.gen clas periodic c) s

/-- The release at every member landing of this module that is live. -/
def releaseLands (s : State) (l g : Nat) (periodic : Bool) : State :=
  ((cgLands s l g).filter fun k => liveLand s k).foldl (fun s k => releaseLanding s g periodic k) s

/-- The master's release: its own module's landings, and a CL_RELEASE to every other member module, resent until
acknowledged (R340, R344, R415). -/
def masterRelease (s : State) (l g : Nat) (periodic : Bool) : State :=
  let gen := (getGroup s l g).gen.toNat
  let others := (cgMods s l g).filter fun m => m ≠ s.modnum.toNat
  let s := releaseLands s l g periodic
  others.foldl
    (fun s m =>
      sendMsg { s with xpt := { s.xpt with clRel := s.xpt.clRel ++ [⟨g, gen, m⟩] } } 0x0005 m [(g : Int), (gen : Int)])
    s

/-- CLOSURE_RELEASE: GEN of a closure that is not periodic releases once every arrival has reached the master
(R343, R344, R346). -/
def execClosureRelease (l : Fin 32) (g : Fin 16) (s : State) : Res :=
  .next (if isMaster s l.val g.val ∧ cgEn s l.val g.val ∧ !cgPeriodic s l.val g.val ∧ cgComplete s l.val g.val then
    masterRelease s l.val g.val false else s)

/-- PERIODIC_CLOSURE_BOUNDARY: at a multiple of CGPER the generation releases, or OVERRUN counts (R347). -/
def execPeriodicClosureBoundary (l : Fin 32) (g : Fin 16) (s : State) : Res :=
  .next (if isMaster s l.val g.val ∧ cgEn s l.val g.val ∧ cgPeriodic s l.val g.val ∧
      s.time.toNat % (cgPer s l.val g.val).toNat = 0 then
    if cgComplete s l.val g.val then masterRelease s l.val g.val true else cgOverrun s l.val g.val
  else s)

/-! ## Arrival messages (R344) -/

/-- An arrival message at the master: where its settings differ from the master's, MISMATCH counts and its generation does
not release; else it is recorded for GEN or GEN + 1. -/
def takeArrival (s : State) (l g src mod : Nat) (gen : BitVec 16) (lmask ctl per : Word) : State :=
  let x := getGroup s l g
  if lmask ≠ cgLmask s l g ∨ ctl ≠ cgCtl s l g ∨ per ≠ cgPer s l g then
    cgMismatch (setGroup s l g { x with bar := x.bar || gen == x.gen, barNext := x.barNext || gen == x.gen + 1 }) l g
  else if gen = x.gen then setGroup s l g { x with got := x.got ++ [(src, mod)] }
  else if gen = x.gen + 1 then setGroup s l g { x with gotNext := x.gotNext ++ [(src, mod)] }
  else s

/-- The landing marked as having sent its arrival message for a generation; none where it has not arrived, or has
sent it. -/
def markSent (s : State) (l g : Nat) (gen : BitVec 16) : Option State :=
  let x := getGroup s l g
  if gen = x.gen ∧ ownArrived s l g false ∧ !x.sent then some (setGroup s l g { x with sent := true })
  else if gen = x.gen + 1 ∧ ownArrived s l g true ∧ !x.sentNext then some (setGroup s l g { x with sentNext := true })
  else none

/-- The settings of a landing's group are these. -/
def cgOwn (s : State) (l g : Nat) (lmask ctl per : Word) : Bool :=
  lmask == cgLmask s l g && ctl == cgCtl s l g && per == cgPer s l g

/-- ARRIVAL_MESSAGE: a member landing whose own cores have arrived sends its one message for the generation, with its own
LMASK, CGCTL and CGPER, to the master over the mesh, or as CL_ARRIVE to another module (R340, R344). A message that names
another landing or other settings is none that the landing sends. -/
def execArrivalMessage (src l : Fin 32) (g : Fin 16) (gen : BitVec 16) (lmask cgctl cgper : Word) (s : State) :
    Res :=
  let own := cgOwn s src.val g.val lmask cgctl cgper
  if !own ∨ (cgMasterMod s src.val g.val = s.modnum.toNat ∧ cgMasterLand s src.val g.val ≠ some l.val) then .next s
  else
    match markSent s src.val g.val gen with
    | none => .next s
    | some s =>
      let m := cgMasterMod s src.val g.val
      if m ≠ s.modnum.toNat then
        .next (sendMsg s 0x0004 m
          [(src.val : Int), (g.val : Int), (gen.toNat : Int), (lmask.toNat : Int), (cgctl.toNat : Int), (cgper.toNat : Int)])
      else .next (takeArrival s l.val g.val src.val m gen lmask cgctl cgper)

end Sys2Proof.Machine
end

