-- ==== Sys2Proof/Machine/Vector.lean ====
section
/-! DEFINITION. The vector engine, the reduction unit and the bank commands: VOP, PICKGE, VCVT, VTAB, RED, ROWFILL and
ROWCOPY (R190 to R194, R197, R271 to R289). -/

namespace Sys2Proof.Machine

/-- Rows written to a destination, with the poisoned ones counted in CORE.VRSTAT.VPOISON (R279). -/
def putVec (s : State) (l c dst : Nat) (rows : PRows) : State :=
  let n := (rows.filter fun r => r.2).length
  putRows (countUp s (coreBase l c + 0x1e0) 15 0 n none) l c dst rows

/-- Source A: rows of the scratchpad, or the rows that the drain port passed on, padded with poisoned zero rows or cut to
COUNT (R190). -/
def sourceRows (s : State) (l c first n : Nat) (drain : Option PRows) : PRows :=
  match drain with
  | some rows => fitTo (List.replicate 512 0, true) n rows
  | none => readRows s l c first n

/-- Marks of source rows handled, unless they come from the drain port. -/
def sourceMarks (s : State) (l c first n : Nat) (drain : Option PRows) : State :=
  if drain.isSome then s else readRowsMarks s l c first n

/-- DRAIN_MISMATCH where the drain's rows differ in number from COUNT (R190, R203). -/
def drainError (n : Nat) (drain : Option PRows) : Option Nat :=
  match drain with
  | some rows => if rows.length = n then none else some 6
  | none => none

/-! ## VOP (R272 to R279) -/

/-- Code of element e of rows, and the poison of its row. -/
def codeAt (fmt : Nat) (rows : Array (Array Nat × Bool)) (e : Nat) : Nat × Bool :=
  let r := rows.getD (e / perRow fmt) (#[], false)
  (r.1.getD (e % perRow fmt) 0, r.2)

/-- Rows as arrays of codes. -/
def rowArrays (fmt : Nat) (rows : PRows) : Array (Array Nat × Bool) :=
  (rows.map fun r => ((rowCodes fmt r.1).toArray, r.2)).toArray

/-- Position in B of the element that e uses: by run, broadcast, or its own (R275, R276). -/
def EngCmd.bPos (e : EngCmd) (i : Nat) : Nat :=
  if runOp e.vopc then i / e.run else if bit e.rb.toNat 14 then i % perRow (e.im 11 8) else i
def EngCmd.cPos (e : EngCmd) (i : Nat) : Nat :=
  if e.vopc = 0x34 then i % e.run else if bit e.rb.toNat 15 then i % perRow (e.im 11 8) else i

/-- Row i of a VOP's output (R272, R279). -/
def vopRow (e : EngCmd) (xa xb xc : Array (Array Nat × Bool)) (i : Nat) : List Byte × Bool :=
  let fmt := e.im 11 8
  let per := perRow fmt
  let op := e.vopc
  let scalar := decodeElem fFP32 (e.c 31 0)
  let out := (upto per).map fun j =>
    let n := i * per + j
    let a := codeAt fmt xa n
    let b := if vopUsesB op then codeAt fmt xb (e.bPos n) else (0, false)
    let c := if vopUsesC op then codeAt fmt xc (e.cPos n) else (0, false)
    (vopElem fmt op ⟨e.im 14 12, 0, 0⟩ a.1 b.1 c.1 scalar, a.2 || b.2 || c.2)
  (codesRow fmt (out.map fun o => o.1), out.any fun o => o.2)

/-- Pairs that PICKGE writes: the value widened to FP32, then the element's index (R277). -/
def pickPairs (fmt n : Nat) (xa : Array (Array Nat × Bool)) (t : Val) : List Nat :=
  (upto n).flatMap fun i =>
    let v := decodeElem fmt (codeAt fmt xa i).1
    if !v.isNan && !t.isNan && decide (0 ≤ v.order t) then [(encodeElem fFP32 v rne false).1, i] else []

/-- PICKGE (R277). -/
def runPick (s : State) (l c : Nat) (e : EngCmd) (rows : PRows) : State :=
  let fmt := e.im 11 8
  let b := rowData s l c (e.a 25 13)
  let t := decodeElem fmt (elemAt fmt [b.1] 0)
  let ws := pickPairs fmt e.vopN (rowArrays fmt rows) t ++ [0x7fc00000, 0xffffffff]
  let psn := b.2 || rows.any fun r => r.2
  putVec s l c (e.a 51 39) ((wordRows ws (ceilDiv ws.length 128)).map fun r => (r.1, psn))

/-- VOP (R191, R272 to R279). -/
def runVop (s : State) (l c : Nat) (e : EngCmd) (drain : Option PRows) : State × Option Nat :=
  let n := e.vcount
  let op := e.vopc
  let fmt := e.im 11 8
  let s := sourceMarks s l c (e.a 12 0) n drain
  let s := if vopUsesB op then readRowsMarks s l c (e.a 25 13) e.vopBRows else s
  let s := if vopUsesC op then readRowsMarks s l c (e.a 38 26) e.vopCRows else s
  let rows := sourceRows s l c (e.a 12 0) n drain
  let err := drainError n drain
  if op = 0x40 then (runPick s l c e rows, err)
  else
    let xa := rowArrays fmt rows
    let xb := if vopUsesB op then rowArrays fmt (readRows s l c (e.a 25 13) e.vopBRows) else #[]
    let xc := if vopUsesC op then rowArrays fmt (readRows s l c (e.a 38 26) e.vopCRows) else #[]
    (putVec s l c (e.a 51 39) ((upto n).map fun i => vopRow e xa xb xc i), err)

/-! ## VCVT (R192, R210 to R220, R282, R283) -/

/-- A source element of VCVT: its value and its poison; `sc` holds the block scales with their rows' poison. -/
def cvtSource (sf : Nat) (xa : Array (Array Nat × Bool)) (sc : Option (Array (Nat × Bool))) (i : Nat) : Val × Bool :=
  elemVal sf (codeAt sf xa i) (sc.map fun a => a.getD (i / 32) (0, false))

/-- Scale bytes with the poison of their rows. -/
def scaleBytes (rows : PRows) : List (Nat × Bool) := rows.flatMap fun r => r.1.map fun b => (b.toNat, r.2)

/-- The blocks of 32 values with their scales. -/
def cvtScales (df : Nat) : Nat → List (Val × Bool) → List Nat
  | 0, _ => []
  | n + 1, vs => mxScale df ((vs.take 32).map fun v => v.1) :: cvtScales df n (vs.drop 32)

/-- Rows of codes with poison, cut by the destination's elements per row. -/
def poisonedRows (fmt : Nat) : Nat → List (Nat × Bool) → PRows
  | 0, _ => []
  | n + 1, xs =>
    let r := xs.take (perRow fmt)
    (codesRow fmt (r.map fun x => x.1), r.any fun x => x.2) :: poisonedRows fmt n (xs.drop (perRow fmt))

/-- An element copied between equal formats: a NaN becomes the canonical one, E8M10 bits [12:0] zero (R209, R283). -/
def copyCode (fmt x : Nat) : Nat :=
  if (decodeElem fmt x).isNan then (encodeElem fmt .nan rne false).1
  else if fmt = fE8M10 then x / 2 ^ 13 * 2 ^ 13
  else x

/-- VCVT. Equal formats are copied (R283); with block scales on either side the values are converted as R210 and R212 say
(log 86). -/
def runVcvt (s : State) (l c : Nat) (e : EngCmd) (drain : Option PRows) : State × Option Nat :=
  let sf := e.im 3 0
  let df := e.im 7 4
  let mxin := bit e.imm.toNat 12
  let mxout := bit e.imm.toNat 13
  let n := e.cvtN
  let s := sourceMarks s l c (e.a 12 0) e.vcount drain
  let s := if mxin then readRowsMarks s l c (e.b 25 13) e.cvtScaleRows else s
  let rows := sourceRows s l c (e.a 12 0) e.vcount drain
  let xa := rowArrays sf rows
  let sc := if mxin then some (scaleBytes (readRows s l c (e.b 25 13) e.cvtScaleRows)).toArray else none
  let vals := (upto n).map fun i => cvtSource sf xa sc i
  let scales := if mxout then cvtScales df (n / 32) vals else []
  let scArr := scales.toArray
  let outs := (vals.zip (upto n)).map fun p =>
    let r : Rnd := ⟨e.im 10 8, e.rc, p.2⟩
    let sat := bit e.imm.toNat 11
    let o :=
      if mxout then mxEncode df (scArr.getD (p.2 / 32) 0) p.1.1 r sat
      else if sf = df ∧ !mxin then (copyCode df (codeAt sf xa p.2).1, false)
      else encodeElem df p.1.1 r sat
    (o.1, o.2 || p.1.2)
  let s := putVec s l c (e.a 25 13) (poisonedRows df e.cvtDstRows outs)
  let s := if mxout then
      let srows := (upto e.cvtScaleRows).map fun q =>
        (leBytes 512 (packCodes 8 ((scales.drop (512 * q)).take 512)),
          (upto rows.length).any fun i =>
            (rows.getD i ([], false)).2 && overlaps (i * perRow sf) (perRow sf) (16384 * q) 16384)
      putVec s l c (e.b 25 13) srows
    else s
  (s, drainError e.vcount drain)

/-! ## VTAB (R280, R281) -/

/-- A segment: LO and the coefficients C0 to C3. -/
structure Seg where
  lo : Val
  c0 : Val
  c1 : Val
  c2 : Val
  c3 : Val

/-- Segment i of the table rows. -/
def segAt (tab : Array Byte) (i : Nat) : Seg :=
  let f (k : Nat) : Val :=
    decodeElem fFP32 (leNat ((upto 4).map fun j => tab.getD (32 * i + 4 * k + j) 0))
  ⟨f 0, f 1, f 2, f 3, f 4⟩

/-- A value rounded to FP32 by RNE. -/
def fp32 (v : Val) : Val := decodeElem fFP32 (encodeElem fFP32 v rne false).1

/-- One element through the table (R281). -/
def vtabVal (segs : List Seg) (x : Val) : Val :=
  if x.isNan then .nan
  else
    match (segs.filter fun g => !g.lo.isNan && decide (g.lo.order x ≤ 0)).getLast?.orElse fun _ => segs.head? with
    | none => .nan
    | some g =>
      let t := fp32 (x.add false g.lo.negate)
      let y := fp32 ((g.c3.mul t).add false g.c2)
      let y := fp32 ((y.mul t).add false g.c1)
      fp32 ((y.mul t).add false g.c0)

/-- VTAB. -/
def runVtab (s : State) (l c : Nat) (e : EngCmd) : State :=
  let fmt := e.im 3 0
  let n := e.vcount
  let tn := ceilDiv (e.im 14 7 + 1) 16
  let s := readRowsMarks (readRowsMarks s l c (e.a 12 0) n) l c (e.a 38 26) tn
  let trows := readRows s l c (e.a 38 26) tn
  let tab := (trows.flatMap fun r => r.1).toArray
  let segs := (upto (e.im 14 7 + 1)).map (segAt tab)
  let bad := trows.any fun r => r.2
  let out := (readRows s l c (e.a 12 0) n).map fun r =>
    (codesRow fmt ((rowCodes fmt r.1).map fun x =>
      (encodeElem fmt (vtabVal segs (decodeElem fmt x)) ⟨e.im 6 4, 0, 0⟩ false).1), r.2 || bad)
  putVec s l c (e.a 25 13) out

/-! ## RED (R284 to R287) -/

/-- The exact sum of a run rounded to FP32 (R284). -/
def redSum (vs : List Val) : Nat :=
  let v : Val :=
    if vs.any Val.isNan then .nan
    else
      match vs.find? Val.isInf with
      | some (.inf b) => if vs.any fun v => v == .inf (!b) then .nan else .inf b
      | _ =>
        match vs.foldl (Val.add false) (.zero true) with
        | .zero _ => .zero (vs.all fun v => v == .zero true)
        | v => v
  (encodeElem fFP32 v rne false).1

/-- The value of an integer element. -/
def intVal (v : Val) : Int := (isWhole v).getD 0

/-- The index of a run's winner: the first element that none beats (R286). -/
def winner (max' : Bool) : Nat → Nat → Val → List Val → Nat
  | _, best, _, [] => best
  | i, best, b, v :: r =>
    if (if max' then b.below v else v.below b) then winner max' (i + 1) i v r else winner max' (i + 1) best b r

/-- The 32-bit words of one result, whether it was clamped, whether it is NaN (R284 to R287). -/
def redResult (rop fmt : Nat) (vs : List Val) : List Nat × Bool × Bool :=
  let isInt := isIntFmt fmt
  let code32 (x : Int) : Nat := (x % ((2 ^ 32 : Nat) : Int)).toNat
  if rop = 0 then
    if isInt then
      let t := (vs.map intVal).foldl (· + ·) 0
      let c := max (-(2 ^ 31 : Nat) : Int) (min ((2 ^ 31 - 1 : Nat) : Int) t)
      ([code32 c], c != t, false)
    else
      let c := redSum vs
      ([c], false, c == 0x7fc00000)
  else
    let bad := vs.findIdx? Val.isNan
    let i := match bad with
      | some i => i
      | none => match vs with
        | [] => 0
        | v :: r => winner (rop == 1 || rop == 3) 1 0 v r
    let v := if bad.isSome then Val.nan else vs.getD i (.zero false)
    let w := if isInt then code32 (intVal v) else (encodeElem fFP32 v rne false).1
    (if 3 ≤ rop then [w, i] else [w], false, bad.isSome)

/-- Runs of `len` values. -/
def runsOf (len : Nat) : Nat → List Val → List (List Val)
  | 0, _ => []
  | n + 1, vs => vs.take len :: runsOf len n (vs.drop len)

/-- RED. -/
def runRed (s : State) (l c : Nat) (e : EngCmd) : State :=
  let fmt := e.im 6 3
  let n := e.vcount
  let len := e.redLen
  let s := readRowsMarks s l c (e.a 12 0) n
  let rows := readRows s l c (e.a 12 0) n
  let vals := rows.flatMap fun r => (rowCodes fmt r.1).map (decodeElem fmt)
  let rs := (runsOf len (e.redN / len) vals).map (redResult (e.im 2 0) fmt)
  let per := 512 / e.redSize
  let out := ((wordRows (rs.flatMap fun r => r.1) e.redRows).zip (upto e.redRows)).map fun p =>
    let lo := p.2 * per * len
    let hi := min (e.redN / len) ((p.2 + 1) * per) * len
    (p.1.1, (upto rows.length).any fun i =>
      (rows.getD i ([], false)).2 && overlaps (i * perRow fmt) (perRow fmt) lo (hi - lo))
  let s := putRows s l c (e.a 25 13) out
  let s := countCore s l c 0x1e0 23 16 (rs.filter fun r => r.2.1).length 4
  countCore s l c 0x1e0 31 24 (rs.filter fun r => r.2.2).length 4

/-! ## ROWFILL and ROWCOPY (R197) -/

/-- A row filled with a pattern of 1, 2, 4 or 8 bytes. -/
def fillRow (e : EngCmd) : List Byte :=
  let w := 2 ^ e.im 1 0
  (List.replicate (512 / w) (leBytes w e.rc.toNat)).flatten

/-- ROWFILL clears poison; ROWCOPY copies it (R197, R299). -/
def runRows (s : State) (l c : Nat) (e : EngCmd) : State :=
  let n := e.b 12 0
  if bit e.imm.toNat 17 then
    let s := readRowsMarks s l c (e.a 12 0) n
    putRows s l c (e.a 25 13) (readRows s l c (e.a 12 0) n)
  else putRows s l c (e.a 12 0) (List.replicate n (fillRow e, false))

end Sys2Proof.Machine
end

