-- ==== Sys2Proof/Machine/Engines.lean ====
section
/-! DEFINITION. The life of engine commands: start, STRM and REARM at the head of the SE queue, retirement, the drain
port, discard by the wait watchdog (R174 to R183, R190, R198, R199, R203). -/

namespace Sys2Proof.Machine

/-! ## Destination rows -/

/-- Row ranges that a command writes, as first row and count; those of R178. -/
def EngCmd.dstRanges (e : EngCmd) : List (Nat × Nat) :=
  match e.op.toNat with
  | 0x32 => if bit e.imm.toNat 12 then [] else [(e.a 12 0, e.mdrRows)]
  | 0x34 => [(e.a 51 39, e.vopDstRows)]
  | 0x35 => (e.a 25 13, e.cvtDstRows) :: if bit e.imm.toNat 13 then [(e.b 25 13, e.cvtScaleRows)] else []
  | 0x36 => [(e.a 25 13, e.vcount)]
  | 0x37 => [(e.a 25 13, e.redRows)]
  | 0x38 =>
    let n := e.b 9 0
    if bit e.imm.toNat 17 then [(e.a 25 13, e.regionRows * n)]
    else [(e.a 25 13, 8 * n), (e.a 38 26, ceilDiv n 32), (e.a 51 39, 4 * e.b 19 10)] ++
      if bit e.imm.toNat 4 then [(e.c 12 0, e.c 25 13)] else []
  | 0x39 => [(if bit e.imm.toNat 17 then e.a 25 13 else e.a 12 0, e.vcount)]
  | _ => []

/-- An UNPK also writes its table rows. -/
def EngCmd.tabRange (e : EngCmd) : List (Nat × Nat) :=
  if e.op = 0x38 ∧ bit e.imm.toNat 17 then [(e.a 38 26, ceilDiv (e.b 9 0) 32)] else []

/-- Some destination row is held by a running MMA (R183). -/
def dstHeld (s : State) (l c : Nat) (e : EngCmd) : Bool :=
  let held := heldRows s l c
  (e.dstRanges ++ e.tabRange).any fun r => held.any fun h => r.1 ≤ h && h < r.1 + r.2

/-! ## The drain port (R190) -/

/-- The command takes its source A from the drain port. -/
def EngCmd.drains (e : EngCmd) : Bool := (e.op == 0x34 || e.op == 0x35) && e.adrain

/-- An MDR into the drain port. -/
def EngCmd.intoPort (e : EngCmd) : Bool := e.op == 0x32 && bit e.imm.toNat 12

/-- Rows in the drain port. -/
def portRows (k : Core) : Nat := (k.drain.map fun d => d.length).foldl (· + ·) 0

/-- Some of the oldest drain's rows have still to come: it is the one that the head of the MTX queue places. -/
def drainOpen (k : Core) : Bool :=
  k.drain.length == 1 && match k.mtx.out with
    | some rows => !rows.isEmpty
    | none => false

/-- A drain begins: its rows are to be placed in the port; none where the VEC command of its pairing was discarded. -/
def openDrain (s : State) (l c : Nat) (rows : PRows) : State :=
  let k := getCore s l c
  if k.skip ≠ 0 then setCore s l c { k with skip := k.skip - 1, mtx := { k.mtx with out := some [] } }
  else setCore s l c { k with drain := k.drain ++ [[]], mtx := { k.mtx with out := some rows } }

/-- Rows of the drain in progress enter the port, as many as the 4 places take. -/
def placeRows (s : State) (l c : Nat) : State :=
  let k := getCore s l c
  match k.mtx.out with
  | none => s
  | some rows =>
    let n := 4 - portRows k
    let last := k.drain.getLastD []
    setCore s l c
      { k with
        drain := if rows.isEmpty then k.drain else k.drain.dropLast ++ [last ++ rows.take n]
        mtx := { k.mtx with out := some (rows.drop n) } }

/-- The oldest drain leaves the port; rows of it that have still to come are dropped. -/
def popDrain (s : State) (l c : Nat) : State :=
  let k := getCore s l c
  let open' := drainOpen k
  setCore s l c { k with drain := k.drain.tail, mtx := if open' then { k.mtx with out := some [] } else k.mtx }

/-! ## Running a command -/

/-- The commands that run behind the head of the MTX queue, and the MMAs among them (R181). -/
def aheadCmds (q : EQueue) : List EngCmd := q.cmds.tail.take q.ahead
def aheadMmas (k : Core) : List EngCmd := (aheadCmds k.mtx).filter fun e => e.op == 0x30

/-- The MMAs that started behind one that replayed are abandoned, to start again after it (R256). -/
def abandonAhead (s : State) (l c : Nat) : State :=
  let k := getCore s l c
  if (aheadMmas k).isEmpty then s else setCore s l c { k with mtx := { k.mtx with ahead := 0 } }

/-- What a command does when it retires, a drain into the drain port aside, and the code of an error that it completes with
(R203). -/
def runCommand (s : State) (l c : Nat) (e : EngCmd) : State × Option Nat :=
  let k := getCore s l c
  let drain := if e.drains then k.drain.head? else none
  let s := if e.drains then popDrain s l c else s
  match e.op.toNat with
  | 0x30 =>
    let r := runMma s l c e (aheadMmas k)
    (if r.2 then abandonAhead r.1 l c else r.1, none)
  | 0x31 => (runMld s l c e, none)
  | 0x32 =>
    let r := runMdr s l c e
    (putRows r.1 l c (e.a 12 0) r.2, none)
  | 0x33 => (runMz s l c e, none)
  | 0x34 => runVop s l c e drain
  | 0x35 => runVcvt s l c e drain
  | 0x36 => (runVtab s l c e, none)
  | 0x37 => (runRed s l c e, none)
  | 0x38 => if bit e.imm.toNat 17 then (runUnpk s l c e, none) else runPack s l c e
  | 0x39 => (runRows s l c e, none)
  | _ => (s, none)

/-- A queue without its head. One that has started behind it goes on; else the wait of the new head begins (R177, R181,
R349, R506). -/
def dropHead (s : State) (l c : Nat) (q : EQueue) : EQueue :=
  metHead s l c
    { cmds := q.cmds.tail, running := q.ahead != 0, ahead := q.ahead - 1, since := runEdges s l, limit := wdogEdges s l
      ended := some (runEdges s l) }

/-- The head of a queue leaves it; the issuing thread's FENCE or TASK_END may then complete (R159, R161). -/
def popQueue (s : State) (l c : Nat) (e : Eng) (cmd : EngCmd) : State :=
  let k := getCore s l c
  checkHold (setCore s l c (setQueue k e (dropHead s l c (getQueue k e)))) (coreThr l c cmd.thr.toNat)

/-- A running command waits for nothing: no destination row is held, and the drain that it takes from the port is there in
full (R183, R190). -/
def canRetire (s : State) (l c : Nat) (e : EngCmd) : Bool :=
  !dstHeld s l c e && (!e.drains || !drainOpen (getCore s l c))

/-- The head has done what it does: its signal-after is applied and it leaves the queue (R176). -/
def retired (s : State) (l c : Nat) (e : Eng) (cmd : EngCmd) : State :=
  popQueue (signalAfter s l c cmd.sctr cmd.sinc (.engine cmd.thr.toNat (Eng.num e))) l c e cmd

/-- A drain into the port places what the port takes; it has placed all its rows, or it stalls (R190). -/
def drainStep (s : State) (l c : Nat) (rows : State → State × PRows) (done : State → State) : State :=
  let s :=
    if (getCore s l c).mtx.out.isSome then s
    else
      let r := rows s
      openDrain r.1 l c r.2
  let s := placeRows s l c
  if (getCore s l c).mtx.out = some [] then done s else s

/-- The head of MTX, VEC, RED or BANK retires: its results are committed, its signal-after is applied (R176). -/
def retireHead (s : State) (l c : Nat) (e : Eng) (cmd : EngCmd) : State :=
  if cmd.intoPort then drainStep s l c (fun s => runMdr s l c cmd) fun s => retired s l c e cmd
  else if canRetire s l c cmd then
    let r := runCommand s l c cmd
    let s := match r.2 with
      | some code => engineError r.1 l c (Eng.num e) code cmd
      | none => r.1
    retired s l c e cmd
  else s

/-- The oldest STRM or REARM whose armings have all ended or failed retires (R199, R309). -/
def retireJob (s : State) (l c : Nat) : State :=
  let k := getCore s l c
  match k.jobs.find? fun j => j.left.isEmpty with
  | none => s
  | some j =>
    let s := setCore s l c { k with jobs := k.jobs.eraseP fun j => j.left.isEmpty }
    let s := if j.failed then s
      else signalAfter s l c j.cmd.sctr j.cmd.sinc (.engine j.cmd.thr.toNat (Eng.num .se))
    checkHold s (coreThr l c j.cmd.thr.toNat)

/-! ## Discarded commands (R178, R180) -/

/-- n rows of zero with poison. -/
def zeroPoison (n : Nat) : PRows := List.replicate n (List.replicate 512 0, true)

/-- What a discarded command writes in place of its results, a drain into the drain port aside (R178). -/
def discardWrites (s : State) (l c : Nat) (e : EngCmd) : State :=
  match e.op.toNat with
  | 0x30 => poisonSlot s l c (e.im 2 0)
  | 0x31 => putStat s l c (e.b 6 0) (zeroPoison (e.a 20 13))
  | 0x32 => putRows (poisonSlot s l c (e.im 2 0)) l c (e.a 12 0) (zeroPoison e.mdrRows)
  | _ => e.dstRanges.foldl (fun s r => putRows s l c r.1 (zeroPoison r.2)) s

/-- A discarded VOP or VCVT with ADRAIN keeps its place in the pairing: its drain leaves the port, or will be dropped
when it comes (R190). -/
def discardPairing (s : State) (l c : Nat) (e : EngCmd) : State :=
  let k := getCore s l c
  if !e.drains then s
  else if k.drain.isEmpty then setCore s l c { k with skip := k.skip + 1 }
  else popDrain s l c

/-- A discarded head writes its rows and leaves the queue, once no hold stalls them and the drain port has taken them; the
next command starts after it (R178, R180, R190). -/
def finishDiscard (s : State) (l c : Nat) (e : Eng) (cmd : EngCmd) : State :=
  if cmd.intoPort then
    drainStep s l c (fun s => (poisonSlot s l c (cmd.im 2 0), zeroPoison cmd.mdrRows)) fun s => popQueue s l c e cmd
  else if (cmd.dstRanges.any fun r => (heldRows s l c).any fun h => r.1 ≤ h && h < r.1 + r.2) then s
  else popQueue (discardPairing (discardWrites s l c cmd) l c cmd) l c e cmd

/-- ENGINE_COMMAND_RETIRE: the head of a queue retires, or, where the wait watchdog has discarded it, has written what R178
says. -/
def execEngineCommandRetire (k : CoreRef) (e : Eng) (s : State) : Res :=
  let l := k.land.val
  let c := k.core.val
  if !coreRuns s l c then .next s
  else
    match e with
    | .se => .next (retireJob s l c)
    | _ =>
      let q := getQueue (getCore s l c) e
      match q.cmds with
      | cmd :: _ =>
        .next (if q.discard then finishDiscard s l c e cmd else if q.running then retireHead s l c e cmd else s)
      | [] => .next s

/-! ## STRM and REARM at the head of the SE queue (R199, R301, R310 to R312) -/

/-- A discarded SE command leaves the queue with its error record (R203). -/
def discardSe (s : State) (l c : Nat) (cmd : EngCmd) (code : Nat) : State :=
  popQueue (engineError s l c (Eng.num .se) code cmd) l c .se cmd

/-- The command leaves the queue and waits as a job for the armings of its contexts. -/
def startJob (s : State) (l c : Nat) (cmd : EngCmd) (sids : List Nat) : State :=
  let k := getCore s l c
  setCore s l c { k with se := dropHead s l c k.se, jobs := k.jobs ++ [⟨cmd, sids, false⟩] }

/-- The eight words of each descriptor of a STRM. -/
def descWords (s : State) (k n : Nat) : List (List Nat) :=
  (upto n).map fun i => (upto 8).map fun j => getNat s (k + 64 * i + 8 * j) 8

/-- The contexts that a STRM or REARM names. -/
def EngCmd.sids (e : EngCmd) : List Nat :=
  if e.op = 0x3a then (upto (e.im 5 1 + 1)).map fun i => e.im 10 6 + i else [e.im 4 0]

/-- A STRM waits for a context that runs a non-persistent stream, a REARM for its context's arming (R199). A STRM whose
manifest names such a context and also one that holds a persistent stream waits first (log 83). -/
def seHeld (s : State) (l c : Nat) (cmd : EngCmd) : Bool :=
  cmd.sids.any fun i =>
    let x := getCtx s l c i
    x.st == .armed && (x.persistent == (cmd.op != 0x3a))

/-- STRM at the head of its queue, which waits for no context. -/
def startStrm (s : State) (l c : Nat) (cmd : EngCmd) : State :=
  let n := cmd.im 5 1 + 1
  let sids := cmd.sids
  if seHeld s l c cmd then s
  else if sids.any fun i => let x := getCtx s l c i; x.persistent && x.st != .failed then discardSe s l c cmd 4
  else
    let w := coreThr l c cmd.thr.toNat
    let key := localKey w (cmd.a 16 0)
    let us := unitsOf key (64 * n)
    if us.any fun u => uncorrectable s u then discardSe s l c cmd 2
    else
      let s := us.foldl (fun s u => correctWord s w u) s
      let ws := descWords s key n
      let ds := ws.map parseDesc
      if (ws.any descRsvd) || ds.any Desc.bad then discardSe s l c cmd 3
      else startJob ((sids.zip ds).foldl (fun s p => loadCtx s l c p.1 p.2) s) l c cmd sids

/-- The descriptor of a REARM's new arming (R310). -/
def rearmDesc (d : Desc) (cmd : EngCmd) : Desc :=
  { d with
    gaddr := if bit cmd.imm.toNat 5 then d.gaddr else cmd.rb
    idxaddr := if bit cmd.imm.toNat 6 then d.idxaddr else cmd.rc }

/-- REARM at the head of its queue. -/
def startRearm (s : State) (l c : Nat) (cmd : EngCmd) : State :=
  let sid := cmd.im 4 0
  let x := getCtx s l c sid
  if !x.persistent then discardSe s l c cmd 5
  else if seHeld s l c cmd then s
  else if !bit cmd.imm.toNat 5 ∧ cmd.rb = BitVec.allOnes 64 then
    let s := setCtx s l c sid { x with st := .idle, err := 0 }
    let s := signalAfter s l c cmd.sctr cmd.sinc (.engine cmd.thr.toNat (Eng.num .se))
    popQueue s l c .se cmd
  else
    let d := rearmDesc x.d cmd
    if d.baseBad then discardSe s l c cmd 3
    else startJob (rearmCtx s l c sid x d) l c cmd [sid]

/-! ## Start (R173, R174) -/

/-- The wait-before of a queue's head has been met (R329). -/
def headMet (s : State) (l c : Nat) (q : EQueue) (cmd : EngCmd) : Bool := q.met || waitMet s l c cmd

/-- The stationary-buffer rows that an MMA reads. -/
def EngCmd.statReads (e : EngCmd) : List Nat :=
  let o := e.statOp
  ((upto o.vectors).flatMap fun i =>
    (upto (rowsFor o.fmt (o.count e.kk))).map fun j => o.first + i * o.step + j) ++
  if o.mx then (upto (ceilDiv ((if o.row then 16 else 32) * (e.kk / 32)) 512)).map fun i => o.scale + i else []

/-- The command behind a running MMA may start: another MMA, in its tail; an MLD whose rows it does not read; an MDR or MZ
on other slots (R181). -/
def mayOverlap (a b : EngCmd) : Bool :=
  a.op == 0x30 && match b.op.toNat with
    | 0x30 => true
    | 0x31 => !(a.statReads.any fun r => b.b 6 0 ≤ r && r < b.b 6 0 + b.a 20 13)
    | 0x32 => b.im 2 0 != a.im 2 0
    | 0x33 => !bit b.imm.toNat (a.im 2 0)
    | _ => false

/-- The next command of the MTX queue may start behind the commands that run: its wait-before is met, and only MMAs run, each
of which lets it (R181, R244). -/
def mayFollow (s : State) (l c : Nat) (q : EQueue) (b : EngCmd) : Bool :=
  waitMet s l c b && (q.cmds.take (q.ahead + 1)).all fun a => mayOverlap a b

/-- A matrix engine is idle: no command has run for 256 CORECLK (R506). -/
def mtxIdle (s : State) (l c : Nat) : Bool :=
  let q := (getCore s l c).mtx
  !q.running && match q.ended with
    | some e => e + 32 ≤ runEdges s l
    | none => true

/-- The head of the MTX queue has its wait-before met and has not started. -/
def mtxDue (s : State) (l c : Nat) : Bool :=
  let q := (getCore s l c).mtx
  !q.running && match q.cmds with
    | cmd :: _ => headMet s l c q cmd
    | [] => false

/-- Idle engines of a landing that started in the last 32 CORECLK. -/
def gateUsed (s : State) (l : Nat) : List Nat := (getLand s l).gate.filter fun e => runEdges s l < e + 4

/-- The start gate lets a matrix engine start: it is not idle, or it is among the first in ascending core number that the
16 places of a window of 32 CORECLK leave (R506). -/
def gateOpen (s : State) (l c : Nat) : Bool :=
  !mtxIdle s l c ||
    (gateUsed s l).length + ((upto c).filter fun d => mtxIdle s l d && mtxDue s l d).length < 16

/-- A command starts; the start gate notes an idle matrix engine (R506). -/
def startHead (s : State) (l c : Nat) (e : Eng) : State :=
  let x := getCore s l c
  let y := getLand s l
  let s := if e = .mtx ∧ mtxIdle s l c then setLand s l { y with gate := runEdges s l :: gateUsed s l } else s
  setCore s l c (setQueue x e { getQueue x e with running := true })

/-- ENGINE_COMMAND_START: the head of a queue starts once its wait-before is met, and an idle matrix engine once the start
gate lets it; a VOP or VCVT with ADRAIN once the drain port holds rows of its pairing; a STRM or REARM as R199 says.
Behind running MMAs the next command of the MTX queue starts as R181 says. -/
def execEngineCommandStart (k : CoreRef) (e : Eng) (s : State) : Res :=
  let l := k.land.val
  let c := k.core.val
  let x := getCore s l c
  let q := getQueue x e
  match q.cmds with
  | [] => .next s
  | cmd :: rest =>
    if !coreRuns s l c ∨ q.discard then .next s
    else if q.running then
      match rest.drop q.ahead with
      | b :: _ =>
        .next (if e = .mtx ∧ mayFollow s l c q b then setCore s l c (setQueue x e { q with ahead := q.ahead + 1 }) else s)
      | [] => .next s
    else if !headMet s l c q cmd then .next s
    else if e = .se then .next (if cmd.op = 0x3a then startStrm s l c cmd else startRearm s l c cmd)
    else if (cmd.drains ∧ portRows x = 0) ∨ (e = .mtx ∧ !gateOpen s l c) then .next s
    else .next (startHead s l c e)

/-! ## The wait watchdog for commands (R177, R178) -/

/-- COMMAND_WAIT_TIMEOUT: the wait watchdog fires on a command at its queue's head whose wait-before is not met for as long
as its timeout; not while the array is CLOCK-STOPPED. The command is discarded (R177, R349 to R351). -/
def execCommandWaitTimeout (k : CoreRef) (e : Eng) (s : State) : Res :=
  let l := k.land.val
  let c := k.core.val
  let q := getQueue (getCore s l c) e
  match q.cmds with
  | [] => .next s
  | cmd :: _ =>
    if !coreRuns s l c ∨ q.running ∨ q.discard ∨ headMet s l c q cmd ∨ !waitExpired s l q.since q.limit then .next s
    else
      let s := watchdogFired (engineError s l c (Eng.num e) 1 cmd) l c
      let x := getCore s l c
      .next (finishDiscard (setCore s l c (setQueue x e { getQueue x e with discard := true })) l c e cmd)

end Sys2Proof.Machine
end

