-- ==== Sys2Proof/Machine/Views.lean ====
section
/-! DEFINITION. What the registers show: fields computed from the state, and the words as stored (R6, R22, R81, R108, R120,
R166, R204, R205, R267, R324, R333, R340, R355, R356, R359, R370, R456, R468, R482, R497, R509, R515, R529, R554 to R556,
R562, R565, R566, R572 to R576). -/

namespace Sys2Proof.Machine

/-- A word from a number. -/
def word (n : Nat) : Word := BitVec.ofNat 32 n

/-- A mask with bit i where a condition holds, for i below 32. -/
def wordMask (p : Nat → Bool) : Word := word ((upto 32).foldl (fun n i => n + b2n (p i) * 2 ^ i) 0)

/-! ## Threads and queues of a core view -/

/-- Codes of the thread states (R108). -/
def TState.num : TState → Nat
  | .idle => 0 | .ready => 1 | .run => 2 | .wait => 3 | .fault => 4

/-- WREASON (R109). -/
def Wait.num : Wait → Nat
  | .none => 0
  | .ctr _ _ _ _ _ => 1
  | .clw _ _ _ _ | .cla _ _ _ => 2
  | .queue _ _ => 3
  | .response _ => 4
  | .tile _ => 5

def viewThrstat (t : Thread) : Word :=
  word (t.st.num + t.prio.toNat * 2 ^ 4 + t.wait.num * 2 ^ 8 + t.pc.toNat * 2 ^ 16 + b2n t.tile.isSome * 2 ^ 31)

def viewTfault (t : Thread) : Word :=
  word (t.fcode.toNat + b2n t.deferred * 2 ^ 8 + b2n t.more * 2 ^ 9 + t.fpc.toNat * 2 ^ 16)

def viewQstat (k : Core) : Word :=
  word (k.mtx.cmds.length + k.vec.cmds.length * 2 ^ 5 + k.red.cmds.length * 2 ^ 10 + k.se.cmds.length * 2 ^ 15 +
    k.bank.cmds.length * 2 ^ 20)

/-- The head of a queue stands still for a reason that the state shows: an operand hold on its destination, a drain port that
is full or holds no row for it, the start gate, a context that its STRM or REARM waits for (R183, R190, R199, R506). -/
def engHeld (s : State) (l c : Nat) (e : Eng) (q : EQueue) (cmd : EngCmd) : Bool :=
  let k := getCore s l c
  let going := q.running || q.discard
  (going && (dstHeld s l c cmd || (cmd.intoPort && portRows k == 4 && q.out.any fun rows => !rows.isEmpty))) ||
    (cmd.drains && portRows k == 0) ||
    (!going && ((e == .mtx && !gateOpen s l c) || (e == .se && seHeld s l c cmd)))

/-- An engine's state: IDLE, WAITING, RUNNING or STALLED. Whether a bank, the expander or a port holds up a running engine in
this CORECLK is a free value (R205, R245, R278, R293; log 85). -/
def engState (s : State) (l c : Nat) (e : Eng) : Nat :=
  let q := getQueue (getCore s l c) e
  match q.cmds with
  | [] => 0
  | cmd :: _ =>
    if queueWaits s l c q then 1
    else if engHeld s l c e q cmd then 3
    else if e ≠ .se ∧ Config.engineStalls s.edges (2048 * l + 8 * c + Eng.num e) then 3
    else 2

def viewEstat (s : State) (l c : Nat) : Word :=
  word (engState s l c .mtx + engState s l c .vec * 4 + engState s l c .red * 16 + engState s l c .se * 64 +
    engState s l c .bank * 256)

/-! ## Counters -/

/-- Counter n is PCTR, or CCTR, of an enabled pair. -/
def isPctr (s : State) (l c n : Nat) : Bool :=
  (upto 16).any fun i => let w := pairReg s l c i; pairEn w && pairP w == n
def isCctr (s : State) (l c n : Nat) : Bool :=
  (upto 16).any fun i => let w := pairReg s l c i; pairEn w && pairC w == n

/-- A stream context has the counter as its gate and is held by it (R306). -/
def gateHeld (s : State) (l c n : Nat) : Bool :=
  (upto 32).any fun sid =>
    let x := getCtx s l c sid
    x.st == .armed && x.d.gctr.toNat == n && x.issued < x.d.total && !creditOk s l c x (x.p0 + x.issued)

def viewChwait (s : State) (l c n : Nat) : Word :=
  let k := getCore s l c
  let waits (t : Nat) : Bool :=
    match (getThr s (coreThr l c t)).wait with
    | .ctr m _ _ _ _ => m.toNat == n
    | _ => false
  if 48 ≤ n then 0
  else
    wordMask fun i =>
      if i < 16 then waits i
      else match i with
        | 16 => headWaits s l c k.mtx n
        | 17 => headWaits s l c k.vec n
        | 18 => headWaits s l c k.red n
        | 19 => headWaits s l c k.se n
        | 20 => headWaits s l c k.bank n
        | 21 => gateHeld s l c n
        | _ => false

/-- High word of CORE.CHVALn. -/
def viewChvalHi (s : State) (l c n : Nat) : Word :=
  let x := getCtr s l c n
  word (x.val.toNat / 2 ^ 32 + b2n x.sat * 2 ^ 16 + b2n (isPctr s l c n) * 2 ^ 17 + b2n (isCctr s l c n) * 2 ^ 18 +
    b2n (viewChwait s l c n != 0) * 2 ^ 19)

/-- The counter that CORE.CHSEL selects. -/
def selCtr (s : State) (l c : Nat) : Nat := rdFld s (coreBase l c + 0x1f8) 5 0

/-! ## Accumulators and streams -/

def slotAny (x : Slot) (p : Lane → Bool) : Bool := x.lanes.any fun e => p e.2

def viewMslotLo (x : Slot) : Word :=
  word ((x.e % 4096).toNat + b2n x.active * 2 ^ 12 + b2n x.pinned * 2 ^ 13 + min 15 x.replays * 2 ^ 14 +
    b2n (slotAny x fun a => a.sat) * 2 ^ 18 + b2n (decide (2 ^ 20 < x.kcount)) * 2 ^ 19 +
    b2n (slotAny x fun a => a.nan) * 2 ^ 20 + b2n (slotAny x fun a => a.pinf || a.ninf) * 2 ^ 21 +
    b2n (slotAny x fun a => a.psn) * 2 ^ 22)

def viewMslotHi (x : Slot) : Word :=
  word (min 0x1fffff x.kcount + min 15 x.drained.replays * 2 ^ 21 + b2n x.drained.sat * 2 ^ 25 +
    b2n x.drained.long * 2 ^ 26 + b2n x.drained.special * 2 ^ 27 + b2n x.drained.psn * 2 ^ 28)

def CtxState.num : CtxState → Nat
  | .idle => 0 | .armed => 1 | .parked => 2 | .failed => 3

def viewSectx (s : State) (l c sid : Nat) : Word :=
  let x := getCtx s l c sid
  word (x.st.num + b2n x.persistent * 4 + b2n (x.d.store && x.st != .idle) * 8 + x.err.toNat * 16 +
    tagsUsed s l c (some sid) * 2 ^ 8 + x.arms.toNat * 2 ^ 16)

def viewSetags (s : State) (l c : Nat) : Word :=
  let n := tagsUsed s l c none
  word (n + max n (getCore s l c).tagPeak * 2 ^ 8)

/-- A stream context that lets the core be gated: IDLE, PARKED, or held by its gate without a row in flight. -/
def ctxQuiet (s : State) (l c sid : Nat) : Bool :=
  let x := getCtx s l c sid
  x.st == .idle || x.st == .parked ||
    (x.st == .armed && tagsUsed s l c (some sid) == 0 && x.issued < x.d.total &&
      !creditOk s l c x (x.p0 + x.issued))

/-- The core is clock-gated (R333). -/
def coreGated (s : State) (l c : Nat) : Bool :=
  let k := getCore s l c
  ((upto 16).all fun t => let x := (getThr s (coreThr l c t)).st; x == .idle || x == .wait || x == .fault) &&
    ([k.mtx, k.vec, k.red, k.se, k.bank].all fun q => q.cmds.isEmpty || queueWaits s l c q) &&
    (upto 32).all fun sid => ctxQuiet s l c sid

/-! ## The core view (R573 to R575) -/

/-- A word of an active core's view at offset x. -/
def viewCore (s : State) (l c x : Nat) : Word :=
  let k := getCore s l c
  let thr (t : Nat) : Thread := getThr s (coreThr l c t)
  let ctr := getCtr s l c (selCtr s l c)
  let ctr := if selCtr s l c < 48 then ctr else {}
  if x < 0x40 then viewThrstat (thr (x / 4))
  else if x < 0x80 then viewTfault (thr ((x - 0x40) / 4))
  else if x < 0x100 then word ((thr ((x - 0x80) / 8)).info.toNat >>> (32 * (x / 4 % 2)))
  else if 0x180 ≤ x ∧ x < 0x1c0 then
    let y := tget {} k.slots ((x - 0x180) / 8)
    if x / 4 % 2 = 0 then viewMslotLo y else viewMslotHi y
  else if 0x200 ≤ x ∧ x < 0x380 then
    let n := (x - 0x200) / 8
    if x / 4 % 2 = 0 then word (getCtr s l c n).val.toNat else viewChvalHi s l c n
  else match x with
    | 0x100 => viewQstat k
    | 0x104 => viewEstat s l c
    | 0x148 => ctr.last0
    | 0x14c => ctr.last1
    | 0x150 => ctr.ltime
    | 0x158 => word ctr.base.toNat
    | 0x15c => word (ctr.base.toNat / 2 ^ 32)
    | 0x1e8 => viewSectx s l c (rdFld s (coreBase l c + 0x1e4) 4 0)
    | 0x1f4 => viewSetags s l c
    | 0x1fc => viewChwait s l c (selCtr s l c)
    | 0x3cc => word (1 + b2n (quarantined s l) * 2 + b2n (coreGated s l c) * 4)
    | _ => rd s (coreBase l c + x)

/-! ## The landing block -/

/-- LC.CSUMi: active cores with an enabled cause. -/
def viewCsum (s : State) (l i : Nat) : Word :=
  wordMask fun j =>
    let c := 32 * i + j
    coreActive s l c && (rd s (coreBase l c + 0x3c0) &&& rd s (coreBase l c + 0x3c4)) != 0

/-- LC.CAUSE with its summary bit. -/
def viewLcCause (s : State) (l : Nat) : Word :=
  rd s (lcBase l + 4) ||| word (b2n ((upto 8).any fun i => viewCsum s l i != 0))

def viewTqstat (s : State) (l : Nat) : Word :=
  let ts := (getLand s l).tiles
  word ((ts.filter fun t => !t.taken).length + (ts.filter fun t => t.taken).length * 2 ^ 14)

def viewCgstat (s : State) (l g : Nat) : Word :=
  let x := getGroup s l g
  word (x.gen.toNat + b2n (cgOpen x) * 2 ^ 16 + b2n (cgAhead x) * 2 ^ 17 + b2n (isMaster s l g) * 2 ^ 18)

/-- RS.STAT: the own hold, the spanning links, the second slice. -/
def viewRsStat (s : State) (l : Nat) : Word :=
  let y := getLand s l
  word (b2n (holdBit s l) + b2n (!liveLand s ((l + 1) % 32)) * 2 + b2n (!liveLand s ((l + 31) % 32)) * 4 +
    b2n y.standFor.isSome * 8 + y.standFor.getD 0 * 16)

/-- A word of a landing block at offset x, for a landing that is present. -/
def viewLand (s : State) (l x : Nat) : Word :=
  if 0x40000 ≤ x ∧ x < 0x80000 then
    let c := (x - 0x40000) / 0x400
    if coreActive s l c then viewCore s l c ((x - 0x40000) % 0x400) else 0
  else if 0x10 ≤ x ∧ x < 0x30 then wordMask fun j => coreActive s l (32 * ((x - 0x10) / 4) + j)
  else if 0xc0 ≤ x ∧ x < 0xe0 then viewCsum s l ((x - 0xc0) / 4)
  else if 0x100 ≤ x ∧ x < 0x500 ∧ (x - 0x100) % 0x40 = 0x2c then viewCgstat s l ((x - 0x100) / 0x40)
  else if 0x30000 ≤ x ∧ x < 0x34000 ∧ x % 16 = 12 then
    let i := (x - 0x30000) / 16
    wput (rd s (rWctl l i)) 7 0 (winGen s l i).toNat
  else match x with
    | 0x0 => word (l + (activeCores s l).length * 2 ^ 8)
    | 0x4 => viewLcCause s l
    | 0x40 | 0x44 => 0
    | 0x84 => viewTqstat s l
    | 0x10008 => viewRsStat s l
    | _ => rd s (lcBase l + x)

/-! ## The interrupt tree (R554 to R556, R562) -/

/-- INT.LSUM. -/
def viewLsum (s : State) : Word :=
  wordMask fun l => !absentLand s l && uncoreOn s l && (viewLcCause s l &&& rd s (lcBase l + 8)) != 0

/-- Bit q of INT.QSUM. -/
def qsumBit (s : State) (q : Nat) : Bool :=
  !qsBound s q && rdFld s (rQs q 0x3c) 2 2 == 1 && rdFld s (rQs q 0x3c) 0 0 == 1

/-- QS.CAUSE of an unbound queue set takes part. -/
def qsCauseBit (s : State) (q : Nat) : Bool :=
  !qsBound s q && rdFld s (rQs q 0x3c) 1 1 == 1 && rd s (rQs q 0x28) != 0

/-- The branches of INT.GIS (R555). -/
def gisBit (s : State) (i : Nat) : Bool :=
  match i with
  | 0 => rd s 0x30 != 0 || rdFld s rErrstat 0 0 == 1
  | 1 => rd s 0x20000 != 0
  | 2 => rd s rThmCause != 0
  | 3 => rd s rCrsCause != 0 || rdFld s rVstat 3 3 == 1 || rdFld s rVstat 5 5 == 1
  | 4 => rd s rXcause != 0
  | 5 =>
    (upto 64).any (fun q => qsCauseBit s q) || (upto 2).any (fun p => rdFld s (rPfovr p) 1 0 != 0) ||
      rdFld s 0x6840c 0 0 == 1
  | 6 => (upto 64).any fun q => qsumBit s q
  | 7 => rd s rHmCause != 0
  | 8 => rd s rCkevt != 0 || rdFld s rCkstat 4 4 == 1 || rdFld s rCerr 31 31 == 1 || rdFld s rLerr 31 31 == 1
  | 9 => viewLsum s != 0
  | 10 => (upto 4).any fun q => rd s (rQcause q) != 0
  | 11 => rdFld s 0x10020 0 0 == 1
  | 12 => rdFld s 0x10024 0 0 == 1
  | _ => false

/-- INT.GIS. -/
def viewGis (s : State) : Word := wordMask fun i => gisBit s i

/-- (INT.GIS & INT.GIE) is not 0. -/
def intPending (s : State) : Bool := (viewGis s &&& rd s 0x10004) != 0

/-- The always-on rails are in tolerance, which PWR_OK_0 says (R585, R499). -/
def powered (s : State) : Bool := !s.pwr.bad.contains 0

/-- What EXTEST drives onto the signal of a boundary-scan cell (R588). -/
def scanDrive (s : State) (cell : Nat) : Option Bool := if s.tap.drive then s.tap.bsr[cell]? else none

/-- The pin INT_N is driven low (R559), and THERMTRIP_N is (R583): not without power, and as boundary scan drives them. -/
def intLow (s : State) : Bool :=
  powered s && (match scanDrive s 2 with | some b => !b | none => rdFld s 0x10008 2 2 == 1 && intPending s)
def thermtripLow (s : State) : Bool :=
  powered s && (match scanDrive s 15 with | some b => !b | none => rdFld s rThmCause 2 2 == 1)

/-- The demand that the pin COOL_DMD shows, of 255: full through its pull-up without power (R517, R585). -/
def coolShown (s : State) : Nat :=
  if !powered s then 255 else match scanDrive s 7 with | some b => 255 * b2n b | none => rdFld s rDmd 7 0

/-! ## Blocks of module scope -/

/-- GLB.ID. -/
def viewId (s : State) : Word :=
  word (s.fuses.grade.toNat + s.fuses.absent.getD 0x1f * 2 ^ 4 + s.fuses.step.toNat * 2 ^ 16 + 9 * 2 ^ 24)

/-- Release and security version of the purser firmware that ran. -/
def viewVer (s : State) : Word :=
  match ranCopy s 1 with
  | 0 => 0
  | k => word ((Config.imageRelease (tget 0 s.boot.digests 3)).toNat + (flashCopy s 1 (k - 1)).svn % 2 ^ 16 * 2 ^ 16)

/-- GLB.BOOTSTAT: stage LANDINGS becomes LINKS once every array is ON and no stack scrubs. -/
def viewBootstat (s : State) : Word :=
  let w := rd s rBootstat
  let arrays := (upto 32).all fun l => absentLand s l || landFailed s l || arrayOn s l
  if wfld w 3 0 = 4 ∧ arrays ∧ scrubsDone s then wput w 3 0 5 else w

/-- A master's own value of a safety quantity; the effective one for a master without values. -/
def viewOwn (s : State) (m : Master) (q : Qty) : Word :=
  match safetyIdx m with
  | some i => word (safeVal s i q)
  | none => word (safeEff s q)

def viewLapstat (s : State) : Word :=
  word (s.crs.laps.toNat + ((liveLands s).filter (uncoreOn s)).length * 2 ^ 16 + s.crs.nc % 64 * 2 ^ 22 +
    b2n s.crs.inLap * 2 ^ 28 + b2n (shReady s) * 2 ^ 29 + b2n s.crs.ext * 2 ^ 30)

def viewVstat (s : State) : Word :=
  let v := retVer s
  wput (rd s rVstat) 31 16 (if v = 0 then 0 else min 0xffff (pinnedTo s v))

/-- QS.STAT: requests in the batch, and copied requests not admitted. -/
def viewQsStat (s : State) (q : Nat) : Word :=
  let mine := s.reqs.filter fun r => r.q == q
  let act := (mine.filter fun r => r.st == .active).length
  let wait := (mine.filter fun r => r.st == .waiting).length + (getQs s q).entries.length
  word (min 0xffff act + min 0xffff wait * 2 ^ 16)

/-- A register of a queue set. -/
def viewQs (s : State) (q x : Nat) : Word :=
  match x with
  | 0x0 => wput (rd s (rQs q 0)) 3 3 (b2n (qsBound s q))
  | 0x2c => viewQsStat s q
  | 0x30 => word ((getQs s q).held.length % 2 ^ 13)
  | 0x3c => wput (rd s (rQs q 0x3c)) 3 3 0
  | _ => rd s (rQs q x)

/-- HMB.STAT. -/
def viewHmStat (s : State) : Word :=
  let w := wput (rd s rHmStat) 2 0 s.fuses.lcs.toNat
  let w := wput w 15 8 (tget 0 s.fuses.svn 0)
  wput w 31 16 (match ranCopy s 0 with | 0 => 0 | _ => (Config.imageRelease (tget 0 s.boot.digests 2)).toNat)

/-- A route word; the entry of the own module reads 0 (R433). -/
def viewRoute (s : State) (i : Nat) : Word :=
  let m := s.modnum.toNat
  let w := rd s (0x51000 + 4 * i)
  if m / 8 = i then wput w (4 * (m % 8) + 3) (4 * (m % 8)) 0 else w

/-- A word of the module's blocks, as a master sees it. -/
def viewModule (s : State) (m : Master) (o : Nat) : Word :=
  if 0x60000 ≤ o ∧ o < 0x68000 then viewQs s ((o - 0x60000) / 0x200) ((o - 0x60000) % 0x200)
  else if 0x51000 ≤ o ∧ o < 0x51400 then viewRoute s ((o - 0x51000) / 4)
  else if 0x10040 ≤ o ∧ o < 0x10050 then rd s (rQcause ((o - 0x10040) / 4))
  else match o with
    | 0x0 => viewId s
    | 0x4 => viewVer s
    | 0x8 => word s.modnum.toNat
    | 0x10 => word s.fuses.serial.toNat
    | 0x14 => word (s.fuses.serial.toNat / 2 ^ 32)
    | 0x20 => word s.time.toNat
    | 0x24 => word (s.time.toNat / 2 ^ 32)
    | 0x44 | 0x48 => 0
    | 0x4c => viewBootstat s
    | 0x10000 => viewGis s
    | 0x1000c => wput (rd s 0x1000c) 1 0 0
    | 0x10010 => viewLsum s
    | 0x10018 => wordMask fun q => qsumBit s q
    | 0x1001c => wordMask fun q => qsumBit s (32 + q)
    | 0x20004 => viewOwn s m .cap
    | 0x20008 => viewOwn s m .tlim
    | 0x2000c => viewOwn s m .run
    | 0x20010 => word (effCap s + effTlim s * 2 ^ 15 + b2n (stopped s) * 2 ^ 22)
    | 0x40004 => word (paceEff s + b2n (bhold s) * 2 ^ 8)
    | 0x4000c => viewLapstat s
    | 0x40104 => viewVstat s
    | 0x68408 => match m with | .pf p => rd s (rPfovr p.val) | _ => 0
    | 0x70000 => viewHmStat s
    | 0x70008 => word (nonceNow s).toNat
    | 0x7000c => word ((nonceNow s).toNat / 2 ^ 32)
    | _ => rd s o

/-- A word of a quay's register space. -/
def viewQuay (s : State) (q x : Nat) : Word :=
  if 0xc0000 ≤ x ∧ x < 0xc1000 ∧ x % 16 = 12 then
    let i := (x - 0xc0000) / 16
    wput (rd s (rWctl (32 + q) i)) 7 0 (winGen s (32 + q) i).toNat
  else rd s (quayBase q + x)

/-- The word that a register number shows a master. -/
def regView (s : State) (m : Master) (o : Nat) : Word :=
  if (regDef o).isNone then 0
  else if o < 0x1000000 then viewModule s m o
  else if o < 0x3000000 then
    let l := (o - 0x1000000) / 0x100000
    if absentLand s l then 0 else viewLand s l ((o - 0x1000000) % 0x100000)
  else viewQuay s ((o - 0x4000000) / 0x100000 % 4) (o % 0x100000)

end Sys2Proof.Machine
end

