-- ==== Sys2Proof/Machine/Regs.lean ====
section
/-! DEFINITION. Reads and writes of registers: access codes, register pairs, orders that a write gives; the doorbell of the
harbourmaster's channels, pair registers, closure groups, the system ring (R5, R9 to R12, R31 to R33, R80, R106, R206, R337,
R359, R388, R395, R428, R431, R437, R439, R456, R465, R470, R475 to R477, R558, R564, R569, R573, R575). -/

namespace Sys2Proof.Machine

/-- The state that a meaning answers. -/
def after (r : Res) (s : State) : State :=
  match r with
  | .next t => t
  | _ => s

/-! ## Register pairs (R9, R10) -/

/-- Low words of the register pairs of module scope. -/
def pairsModule : List Nat :=
  [0x10, 0x20, 0x10018, 0x20018, 0x40010, 0x40018, 0x40020, 0x70008, 0x80000, 0x80008, 0x80020, 0x90008]

/-- A register number is the low word of a register pair. -/
def pairLow (o : Nat) : Bool :=
  if o < 0x1000000 then
    pairsModule.contains o || (0x60000 ≤ o && o < 0x68000 && (o % 0x200 == 8 || o % 0x200 == 0x10)) ||
      (0x68000 ≤ o && o < 0x68200 && o % 8 == 0)
  else if o < 0x3000000 then
    let x := (o - 0x1000000) % 0x100000
    if 0x40000 ≤ x ∧ x < 0x80000 then
      let y := x % 0x400
      (0x80 ≤ y && y < 0x100 && y % 8 == 0) || (0x120 ≤ y && y < 0x148 && y % 8 == 0) || y == 0x148 || y == 0x158 ||
        (0x180 ≤ y && y < 0x1c0 && y % 8 == 0) || (0x200 ≤ y && y < 0x380 && y % 8 == 0)
    else (0xe0 ≤ x && x < 0x100 && x % 8 == 0) || x == 0x40 || x == 0x10000 || x == 0x20008 || x == 0x21008
  else false

/-- The low word of a pair whose writes are held until the high word is written: a pair of which software writes a bit,
CORE.EERR0 to EERR4 with their W1C bit among them (R10, R206). -/
def heldPair (o : Nat) : Bool :=
  pairLow o && match regDef o with | some d => d.rw != 0 || d.wo != 0 || d.w1c != 0 || d.w1s != 0 | none => false

def getLatch (s : State) (o : Nat) : Option Word := tget none s.latch o
def setLatch (s : State) (o : Nat) (v : Option Word) : State := { s with latch := tput none o v s.latch }
def getHeld (s : State) (o : Nat) : Option Word := tget none s.heldLow o
def setHeld (s : State) (o : Nat) (v : Option Word) : State := { s with heldLow := tput none o v s.heldLow }

/-! ## Who reaches what -/

/-- Channel of the mailbox that a register number belongs to (R475). -/
def chanOf (o : Nat) : Option Nat :=
  if 0x71000 ≤ o ∧ o < 0x71000 + 0x400 * 50 then some ((o - 0x71000) / 0x400) else none

/-- The channel of a master. -/
def ownChan : Master → Option Nat
  | .purser q k => some (4 * q.val + k.val)
  | .deckhand l => some (16 + l.val)
  | .pf p => some (48 + p.val)
  | _ => none

/-- A channel access by a master that does not own it (R476). -/
def foreignChan (m : Master) (o : Nat) : Bool :=
  match chanOf o with
  | some c => ownChan m != some c
  | none => false

/-- A virtual function reaches the registers of its own queue set and its aperture (R437, R439). -/
def vfReaches (p i o : Nat) : Bool :=
  let q := 32 * p + i
  (0x60000 + 0x200 * q ≤ o && o < 0x60000 + 0x200 * (q + 1)) || o == 0x68000 + 8 * q || o == 0x68004 + 8 * q

/-- The register answers the master: it exists, it is not in an absent landing or the view of an inactive core, and a
virtual function's is its own (R5, R437, R575). -/
def answers (s : State) (m : Master) (o : Nat) : Bool :=
  (regDef o).isSome &&
  (match m with | .vf p i => qsBound s (32 * p.val + i.val) && vfReaches p.val i.val o | _ => true) &&
  (if 0x1000000 ≤ o ∧ o < 0x3000000 then
    let l := (o - 0x1000000) / 0x100000
    let x := (o - 0x1000000) % 0x100000
    !absentLand s l && (x < 0x40000 || coreActive s l ((x - 0x40000) / 0x400))
  else true)

/-- The power domain that holds a register, none for the blocks of module scope (R27, R33). -/
def regDomain (o : Nat) : Option Nat :=
  if o < 0x1000000 then none
  else if o < 0x3000000 then
    let l := (o - 0x1000000) / 0x100000
    let x := (o - 0x1000000) % 0x100000
    some (if 0x40000 ≤ x ∧ x < 0x80000 then l else 32 + l)
  else some (64 + (o - 0x4000000) / 0x100000 % 4)

/-- The register's domain is OFF. -/
def regOff (s : State) (o : Nat) : Bool :=
  match regDomain o with
  | some d => domState s d == 0
  | none => false

/-! ## Reads (R10, R12, R573) -/

/-- What a read clears: the RC bits; both words of RS.CAUSE; the peak of CORE.SETAGS. -/
def clearRead (s : State) (o : Nat) : State :=
  match regDef o with
  | none => s
  | some d =>
    let x := (o - 0x1000000) % 0x100000
    let land := decide (0x1000000 ≤ o) && decide (o < 0x3000000)
    if land ∧ x = 0x10000 then wr (wr s o 0) (o + 4) 0
    else if land ∧ 0x40000 ≤ x ∧ x < 0x80000 ∧ x % 0x400 = 0x1f4 then
      let l := (o - 0x1000000) / 0x100000
      let c := (x - 0x40000) / 0x400
      setCore s l c { getCore s l c with tagPeak := tagsUsed s l c none }
    else if d.rc = 0 then s
    else wr s o (rd s o &&& ~~~(word d.rc))

/-- A read of a 32-bit register by a master: its word, and the state after it. -/
def regRead (s : State) (m : Master) (o : Nat) : Word × State :=
  if foreignChan m o then (0, setFlag s rHmCause 1)
  else if !answers s m o then (0, s)
  else
    match if pairLow (o - 4) then getLatch s (o - 4) else none with
    | some w => (w, setLatch s (o - 4) none)
    | none =>
      let w := regView s m o
      let s := if pairLow o then setLatch s o (some (regView s m (o + 4))) else s
      (w, clearRead s o)

/-! ## Plain writes -/

/-- RW bits take the value, W1C bits that are written 1 clear, every other bit stays; HM bits are the harbourmaster's. -/
def plainWrite (s : State) (m : Master) (o : Nat) (v : Word) : State :=
  match regDef o with
  | none => s
  | some d =>
    let rw := word (if m = .hm then d.rw ||| d.hm else d.rw)
    let old := rd s o
    wr s o (((old &&& ~~~rw) ||| (v &&& rw)) &&& ~~~(v &&& word d.w1c))

/-- A register that one bit, written 1, clears as a whole. -/
def clearWhole (s : State) (o i : Nat) (v : Word) : State := if bit v.toNat i then wr s o 0 else s

/-! ## Orders -/

/-- RING_WRITE: the neighbours on the system ring, while no lap of an extended crossing is in progress (R428). -/
def writeRing (s : State) (v : Word) : State :=
  if s.crs.ext ∧ s.crs.inLap then setFlag s rXcause 9 else updExt (wrFld s rRing 21 0 (wfld v 21 0))

def execRingWrite (m : Master) (v : Word) (s : State) : Res := .next (if reachesModule m then writeRing s v else s)

/-- A write of XPT.TCFG: the request to be the time master, which is in effect until a lower number claims it (R417,
R418, R431). -/
def writeTcfg (s : State) (v : Word) : State :=
  let s := wrFld s 0x50018 0 0 (wfld v 0 0)
  if wfld v 0 0 = 1 then becomeMaster s else wrFld s 0x50010 2 2 0

/-- A write of CRS.VCTL: INCOMING, then the orders in the order of their bits (R80). -/
def writeVctl (s : State) (m : Master) (v : Word) : State :=
  let i := BitVec.ofNat 16 (wfld v 15 0)
  let run (b : Nat) (s : State) (r : Res) : State := if bit v.toNat b then after r s else s
  let s := wrFld s rVctl 15 0 i.toNat
  let s := run 16 s (execLoad m i s)
  let s := run 17 s (execTurn m i s)
  let s := run 18 s (execAbandon m i s)
  run 19 s (execLocalVersion m i s)

/-- A write of STO.CKCTL: SUP and SIGN, then the orders, whose bits read 1 until the operation ends (R12, R395; log 81). -/
def writeCkctl (s : State) (m : Master) (v : Word) : State :=
  let run (b : Nat) (s : State) (r : Res) : State := if bit v.toNat b then after r s else s
  let s := wrFld s 0x80010 4 3 (wfld v 4 3)
  let s := run 0 s (execCheckpointWrite m s)
  let s := run 1 s (execRestore m s)
  run 2 s (execCheckpointAbort m s)

/-- A write of DBG.CTL; with GO while BUSY it is ignored (R569, R571). -/
def writeDbgCtl (s : State) (v : Word) : State :=
  if wfld v 0 0 = 1 ∧ dbgBusy s then s
  else
    let s := wrFld s rDbgCtl 4 1 (wfld v 4 1)
    if wfld v 0 0 = 0 then s else if wfld v 1 1 = 1 then dbgWrite s else dbgRead s

/-- A write of INT.EOI: the armed flags of the ports whose bit is 1 (R558). -/
def writeEoi (s : State) (v : Word) : State := wrFld s 0x1000c 3 2 (rdFld s 0x1000c 3 2 ||| wfld v 1 0)

/-- EOI. -/
def execEoi (m : Master) (v : Word) (s : State) : Res := .next (if reachesModule m then writeEoi s v else s)

/-- A write of REQ or PIN of a channel by its owner; GO submits the request (R477). -/
def writeChan (s : State) (c o : Nat) (v : Word) : State :=
  let x := (o - 0x71000) % 0x400
  if mbxBusy s c ∧ (x = 0 ∨ (0x100 ≤ x ∧ x < 0x200)) then busyWrite s
  else if x = 0 then
    let s := wrFld s (rMbx c) 24 0 (wfld v 24 0)
    if wfld v 31 31 = 1 then submit s c else s
  else if 0x100 ≤ x ∧ x < 0x200 then wr s o v
  else s

/-- A write of SVC.PFOVR by a physical function: W1C bits of its own record (R468). -/
def writePfovr (s : State) (m : Master) (v : Word) : State :=
  match m with
  | .pf p => wr s (rPfovr p.val) (rd s (rPfovr p.val) &&& ~~~(v &&& 3))
  | _ => s

/-- A write of a queue set's register (R456, R563). -/
def writeQs (s : State) (m : Master) (q x : Nat) (v : Word) : State :=
  let o := rQs q x
  let all := qsAccess s m q == .all
  let f : Fin 64 := Fin.ofNat 64 q
  match x with
  | 0x0 => writeQsCtl s m q v
  | 0x8 | 0xc | 0x10 | 0x14 => if all && !qsEn s q then wr s o v else s
  | 0x18 => after (execRequestDoorbell m f v s) s
  | 0x20 => after (execResultDoorbell m f v s) s
  | 0x28 | 0x38 => if all then plainWrite s m o v else s
  | 0x34 => if m = .hm then wrFld s o 15 0 (wfld v 15 0) else hmWrite s
  | 0x3c => writeQsIrq s m q v
  | _ => s

/-- A write of a word of module scope. -/
def writeModule (s : State) (m : Master) (o : Nat) (v : Word) : State :=
  if 0x60000 ≤ o ∧ o < 0x68000 then writeQs s m ((o - 0x60000) / 0x200) ((o - 0x60000) % 0x200) v
  else if 0x20100 ≤ o ∧ o < 0x20220 then after (execDomainRequest m (Fin.ofNat 72 ((o - 0x20100) / 4)) v s) s
  else if 0x51000 ≤ o ∧ o < 0x51400 then updExt (plainWrite s m o v)
  else if 0x10040 ≤ o ∧ o < 0x10050 then plainWrite s m (rQcause ((o - 0x10040) / 4)) v
  else match chanOf o with
  | some c => writeChan s c o v
  | none =>
    match o with
    | 0x44 => after (execModuleReset m v s) s
    | 0x48 => after (execPurserReset m v s) s
    | 0x54 => after (execRejoin m v s) s
    | 0x1000c => writeEoi s v
    | 0x10020 | 0x10024 => clearWhole s o 0 v
    | 0x20004 => after (execSetcap m v s) s
    | 0x20008 => after (execSettlim m v s) s
    | 0x2000c => after (execSetrun m v s) s
    | 0x40004 => after (execPaceWrite m v s) s
    | 0x40100 => writeVctl s m v
    | 0x50004 => writeRing s v
    | 0x50018 => writeTcfg s v
    | 0x68408 => writePfovr s m v
    | 0x80010 => writeCkctl s m v
    | 0x80018 | 0x8001c => clearWhole s o 31 v
    | 0x90000 => writeDbgCtl s v
    | _ => plainWrite s m o v

/-- A write of a core view's register: an error record clears as a whole (R206), a pair register under R337. -/
def writeCore (s : State) (m : Master) (l c x : Nat) (v : Word) : State :=
  let o := coreBase l c + x
  if 0x120 ≤ x ∧ x < 0x148 then (if x / 4 % 2 = 0 ∧ bit v.toNat 0 then wr (wr s o 0) (o + 4) 0 else s)
  else if 0x380 ≤ x ∧ x < 0x3c0 then writePair s l c ((x - 0x380) / 4) v
  else plainWrite s m o v

/-- The harbourmaster's write of a window's register; the last write of OPEN decides whether a closing window opens again
(R370, R375, R376; log 51). -/
def writeWinReg (s : State) (m : Master) (u i k : Nat) (v : Word) : State :=
  if m ≠ .hm then hmWrite s
  else if k < 3 then plainWrite s m (winBase u i + 4 * k) v
  else
    let s := wrFld s (rWctl u i) 13 10 (wfld v 13 10)
    if wfld v 8 8 = 1 then openWin s u i
    else closeWin s u i

/-- A write of a landing block's register at offset x: LC.TQCTL.STEAL of 0 is taken as 1, LC.WDOG.UNIT = 0b11 makes the
write ignored (R122, R358). -/
def writeLand (s : State) (m : Master) (l x : Nat) (v : Word) : State :=
  let o := lcBase l + x
  if 0x40000 ≤ x ∧ x < 0x80000 then writeCore s m l ((x - 0x40000) / 0x400) ((x - 0x40000) % 0x400) v
  else if 0x30000 ≤ x then writeWinReg s m l ((x - 0x30000) / 16) ((x - 0x30000) / 4 % 4) v
  else if 0x100 ≤ x ∧ x < 0x500 then
    let k := (x - 0x100) % 0x40 / 4
    if k ≤ 10 then writeGroup s l ((x - 0x100) / 0x40) k v else s
  else if 0xe0 ≤ x ∧ x < 0x100 then
    if areaUse s l ((x - 0xe0) / 8) = 0 then plainWrite s m o v else s
  else if x = 0x80 then plainWrite s m o (if wfld v 11 0 = 0 then v ||| 1 else v)
  else if x = 0x94 ∧ wfld v 31 30 = 3 then s
  else if x = 0x90 then after (execFbufWrite m (Fin.ofNat 32 l) v s) s
  else plainWrite s m o v

/-- A write of a quay's register. -/
def writeQuay (s : State) (m : Master) (q x : Nat) (v : Word) : State :=
  if 0xc0000 ≤ x then writeWinReg s m (32 + q) ((x - 0xc0000) / 16) (x / 4 % 4) v
  else plainWrite s m (quayBase q + x) v

/-- A write of one word that takes effect. -/
def writeWord (s : State) (m : Master) (o : Nat) (v : Word) : State :=
  if o < 0x1000000 then writeModule s m o v
  else if o < 0x3000000 then writeLand s m ((o - 0x1000000) / 0x100000) ((o - 0x1000000) % 0x100000) v
  else writeQuay s m ((o - 0x4000000) / 0x100000 % 4) (o % 0x100000) v

/-- LC.TPOST is held, and LC.TPOST_HI gives the post (R106, R112, R113). -/
def writeTpost (s : State) (m : Master) (l : Nat) (hi : Bool) (v : Word) : State :=
  let o := lcBase l + 0x40
  if !mayPost m l then countUp s (rTpstat l) 23 16 1 none
  else if !hi then setHeld s o (some v)
  else
    let w := (getHeld s o).getD 0
    let s := setHeld s o none
    let c : Fin 256 := Fin.ofNat 256 (wfld w 7 0)
    let t : Fin 16 := Fin.ofNat 16 (wfld w 11 8)
    let prio := BitVec.ofNat 2 (wfld w 13 12)
    let entry := BitVec.ofNat 15 (wfld w 30 16)
    if wfld w 14 14 = 1 then after (execKillPost m (Fin.ofNat 32 l) c t prio entry v false s) s
    else after (execTaskPost m (Fin.ofNat 32 l) c t prio entry v false s) s

/-- Landing of LC.TPOST or LC.TPOST_HI, and whether it is the latter. -/
def tpostOf (o : Nat) : Option (Nat × Bool) :=
  if 0x1000000 ≤ o ∧ o < 0x3000000 ∧ ((o - 0x1000000) % 0x100000 = 0x40 ∨ (o - 0x1000000) % 0x100000 = 0x44) then
    some ((o - 0x1000000) / 0x100000, o % 8 == 4)
  else none

/-- A write of a 32-bit register by a master (R10, R12). -/
def regWrite (s : State) (m : Master) (o : Nat) (v : Word) : State :=
  if foreignChan m o then setFlag s rHmCause 1
  else if !answers s m o then s
  else
    match tpostOf o with
    | some (l, hi) => writeTpost s m l hi v
    | none =>
      if heldPair o then setHeld s o (some v)
      else if heldPair (o - 4) then
        match getHeld s (o - 4) with
        | some lo => writeWord (writeWord (setHeld s (o - 4) none) m (o - 4) lo) m o v
        | none => writeWord s m o v
      else writeWord s m o v

/-! ## BAR0 refusals (R32, R33, R564) -/

/-- INT.BARERR records a refused access of a port, or MORE. -/
def barErr (s : State) (port why : Nat) (write : Bool) (off : Nat) : State :=
  let o := 0x10020
  if rdFld s o 0 0 = 1 then setFlag s o 1
  else wr s o (word (1 + why * 4 + port * 16 + b2n write * 32 + bits off 25 2 * 64))

/-! ## Commands -/

/-- A register write of a master that reaches its register: not in a reserved range, its domain not OFF (R32, R33). For
a physical function INT.BARERR records the refusal. -/
def masterWrite (s : State) (m : Master) (o : Nat) (v : Word) : State :=
  let refuse (why : Nat) : State := match m with | .pf p => barErr s p.val why true o | _ => s
  let beyond : Bool := match m with
    | .pf _ | .vf _ _ => decide (0x4000000 ≤ o)
    | _ => false
  if o % 4 ≠ 0 then refuse 1
  else if beyond ∨ (regDef o).isNone then refuse 2
  else if regOff s o then refuse 3
  else regWrite s m o v

/-! ## Orders that meet (R34, R465, R468) -/

/-- The safety quantity whose register lies at an offset (R466, R508). -/
def safetyQty (o : Nat) : Option Qty := [Qty.cap, .tlim, .run].find? fun q => q.reg == o

/-- A register has a field that the harbourmaster alone writes (R470). -/
def hmReg (o : Nat) : Bool := match regDef o with | some d => d.hm != 0 | none => false

/-- The write of a master reaches the register: it meets another that does. -/
def writeReaches (s : State) (m : Master) (o : Nat) : Bool :=
  let beyond : Bool := match m with
    | .pf _ | .vf _ _ => decide (0x4000000 ≤ o)
    | _ => false
  o % 4 == 0 && !beyond && !regOff s o && !foreignChan m o && answers s m o

/-- Of two orders that meet, the one of m and v prevails: the safer one, and otherwise that of the higher rank. -/
def writePrevails (o : Nat) (m : Master) (v : Word) (m' : Master) (v' : Word) : Bool :=
  match safetyQty o with
  | some q => safetyPrevails q m (q.val v) m' (q.val v')
  | none => prevails m m'

/-- The order of a master at a register loses: it has no effect on any field, and its master learns of it. One that names a
field of the harbourmaster's is ignored besides (R465, R468, R470). -/
def loseWrite (s : State) (m : Master) (o : Nat) : State :=
  noteOverruled (if m ≠ .hm ∧ hmReg o then hmWrite s else s) m o

/-- Two masters write one register in one slot: the order that prevails takes effect whole, the other not at all. -/
def meetWrites (s : State) (m : Master) (o : Nat) (v : Word) (m' : Master) (v' : Word) : State :=
  if m = m' ∨ !writeReaches s m o ∨ !writeReaches s m' o then masterWrite (masterWrite s m o v) m' o v'
  else if writePrevails o m v m' v' then loseWrite (masterWrite s m o v) m' o
  else loseWrite (masterWrite s m' o v') m o

/-- REGISTER_WRITE, met or not by another master's write of the register in the same slot. -/
def execRegisterWrite (m : Master) (off : Nat) (v : RegWrite) (s : State) : Res :=
  match v.met with
  | none => .next (masterWrite s m off v.val)
  | some (m', v') => .next (meetWrites s m off v.val m' v')

/-- PAIR_WRITE: a write of CORE.PAIRi (R337). -/
def execPairWrite (m : Master) (k : CoreRef) (i : Fin 16) (v : Word) (s : State) : Res :=
  let l := k.land.val
  let c := k.core.val
  .next (if reachesModule m ∧ coreActive s l c ∧ domState s l ≠ 0 then writePair s l c i.val v else s)

/-- CLOSURE_GROUP_WRITE: a write of a register of LC.CGg (R338, R345, R359). -/
def execClosureGroupWrite (m : Master) (l : Fin 32) (g : Fin 16) (reg : Fin 11) (v : Word) (s : State) : Res :=
  .next (if reachesModule m ∧ !absentLand s l.val ∧ domState s (32 + l.val) ≠ 0 then
    writeGroup s l.val g.val reg.val v else s)

end Sys2Proof.Machine
end

