-- ==== Sys2Proof/Machine/Remote.lean ====
section
/-! DEFINITION. Global accesses at their targets: the checks in order, windows, effects, remote increments, accesses that
leave for other modules, writes that an operand hold stalled (R23 to R28, R126, R152, R156, R183, R308, R317, R320, R371 to
R375, R379, R406, R412, R421, R476, R485). -/

namespace Sys2Proof.Machine

/-! ## The requester -/

/-- Landing and core of a requester of this module. Which core number a deckhand gives is open (log 1). -/
def ownSrc (s : State) : ASrc → Nat × Nat × State
  | .thread (.core l c _) => (l.val, c.val, s)
  | .thread (.deckhand l) => (l.val, (Config.freeDword s.free).toNat % 256, { s with free := s.free + 1 })
  | .row k _ _ | .index k _ _ | .signal k _ | .stale k _ | .gone k => (k.land.val, k.core.val, s)
  | .port _ t => (t.sunit.toNat, t.score.toNat, s)

/-- The source as windows see it (R371). -/
def winSrc (s : State) (a : ASrc) (l c : Nat) : WSrc :=
  match a with
  | .port _ t =>
    if t.shost then .host t.smod.toNat
    else if t.squay then .quay t.smod.toNat (l % 4)
    else .land t.smod.toNat l c
  | _ => .land s.modnum.toNat l c

/-- The master that an access to registers is. Only the deckhand of this module acts as one with orders of its own. -/
def accMaster (a : ASrc) (l c : Nat) : Master :=
  match a with
  | .thread (.deckhand l) => .deckhand l
  | _ => .core (Fin.ofNat 32 l) (Fin.ofNat 256 c)

/-- Rows that an access moves: those of its frame, else one. -/
def accRows (a : Access) : Nat :=
  match a.src with
  | .port _ t => t.nrows
  | _ => 1

/-- Bytes that an access touches. -/
def accLen (a : Access) : Nat :=
  match a.kind with
  | .read n => n
  | .write data => data.length
  | .amo n _ => n
  | .readRow | .writeRow _ _ => 512 * accRows a
  | .signal => 0

/-- A scalar access. -/
def isScalar : AKind → Bool
  | .read _ | .write _ | .amo _ _ => true
  | _ => false

def isAmo : AKind → Bool
  | .amo _ _ => true
  | _ => false

/-- What the access needs of a window (R371). -/
def accNeed (a : Access) : Need :=
  let inc := a.inc.isSome
  match a.kind with
  | .read _ | .readRow => { rd := true, inc := inc }
  | .write _ | .writeRow _ _ => { wr := true, inc := inc }
  | .amo _ _ => { amo := true, inc := inc }
  | .signal => { inc := inc }

/-- The access reads: its data may be poisoned. -/
def isRead : AKind → Bool
  | .read _ | .readRow => true
  | _ => false

/-! ## Results -/

/-- STATUS of a RESP (R406). AMO_SPACE has no code of its own and answers ADDRESS (log 28). -/
def statusCode : AStatus → BitVec 8
  | .ok => 0 | .address => 1 | .amoSpace => 1 | .domainOff => 2 | .windowClosed => 3 | .poison => 4 | .lost => 5

/-- STATUS of a RESP read back; a value that R406 does not list counts as ADDRESS (log 28). -/
def codeStatus (v : BitVec 8) : AStatus :=
  match v.toNat with
  | 0 => .ok | 2 => .domainOff | 3 => .windowClosed | 4 => .poison | 5 => .lost | _ => .address

/-- The rows of 512 B in a list of bytes. -/
def rowsOf : Nat → List Byte → List (List Byte)
  | 0, _ => []
  | n + 1, bs => bs.take 512 :: rowsOf n (bs.drop 512)

/-- The RESP frame that answers a frame: to the requester, with its tag (R405, R406). -/
def respTrans (s : State) (t : Trans) (st : AStatus) : Trans :=
  { addr := BitVec.ofNat 64 (t.smod.toNat * 2 ^ 53 + t.sunit.toNat * 2 ^ 48)
    score := 0, sunit := BitVec.ofNat 5 (gaUnit t.addr), smod := s.modnum, shost := false, squay := false
    tag := t.tag, nrows := 0, ssize := t.ssize, widx := 0, wgen := 0, wen := false
    rcore := 0, rctr := 0x3f, rinc := 0, poison := 0, status := statusCode st, hops := 0, data := 0 }

/-- A RESP leaves for a module in the class of its request, that of a quay's RDMA engine in TC1 (R411); a refused one sets
XPT.CAUSE.UNREACH (R412). -/
def sendResp (s : State) (q : Trans) (t : Trans) (rows : List (List Byte)) : State :=
  match routeFrame s q.smod.toNat (b2n q.squay) (.acc 4 t rows) with
  | some s => s
  | none => setFlag s rXcause 7

/-- The access has its result: it is kept for its requester in this module, sent as a RESP to another, and nobody's where the
requester has completed it. `psn` are the poisoned rows. -/
def finishAccess (s : State) (a : Access) (st : AStatus) (data : List Byte) (psn : List Nat) : State :=
  match a.src with
  | .port _ t =>
    let ok := st == .ok || st == .poison
    let r := respTrans s t st
    let n := if ok ∧ isRead a.kind ∧ !isScalar a.kind then t.nrows else 0
    let r := { r with
      nrows := n, data := if isScalar a.kind then BitVec.ofNat 64 (leNat data) else 0,
      poison := BitVec.ofNat 64 (psn.foldl (fun m i => m + 2 ^ i) 0) }
    sendResp (dropAccess s a.id) t r (rowsOf n data)
  | .gone _ => dropAccess s a.id
  | _ => answer s a.id ⟨st, data, !psn.isEmpty⟩

/-! ## Windows (R28, R126, R372 to R374, R476) -/

/-- How the window check ends: admitted, by a window or without one; refused as stale or as denied; refused without a
count, in quarantine (R126, R379). -/
inductive Verdict where
  | go (via : Option Nat)
  | stale
  | denied
  | quar
deriving DecidableEq, Repr

/-- Number of the unit that holds the windows of a space. -/
def winUnit (unit sp : Nat) : Nat := if landSpace sp then unit else 32 + unit

/-- The source is the landing that the access goes to. -/
def ownLand (s : State) (w : WSrc) (unit sp : Nat) : Bool :=
  match w with
  | .land m l _ => m == s.modnum.toNat && l == unit && landSpace sp
  | _ => false

/-- A signal-only packet or a row is checked against the window that it names, a scalar access against all. -/
def checkWindow (s : State) (a : Access) (w : WSrc) (m : Master) (unit sp off : Nat) : Verdict :=
  let u := winUnit unit sp
  let own := ownLand s w unit sp
  let chan := !isScalar a.kind || sp != 5 || (chanOf off).isNone || ownChan m != chanOf off
  if own ∧ quarantined s unit then .quar
  else if isScalar a.kind then
    if own ∨ !chan then .go none
    else if landSpace sp ∧ quarantined s unit then .denied
    else match (busyWins s u).find? fun i => admits s u i sp off (accLen a) w (accNeed a) with
    | some i => .go (some (winKey u i))
    | none => .denied
  else match a.win with
  | none => if own then .go none else .denied
  | some (i, g) =>
    let i := i.toNat
    if winCount u ≤ i then .denied
    else if winGen s u i ≠ g then .stale
    else if landSpace sp ∧ quarantined s unit then .denied
    else if if a.kind = .signal then admitsSignal s u i w else admits s u i sp off (accLen a) w (accNeed a) then
      .go (some (winKey u i))
    else .denied

/-! ## The checks (R25, R27, R152, R308) -/

/-- The parts of an access within its unit: one for each row, one for a scalar access. -/
def accParts (a : Access) (off : Nat) : List (Nat × Nat) :=
  match a.kind with
  | .readRow | .writeRow _ _ => (upto (accRows a)).map fun i => (off + 512 * i, 512)
  | .signal => []
  | _ => [(off, accLen a)]

/-- The landing of a remote increment or signal-only packet is no landing that takes one (R308). -/
def incBad (s : State) (unit sp : Nat) : Bool := !landSpace sp || absentLand s unit || landFailed s unit

/-- ADDRESS: some part meets R25, the access is not aligned, or its increment has no target. -/
def accAddrBad (s : State) (a : Access) (unit sp off : Nat) : Bool :=
  ((accParts a off).any fun p => addrBad s unit sp p.1 p.2) || (isScalar a.kind && off % accLen a != 0) ||
    ((a.inc.isSome || a.kind == .signal) && incBad s unit sp) || (a.kind == .signal && a.inc.isNone)

/-- The target of the access and of its increment is ON (R27). -/
def accOn (s : State) (a : Access) (unit sp off : Nat) : Bool :=
  ((accParts a off).all fun p => targetOn s unit sp p.1 p.2) && (a.inc.isNone || arrayOn s unit)

/-! ## Effects -/

/-- The remote increment of an access (R308, R326). -/
def applyInc (s : State) (unit : Nat) (w : WSrc) (inc : Option (BitVec 8 × BitVec 6 × BitVec 8)) : State :=
  match inc with
  | none => s
  | some (c, n, k) =>
    let from' := match w with
      | .land m l c => AddSrc.remote c l m
      | .quay m q => AddSrc.remote 0 q m
      | .host m => AddSrc.remote 0 0 m
    if arrayOn s unit ∧ coreActive s unit c.toNat then addCtr s unit c.toNat n.toNat k.toNat from' else s

/-- Register number of an offset of space 0x3 or 0x5. -/
def regNum (unit sp off : Nat) : Nat :=
  if sp = 3 then lcBase unit + off else if off < 0xa0000 then off else quayBase unit + off

/-- A read of one register or of a pair, low word first (R10, R31). -/
def readRegs (s : State) (m : Master) (o n : Nat) : List Byte × State :=
  let r := regRead s m o
  if n = 8 then
    let q := regRead r.2 m (o + 4)
    (leBytes 4 r.1.toNat ++ leBytes 4 q.1.toNat, q.2)
  else (leBytes 4 r.1.toNat, r.2)

/-- A write of one register or of a pair, low word first. -/
def writeRegs (s : State) (m : Master) (o : Nat) (bs : List Byte) : State :=
  let s := regWrite s m o (word (leNat (bs.take 4)))
  if bs.length = 8 then regWrite s m (o + 4) (word (leNat (bs.drop 4))) else s

/-- Row i of an access that writes rows, and its poison. -/
def accRow (a : Access) (i : Nat) : List Byte × Bool :=
  match a.kind, a.src with
  | .writeRow data _, .port _ t => ((data.drop (512 * i)).take 512, bit t.poison.toNat i)
  | .writeRow data psn, _ => (data, psn)
  | _, _ => ([], false)

/-- A row of space 0x1 that an operand hold stalls waits (R183, R323). -/
def writeAccRow (s : State) (a : Access) (unit sp off i : Nat) : State :=
  let d := accRow a i
  let o := off + 512 * i
  let d' := fitTo 0 512 d.1
  if sp = 1 ∧ rowHeld s unit (rowCore o) (rowNum o) then
    holdWrite s unit (rowCore o) ⟨rowNum o, d', d.2, .access a.id⟩
  else memWrite s unit sp o d' d.2

/-- Some row of the access still waits. -/
def rowsWait (s : State) (unit off id : Nat) : Bool :=
  (getCore s unit (rowCore off)).held.any fun h => h.goal == .access id

/-- How a write is acknowledged: one whose frame was lost, as poisoned (R317, R408). -/
def ackStatus (a : Access) : AStatus :=
  match a.src with
  | .port _ t => if t.status = statusCode .lost then .poison else .ok
  | _ => .ok

/-- The end of a write: its increment, then its result. -/
def finishWrite (s : State) (a : Access) (unit : Nat) (w : WSrc) : State :=
  finishAccess (applyInc s unit w a.inc) a (ackStatus a) [] []

/-- Rows read, with the poisoned ones. -/
def readAccRows (s : State) (a : Access) (unit sp off : Nat) : State :=
  let ds := (upto (accRows a)).map fun i => memData s unit sp (off + 512 * i) 512
  let s := (upto (accRows a)).foldl (fun s i => memRead s unit sp (off + 512 * i) 512) s
  finishAccess s a .ok (ds.flatMap fun d => d.1) ((ds.zipIdx.filter fun x => x.1.2).map fun x => x.2)

/-- A frame's scalar data carries poison. -/
def framePsn (a : Access) : Bool :=
  match a.src with
  | .port _ t => bit t.poison.toNat 0
  | _ => false

/-- The sum that an AMOADD writes back (R156). -/
def amoSum (n : Nat) (old addend : Nat) : List Byte := leBytes n (old + addend)

/-- The effect of an admitted access. -/
def perform (s : State) (a : Access) (w : WSrc) (m : Master) (unit sp off : Nat) : State :=
  match a.kind with
  | .read n =>
    if sp = 3 ∨ sp = 5 then
      let r := readRegs s m (regNum unit sp off) n
      finishAccess r.2 a .ok r.1 []
    else
      let d := memData s unit sp off n
      let s := memRead s unit sp off n
      if d.2 then finishAccess s a .poison [] [0] else finishAccess s a .ok d.1 []
  | .write data =>
    if sp = 3 ∨ sp = 5 then finishWrite (writeRegs s m (regNum unit sp off) data) a unit w
    else if partBad s unit sp off data.length then
      finishAccess (memRead s unit sp off data.length) a .poison [] []
    else finishWrite (memWrite s unit sp off data (framePsn a)) a unit w
  | .amo n addend =>
    let d := memData s unit sp off n
    let s := memRead s unit sp off n
    if d.2 ∨ framePsn a then finishAccess s a .poison [] [0]
    else
      let s := memWrite s unit sp off (amoSum n (leNat d.1) addend.toNat) false
      finishAccess (applyInc s unit w a.inc) a .ok d.1 []
  | .readRow => readAccRows s a unit sp off
  | .writeRow _ _ =>
    let s := (upto (accRows a)).foldl (fun s i => writeAccRow s a unit sp off i) s
    if sp = 1 ∧ rowsWait s unit off a.id then s else finishWrite s a unit w
  | .signal => finishWrite s a unit w

/-- The window that admitted the access is noted, for its close (R375). -/
def noteVia (s : State) (id : Nat) (via : Option Nat) : State :=
  { s with accs := s.accs.map fun a => if a.id = id then { a with via := via } else a }

/-- An access at a target of this module: the first of the conditions of R152 that applies, else its effect. -/
def atTarget (s : State) (a : Access) : State :=
  let unit := gaUnit a.addr
  let sp := gaSpace a.addr
  let off := gaOff a.addr
  let (l, c, s) := ownSrc s a.src
  let w := winSrc s a.src l c
  let m := accMaster a.src l c
  if accAddrBad s a unit sp off then finishAccess s a .address [] []
  else if isAmo a.kind ∧ !(sp == 0 || sp == 2 || sp == 4 || sp == 6) then finishAccess s a .amoSpace [] []
  else
    match checkWindow s a w m unit sp off with
    | .quar => finishAccess s a .windowClosed [] []
    | .stale => finishAccess (countRefusal s (winUnit unit sp) true w) a .windowClosed [] []
    | .denied => finishAccess (countRefusal s (winUnit unit sp) false w) a .windowClosed [] []
    | .go via =>
      if !accOn s a unit sp off then finishAccess s a .domainOff [] []
      else perform (noteVia s a.id via) a w m unit sp off

/-! ## Accesses to other modules (R25, R405, R406, R412, R421) -/

/-- FTYPE of the frame that carries an access (R405). -/
def accFtype : AKind → Nat
  | .write _ | .writeRow _ _ => 2
  | .read _ | .readRow => 3
  | .signal => 5
  | .amo _ _ => 6

/-- The transaction part of an access of this module (R406). -/
def accTrans (s : State) (a : Access) (l c : Nat) : Trans :=
  let inc := a.inc.getD (0, 0x3f, 0)
  let win := a.win.getD (0, 0)
  { addr := a.addr
    score := BitVec.ofNat 8 c, sunit := BitVec.ofNat 5 l, smod := s.modnum, shost := false, squay := false
    tag := BitVec.ofNat 16 a.id
    nrows := match a.kind with | .readRow | .writeRow _ _ => 1 | _ => 0
    ssize := if isScalar a.kind then (if accLen a = 8 then 3 else 2) else 0
    widx := win.1, wgen := win.2, wen := a.win.isSome
    rcore := inc.1, rctr := inc.2.1, rinc := inc.2.2
    poison := match a.kind with | .writeRow _ p => if p then 1 else 0 | _ => 0
    status := 0, hops := 0
    data := match a.kind with | .write d => BitVec.ofNat 64 (leNat d) | .amo _ v => v | _ => 0 }

/-- An AMOADD to a space that takes none, at an offset that the space has: AMO_SPACE, which no STATUS of R406 carries, is
reported before the frame leaves (R152; log 28). -/
def amoSpaceBad (a : Access) : Bool :=
  let sp := gaSpace a.addr
  isAmo a.kind && !(sp == 0 || sp == 2 || sp == 4 || sp == 6) && extentOk' (gaUnit a.addr) sp (gaOff a.addr) (accLen a)

/-- The access leaves as a frame of TC0, or completes with ADDRESS where the frame is refused. -/
def leaveModule (s : State) (a : Access) : State :=
  let (l, c, s) := ownSrc s a.src
  let rows := match a.kind with | .writeRow d _ => [fitTo 0 512 d] | _ => []
  match routeFrame s (gaMod a.addr) 0 (.acc (accFtype a.kind) (accTrans s a l c) rows) with
  | some s' =>
    if amoSpaceBad a then finishAccess s a .amoSpace [] []
    else { s' with accs := s'.accs.map fun b => if b.id = a.id then { b with away := true } else b }
  | none => finishAccess (if fenced s then s else setFlag s rXcause 7) a .address [] []

/-! ## Commands -/

/-- Rows of the access wait for an operand hold. -/
def accWaits (s : State) (a : Access) : Bool := s.cores.any fun k => k.2.held.any fun h => h.goal == .access a.id

/-- Two accesses come from one thread of this module, or from one requester of another module, whose frames do not name the
thread. -/
def sameSource (a b : ASrc) : Bool :=
  match a, b with
  | .thread v, .thread w => v == w
  | .port _ t, .port _ u =>
    t.smod == u.smod && t.sunit == u.sunit && t.score == u.score && t.shost == u.shost && t.squay == u.squay
  | _, _ => false

/-- An earlier global store or AMOADD of the same thread to the same 8 B word has not been performed: the access waits for it
(R158). -/
def afterStore (s : State) (a : Access) : Bool :=
  (s.accs.takeWhile fun b => b.id != a.id).any fun b =>
    b.res.isNone && isScalar b.kind && isScalar a.kind && !isRead b.kind && sameSource b.src a.src &&
      b.addr.toNat / 8 == a.addr.toNat / 8

/-- REMOTE_ACCESS: an access without a result reaches its target, or leaves for another module. -/
def execRemoteAccess (id : Nat) (s : State) : Res :=
  match findAccess s id with
  | none => .next s
  | some a =>
    if a.res.isSome ∨ a.away ∨ accWaits s a ∨ afterStore s a then .next s
    else .next (if gaMod a.addr = s.modnum.toNat then atTarget s a else leaveModule s a)

/-- A row write that an operand hold stalls at its target is lost: it commits zero with poison once the hold ends, for no
requester (R317, R318). -/
def loseHeld (s : State) (a : Access) (k : CoreRef) : State :=
  let lose (h : HeldWrite) : HeldWrite :=
    if h.goal = .access a.id then { h with data := List.replicate 512 0, psn := true } else h
  { s with
    cores := s.cores.map fun x => (x.1, { x.2 with held := x.2.held.map lose })
    accs := s.accs ++ [{ a with src := .gone k }] }

/-- TAG_TIMEOUT: no response 4 ms after issue; the access completes as a lost frame, and the target of a STORE row in this
module commits a zero row with poison. A row that has come and waits for an operand hold has its response (R313, R317,
R318, R323). -/
def execTagTimeout (id : Nat) (s : State) : Res :=
  match findAccess s id with
  | none => .next s
  | some a =>
    match streamCore a.src, a.kind, a.res with
    | some (l, c), .writeRow _ _, none =>
      if a.away ∨ gaMod a.addr ≠ s.modnum.toNat then .next (streamResponse s a ⟨.lost, [], true⟩)
      else
        let s := if accWaits s a then s else atTarget s { a with kind := .writeRow [] true }
        let u := streamResponse s a ⟨.lost, [], true⟩
        .next (if accWaits s a then loseHeld u a (coreRef l c) else u)
    | some (l, c), _, none => .next (if tagHeld s l c id then s else streamResponse s a ⟨.lost, [], true⟩)
    | _, _, _ => .next s

/-- The first held write of a list that no hold stalls any more: not a row held, and no earlier write to its row. -/
def firstFree (held : List Nat) : List Nat → List HeldWrite → Option HeldWrite
  | _, [] => none
  | seen, h :: r =>
    if held.contains h.row ∨ seen.contains h.row then firstFree held (h.row :: seen) r else some h

/-- The end of a stalled write. -/
def finishHeld (s : State) (l c : Nat) (h : HeldWrite) : State :=
  match h.goal with
  | .plain | .chain => s
  | .stream sid p tag =>
    let s := match tag with
      | some id => dropAccess s id
      | none => s
    completeRow s l c sid p
  | .access id =>
    match findAccess s id with
    | none => s
    | some a =>
      if accWaits s a then s
      else
        let (l', c', s) := ownSrc s a.src
        finishWrite s a l (winSrc s a.src l' c')

/-- HELD_ROW_WRITE: a write that an operand hold stalled proceeds (R183, R323). -/
def execHeldRowWrite (k : CoreRef) (s : State) : Res :=
  let l := k.land.val
  let c := k.core.val
  let x := getCore s l c
  if !arrayOn s l then .next s
  else
    match firstFree (heldRows s l c) [] x.held with
    | none => .next s
    | some h =>
      let s := setCore s l c { x with held := x.held.erase h }
      .next (finishHeld (putRow s l c h.row h.data h.psn) l c h)

/-- REMOTE_INCREMENT: the increment of a signal-only packet reaches its target core, where its window admits it; one that
is not admitted is discarded (R308, R374). -/
def execRemoteIncrement (t : Trans) (s : State) : Res :=
  let unit := gaUnit t.addr
  let sp := gaSpace t.addr
  let inc := if t.rctr = 0x3f then none else some (t.rcore, t.rctr, t.rinc)
  let a : Access := ⟨0, .port 0 t, .signal, t.addr, if t.wen then some (t.widx, t.wgen) else none, inc, 0, 0, false,
    none, none⟩
  let w := winSrc s a.src t.sunit.toNat t.score.toNat
  if gaMod t.addr ≠ s.modnum.toNat ∨ accAddrBad s a unit sp 0 then .next s
  else
    match checkWindow s a w (accMaster a.src t.sunit.toNat t.score.toNat) unit sp 0 with
    | .quar => .next s
    | .stale => .next (countRefusal s (winUnit unit sp) true w)
    | .denied => .next (countRefusal s (winUnit unit sp) false w)
    | .go _ => .next (if accOn s a unit sp 0 then applyInc s unit w inc else s)

end Sys2Proof.Machine
end

