-- ==== Sys2Proof/Machine/Control.lean ====
section
/-! DEFINITION. Messages between modules and the timers that send them: heartbeats, holds, closures, version turns, faults,
watchdog notices, cut-outs and fencing, time alignment (R38, R100, R344, R415 to R422). -/

namespace Sys2Proof.Machine

/-! ## Message types (R415) -/

inductive MsgType where
  | time | heartbeat | hold | clArrive | clRelease | clAck | vturn | vturnAck | fault | wdog | cutout | wdogAck | mctp
deriving DecidableEq, Repr

def MsgType.num : MsgType → Nat
  | .time => 1 | .heartbeat => 2 | .hold => 3 | .clArrive => 4 | .clRelease => 5 | .clAck => 6 | .vturn => 7
  | .vturnAck => 8 | .fault => 9 | .wdog => 0xa | .cutout => 0xb | .wdogAck => 0xc | .mctp => 0x100

/-- The message type of a number; none for a reserved one. -/
def msgTypeOf (n : Nat) : Option MsgType :=
  [MsgType.time, .heartbeat, .hold, .clArrive, .clRelease, .clAck, .vturn, .vturnAck, .fault, .wdog, .cutout, .wdogAck,
    .mctp].find? fun t => t.num == n

/-- A frame is dropped and counted in XPT.Pn.ERR2.DROP. -/
def countDrop (s : State) (p : Nat) : State := countUp s (rPort p + 8) 31 24 1 none

/-! ## Time (R38, R417, R418, R431) -/

def rTstat : Nat := 0x50010
def rToff : Nat := 0x50014

/-- XPT.TSTAT.TSTATE. -/
inductive TimeSt where
  | free | acquiring | locked | holdover
deriving DecidableEq, Repr

def TimeSt.num : TimeSt → Nat
  | .free => 0 | .acquiring => 1 | .locked => 2 | .holdover => 3

def inTime (s : State) (x : TimeSt) : Bool := rdFld s rTstat 1 0 == x.num
def setTime (s : State) (x : TimeSt) : State := wrFld s rTstat 1 0 x.num
def timeMaster (s : State) : Bool := rdFld s rTstat 2 2 == 1
def parentPort (s : State) : Nat := rdFld s rTstat 19 16

/-- Hops to the master through each group that has a port UP, with the lowest such port. -/
def timePaths (s : State) : List (Nat × Nat) :=
  (liveRoles s).filterMap fun r =>
    ((rolePorts s r).find? fun p => portUp s p).map fun p => ((Config.timeHops s.free r).toNat, p)

/-- The path with the fewest hops; ties go to the lowest port (R417). -/
def bestPath : List (Nat × Nat) → Option (Nat × Nat)
  | [] => none
  | x :: r =>
    match bestPath r with
    | some y => some (if y.1 < x.1 ∨ (y.1 = x.1 ∧ y.2 < x.2) then y else x)
    | none => some x

/-- A time parent is taken: its port and hops, with TSTATE ACQUIRING. -/
def takeParent (s : State) (port hops : Nat) : State :=
  let s := setTime (wrFld (wrFld s rTstat 19 16 port) rTstat 12 8 hops) .acquiring
  { s with xpt := { s.xpt with exch := 0 } }

/-- The module takes as its time parent the neighbour with the fewest hops, or keeps the one that it has (R417). -/
def findParent (s : State) : State :=
  match bestPath (timePaths s) with
  | some (h, p) =>
    let s := { s with free := s.free + 1 }
    if p = parentPort s ∧ (inTime s .acquiring ∨ inTime s .locked) then wrFld s rTstat 12 8 h else takeParent s p h
  | none => s

/-- Exchanges after which TSTATE is LOCKED; the worked example of start-up locks after 32 (log 29). -/
def lockExchanges : Nat := 32

/-- The offset from the parent in units of 0.25 ns: the mean of the two directions, own time less the parent's. -/
def timeOffset (t1 t2 t3 t4 : Int) : Int := ((t1 - t2) + (t4 - t3)) / 2

/-- A measured offset: XPT.TOFF shows it, the count slews it away; at the first lock after a POWER-ON reset a count that
is behind is set forward (R38, R417, R418). -/
def takeOffset (s : State) (off : Int) : State :=
  let s := wr s rToff (BitVec.ofInt 32 off)
  let n := Int.tdiv (-off) 20
  let s := { s with xpt := { s.xpt with slew := n, rate := n, exch := s.xpt.exch + 1 } }
  let s := if inTime s .holdover then setTime s .acquiring else s
  if inTime s .acquiring ∧ lockExchanges ≤ s.xpt.exch then
    let s := setTime s .locked
    if s.xpt.stepped then s
    else
      let s := { s with xpt := { s.xpt with stepped := true } }
      if 0 < n then { s with time := s.time + BitVec.ofNat 64 n.toNat, xpt := { s.xpt with slew := 0 } } else s
  else s

/-- The time master hears of another master with a lower number: it follows (R418). -/
def followLower (s : State) : State :=
  let m := Config.timeMaster s.free
  let s := { s with free := s.free + 1 }
  if timeMaster s ∧ m.toNat < s.modnum.toNat then setTime (wrFld (setFlag s rXcause 8) rTstat 2 2 0) .free else s

/-- The number by which the time parent is addressed: PEERMOD, and a free value behind a switch (log 29). -/
def timePeer (s : State) : Nat :=
  let m := portPeer s (parentPort s)
  if m = 0x7ff then (Config.timePeer (parentPort s)).toNat else m

/-- The module has a time parent, and a message that came in at a port is the parent's. -/
def fromParent (s : State) (port src : Nat) : Bool :=
  !timeMaster s && !inTime s .free && portRole s port == portRole s (parentPort s) && src == timePeer s

/-- A TIME message: from the parent it closes an exchange; from any other neighbour it asks for the answer of a parent. -/
def onTime (s : State) (port src : Nat) (t1 t2 t3 t4 : Int) : State :=
  if fromParent s port src then takeOffset s (timeOffset t1 t2 t3 t4)
  else sendMsg (followLower s) 1 src [t1, t2, t3]

/-- TIME_EXCHANGE: a module that is not the time master takes the nearest parent, and sends TIME on the link to it
(R417). -/
def execTimeExchange (phyTime : Int) (s : State) : Res :=
  if timeMaster s then .next s
  else
    let s := if inTime s .holdover then s else findParent s
    let r := portRole s (parentPort s)
    if inTime s .free ∨ inTime s .holdover ∨ groupDown s r ∨ fenced s then .next s
    else .next (pushFrame s r 2 (.msg 1 s.modnum.toNat (timePeer s) [phyTime] []))

/-- TIME_PARENT_LOSS: another path to the master, or HOLDOVER (R418). -/
def execTimeParentLoss (otherPath : Option (Fin 16 × BitVec 5)) (s : State) : Res :=
  if timeMaster s ∨ inTime s .free then .next s
  else
    match otherPath with
    | some (p, h) => .next (takeParent s p.val h.toNat)
    | none =>
      .next (setFlag { setTime s .holdover with xpt := { s.xpt with rateAt := s.edges + edges1ms } } rXcause 6)

/-- In HOLDOVER the last rate correction goes on, once in every 1 ms (R418; log 29). -/
def holdRate (s : State) : State :=
  if inTime s .holdover ∧ s.xpt.rateAt ≤ s.edges then
    { s with xpt := { s.xpt with slew := s.xpt.slew + s.xpt.rate, rateAt := s.edges + edges1ms } }
  else s

/-- One TIMECLK edge: the edge is counted, and GLB.TIME advances; slewing adds a tick or leaves one out, at most one in 1,024
(R38). -/
def timeTick (s : State) : State :=
  let s := holdRate s
  let due := decide (1023 ≤ s.xpt.phase) && s.xpt.slew != 0
  let n := if due then (if 0 < s.xpt.slew then 2 else 0) else 1
  let slew := if due then (if 0 < s.xpt.slew then s.xpt.slew - 1 else s.xpt.slew + 1) else s.xpt.slew
  { s with
    time := s.time + n, edges := s.edges + 1
    xpt := { s.xpt with slew := slew, phase := if due then 0 else min 1023 (s.xpt.phase + 1) } }

/-! ## Cut-outs and fencing (R419 to R422) -/

/-- The system ring cannot be closed (R422). -/
def openRing (s : State) : State := setFlag (setFlag s rRing 24) rXcause 4

/-- The split has no reach-2 groups (R401, R422). -/
def noReach2 (s : State) : Bool :=
  (upto 16).all fun p => let r := splitRole (rdFld s 0x50000 2 0) p; r != 3 && r != 4

/-- The ring role of a direction moves onto its reach-2 group when its present neighbour is cut out, with a HEARTBEAT on
it; where it cannot, the ring is open (R420 step 3, R422). -/
def spanRole (s : State) (m ring far flag : Nat) : State :=
  let moved := rdFld s rRing flag flag == 1
  if peerOf s (if moved then far else ring) ≠ some m then s
  else
    match if moved then none else peerOf s far with
    | some k =>
      if isMember s k then pushFrame (setFlag s rRing flag) far 2 (.msg 2 s.modnum.toNat k [] []) else openRing s
    | none => openRing s

/-- The launches of the extended crossing are held until system software has set the pace anew (R420 steps 2 and 4). -/
def holdCut (s : State) : State := { s with crs := { s.crs with cutHold := true } }

/-- A module learns that m is cut out: the route entry, the lap of an extended crossing and the hold on its launches, the
ring roles; messages that m would acknowledge are given up (R420 steps 2 and 3). -/
def learnCut (s : State) (m : Nat) : State :=
  if routeEntry s m = 0xf then s
  else
    let s := wrFld (setFlag s rXcause 3) (0x51000 + 4 * (m / 8)) (4 * (m % 8) + 3) (4 * (m % 8)) 0xf
    let s := if s.crs.ext then holdCut (abandonLap s) else s
    let s :=
      { s with
        crs := { s.crs with notices := s.crs.notices.filter fun n => n.mod != m },
        xpt := { s.xpt with
          clRel := s.xpt.clRel.filter fun u => u.mod != m,
          wdogs := s.xpt.wdogs.filter fun u => u.mod != m } }
    let s := spanRole (spanRole s m 2 4 22) m 1 3 23
    if noReach2 s then openRing s else s

/-- CUTOUT for m on every group, and by the tree to every other module of the system that is no neighbour (R414, R420
step 1). -/
def sendCut (s : State) (m : Nat) : State :=
  let s := sendAll s 0xb [(m : Int)]
  ((members s).filter fun k => k ≠ m ∧ k ≠ s.modnum.toNat ∧ !isNeighbour s k).foldl
    (fun s k => sendMsg s 0xb k [(m : Int)]) s

/-- The module declares its neighbour m failed, once (R419, R420). -/
def declareFailed (s : State) (m : Nat) : State :=
  if s.xpt.declared.contains m ∨ m = s.modnum.toNat then s
  else
    let s := { s with xpt := { s.xpt with declared := s.xpt.declared ++ [m], cuts := s.xpt.cuts ++ [(m, s.time)] } }
    learnCut (sendCut (setFlag s rXcause 3) m) m

/-- A CUTOUT that names this module fences it (R421). -/
def fence (s : State) : State := setFlag (setFlag s rRing 25) rXcause 5

/-- NEIGHBOUR_SILENCE: nothing came from the neighbour of a group for 100 µs (R419). -/
def execNeighbourSilence (role : Fin 7) (s : State) : Res :=
  if 1 ≤ role.val ∧ role.val ≤ 4 then
    match peerOf s role.val with
    | some m => .next (declareFailed s m)
    | none => .next s
  else .next s

/-- CUTOUT_REPEAT: every 10 µs for 1 ms. -/
def execCutoutRepeat (s : State) : Res :=
  let cuts := s.xpt.cuts.filter fun c => decide (s.time.toNat < c.2.toNat + tick1ms)
  let s := { s with xpt := { s.xpt with cuts := cuts } }
  .next (cuts.foldl (fun s c => sendCut s c.1) s)

/-! ## Closures (R340, R344, R415) -/

/-- CL_ARRIVE at the master: the lowest live landing of the message's landing mask takes it (R344). -/
def onArrive (s : State) (src l g : Nat) (gen : BitVec 16) (lmask ctl per : Word) : State :=
  match (liveLands s).find? fun k => bit lmask.toNat k with
  | some k => takeArrival s k g l src gen lmask ctl per
  | none => s

/-- CL_RELEASE at a member module: the generation releases at every landing that still holds it, and is acknowledged. -/
def onRelease (s : State) (src g : Nat) (gen : BitVec 16) : State :=
  let ls := (liveLands s).filter fun l =>
    cgEn s l g && cgSys s l g && cgMasterMod s l g == src && (getGroup s l g).gen == gen
  let s := ls.foldl (fun s l => releaseLanding s g (cgPeriodic s l g) l) s
  sendMsg s 6 src [(g : Int), (gen.toNat : Int)]

/-- An acknowledgement takes its notice off a list. -/
def acked (xs : List Unacked) (src g : Nat) (gen : BitVec 16) : List Unacked :=
  xs.filter fun u => !(u.g == g && u.gen == gen.toNat && u.mod == src)

/-- Every notice of a list is sent again. -/
def resend (s : State) (ty : Nat) (xs : List Unacked) : State :=
  xs.foldl (fun s u => sendMsg s ty u.mod [(u.g : Int), (u.gen : Int)]) s

/-- CL_RELEASE_RESEND. -/
def execClReleaseResend (s : State) : Res := .next (resend s 5 s.xpt.clRel)

/-- WDOG_RESEND. -/
def execWdogResend (s : State) : Res := .next (resend s 0xa s.xpt.wdogs)

/-! ## Holds, heartbeats, faults (R100, R415) -/

/-- HOLD: the latest notice of a module. -/
def onHold (s : State) (src : Nat) (held boarding : Bool) : State :=
  { s with crs := { s.crs with notices := (s.crs.notices.filter fun n => n.mod != src) ++ [⟨src, held, boarding⟩] } }

/-- HEARTBEAT_TIMER. -/
def execHeartbeatTimer (s : State) : Res := .next (sendAll s 2 [])

/-- HOLD_NOTICE_TIMER. -/
def execHoldNoticeTimer (s : State) : Res := .next (if s.crs.ext then sendHold s else s)

/-- FAULT_REPEAT: a module with a fatal error says so on every group until its reset. -/
def execFaultRepeat (s : State) : Res := .next (if fatal s then sendAll s 9 [] else s)

/-! ## The turn of an extended crossing (R416) -/

/-- VTURN: a module of the crossing takes the turn point and acknowledges it; a later one replaces an earlier one. -/
def onVturn (s : State) (src : Nat) (version : BitVec 16) (t0 : Dword) : State :=
  if s.crs.ext ∧ turnArmed s ∧ version = s.crs.incoming then
    let s := { s with crs := { s.crs with turnT0 := if s.crs.turnT0.toNat < t0.toNat then t0 else s.crs.turnT0 } }
    sendMsg s 8 src [(t0.toNat : Int)]
  else s

/-- VTURN_ACK for the turn point in effect. -/
def onVturnAck (s : State) (src : Nat) (t0 : Dword) : State :=
  if t0 = s.crs.turnT0 then { s with xpt := { s.xpt with vturnGot := sadd src s.xpt.vturnGot } } else s

/-- VTURN_ACK_TIMEOUT: some module has not acknowledged, and the master sends a new T0 at least 1 ms ahead. -/
def execVturnAckTimeout (t0 : Dword) (s : State) : Res :=
  let missing := (members s).any fun m => m ≠ s.modnum.toNat ∧ !s.xpt.vturnGot.contains m
  if s.crs.ext ∧ crossingMaster s ∧ turnArmed s ∧ missing ∧ s.time.toNat + tick1ms ≤ t0.toNat ∧
      s.crs.turnT0.toNat < t0.toNat then
    .next (sendVturn s t0)
  else .next s

/-! ## MCTP over TC3 (R411, R442) -/

/-- Type of the message that an MCTP packet begins, in the layout of the MCTP base specification: SOM in bit 7 of byte 3, the
type in [6:0] of byte 4 (log 12). -/
def mctpType (bs : List Byte) : Option Nat :=
  if bit (bs.getD 3 0).toNat 7 ∧ 5 ≤ bs.length then some ((bs.getD 4 0).toNat % 128) else none

/-- Type of a PLDM message, bits 5 to 0 of the second byte of its header: 0 is base (log 12). -/
def pldmType (bs : List Byte) : Nat := (bs.getD 6 0).toNat % 64

/-- What answers an MCTP packet here: an unsupported-type error where the message is not MCTP control, PLDM or SPDM, and the
base type's own answer for a PLDM request of Type 0 (R442). The other requests are the management commands of their own. -/
def mctpReply (bs : List Byte) : Option (List Byte) :=
  match mctpType bs with
  | some 1 => if pldmType bs = 0 then some (Config.pldmBase bs) else none
  | some ty => if ty = 0 ∨ ty = 5 then none else some (Config.mctpUnsupported bs)
  | none => none

/-- A packet of the remote manager, answered over TC3 (R411, R442). -/
def onMctp (s : State) (src : Nat) (bs : List Byte) : State :=
  match if hmRuns s then mctpReply bs else none with
  | some r =>
    match routeFrame s src 3 (.msg 0x100 s.modnum.toNat src [] r) with
    | some s' => s'
    | none => setFlag s rXcause 7
  | none => s

/-- A packet of a binding of the management bus, answered there (R442). -/
def onBus (s : State) (t : Transport) (bs : List Byte) : State :=
  match if pldmOn s t then mctpReply bs else none with
  | some r => emit s (.answer t 0 r)
  | none => s

/-! ## A message that has arrived -/

/-- Field i of a message. -/
def argNat (args : List Int) (i : Nat) : Nat := (args.getD i 0).toNat

/-- What a message does at its destination. -/
def onMessage (s : State) (port ty src : Nat) (args : List Int) (bs : List Byte) : State :=
  let n := argNat args
  match msgTypeOf ty with
  | none => countDrop s port
  | some .time => onTime s port src (args.getD 0 0) (args.getD 1 0) (args.getD 2 0) (args.getD 3 0)
  | some .heartbeat => s
  | some .hold => onHold s src (n 0 == 1) (n 1 == 1)
  | some .clArrive =>
    onArrive s src (n 0) (n 1) (BitVec.ofNat 16 (n 2)) (word (n 3)) (word (n 4)) (word (n 5))
  | some .clRelease => onRelease s src (n 0) (BitVec.ofNat 16 (n 1))
  | some .clAck => { s with xpt := { s.xpt with clRel := acked s.xpt.clRel src (n 0) (BitVec.ofNat 16 (n 1)) } }
  | some .vturn => onVturn s src (BitVec.ofNat 16 (n 0)) (BitVec.ofNat 64 (n 1))
  | some .vturnAck => onVturnAck s src (BitVec.ofNat 64 (n 0))
  | some .fault => if isNeighbour s src then declareFailed s src else s
  | some .wdog => sendMsg s 0xc src [(n 0 : Int), (n 1 : Int)]
  | some .cutout => if n 0 = s.modnum.toNat then fence s else learnCut s (n 0)
  | some .wdogAck => { s with xpt := { s.xpt with wdogs := acked s.xpt.wdogs src (n 0) (BitVec.ofNat 16 (n 1)) } }
  | some .mctp => onMctp s src bs

end Sys2Proof.Machine
end

