-- ==== Sys2Proof/Machine/Ports.lean ====
section
/-! DEFINITION. Slipway ports: link integrity, credits, delivery in group order, the choice of the next frame, forwarding,
losses, links that come and go (R98, R402 to R415, R421, R432, R591). -/

namespace Sys2Proof.Machine

/-! ## Frames -/

/-- Bytes of a frame, header and payload (R405). -/
def frameBytes : Frame → Nat
  | .ferry f _ => 64 + 512 * f.hdr.rows
  | .acc _ _ rows => 64 + 512 * rows.length
  | .msg _ _ _ _ payload => 64 + payload.length
  | _ => 64

/-- Credits of a frame (R409). -/
def frameCredits (f : Frame) : Nat := ceilDiv (frameBytes f) 512

/-- Link and group sequence numbers count modulo 2^16. -/
def seqMod : Nat := 65536

/-- a comes after b in a sequence: at most half of it ahead. -/
def seqAhead (a b : Nat) : Bool := a % seqMod != b % seqMod && (a + seqMod - b % seqMod) % seqMod < 32768

/-- A frame given up, or reported by LOSS: LOST is counted, and XPT.CAUSE.LOST is set (R408). -/
def countLost (s : State) (p : Nat) : State := setFlag (countUp s (rPort p + 8) 7 0 1 none) rXcause 2

/-! ## The words of a frame (R404 to R406, R415) -/

/-- FTYPE. -/
def Frame.ftype : Frame → Nat
  | .idle => 0
  | .ferry _ _ => 1
  | .acc ft _ _ => ft
  | .msg _ _ _ _ _ => 7
  | .nack _ => 8
  | .loss _ => 9

/-- T0 to T5 of a transaction part (R406). -/
def transWords (t : Trans) : List Nat :=
  [t.addr.toNat,
   t.score.toNat + t.sunit.toNat * 2 ^ 8 + t.smod.toNat * 2 ^ 13 + b2n t.shost * 2 ^ 24 + b2n t.squay * 2 ^ 25 +
     t.tag.toNat * 2 ^ 32 + t.nrows % 256 * 2 ^ 48 + t.ssize.toNat * 2 ^ 56,
   t.widx.toNat + t.wgen.toNat * 2 ^ 10 + b2n t.wen * 2 ^ 18 + t.rcore.toNat * 2 ^ 19 + t.rctr.toNat * 2 ^ 27 +
     t.rinc.toNat * 2 ^ 33,
   t.poison.toNat, t.status.toNat + t.hops % 256 * 2 ^ 8, t.data.toNat]

/-- The type part, six words: ferry header words, a transaction part, a message part, a failed LSEQ, the type part of a lost
frame (R405, R415). -/
def Frame.typeWords : Frame → List Nat
  | .idle => [0, 0, 0, 0, 0, 0]
  | .ferry f hold => hdrWords f ++ [hold.toNat]
  | .acc _ t _ => transWords t
  | .msg ty src dst args _ =>
    (ty % 2 ^ 16 + src % 2 ^ 11 * 2 ^ 16 + dst % 2 ^ 11 * 2 ^ 27 + (Config.msgField ty args 0).toNat % 2 ^ 26 * 2 ^ 38) ::
      (upto 5).map fun i => (Config.msgField ty args (i + 1)).toNat
  | .nack l => [l % 2 ^ 16, 0, 0, 0, 0, 0]
  | .loss f => f.typeWords

/-- The payload as sent, in whole units of 64 B (R404). -/
def Frame.payload : Frame → List Byte
  | .ferry f _ => (f.payload.take f.hdr.rows).flatMap (fitTo 0 512)
  | .acc _ _ rows => rows.flatMap (fitTo 0 512)
  | .msg _ _ _ _ bs => fitTo 0 (64 * ceilDiv bs.length 64) bs
  | _ => []

/-- L0 and L1 with a CRC (R404). -/
def linkWords (k : LinkPart) (f : Frame) (crc : Nat) : List Nat :=
  [f.ftype + k.tc.toNat * 2 ^ 4 + k.lseq.toNat * 2 ^ 6 + k.lack.toNat * 2 ^ 22 + b2n k.ackv * 2 ^ 38 +
     f.payload.length / 64 % 1024 * 2 ^ 39,
   crc + k.crtc.toNat * 2 ^ 32 + k.crcnt.toNat * 2 ^ 34 + k.gseq.toNat * 2 ^ 48]

/-- The header of 64 B: CRC is CRC-32C over the header, with CRC taken as zero, and the payload (R404). -/
def frameHead (k : LinkPart) (f : Frame) : List Byte :=
  let bytes (crc : Nat) : List Byte := (linkWords k f crc ++ f.typeWords).flatMap fun w => leBytes 8 w
  bytes (crc32c (bytes 0 ++ f.payload))

/-! ## What a frame does when it is handed on -/

/-- A request of another module is refused with ADDRESS. -/
def refuseFrame (s : State) (t : Trans) : State := sendResp s t (respTrans s t .address) []

/-- What a request frame asks (R405, R406); none for a size or a number of rows that the fields do not give. -/
def frameKind (ft : Nat) (t : Trans) (rows : List (List Byte)) : Option AKind :=
  let n := if t.ssize = 2 then 4 else 8
  if ft = 5 then some .signal
  else if t.nrows = 0 then
    if t.ssize.toNat < 2 then none
    else if ft = 2 then some (.write (leBytes n t.data.toNat))
    else if ft = 3 then some (.read n)
    else if ft = 6 then some (.amo n t.data)
    else none
  else if 64 < t.nrows then none
  else if ft = 2 then some (.writeRow ((upto t.nrows).flatMap fun i => fitTo 0 512 (rows.getD i [])) false)
  else if ft = 3 then some .readRow
  else none

/-- A request at its target module: it becomes an access, which REMOTE_ACCESS carries out. -/
def frameRequest (s : State) (p ft : Nat) (t : Trans) (rows : List (List Byte)) : State :=
  match frameKind ft t rows with
  | none => refuseFrame s t
  | some k =>
    newAccess s (.port p t) k t.addr (if t.wen then some (t.widx, t.wgen) else none)
      (if t.rctr = 0x3f then none else some (t.rcore, t.rctr, t.rinc)) 0 0

/-- The access of this module that a RESP answers. -/
def awaiting (s : State) (tag : BitVec 16) : Option Access :=
  s.accs.find? fun a => a.away && a.res.isNone && a.id % seqMod == tag.toNat

/-- A RESP at its requester. Scalar data with poison is a POISON result. -/
def takeResp (s : State) (t : Trans) (rows : List (List Byte)) : State :=
  match awaiting s t.tag with
  | none => s
  | some a =>
    let psn := t.poison != 0
    let st := codeStatus t.status
    if isScalar a.kind then
      answer s a.id ⟨if st = .ok ∧ psn then .poison else st, leBytes (accLen a) t.data.toNat, psn⟩
    else answer s a.id ⟨st, fitTo 0 512 (rows.getD 0 []), psn⟩

/-- A frame for another module goes on its way, with one more boundary crossed, up to 16 (R406, R412). -/
def passOn (s : State) (tc ft : Nat) (t : Trans) (rows : List (List Byte)) : State :=
  let refuse (s : State) : State := if ft = 4 then s else refuseFrame s t
  if 16 < t.hops + 1 then refuse s
  else
    match routeFrame s (gaMod t.addr) tc (.acc ft { t with hops := t.hops + 1 } rows) with
    | some s => s
    | none => refuse (setFlag s rXcause 7)

/-- An access frame at this module. -/
def onAccess (s : State) (p tc ft : Nat) (t : Trans) (rows : List (List Byte)) : State :=
  if gaMod t.addr ≠ s.modnum.toNat then passOn s tc ft t rows
  else if ft = 4 then takeResp s t rows
  else frameRequest s p ft t rows

/-- A lost frame (R317, R408): a WRITE goes on to its target as zero rows with poison and with STATUS LOST, where they are
committed and acknowledged as poisoned; a RESP completes its access as lost, the others are answered as lost; a ferry and a
message are gone. -/
def onLost (s : State) (p tc ft : Nat) (t : Trans) : State :=
  let t := { t with status := statusCode .lost }
  if ft = 2 then
    if t.nrows = 0 then sendResp s t (respTrans s t .poison) []
    else onAccess s p tc 2 { t with poison := BitVec.ofNat 64 (2 ^ t.nrows - 1) } (List.replicate (min 64 t.nrows) [])
  else if ft = 4 then onAccess s p tc 4 t []
  else if ft = 3 ∨ ft = 5 ∨ ft = 6 then sendResp s t (respTrans s t .lost) []
  else s

/-- A message at this module, or on its way to another; one of a reserved type is dropped and counted (R412, R414, R415). A
group with a switch at its far end brings messages that name 0x7FF to the module itself. -/
def onMsg (s : State) (p tc ty src dst : Nat) (args : List Int) (payload : List Byte) : State :=
  if (msgTypeOf ty).isNone then countDrop s p
  else if dst = s.modnum.toNat ∨ dst = 0x7ff then onMessage s p ty src args payload
  else
    match routeMsg s dst tc (.msg ty src dst args payload) with
    | some s => s
    | none => setFlag s rXcause 7

/-- A frame handed on. A WRITE with STATUS LOST stands for one lost on its way; no other request has a STATUS. A fenced module
takes TC3 alone (R408, R421). -/
def handOn (s : State) (it : RxItem) : State :=
  if fenced s ∧ it.tc ≠ 3 then s
  else match it.frame with
  | .ferry f hold => if s.crs.ext then enterFerry s f hold else s
  | .acc ft t rows =>
    if ft = 2 ∧ t.status = statusCode .lost then onLost s it.port it.tc ft t
    else onAccess s it.port it.tc ft (if ft = 4 then t else { t with status := 0 }) rows
  | .msg ty src dst args payload => onMsg s it.port it.tc ty src dst args payload
  | .loss (.acc ft t _) => onLost s it.port it.tc ft t
  | .loss _ => s
  | .idle | .nack _ => s

/-- The credits of a frame handed on are owed to the sender (R409). -/
def oweCredits (s : State) (it : RxItem) : State :=
  match it.frame with
  | .loss _ => s
  | f =>
    let x := getPort s it.port
    setPort s it.port { x with owed := tput 0 it.tc (tget 0 x.owed it.tc + frameCredits f) x.owed }

/-! ## Delivery in group order (R403) -/

def rxKey (it : RxItem) : Nat := 4 * it.role + it.tc

/-- The frame next in its group's order is handed on. -/
def deliverOne (s : State) (it : RxItem) : State :=
  let k := rxKey it
  oweCredits (handOn { s with xpt := { s.xpt with grx := tput 0 k ((it.gseq + 1) % seqMod) s.xpt.grx } } it) it

/-- Frames that waited for the ones before them follow. -/
def drainRx : Nat → State → Nat → State
  | 0, s, _ => s
  | n + 1, s, k =>
    match s.xpt.rxq.find? fun it => rxKey it == k && it.gseq == tget 0 s.xpt.grx k with
    | some it => drainRx n (deliverOne { s with xpt := { s.xpt with rxq := s.xpt.rxq.filter fun x => x != it } } it) k
    | none => s

/-- A frame accepted by its port is handed on in GSEQ order. -/
def inSequence (s : State) (it : RxItem) : State :=
  let k := rxKey it
  let want := tget 0 s.xpt.grx k
  if it.gseq = want then
    let s := deliverOne s it
    drainRx s.xpt.rxq.length s k
  else if seqAhead it.gseq want then { s with xpt := { s.xpt with rxq := s.xpt.rxq ++ [it] } }
  else oweCredits s it

/-! ## The link part (R404, R407, R409) -/

/-- LACK and returned credits. -/
def takeLink (x : Port) (k : LinkPart) : Port :=
  let sent :=
    match if k.ackv then x.sent.findIdx? (fun e => e.lseq == k.lack.toNat) else none with
    | some i => x.sent.drop (i + 1)
    | none => x.sent
  let c := k.crtc.toNat
  { x with
    sent := sent
    tried := x.tried.filter fun t => sent.any fun e => e.lseq == t.1
    replay := x.replay.filter fun e => sent.contains e
    credit := tput 0 c (tget 0 x.credit c + k.crcnt.toNat) x.credit }

/-- Codewords of RS(544,514), 514 symbols of 10 bits, that a frame touches at most. -/
def codewords (f : Frame) : Nat := ceilDiv (8 * frameBytes f) 5140 + 1

/-- Codewords of a frame that were corrected are counted in XPT.Pn.FECC: how many is what the lanes did, a free value
(log 1). -/
def countFec (s : State) (p : Nat) (f : Frame) : State :=
  let n := (Config.freeDword s.free).toNat % (codewords f + 1)
  countUp { s with free := s.free + 1 } (rPort p + 0xc) 31 0 n none

/-- A frame whose CRC fails is discarded and counted, later ones are discarded until a replay begins, and a NACK names it
(R407). How many of its codewords were uncorrectable, none where the damage was no codeword's, is a free value (log 1). -/
def badFrame (s : State) (p : Nat) (k : LinkPart) (f : Frame) : State :=
  let x := getPort s p
  let s := countUp s (rPort p + 4) 15 0 1 none
  let n := (Config.freeDword s.free).toNat % (codewords f + 1)
  let s := countUp { s with free := s.free + 1 } (rPort p + 8) 15 8 n none
  if x.skip ∧ k.lseq.toNat ≠ x.exp then s
  else setPort s p { x with skip := true, ctl := x.ctl ++ [⟨x.next, 0, 0, .nack k.lseq.toNat⟩] }

/-- While frames are discarded, one ahead of the sequence may be the first of a replay: the sender has given up the frames
before it and their LOSS frames were lost too (R407, R408). Its header does not show it: a free value (log 88). -/
def replayBegins (s : State) (k : LinkPart) (x : Port) : Bool :=
  x.skip && seqAhead k.lseq.toNat x.exp && Config.freeBool s.free

/-- A frame of the link's sequence arrives at a port. One ahead of the sequence stands for a lost frame before it; one
behind it has been received already. -/
def receive (s : State) (p : Nat) (k : LinkPart) (f : Frame) : State :=
  if !slipUp s p then s
  else
    let s := countFec s p f
    let x := getPort s p
    if !k.crcOk then badFrame s p k f
    else if k.lseq.toNat = x.exp ∨ replayBegins s k x then
      let s := setPort { s with free := s.free + 1 } p
        { takeLink x k with exp := (k.lseq.toNat + 1) % seqMod, got := true, skip := false }
      inSequence s ⟨portRole s p, k.tc.toNat, k.gseq.toNat, p, f⟩
    else if x.skip then { s with free := s.free + 1 }
    else if seqAhead k.lseq.toNat x.exp then
      setPort s p { x with skip := true, ctl := x.ctl ++ [⟨x.next, 0, 0, .nack x.exp⟩] }
    else setPort s p (takeLink x k)

/-- A frame outside the sequence, IDLE or NACK, arrives. -/
def receiveCtl (s : State) (p : Nat) (k : LinkPart) (f : Frame) (act : State → State) : State :=
  if !slipUp s p then s
  else
    let s := countFec s p f
    let x := getPort s p
    if !k.crcOk then badFrame s p k f
    else if x.skip then s
    else act (setPort s p (takeLink x k))

/-! ## Frames that arrive (R405) -/

/-- FERRY. -/
def execFerry (port : Fin 16) (k : LinkPart) (f : FerryBody) (s : State) : Res :=
  .next (receive s port.val k (.ferry f.ferry f.hold))
/-- WRITE. -/
def execWrite (port : Fin 16) (k : LinkPart) (t : Trans) (rows : List (List Byte)) (s : State) : Res :=
  .next (receive s port.val k (.acc 2 t rows))
/-- READ. -/
def execRead (port : Fin 16) (k : LinkPart) (t : Trans) (s : State) : Res := .next (receive s port.val k (.acc 3 t []))
/-- RESP. -/
def execResp (port : Fin 16) (k : LinkPart) (t : Trans) (rows : List (List Byte)) (s : State) : Res :=
  .next (receive s port.val k (.acc 4 t rows))
/-- SIGNAL. -/
def execSignal (port : Fin 16) (k : LinkPart) (t : Trans) (s : State) : Res :=
  .next (receive s port.val k (.acc 5 t []))
/-- AMO. -/
def execAmo (port : Fin 16) (k : LinkPart) (t : Trans) (s : State) : Res := .next (receive s port.val k (.acc 6 t []))
/-- IDLE: LACK and credits alone. -/
def execIdle (port : Fin 16) (k : LinkPart) (s : State) : Res := .next (receiveCtl s port.val k .idle fun s => s)

/-- RESERVED_FRAME: dropped and counted as CRCERR; it keeps its place in the sequences. -/
def execReservedFrame (port : Fin 16) (k : LinkPart) (_ftype : BitVec 4) (s : State) : Res :=
  .next (if slipUp s port.val ∧ k.crcOk then
    receive (countUp s (rPort port.val + 4) 15 0 1 none) port.val k .idle
  else receive s port.val k .idle)

/-! ## Replays and losses (R407, R408) -/

/-- The LOSS frame of a frame: its type part, with STATUS LOST where that is a transaction part. -/
def lossOf (f : Frame) : Frame :=
  match f with
  | .acc ft t _ => .loss (.acc ft { t with status := statusCode .lost } [])
  | f => .loss f

/-- The requester of a frame that its own module gives up completes the access as lost. -/
def loseOwn (s : State) (f : Frame) : State :=
  match f with
  | .acc ft t _ =>
    if (ft = 3 ∨ ft = 5 ∨ ft = 6) ∧ t.smod = s.modnum ∧ !t.shost ∧ !t.squay then
      match awaiting s t.tag with
      | some a => answer s a.id ⟨.lost, [], true⟩
      | none => s
    else s
  | _ => s

/-- A frame replayed 4 times is given up: a LOSS frame goes out, and the link resumes with the next. -/
def giveUp (s : State) (p : Nat) (e : Sent) (rest : List Sent) : State :=
  let x := getPort s p
  let s := setPort s p
    { x with
      sent := x.sent.filter fun y => y != e
      replay := rest
      tried := none
      ctl := x.ctl ++ [{ e with frame := lossOf e.frame }]
      credit := tput 0 e.tc (tget 0 x.credit e.tc + frameCredits e.frame) x.credit }
  loseOwn (countLost s p) e.frame

/-- Frames from a failed one on are replayed, at most 4 times. Where the failed one is the LOSS frame of a frame given up,
the link resumes with the next LSEQ (R408). -/
def replayFrom (s : State) (p failed : Nat) : State :=
  let x := getPort s p
  match x.sent.dropWhile fun e => e.lseq != failed with
  | [] =>
    let rest := x.sent.filter fun e => seqAhead e.lseq failed
    if rest.isEmpty then s else countUp (setPort s p { x with replay := rest }) (rPort p + 4) 31 16 1 none
  | e :: rest =>
    let n := match x.tried with
      | some (l, n) => if l = failed then n else 0
      | none => 0
    if 4 ≤ n then giveUp s p e rest
    else
      countUp (setPort s p { x with replay := e :: rest, tried := some (failed, n + 1) }) (rPort p + 4) 31 16 1 none

/-- NACK. -/
def execNack (port : Fin 16) (k : LinkPart) (failed : BitVec 16) (s : State) : Res :=
  .next (receiveCtl s port.val k (.nack failed.toNat) fun s => replayFrom s port.val failed.toNat)

/-- LOSS: the sender gave a frame up; its place in the sequences is passed. -/
def execLoss (port : Fin 16) (k : LinkPart) (ftype : BitVec 4) (t : Trans) (s : State) : Res :=
  let p := port.val
  let f := Frame.loss (.acc ftype.toNat t [])
  let s := if slipUp s p then countFec s p f else s
  let x := getPort s p
  if !slipUp s p then .next s
  else if !k.crcOk then .next (badFrame s p k f)
  else if k.lseq.toNat ≠ x.exp ∧ !seqAhead k.lseq.toNat x.exp then .next s
  else
    let s := setPort s p { takeLink x k with exp := (k.lseq.toNat + 1) % seqMod, got := true, skip := false }
    .next (inSequence (countLost s p) ⟨portRole s p, k.tc.toNat, k.gseq.toNat, p, f⟩)

/-! ## Sending (R403, R407, R409, R410) -/

/-- The frame at the head of a class's queue of the port's group; a fenced module sends TC3 alone. -/
def headFrame (s : State) (p tc : Nat) : Option Frame :=
  if fenced s ∧ tc ≠ 3 then none else (tget [] s.xpt.txq (4 * portRole s p + tc)).head?

/-- Bytes in the replay buffer of 1 MB. -/
def replayBytes (x : Port) : Nat := x.sent.foldl (fun n e => n + frameBytes e.frame) 0

/-- Bytes that a port moves in one TIMECLK period: 200 GB/s at 200 MHz (R398). -/
def portRate : Nat := 1000

/-- TIMECLK periods in which a frame takes 1 % of some ports' bandwidth (R410, R414). -/
def onePercent (bytes ports : Nat) : Nat := ceilDiv (100 * bytes) (portRate * max 1 ports)

/-- A message of this module that goes by the tree to a module that is no neighbour (R414). -/
def byTree (s : State) (p : Nat) : Frame → Bool
  | .msg _ src dst _ _ => src == s.modnum.toNat && 5 ≤ portRole s p && dst != 0x7ff && !isNeighbour s dst
  | _ => false

/-- Limits of 1 %: TC3 on a port, and a module's messages by the tree (R410, R414; log 88). -/
def rateOk (s : State) (p tc : Nat) (f : Frame) : Bool :=
  if tc = 3 then decide ((getPort s p).tc3At ≤ s.edges)
  else tc != 2 || !byTree s p f || decide (s.xpt.treeAt ≤ s.edges)

/-- The class has a frame within its rate, and the port its credits and room in the replay buffer. -/
def canSend (s : State) (p tc : Nat) : Bool :=
  let x := getPort s p
  match headFrame s p tc with
  | some f => rateOk s p tc f && decide (frameCredits f ≤ tget 0 x.credit tc) &&
      decide (replayBytes x + frameBytes f ≤ 2 ^ 20)
  | none => false

/-- A frame leaves: its link part carries LACK and the credits owed to the lowest class that has some. -/
def emitFrame (s : State) (p : Nat) (e : Sent) : State :=
  let x := getPort s p
  let c := ((upto 4).find? fun c => tget 0 x.owed c != 0).getD 0
  let n := min 4095 (tget 0 x.owed c)
  let k : LinkPart :=
    { tc := BitVec.ofNat 2 e.tc, lseq := BitVec.ofNat 16 e.lseq, lack := BitVec.ofNat 16 (x.exp + seqMod - 1)
      ackv := x.got, crtc := BitVec.ofNat 2 c, crcnt := BitVec.ofNat 12 n, gseq := BitVec.ofNat 16 e.gseq
      crcOk := true }
  emit (setPort s p { x with owed := tput 0 c (tget 0 x.owed c - n) x.owed }) (.frame p k e.frame (frameHead k e.frame))

/-- The next new frame of a class leaves and enters the replay buffer. -/
def sendNew (s : State) (p tc : Nat) : State :=
  let k := 4 * portRole s p + tc
  match tget [] s.xpt.txq k with
  | [] => s
  | f :: rest =>
    let x := getPort s p
    let g := tget 0 s.xpt.gtx k
    let e : Sent := ⟨x.next, tc, g, f⟩
    let tree := tc == 2 && byTree s p f
    let until' := s.edges + onePercent (frameBytes f) (rolePorts s (portRole s p)).length
    let s := { s with xpt := { s.xpt with
      txq := tput [] k rest s.xpt.txq, gtx := tput 0 k ((g + 1) % seqMod) s.xpt.gtx
      treeAt := if tree then until' else s.xpt.treeAt } }
    let s := setPort s p
      { x with
        next := (x.next + 1) % seqMod
        sent := x.sent ++ [e]
        credit := tput 0 tc (tget 0 x.credit tc - frameCredits f) x.credit
        left := if tc ≤ 1 then tput 0 tc (tget 0 x.left tc - (frameCredits f : Int)) x.left else x.left
        tc3At := if tc = 3 then s.edges + onePercent (frameBytes f) 1 else x.tc3At }
    emitFrame s p e

/-- Weight of TC0 or TC1; 0 is taken as 1 (R429). -/
def tcWeight (s : State) (tc : Nat) : Nat := max 1 (rdFld s 0x50008 (8 * tc + 7) (8 * tc))

/-- The class that sends next of TC0 and TC1 with both ready, and the credits left to each: the class served goes on while it
has credits left; else the other has its turn and gains its weight. A frame takes at most 65 credits, so the turns end. -/
def turns (w : Nat → Nat) : Nat → Nat → Tab Int → Nat × Tab Int
  | 0, c, left => (c, left)
  | n + 1, c, left =>
    if 0 < tget 0 left c then (c, left)
    else turns w n (1 - c) (tput 0 (1 - c) (tget 0 left (1 - c) + (w (1 - c) : Int)) left)

/-- TC1 and TC0 by weighted round robin in credits; a class that is ready alone is served (R410). -/
def roundRobin (s : State) (p : Nat) : Option (Nat × State) :=
  let x := getPort s p
  let take (c : Nat) (left : Tab Int) : Nat × State := (c, setPort s p { x with onTc1 := c == 1, left := left })
  match canSend s p 0, canSend s p 1 with
  | true, true => let t := turns (tcWeight s) 140 (b2n x.onTc1) x.left; some (take t.1 t.2)
  | true, false => some (take 0 (tput 0 0 (tcWeight s 0 : Int) []))
  | false, true => some (take 1 (tput 0 1 (tcWeight s 1 : Int) []))
  | false, false => none

/-- A fenced module's frames of the link itself and of TC3 go on; those of the other classes have stopped (R421). -/
def mayGo (s : State) (e : Sent) : Bool :=
  !fenced s || match e.frame with
    | .nack _ | .idle => true
    | _ => e.tc == 3

/-- Whether an IDLE frame is due before frames of a class: no rule says when one is made, a free value (R410; log 88). -/
def idleDue (s : State) : Bool := Config.freeBool s.free

/-- FRAME_SEND: NACK and LOSS, replays and IDLE, then TC2, TC3, and TC1 with TC0; an IDLE frame where nothing else goes
(R410). -/
def execFrameSend (port : Fin 16) (s : State) : Res :=
  let p := port.val
  let x := getPort s p
  let idle (s : State) : State := emitFrame s p ⟨x.next, 0, 0, .idle⟩
  if !slipUp s p then .next s
  else
    match x.ctl.filter (mayGo s), x.replay.filter (mayGo s) with
    | e :: rest, _ => .next (emitFrame (setPort s p { x with ctl := rest }) p e)
    | [], e :: rest => .next (emitFrame (setPort s p { x with replay := rest }) p e)
    | [], [] =>
      let due := idleDue s
      let s := { s with free := s.free + 1 }
      if due then .next (idle s)
      else if canSend s p 2 then .next (sendNew s p 2)
      else if canSend s p 3 then .next (sendNew s p 3)
      else
        match roundRobin s p with
        | some (c, s) => .next (sendNew s p c)
        | none => .next (idle s)

/-! ## Messages that arrive (R415) -/

/-- A message frame of a type arrives. -/
def recvMsg (s : State) (h : MsgHead) (ty : Nat) (args : List Int) (payload : List Byte) : State :=
  receive s h.port.val h.link (.msg ty h.src.toNat h.dst.toNat args payload)

def execTime (h : MsgHead) (t1 t2 t3 t4 : Int) (s : State) : Res :=
  .next (recvMsg s h MsgType.time.num [t1, t2, t3, t4] [])
def execHeartbeat (h : MsgHead) (s : State) : Res := .next (recvMsg s h MsgType.heartbeat.num [] [])
def execHold (h : MsgHead) (held boarding : Bool) (s : State) : Res :=
  .next (recvMsg s h MsgType.hold.num [(b2n held : Int), (b2n boarding : Int)] [])
def execClArrive (h : MsgHead) (l : Fin 32) (g : Fin 16) (gen : BitVec 16) (lmask cgctl cgper : Word) (s : State) :
    Res :=
  .next (recvMsg s h MsgType.clArrive.num
    [(l.val : Int), (g.val : Int), (gen.toNat : Int), (lmask.toNat : Int), (cgctl.toNat : Int), (cgper.toNat : Int)] [])
def execClRelease (h : MsgHead) (g : Fin 16) (gen : BitVec 16) (s : State) : Res :=
  .next (recvMsg s h MsgType.clRelease.num [(g.val : Int), (gen.toNat : Int)] [])
def execClAck (h : MsgHead) (g : Fin 16) (gen : BitVec 16) (s : State) : Res :=
  .next (recvMsg s h MsgType.clAck.num [(g.val : Int), (gen.toNat : Int)] [])
def execVturn (h : MsgHead) (version : BitVec 16) (t0 : Dword) (s : State) : Res :=
  .next (recvMsg s h MsgType.vturn.num [(version.toNat : Int), (t0.toNat : Int)] [])
def execVturnAck (h : MsgHead) (t0 : Dword) (s : State) : Res :=
  .next (recvMsg s h MsgType.vturnAck.num [(t0.toNat : Int)] [])
def execFault (h : MsgHead) (s : State) : Res := .next (recvMsg s h MsgType.fault.num [] [])
def execWdog (h : MsgHead) (g : Fin 16) (gen : BitVec 16) (s : State) : Res :=
  .next (recvMsg s h MsgType.wdog.num [(g.val : Int), (gen.toNat : Int)] [])
def execWdogAck (h : MsgHead) (g : Fin 16) (gen : BitVec 16) (s : State) : Res :=
  .next (recvMsg s h MsgType.wdogAck.num [(g.val : Int), (gen.toNat : Int)] [])
def execCutout (h : MsgHead) (m : BitVec 11) (s : State) : Res :=
  .next (recvMsg s h MsgType.cutout.num [(m.toNat : Int)] [])
/-- MCTP_PACKET: over TC3 or on a binding of the management bus, handed on to the harbourmaster; the orders in it are commands
of their own. -/
def execMctpPacket (h : MctpFrom) (bytes : List Byte) (s : State) : Res :=
  match h with
  | .tc3 h => .next (recvMsg s h MsgType.mctp.num [] bytes)
  | .bus t => .next (onBus s t bytes)
/-- RESERVED_MSGTYPE: dropped and counted. -/
def execReservedMsgtype (h : MsgHead) (ty : BitVec 16) (s : State) : Res := .next (recvMsg s h ty.toNat [] [])

/-! ## Links (R402, R430, R432, R591) -/

/-- The PHY bank of a port is ON. -/
def bankOn (s : State) (p : Nat) : Bool := domState s (70 + p / 8) == 2

/-- A port shows DOWN. The frames that no LACK has covered stay in its replay buffer, to be replayed when it is UP again
(R407; log 88). -/
def portFalls (s : State) (p : Nat) : State :=
  let r := portRole s p
  let was := groupDown s r
  let x := getPort s p
  groupFalls (setPort (wrFld s (rPort p) 2 0 0) p { x with skip := false, ctl := [], replay := x.sent, tried := none }) r was

/-- PORT_LINK_DOWN: a port leaves UP; a Slipway port sets LINKDOWN (R430, R432). -/
def execPortLinkDown (port : Fin 16) (s : State) : Res :=
  let p := port.val
  if slipUp s p then .next (portFalls (setFlag s rXcause 0) p)
  else if portUp s p then .next (wrFld s (rPort p) 2 0 0)
  else .next s

/-- LINK_TRAINING_TIMEOUT: a port still in TRAINING after 5 ms shows DOWN. -/
def execLinkTrainingTimeout (port : Fin 16) (s : State) : Res :=
  let p := port.val
  if portState s p = 1 then .next (portFalls s p) else .next s

/-- PORT_LINK_UP: a port with a role, or in Ethernet mode, finishes training (R401, R432, R530). With the far end that it had,
the frames in its replay buffer are sent again (R407; log 88). A module in HOLDOVER looks for the path to its master again
(R418). -/
def execPortLinkUp (port : Fin 16) (peer : BitVec 11) (peerPort : BitVec 4) (s : State) : Res :=
  let p := port.val
  if !bankOn s p ∨ portUp s p ∨ (portRole s p = 0 ∧ !portEth s p) then .next s
  else if portEth s p then .next (wrFld s (rPort p) 2 0 2)
  else
    let x := getPort s p
    let same : Bool := x.met && portPeer s p == peer.toNat && rdFld s (rPort p) 22 19 == peerPort.toNat
    let s := wrFld (wrFld (wrFld s (rPort p) 2 0 2) (rPort p) 18 8 peer.toNat) (rPort p) 22 19 peerPort.toNat
    let s := setPort s p (if same then { x with replay := x.sent, tried := none } else { met := true })
    let s := { s with boot := { s.boot with firstUp := some (s.boot.firstUp.getD s.time) } }
    .next (if inTime s .holdover then findParent s else s)

end Sys2Proof.Machine
end

