-- ==== Sys2Proof/Machine/Ethernet.lean ====
section
/-! DEFINITION. Far ports in Ethernet mode: RoCEv2 packets, congestion, local protocols, MACsec (R397, R423 to R426). -/

namespace Sys2Proof.Machine

/-- The port runs Ethernet and is UP. -/
def ethUp (s : State) (p : Nat) : Bool := portEth s p && portUp s p

/-- Kinds of what the module sends (the model's own record): an acknowledgement, a request to send again, the data of an
RDMA Read, an answer of a local protocol. -/
inductive EthOut where
  | ack | again | data
  | answer (k : Fin 3)
deriving DecidableEq, Repr

def EthOut.num : EthOut → Nat
  | .ack => 0 | .again => 1 | .data => 2
  | .answer k => 3 + k.val

def sendEth (s : State) (p : Nat) (k : EthOut) (data : List Byte) : State := emit s (.eth p k.num data)

/-! ## MACsec (R425) -/

/-- A receive key is installed for the port. -/
def macKey (s : State) (p : Nat) : Bool := s.hm.keys.any fun k => k.port == p && k.rx

/-- A frame passes MACsec: with a key, a protected frame that checks; without one, an unprotected frame, on a port that
requires MACsec only ARP and neighbour discovery. -/
def macPasses (s : State) (p : Nat) (secured ok plain : Bool) : Bool :=
  if macKey s p then (if secured then ok else !Config.macsecNeeded p)
  else !secured && (plain || !Config.macsecNeeded p)

/-! ## RoCEv2 (R397, R424) -/

def findQp (s : State) (p qp : Nat) : Option Qp := s.xpt.qps.find? fun q => q.port == p && q.qp == qp

def setQp (s : State) (q : Qp) : State :=
  { s with xpt := { s.xpt with qps := s.xpt.qps.map fun x => if x.port = q.port ∧ x.qp = q.qp then q else x } }

/-- The outstanding command whose buffer a memory key names: the initiator's keys are the numbers of its commands
(log 33). -/
def keyCmd (s : State) (key : Nat) : Option NvCmd := s.sto.cmds.find? fun c => c.id == key

/-- The key of a command is registered against open windows with QUAY = 1 for bytes of its buffer that lie in the stacks
(R424). -/
def registered (s : State) (c : NvCmd) (off n : Nat) : Bool :=
  (cmdPlaces s c.use off n).all fun p => quayAdmits s (quayOf c.tgt) p.land p.off p.len { wr := true }

/-- An RDMA operation with an unknown or earlier key is dropped and counted (R424, R430). -/
def staleKey (s : State) (p : Nat) : State := setFlag (countUp s (rPort p + 8) 23 16 1 none) rXcause 10

/-- The packets of a connection that an acknowledgement of sequence number n leaves without one. -/
def unackedAfter (q : Qp) (n : Nat) : List (Nat × Out) :=
  match q.unacked.findIdx? fun e => e.1 == n with
  | some i => q.unacked.drop (i + 1)
  | none => q.unacked

/-- The packets of a connection from sequence number n on, which a negative acknowledgement asks for again: go-back-N
(R424). -/
def unackedFrom (q : Qp) (n : Nat) : List (Nat × Out) :=
  match q.unacked.findIdx? fun e => e.1 == n with
  | some i => q.unacked.drop i
  | none => []

/-- Payload bytes of one packet: the path MTU (R424). -/
def pathMtu : Nat := 4096

/-- Payload bytes of an operation's packet. -/
def roceBytes : RoceOp → Nat
  | .send data => data.length
  | .write _ _ data => data.length
  | _ => 0

/-- An operation in sequence: a Send is handed to the initiator; the data of a Write goes to the buffer of its key, slots and
tables being buffers of purser firmware, which the completion fills (R387, R390); a Write and a Read need a key that covers
them; what is not supported is dropped. -/
def runRoce (s : State) (p : Nat) (op : RoceOp) : State :=
  match op with
  | .send _ => sendEth s p .ack []
  | .write key off data =>
    match keyCmd s key with
    | some c =>
      if c.op = 2 ∧ off + data.length ≤ 4096 * c.blocks ∧ registered s c off data.length then
        sendEth (storeData s c off data) p .ack []
      else staleKey s p
    | none => staleKey s p
  | .read key off len =>
    match keyCmd s key with
    | some c =>
      if c.op = 1 ∧ off + len ≤ 4096 * c.blocks then sendEth s p .data (fitTo 0 len (c.data.drop off)) else staleKey s p
    | none => staleKey s p
  | .ack | .nak | .other => countDrop s p

/-- An operation of a queue pair: in sequence it is carried out; one ahead asks for go-back-N, one behind is acknowledged
again (R424). -/
def roceRequest (s : State) (p : Nat) (q : Qp) (psn : Nat) (op : RoceOp) : State :=
  if psn = q.psn then runRoce (setQp s { q with psn := (psn + 1) % psnMod }) p op
  else if (psn + psnMod - q.psn) % psnMod < psnMod / 2 then sendEth s p .again (leBytes 4 q.psn)
  else sendEth s p .ack (leBytes 4 psn)

/-- ROCE_PACKET: for an existing queue pair, within the path MTU: an operation, or the acknowledgement of packets of this
module, of which a negative one has those from its sequence number on sent again (R424 to R426). -/
def execRocePacket (port : Fin 16) (qp : Nat) (psn : Nat) (op : RoceOp) (macsecOk : Bool) (s : State) : Res :=
  let p := port.val
  if !ethUp s p then .next s
  else if !macPasses s p (macKey s p) macsecOk false ∨ pathMtu < roceBytes op then .next (countDrop s p)
  else
    match findQp s p qp with
    | none => .next (countDrop s p)
    | some q =>
      match op with
      | .ack => .next (setQp s { q with unacked := unackedAfter q psn })
      | .nak =>
        let again := unackedFrom q psn
        .next (again.foldl (fun s e => emit s e.2) (if again.isEmpty then s else setQp s { q with unacked := again }))
      | _ => .next (roceRequest s p q psn op)

/-- CONGESTION_NOTIFICATION: the queue pair's rate halves; a frame that MACsec bars is dropped (R424, R425). -/
def execCongestionNotification (port : Fin 16) (f : Notification) (s : State) : Res :=
  let p := port.val
  if !ethUp s p then .next s
  else
    match if macPasses s p (macKey s p) f.macsecOk false then findQp s p f.qp else none with
    | some q => .next (setQp s { q with rate := q.rate / 2 })
    | none => .next (countDrop s p)

/-- RATE_INCREASE: the rate rises by 5 % of line rate, up to it. -/
def execRateIncrease (port : Fin 16) (qp : Nat) (s : State) : Res :=
  match findQp s port.val qp with
  | some q => .next (setQp s { q with rate := min 20971520 (q.rate + 1048576) })
  | none => .next s

/-! ## Other frames (R423, R425, R426) -/

/-- Bytes of the largest frame (R423). -/
def maxFrame : Nat := 9216

/-- LOCAL_PROTOCOL_FRAME: ARP, neighbour discovery or ICMP echo, answered by purser firmware once it runs;
one longer than a frame may be is dropped. -/
def execLocalProtocolFrame (port : Fin 16) (kind : Fin 3) (body : List Byte) (secured macsecOk : Bool) (s : State) :
    Res :=
  let p := port.val
  if !ethUp s p then .next s
  else if !macPasses s p secured macsecOk (kind.val < 2) ∨ maxFrame < body.length then .next (countDrop s p)
  else .next (if ranCopy s 1 ≠ 0 then sendEth s p (.answer kind) body else s)

/-- UNKNOWN_ETHERNET_FRAME: dropped and counted. -/
def execUnknownEthernetFrame (port : Fin 16) (s : State) : Res :=
  .next (if ethUp s port.val then countDrop s port.val else s)

end Sys2Proof.Machine
end

