-- ==== Sys2Proof/Machine/HostIf.lean ====
section
/-! DEFINITION. Host access over PCIe: BAR0, apertures, MSI-X messages, resets and links of the ports, configuration
requests (R31 to R33, R434 to R441, R522, R525, R531, R558, R562, R564). -/

namespace Sys2Proof.Machine

/-- The quay of a PCIe port: PE0 on Q0, PE1 on Q2. -/
def pcieQuay (p : Nat) : Nat := 2 * p

def pcieUp (s : State) (p : Nat) : Bool := (getPcie s p).up

/-! ## BAR0 (R31 to R33) -/

/-- Queue set of a port's virtual function fn (R437). -/
def fnQueue (p fn : Nat) : Nat := 32 * p + (fn - 1)

/-- The register at an offset of a function's BAR0, numbered as the physical function's BAR0 has it: a virtual function's has
the registers of its queue set, and its aperture at 0x0100 (R436, R437, R439); none where there is no register. -/
def bar0Reg (p fn off : Nat) : Option Nat :=
  if fn = 0 then (if off < 0x4000000 ∧ (regDef off).isSome then some off else none)
  else
    let q := fnQueue p fn
    if off = 0x100 ∨ off = 0x104 then some (0x68000 + 8 * q + (off - 0x100))
    else if off < 0x200 ∧ (regDef (rQs q off)).isSome then some (rQs q off)
    else none

/-- Why an access to BAR0 is refused: size, alignment, a reserved range, DOMAIN_OFF (R564); none where it is served. -/
def bar0Refusal (s : State) (p fn off size : Nat) : Option Nat :=
  let regs := (upto (size / 4)).map fun i => bar0Reg p fn (off + 4 * i)
  if size ≠ 4 ∧ size ≠ 8 then some 0
  else if off % size ≠ 0 then some 1
  else if regs.contains none then some 2
  else if regs.any fun o => o.any fun o => regOff s o then some 3
  else none

/-- The master that a function is. -/
def fnMaster (port : Fin 2) (fn : Fin 33) : Master :=
  if fn.val = 0 then .pf port else .vf port (Fin.ofNat 32 (fn.val - 1))

/-! ## BAR2, the result board (R436, R451, R453) -/

/-- What a board slot that holds no record reads as (R451). -/
def pendingSlot : List Byte := 1 :: List.replicate 63 0

/-- A board slot as it reads: its record, or PENDING; in result-queue mode PENDING (R451, R453). -/
def boardSlot (s : State) (q k : Nat) : List Byte :=
  match tget [] (getQs s q).board k with
  | [] => pendingSlot
  | bs => if qsRmode s q then pendingSlot else bs

/-- Bytes [off, off + n) of the board as a function's BAR2 shows it: every queue set's for the physical function, its own for a
virtual one. -/
def boardBytes (s : State) (p fn off n : Nat) : List Byte :=
  let base := if fn = 0 then 0 else 1024 * fnQueue p fn
  (upto n).map fun i => (boardSlot s ((base + (off + i) / 64) / 1024) ((off + i) / 64 % 1024)).getD ((off + i) % 64) 0

/-- Bytes of a function's BAR2. -/
def boardSize (fn : Nat) : Nat := if fn = 0 then 0x400000 else 0x10000

/-- An access to BAR2: a read returns what the slots hold and changes none, a write has no effect (R451). -/
def boardAccess (s : State) (p fn off size : Nat) (wr : Bool) : State :=
  if wr then s
  else if boardSize fn < off + size then emit s (.completion p 1 [] false)
  else emit s (.completion p 0 (boardBytes s p fn off size) false)

/-- A function serves memory accesses: the physical one, or an enabled virtual one, in D0 (R434, R437). -/
def memServed (s : State) (p fn : Nat) : Bool := (fn == 0 || vfEnabled s p fn) && !inD3 s p fn

/-- BAR0_ACCESS by a function of a port: function 0, or an enabled virtual function. INT.BARERR records the offset in the
function's own BAR0 (log 99). -/
def execBar0Access (port : Fin 2) (off : BarPlace) (size : Nat) (wr : Bool) (val : Dword) (s : State) : Res :=
  let p := port.val
  let fn := off.fn
  let a := off.off
  if !pcieUp s p then .next s
  else if !memServed s p fn.val then .next (if wr then s else emit s (.completion p 1 [] false))
  else if off.board then .next (boardAccess s p fn.val a size wr)
  else
    match bar0Refusal s p fn.val a size, bar0Reg p fn.val a with
    | none, some o =>
      if wr then .next (writeRegs s (fnMaster port fn) o (leBytes size val.toNat))
      else
        let r := readRegs s (fnMaster port fn) o size
        .next (emit r.2 (.completion p 0 r.1 false))
    | why, _ =>
      let s := barErr s p (why.getD 2) wr a
      .next (if wr then s else emit s (.completion p 0 (List.replicate size 0) false))

/-! ## Apertures (R438, R439) -/

/-- Low and high word of SVC.APn. -/
def apLow (s : State) (n : Nat) : Word := rd s (0x68000 + 8 * n)
def apHigh (s : State) (n : Nat) : Word := rd s (0x68004 + 8 * n)

/-- Unit, space and first offset of an aperture's target. -/
def apUnit (s : State) (n : Nat) : Nat := if wfld (apLow s n) 6 6 = 1 then wfld (apLow s n) 2 1 else wfld (apLow s n) 5 1
def apSpace (s : State) (n : Nat) : Nat := wfld (apLow s n) 10 7
def apBase (s : State) (n : Nat) : Nat := wfld (apHigh s n) 13 0 * 2 ^ 30

/-- How an aperture access ends: it reaches its target, or fails, stale or not. -/
inductive ApEnd where
  | go (via : Nat)
  | fail (stale : Bool)
deriving DecidableEq, Repr

/-- The checks of an aperture access, in the order of R152: EN and the length, R24, the window, the domain. -/
def apCheck (s : State) (n off len : Nat) (wr : Bool) : ApEnd :=
  let lo := apLow s n
  let unit := apUnit s n
  let sp := apSpace s n
  let o := apBase s n + off
  let u := winUnit unit sp
  let i := wfld lo 20 11
  let regs := sp == 3 || sp == 5
  if wfld lo 0 0 = 0 ∨ len = 0 ∨ 512 < len ∨ off % 4096 + len > 4096 ∨ 2 ^ 30 ≤ off then .fail false
  else if (wfld lo 6 6 == 1) != quaySpace sp ∨ addrBad s unit sp o len ∨
      (regs ∧ ((len ≠ 4 ∧ len ≠ 8) ∨ o % len ≠ 0)) then .fail false
  else if winCount u ≤ i then .fail false
  else if winGen s u i ≠ BitVec.ofNat 8 (wfld lo 28 21) then .fail true
  else if (landSpace sp ∧ quarantined s unit) ∨
      !admits s u i sp o len (.host s.modnum.toNat) { rd := !wr, wr := wr } then .fail false
  else if !targetOn s unit sp o len then .fail false
  else .go (winKey u i)

/-- A failed access is counted at its target landing, where there is one, and sets SVC.HOSTERR.APERR. -/
def apFails (s : State) (n : Nat) (stale : Bool) : State :=
  let unit := apUnit s n
  let s := if wfld (apLow s n) 6 6 = 0 ∧ !absentLand s unit then countRefusal s unit stale (.host s.modnum.toNat) else s
  setFlag s 0x6840c 0

/-- A write through an aperture. One shorter than a protected word that holds an uncorrectable error has no effect
(R150). -/
def apWrite (s : State) (m : Master) (unit sp o : Nat) (bs : List Byte) : State :=
  if sp = 3 ∨ sp = 5 then writeRegs s m (regNum unit sp o) bs
  else if sp = 1 then writeRowsHeld s unit (rowCore o) (rowNum o) .plain [(bs, false)]
  else if partBad s unit sp o bs.length then memRead s unit sp o bs.length
  else memWrite s unit sp o bs false

/-- A read through an aperture: its data and poison, and the state after it. -/
def apRead (s : State) (m : Master) (unit sp o len : Nat) : List Byte × Bool × State :=
  if sp = 3 ∨ sp = 5 then
    let r := readRegs s m (regNum unit sp o) len
    (r.1, false, r.2)
  else
    let d := memData s unit sp o len
    (d.1, d.2, memRead s unit sp o len)

/-- The function whose BAR4 an access names, and the aperture there (R436). -/
def apFn : ApSel → Fin 33
  | .pf _ => 0
  | .vf i => Fin.ofNat 33 (i.val + 1)
def apNum (p : Nat) : ApSel → Nat
  | .pf ap => ap.val
  | .vf i => fnQueue p (i.val + 1)

/-- APERTURE_ACCESS: a BAR4 access of a function through one of its apertures at offset `off`. -/
def execApertureAccess (port : Fin 2) (ap : ApSel) (off len : Nat) (wr : Bool) (data : List Byte) (s : State) : Res :=
  let p := port.val
  let n := apNum p ap
  let m := fnMaster port (apFn ap)
  let unit := apUnit s n
  let sp := apSpace s n
  let o := apBase s n + off
  if !pcieUp s p then .next s
  else if !memServed s p (apFn ap).val then .next (if wr then s else emit s (.completion p 1 [] false))
  else
    match apCheck s n off len wr with
    | .fail stale =>
      let s := apFails s n stale
      .next (if wr then s else emit s (.completion p 4 [] false))
    | .go _ =>
      if wr then .next (apWrite s m unit sp o (fitTo 0 len data))
      else
        let r := apRead s m unit sp o len
        .next (emit r.2.2 (.completion p 0 r.1 r.2.1))

/-! ## MSI-X (R558, R562) -/

/-- Offset of the MSI-X capability: enable in bit 31, function mask in bit 30 of its first word (log 19). -/
def oMsix : Nat := 0xb0

/-- The function may send its message. -/
def msixOn (s : State) (p fn : Nat) : Bool := wfld (cfgWord s p fn oMsix) 31 30 == 2 && busMaster s p fn

/-- Destination number of a function's vector 0. -/
def msixDest (p fn : Nat) : Nat := if fn = 0 then p else 2 + 32 * p + (fn - 1)

/-- The message of a function: sent, or pending while its vector is masked. -/
def sendMsix (s : State) (p fn : Nat) : State :=
  if msixOn s p fn then emit s (.msix (msixDest p fn))
  else setPcie s p { getPcie s p with pend := sadd fn (getPcie s p).pend }

/-- The armed flag of the physical function of a port (R564). -/
def armedPf (s : State) (p : Nat) : Bool := rdFld s 0x1000c (2 + p) (2 + p) == 1

/-- A bound queue set has something to report (R562). -/
def qsReports (s : State) (q : Nat) : Bool :=
  let irq := rd s (rQs q 0x3c)
  (wfld irq 0 0 == 1 && wfld irq 2 2 == 1) || (wfld irq 1 1 == 1 && rd s (rQs q 0x28) != 0)

/-- MSIX_MESSAGE: destination 0 or 1 is a physical function, 2 + q the virtual function of queue set q. -/
def execMsixMessage (dest : Fin 66) (s : State) : Res :=
  let d := dest.val
  if d < 2 then
    if pcieUp s d ∧ armedPf s d ∧ rdFld s 0x10008 d d = 1 ∧ intPending s then
      .next (sendMsix (wrFld s 0x1000c (2 + d) (2 + d) 0) d 0)
    else .next s
  else
    let q := d - 2
    if pcieUp s (qsPort q) ∧ qsBound s q ∧ rdFld s (rQs q 0x3c) 4 4 = 1 ∧ qsReports s q then
      .next (sendMsix (wrFld s (rQs q 0x3c) 4 4 0) (qsPort q) (q % 32 + 1))
    else .next s

/-- A pending message leaves once its vector is no longer masked. -/
def flushMsix (s : State) (p fn : Nat) : State :=
  if (getPcie s p).pend.contains fn ∧ msixOn s p fn then
    emit (setPcie s p { getPcie s p with pend := sdel fn (getPcie s p).pend }) (.msix (msixDest p fn))
  else s

/-! ## Resets and links of a port (R441, R522, R525, R531) -/

/-- Queue sets of a port, ascending. -/
def portQueues (p : Nat) : List Nat := (upto 32).map fun i => 32 * p + i

/-- A queue set is reset, its aperture closed and its vector armed. -/
def resetFnQueue (s : State) (q : Nat) : State := wrFld (wrFld (resetQs s q) (0x68000 + 8 * q) 0 0 0) (rQs q 0x3c) 4 4 1

/-- Configuration words of the functions that a test picks are as after reset. -/
def dropCfg (s : State) (p : Nat) (keep : Nat → Bool) : State :=
  let x := getPcie s p
  setPcie s p { x with cfg := x.cfg.filter fun e => keep (e.1 / 4096), pend := x.pend.filter keep }

/-- A reset of the physical function: every queue set of the port, its virtual functions disabled. -/
def resetPf (s : State) (p : Nat) : State :=
  wrFld (dropCfg ((portQueues p).foldl resetFnQueue s) p fun _ => false) 0x1000c (2 + p) (2 + p) 1

/-- FUNCTION_LEVEL_RESET (R441). -/
def execFunctionLevelReset (port : Fin 2) (fn : Fin 33) (s : State) : Res :=
  let p := port.val
  if !pcieUp s p then .next s
  else if fn.val = 0 then .next (resetPf s p)
  else if vfEnabled s p fn.val then
    .next (dropCfg (resetFnQueue s (32 * p + (fn.val - 1))) p fun k => k != fn.val)
  else .next s

/-- A reset of a port's logic; its link goes down. -/
def resetPort (s : State) (p : Nat) : State :=
  let s := resetPf s p
  setPcie s p { getPcie s p with up := false }

/-- PERST: it falls, and acts through the filter of SYS_RST_N; PERST# of PE0 with PERSTMOD is a MODULE reset (R525, R586,
R590). -/
def execPerst (pulse : PerstPulse) (s : State) : Res :=
  let p := pulse.port.val
  let r := pulseActs s pulse.lowNs
  let s := r.2
  let low (s : State) : State := setPcie s p { getPcie s p with low := true, up := false }
  .next (if !r.1 then s else if p = 0 ∧ s.boot.cfg.perstMod then low (doReset s .module) else low (resetPort s p))

/-- PERST_RELEASE: it rises. -/
def execPerstRelease (port : Fin 2) (s : State) : Res :=
  .next (setPcie s port.val { getPcie s port.val with low := false })

/-- HOT_RESET. -/
def execHotReset (port : Fin 2) (s : State) : Res :=
  .next (if pcieUp s port.val then resetPort s port.val else s)

/-- PCIE_LINK_UP: training ends; it begins when the quay is ON and PERST# is high (R531). -/
def execPcieLinkUp (port : Fin 2) (s : State) : Res :=
  let p := port.val
  .next (if quayOn s (pcieQuay p) ∧ !(getPcie s p).low then setPcie s p { getPcie s p with up := true } else s)

/-! ## Configuration space (R434 to R437) -/

/-- Offset of the PCI Express capability: Device Capabilities with Max_Payload_Size and function-level reset at + 0x04, Device
Control at + 0x08 (log 19). -/
def oPcie : Nat := 0x70

/-- Writable bits and fixed bits of the configuration words that this model keeps: the Command register, the BARs of
R436, PowerState, Max_Payload_Size and Max_Read_Request_Size, SR-IOV Control, TotalVFs and NumVFs, the virtual functions'
BARs, MSI-X control (R434; log 19). None for any other word. -/
def cfgBits (vf : Bool) (reg : Nat) : Option (Nat × Nat) :=
  let pci (w : Nat) : Nat := (Config.pcieCfg vf reg).toNat &&& (2 ^ 32 - 1 - w)
  if reg = 0x04 then some (if vf then 0x4 else 0x406, 0)
  else if reg = oPm + 4 then some (0x3, pci 0x3)
  else if reg = oPcie + 4 then some (0, pci 0x10000007 + 0x10000002)
  else if reg = oMsix then some (0xc0000000, pci 0xc0000000)
  else if vf then none
  else if reg = oPcie + 8 then some (0x70e0, pci 0x70e0)
  else
    match reg with
    | 0x10 => some (0xfc000000, 0x4)
    | 0x14 => some (0xffffffff, 0)
    | 0x18 => some (0xffc00000, 0x4)
    | 0x1c => some (0xffffffff, 0)
    | 0x20 => some (0, 0xc)
    | 0x24 => some (0xfffffff0, 0)
    | 0x168 => some (0x1f, 0)
    | 0x16c => some (0, 0x200020)
    | 0x170 => some (0xffff, 0)
    | 0x184 => some (0xffff0000, 0x4)
    | 0x188 => some (0xffffffff, 0)
    | 0x18c => some (0xffff0000, 0x4)
    | 0x190 => some (0xffffffff, 0)
    | 0x194 => some (0xc0000000, 0xc)
    | 0x198 => some (0xffffffff, 0)
    | _ => none

/-- A configuration word as it reads: the identity of R435, the words kept, else what PCI Express gives. -/
def cfgRead (s : State) (p fn reg : Nat) : Word :=
  let vf := fn != 0
  match reg with
  | 0x00 => word (0x1f6e + (if vf then 0x0933 else 0x0932) * 2 ^ 16)
  | 0x08 => word (s.fuses.step.toNat + 0x120000 * 2 ^ 8)
  | 0x2c => word (0x1f6e + s.fuses.grade.toNat * 2 ^ 16)
  | _ =>
    match cfgBits vf reg with
    | some (w, k) => (cfgWord s p fn reg &&& word w) ||| word k
    | none => Config.pcieCfg vf reg

/-- Virtual functions that a write of SR-IOV Control or NumVFs has disabled are reset (R441). -/
def vfsGone (before s : State) (p : Nat) : State :=
  (portQueues p).foldl (fun s q => if qsBound before q ∧ !qsBound s q then resetFnQueue s q else s) s

/-- A configuration write. -/
def cfgWrite (s : State) (p fn reg : Nat) (v : Word) : State :=
  match cfgBits (fn != 0) reg with
  | none => s
  | some (w, _) =>
    -- D0 and D3hot alone are supported: a write of another power state is discarded (R434)
    let v := if reg = oPm + 4 ∧ wfld v 1 0 ≠ 0 ∧ wfld v 1 0 ≠ 3 then cfgWord s p fn reg else v
    let x := getPcie s p
    let t := setPcie s p { x with cfg := tput 0 (4096 * fn + reg) (v &&& word w) x.cfg }
    flushMsix (vfsGone s t p) p fn

/-- The function answers: the physical one, or an enabled virtual one. -/
def fnThere (s : State) (p fn : Nat) : Bool := fn == 0 || vfEnabled s p fn

/-- CONFIGURATION_REQUEST: Request Retry Status until the port's quay is ON, then served (R531). -/
def execConfigurationRequest (port : Fin 2) (fn : Fin 33) (reg : Nat) (wr : Bool) (v : Word) (s : State) : Res :=
  let p := port.val
  let o := reg / 4 * 4
  if !quayOn s (pcieQuay p) then .next (emit s (.completion p 2 [] false))
  else if !pcieUp s p then .next s
  else if !fnThere s p fn.val ∨ 4096 ≤ o then .next (emit s (.completion p 1 [] false))
  else if wr then .next (emit (cfgWrite s p fn.val o v) (.completion p 0 [] false))
  else .next (emit s (.completion p 0 (leBytes 4 (cfgRead s p fn.val o).toNat) false))

end Sys2Proof.Machine
end

