-- ==== Sys2Proof/Machine/Tap.lean ====
section
/-! DEFINITION. The test access port and the signals that boundary scan covers (R490, R581, R583, R585, R588). -/

namespace Sys2Proof.Machine

def setTap (s : State) (t : Tap) : State := { s with tap := t }

/-- Boundary scan is open: in BLANK, RETURNED, or after DEBUG_UNLOCK. -/
def scanOpen (s : State) : Bool := lcsOpen s || rdFld s rHmStat 4 4 == 1

/-- Cells of the boundary-scan register, one for each signal of MG but the clock's and for each signal land of zone S, in the
order of R583 and R581: MG_SCL, MG_SDA, INT_N, SYS_RST_N, XPSPLIT0 to 2, COOL_DMD, COOL_FLOW, TCK, TMS, TDI, TDO, TRST_N,
PRSNT_N, THERMTRIP_N, PWR_OK_0 to 5, AVS0 to 3_CLK, _MDATA and _SDATA (R588; log 120). -/
def scanCells : Nat := 34

/-- The level of a signal, none where this model holds no level of it (log 120). -/
def pinLevel (s : State) (i : Nat) : Option Bool :=
  match i with
  | 2 => some (!intLow s)
  | 3 => some (!s.boot.pinLow)
  | 13 => some (!s.tap.held)
  | 14 => some false
  | 15 => some (!thermtripLow s)
  | _ => if 16 ≤ i ∧ i < 22 then some (!s.pwr.bad.contains (i - 16)) else none

/-- The levels that a scan captures; those that the model does not hold are free (log 1). -/
def captured (s : State) : List Bool :=
  (upto scanCells).map fun i => (pinLevel s i).getD (Config.freeBool (s.free + i))

/-- BYPASS is selected: one bit of 0 goes to TDO. -/
def selectBypass (s : State) : State := emit (setTap s { s.tap with ir := 0x1f, drive := false }) (.tdo [false])

/-- An instruction of the TAP; none while TRST_N holds it in Test-Logic-Reset. -/
def tapInstr (s : State) (f : State → State) : State := if s.tap.held then s else f s

/-- BYPASS. -/
def execBypass (s : State) : Res := .next (tapInstr s selectBypass)

/-- The 32 bits of the IDCODE. -/
def idcodeWord (s : State) : Word :=
  BitVec.ofNat 4 s.fuses.step.toNat ++ (0x9320 : BitVec 16) ++ (0x3b5 : BitVec 11) ++ (1 : BitVec 1)

/-- IDCODE: its bits go to TDO, the least significant first. -/
def execIdcode (s : State) : Res :=
  .next (tapInstr s fun s =>
    emit (setTap s { s.tap with ir := 1, drive := false }) (.tdo ((upto 32).map fun i => (idcodeWord s).getLsbD i)))

/-- A scan of the boundary-scan register: the levels of the signals are captured and shifted out, and its cells loaded. -/
def scan (s : State) (ir : BitVec 5) (drive : Bool) (pins : List Bool) : State :=
  if scanOpen s then
    let bs := captured s
    emit (setTap { s with free := s.free + scanCells }
      { s.tap with ir := ir, bsr := fitTo false scanCells pins, drive := drive }) (.tdo bs)
  else selectBypass s

/-- SAMPLE_PRELOAD: the signals are sampled, and the cells loaded for EXTEST. -/
def execSamplePreload (pins : List Bool) (s : State) : Res := .next (tapInstr s fun s => scan s 2 false pins)

/-- EXTEST: the signals are sampled, and the output signals driven from the cells. -/
def execExtest (pins : List Bool) (s : State) : Res := .next (tapInstr s fun s => scan s 0 true pins)

/-- CORE_DEBUG: available in BLANK and RETURNED. -/
def execCoreDebug (s : State) : Res :=
  .next (tapInstr s fun s =>
    if lcsOpen s then setTap s { s.tap with ir := 8, drive := false } else selectBypass s)

/-- TRST: TRST_N low holds the TAP in Test-Logic-Reset, which selects IDCODE. -/
def execTrst (low : Bool) (s : State) : Res :=
  .next (setTap s (if low then { s.tap with held := true, ir := 1, drive := false } else { s.tap with held := false }))

end Sys2Proof.Machine
end

