-- ==== Sys2Proof/Machine/Dispatch.lean ====
section
/-! DEFINITION. One arm for each command: a direct call of its meaning. -/

namespace Sys2Proof.Machine

def exec (i : Instr) (s : State) : Host.Outcome State Fault Refusal :=
  match i with
  | .add w f => Sys2Proof.Machine.execAdd w f s
  | .sub w f => Sys2Proof.Machine.execSub w f s
  | .and w f => Sys2Proof.Machine.execAnd w f s
  | .or w f => Sys2Proof.Machine.execOr w f s
  | .xor w f => Sys2Proof.Machine.execXor w f s
  | .shl w f => Sys2Proof.Machine.execShl w f s
  | .shr w f => Sys2Proof.Machine.execShr w f s
  | .sra w f => Sys2Proof.Machine.execSra w f s
  | .mul w f => Sys2Proof.Machine.execMul w f s
  | .mulh w f => Sys2Proof.Machine.execMulh w f s
  | .mulhu w f => Sys2Proof.Machine.execMulhu w f s
  | .cmpeq w f => Sys2Proof.Machine.execCmpeq w f s
  | .cmpne w f => Sys2Proof.Machine.execCmpne w f s
  | .cmplt w f => Sys2Proof.Machine.execCmplt w f s
  | .cmpltu w f => Sys2Proof.Machine.execCmpltu w f s
  | .cmpge w f => Sys2Proof.Machine.execCmpge w f s
  | .cmpgeu w f => Sys2Proof.Machine.execCmpgeu w f s
  | .sel w f => Sys2Proof.Machine.execSel w f s
  | .addImmediate w f => Sys2Proof.Machine.execAddImmediate w f s
  | .andImmediate w f => Sys2Proof.Machine.execAndImmediate w f s
  | .orImmediate w f => Sys2Proof.Machine.execOrImmediate w f s
  | .xorImmediate w f => Sys2Proof.Machine.execXorImmediate w f s
  | .shlImmediate w f => Sys2Proof.Machine.execShlImmediate w f s
  | .shrImmediate w f => Sys2Proof.Machine.execShrImmediate w f s
  | .sraImmediate w f => Sys2Proof.Machine.execSraImmediate w f s
  | .mulImmediate w f => Sys2Proof.Machine.execMulImmediate w f s
  | .cmpeqImmediate w f => Sys2Proof.Machine.execCmpeqImmediate w f s
  | .cmpneImmediate w f => Sys2Proof.Machine.execCmpneImmediate w f s
  | .cmpltImmediate w f => Sys2Proof.Machine.execCmpltImmediate w f s
  | .cmpltuImmediate w f => Sys2Proof.Machine.execCmpltuImmediate w f s
  | .cmpgeImmediate w f => Sys2Proof.Machine.execCmpgeImmediate w f s
  | .cmpgeuImmediate w f => Sys2Proof.Machine.execCmpgeuImmediate w f s
  | .li w f => Sys2Proof.Machine.execLi w f s
  | .lih w f => Sys2Proof.Machine.execLih w f s
  | .mfs w f => Sys2Proof.Machine.execMfs w f s
  | .mts w f => Sys2Proof.Machine.execMts w f s
  | .tqtake w sd => Sys2Proof.Machine.execTqtake w sd s
  | .tqdone w sa => Sys2Proof.Machine.execTqdone w sa s
  | .tprio w sa => Sys2Proof.Machine.execTprio w sa s
  | .ldD w f => Sys2Proof.Machine.execLdD w f s
  | .ldW w f => Sys2Proof.Machine.execLdW w f s
  | .ldWu w f => Sys2Proof.Machine.execLdWu w f s
  | .ldHu w f => Sys2Proof.Machine.execLdHu w f s
  | .ldBu w f => Sys2Proof.Machine.execLdBu w f s
  | .stD w f => Sys2Proof.Machine.execStD w f s
  | .stW w f => Sys2Proof.Machine.execStW w f s
  | .stH w f => Sys2Proof.Machine.execStH w f s
  | .stB w f => Sys2Proof.Machine.execStB w f s
  | .ldGD w f => Sys2Proof.Machine.execLdGD w f s
  | .ldGW w f => Sys2Proof.Machine.execLdGW w f s
  | .stGD w f => Sys2Proof.Machine.execStGD w f s
  | .stGW w f => Sys2Proof.Machine.execStGW w f s
  | .amoaddD w f => Sys2Proof.Machine.execAmoaddD w f s
  | .amoaddW w f => Sys2Proof.Machine.execAmoaddW w f s
  | .globalResponse id => Sys2Proof.Machine.execGlobalResponse id s
  | .globalStoreCompletion id => Sys2Proof.Machine.execGlobalStoreCompletion id s
  | .gtimeout id => Sys2Proof.Machine.execGtimeout id s
  | .br w f => Sys2Proof.Machine.execBr w f s
  | .call w f => Sys2Proof.Machine.execCall w f s
  | .beq w f => Sys2Proof.Machine.execBeq w f s
  | .bne w f => Sys2Proof.Machine.execBne w f s
  | .blt w f => Sys2Proof.Machine.execBlt w f s
  | .bge w f => Sys2Proof.Machine.execBge w f s
  | .bltu w f => Sys2Proof.Machine.execBltu w f s
  | .bgeu w f => Sys2Proof.Machine.execBgeu w f s
  | .ret w f => Sys2Proof.Machine.execRet w f s
  | .fence w sa imm => Sys2Proof.Machine.execFence w sa imm s
  | .yield w sa imm => Sys2Proof.Machine.execYield w sa imm s
  | .yieldExpiry w => Sys2Proof.Machine.execYieldExpiry w s
  | .trap w sa imm => Sys2Proof.Machine.execTrap w sa imm s
  | .taskEnd w sa imm => Sys2Proof.Machine.execTaskEnd w sa imm s
  | .reservedInstruction w w0 w1 => Sys2Proof.Machine.execReservedInstruction w w0 w1 s
  | .taskPost m l core thr prio entry arg met => Sys2Proof.Machine.execTaskPost m l core thr prio entry arg met s
  | .killPost m l core thr prio entry arg met => Sys2Proof.Machine.execKillPost m l core thr prio entry arg met s
  | .mma w f => Sys2Proof.Machine.execMma w f s
  | .mld w f => Sys2Proof.Machine.execMld w f s
  | .mdr w f => Sys2Proof.Machine.execMdr w f s
  | .mz w f => Sys2Proof.Machine.execMz w f s
  | .vopCopy w f => Sys2Proof.Machine.execVopCopy w f s
  | .vopAdd w f => Sys2Proof.Machine.execVopAdd w f s
  | .vopSub w f => Sys2Proof.Machine.execVopSub w f s
  | .vopMul w f => Sys2Proof.Machine.execVopMul w f s
  | .vopFma w f => Sys2Proof.Machine.execVopFma w f s
  | .vopAxs w f => Sys2Proof.Machine.execVopAxs w f s
  | .vopAxsb w f => Sys2Proof.Machine.execVopAxsb w f s
  | .vopMax w f => Sys2Proof.Machine.execVopMax w f s
  | .vopMin w f => Sys2Proof.Machine.execVopMin w f s
  | .vopAbs w f => Sys2Proof.Machine.execVopAbs w f s
  | .vopNeg w f => Sys2Proof.Machine.execVopNeg w f s
  | .vopCmpgt w f => Sys2Proof.Machine.execVopCmpgt w f s
  | .vopCmpge w f => Sys2Proof.Machine.execVopCmpge w f s
  | .vopCmpeq w f => Sys2Proof.Machine.execVopCmpeq w f s
  | .vopSel w f => Sys2Proof.Machine.execVopSel w f s
  | .vopExp w f => Sys2Proof.Machine.execVopExp w f s
  | .vopExp2 w f => Sys2Proof.Machine.execVopExp2 w f s
  | .vopLog w f => Sys2Proof.Machine.execVopLog w f s
  | .vopLog2 w f => Sys2Proof.Machine.execVopLog2 w f s
  | .vopRcp w f => Sys2Proof.Machine.execVopRcp w f s
  | .vopSqrt w f => Sys2Proof.Machine.execVopSqrt w f s
  | .vopRsqrt w f => Sys2Proof.Machine.execVopRsqrt w f s
  | .vopTanh w f => Sys2Proof.Machine.execVopTanh w f s
  | .vopSigmoid w f => Sys2Proof.Machine.execVopSigmoid w f s
  | .vopSilu w f => Sys2Proof.Machine.execVopSilu w f s
  | .vopGelu w f => Sys2Proof.Machine.execVopGelu w f s
  | .vopSin w f => Sys2Proof.Machine.execVopSin w f s
  | .vopCos w f => Sys2Proof.Machine.execVopCos w f s
  | .vopDiv w f => Sys2Proof.Machine.execVopDiv w f s
  | .vopNrsqrt w f => Sys2Proof.Machine.execVopNrsqrt w f s
  | .vopSwiglu w f => Sys2Proof.Machine.execVopSwiglu w f s
  | .vopRsub w f => Sys2Proof.Machine.execVopRsub w f s
  | .vopRmul w f => Sys2Proof.Machine.execVopRmul w f s
  | .vopRdiv w f => Sys2Proof.Machine.execVopRdiv w f s
  | .vopRexpsub w f => Sys2Proof.Machine.execVopRexpsub w f s
  | .vopRscale w f => Sys2Proof.Machine.execVopRscale w f s
  | .pickge w f => Sys2Proof.Machine.execPickge w f s
  | .vcvt w f => Sys2Proof.Machine.execVcvt w f s
  | .vtab w f => Sys2Proof.Machine.execVtab w f s
  | .redSum w f => Sys2Proof.Machine.execRedSum w f s
  | .redMax w f => Sys2Proof.Machine.execRedMax w f s
  | .redMin w f => Sys2Proof.Machine.execRedMin w f s
  | .redMaxi w f => Sys2Proof.Machine.execRedMaxi w f s
  | .redMini w f => Sys2Proof.Machine.execRedMini w f s
  | .pack w f => Sys2Proof.Machine.execPack w f s
  | .unpk w f => Sys2Proof.Machine.execUnpk w f s
  | .rowfill w f => Sys2Proof.Machine.execRowfill w f s
  | .rowcopy w f => Sys2Proof.Machine.execRowcopy w f s
  | .strm w f => Sys2Proof.Machine.execStrm w f s
  | .rearm w f => Sys2Proof.Machine.execRearm w f s
  | .sig w f => Sys2Proof.Machine.execSig w f s
  | .wait w f => Sys2Proof.Machine.execWait w f s
  | .cla w f => Sys2Proof.Machine.execCla w f s
  | .clw w f => Sys2Proof.Machine.execClw w f s
  | .queueFullIssue w => Sys2Proof.Machine.execQueueFullIssue w s
  | .engineCommandStart k e => Sys2Proof.Machine.execEngineCommandStart k e s
  | .engineCommandRetire k e => Sys2Proof.Machine.execEngineCommandRetire k e s
  | .commandWaitTimeout k e => Sys2Proof.Machine.execCommandWaitTimeout k e s
  | .heldRowWrite k => Sys2Proof.Machine.execHeldRowWrite k s
  | .waiterRelease k ctr => Sys2Proof.Machine.execWaiterRelease k ctr s
  | .waitTimeout w => Sys2Proof.Machine.execWaitTimeout w s
  | .pairWrite m k i0 v => Sys2Proof.Machine.execPairWrite m k i0 v s
  | .closureGroupWrite m l g reg v => Sys2Proof.Machine.execClosureGroupWrite m l g reg v s
  | .arrivalMessage src l g gen lmask cgctl cgper => Sys2Proof.Machine.execArrivalMessage src l g gen lmask cgctl cgper s
  | .closureRelease l g => Sys2Proof.Machine.execClosureRelease l g s
  | .periodicClosureBoundary l g => Sys2Proof.Machine.execPeriodicClosureBoundary l g s
  | .stealDelayExpiry l tile => Sys2Proof.Machine.execStealDelayExpiry l tile s
  | .tileGrant k => Sys2Proof.Machine.execTileGrant k s
  | .ferryLaunch l d slot h off => Sys2Proof.Machine.execFerryLaunch l d slot h off s
  | .slotArrival l d slot hdrBad crcBad => Sys2Proof.Machine.execSlotArrival l d slot hdrBad crcBad s
  | .chainInjection l k => Sys2Proof.Machine.execChainInjection l k s
  | .paceCreditTick l => Sys2Proof.Machine.execPaceCreditTick l s
  | .lapStart t0 lt => Sys2Proof.Machine.execLapStart t0 lt s
  | .lapEnd l toks => Sys2Proof.Machine.execLapEnd l toks s
  | .load m incoming => Sys2Proof.Machine.execLoad m incoming s
  | .localVersion m incoming => Sys2Proof.Machine.execLocalVersion m incoming s
  | .turn m incoming => Sys2Proof.Machine.execTurn m incoming s
  | .abandon m incoming => Sys2Proof.Machine.execAbandon m incoming s
  | .lastSliceWritten => Sys2Proof.Machine.execLastSliceWritten s
  | .localCopyComplete => Sys2Proof.Machine.execLocalCopyComplete s
  | .digestComplete => Sys2Proof.Machine.execDigestComplete s
  | .noHeaderTimeout l => Sys2Proof.Machine.execNoHeaderTimeout l s
  | .sliceReloadComplete l => Sys2Proof.Machine.execSliceReloadComplete l s
  | .shadowCopyComplete => Sys2Proof.Machine.execShadowCopyComplete s
  | .gradientSliceComplete l off data => Sys2Proof.Machine.execGradientSliceComplete l off data s
  | .streamRequest k => Sys2Proof.Machine.execStreamRequest k s
  | .streamResponse id => Sys2Proof.Machine.execStreamResponse id s
  | .armingEnd k sid => Sys2Proof.Machine.execArmingEnd k sid s
  | .tagTimeout id => Sys2Proof.Machine.execTagTimeout id s
  | .deadlineMiss k sid => Sys2Proof.Machine.execDeadlineMiss k sid s
  | .remoteIncrement t => Sys2Proof.Machine.execRemoteIncrement t s
  | .fbufWrite m l v => Sys2Proof.Machine.execFbufWrite m l v s
  | .remoteAccess id => Sys2Proof.Machine.execRemoteAccess id s
  | .windowOpen m u i0 s0 => Sys2Proof.Machine.execWindowOpen m u i0 s0 s
  | .windowClose m u i0 => Sys2Proof.Machine.execWindowClose m u i0 s
  | .windowCloseComplete u i0 => Sys2Proof.Machine.execWindowCloseComplete u i0 s
  | .scrubComplete l stack => Sys2Proof.Machine.execScrubComplete l stack s
  | .patrolScrub l stack => Sys2Proof.Machine.execPatrolScrub l stack s
  | .checkpointWrite m => Sys2Proof.Machine.execCheckpointWrite m s
  | .restore m => Sys2Proof.Machine.execRestore m s
  | .checkpointAbort m => Sys2Proof.Machine.execCheckpointAbort m s
  | .nvmeCompletion cmd status data => Sys2Proof.Machine.execNvmeCompletion cmd status data s
  | .connectionLoss tgt reconnected => Sys2Proof.Machine.execConnectionLoss tgt reconnected s
  | .nvmeTimeout cmd => Sys2Proof.Machine.execNvmeTimeout cmd s
  | .ferry port k f => Sys2Proof.Machine.execFerry port k f s
  | .write port k t rows => Sys2Proof.Machine.execWrite port k t rows s
  | .read port k t => Sys2Proof.Machine.execRead port k t s
  | .resp port k t rows => Sys2Proof.Machine.execResp port k t rows s
  | .signal port k t => Sys2Proof.Machine.execSignal port k t s
  | .amo port k t => Sys2Proof.Machine.execAmo port k t s
  | .idle port k => Sys2Proof.Machine.execIdle port k s
  | .nack port k failed => Sys2Proof.Machine.execNack port k failed s
  | .loss port k ftype t => Sys2Proof.Machine.execLoss port k ftype t s
  | .reservedFrame port k ftype => Sys2Proof.Machine.execReservedFrame port k ftype s
  | .frameSend port => Sys2Proof.Machine.execFrameSend port s
  | .time h t1 t2 t3 t4 => Sys2Proof.Machine.execTime h t1 t2 t3 t4 s
  | .heartbeat h => Sys2Proof.Machine.execHeartbeat h s
  | .hold h held boarding => Sys2Proof.Machine.execHold h held boarding s
  | .clArrive h l g gen lmask cgctl cgper => Sys2Proof.Machine.execClArrive h l g gen lmask cgctl cgper s
  | .clRelease h g gen => Sys2Proof.Machine.execClRelease h g gen s
  | .clAck h g gen => Sys2Proof.Machine.execClAck h g gen s
  | .vturn h version t0 => Sys2Proof.Machine.execVturn h version t0 s
  | .vturnAck h t0 => Sys2Proof.Machine.execVturnAck h t0 s
  | .fault h => Sys2Proof.Machine.execFault h s
  | .wdog h g gen => Sys2Proof.Machine.execWdog h g gen s
  | .wdogAck h g gen => Sys2Proof.Machine.execWdogAck h g gen s
  | .cutout h m => Sys2Proof.Machine.execCutout h m s
  | .mctpPacket h bytes => Sys2Proof.Machine.execMctpPacket h bytes s
  | .reservedMsgtype h ty => Sys2Proof.Machine.execReservedMsgtype h ty s
  | .timeExchange phyTime => Sys2Proof.Machine.execTimeExchange phyTime s
  | .heartbeatTimer => Sys2Proof.Machine.execHeartbeatTimer s
  | .holdNoticeTimer => Sys2Proof.Machine.execHoldNoticeTimer s
  | .clReleaseResend => Sys2Proof.Machine.execClReleaseResend s
  | .wdogResend => Sys2Proof.Machine.execWdogResend s
  | .faultRepeat => Sys2Proof.Machine.execFaultRepeat s
  | .cutoutRepeat => Sys2Proof.Machine.execCutoutRepeat s
  | .vturnAckTimeout t0 => Sys2Proof.Machine.execVturnAckTimeout t0 s
  | .neighbourSilence role => Sys2Proof.Machine.execNeighbourSilence role s
  | .timeParentLoss otherPath => Sys2Proof.Machine.execTimeParentLoss otherPath s
  | .portLinkDown port => Sys2Proof.Machine.execPortLinkDown port s
  | .linkTrainingTimeout port => Sys2Proof.Machine.execLinkTrainingTimeout port s
  | .ringWrite m v => Sys2Proof.Machine.execRingWrite m v s
  | .rocePacket port qp psn op macsecOk => Sys2Proof.Machine.execRocePacket port qp psn op macsecOk s
  | .congestionNotification port f => Sys2Proof.Machine.execCongestionNotification port f s
  | .rateIncrease port qp => Sys2Proof.Machine.execRateIncrease port qp s
  | .localProtocolFrame port kind body secured macsecOk => Sys2Proof.Machine.execLocalProtocolFrame port kind body secured macsecOk s
  | .unknownEthernetFrame port => Sys2Proof.Machine.execUnknownEthernetFrame port s
  | .bar0Access port off size wr val => Sys2Proof.Machine.execBar0Access port off size wr val s
  | .registerWrite m off v => Sys2Proof.Machine.execRegisterWrite m off v s
  | .apertureAccess port ap off len wr data => Sys2Proof.Machine.execApertureAccess port ap off len wr data s
  | .requestDoorbell m q t => Sys2Proof.Machine.execRequestDoorbell m q t s
  | .resultDoorbell m q h => Sys2Proof.Machine.execResultDoorbell m q h s
  | .queueSetEnable m q v => Sys2Proof.Machine.execQueueSetEnable m q v s
  | .queueSetReset m q v => Sys2Proof.Machine.execQueueSetReset m q v s
  | .entryFetch q entries => Sys2Proof.Machine.execEntryFetch q entries s
  | .nop q => Sys2Proof.Machine.execNop q s
  | .generate q input => Sys2Proof.Machine.execGenerate q input s
  | .cancel q => Sys2Proof.Machine.execCancel q s
  | .noVersionTimeout q => Sys2Proof.Machine.execNoVersionTimeout q s
  | .heldRecordPost q => Sys2Proof.Machine.execHeldRecordPost q s
  | .readmission uid land tg keepsBits => Sys2Proof.Machine.execReadmission uid land tg keepsBits s
  | .coalesceTimer q => Sys2Proof.Machine.execCoalesceTimer q s
  | .pendClear m q v => Sys2Proof.Machine.execPendClear m q v s
  | .qsEoi m q v => Sys2Proof.Machine.execQsEoi m q v s
  | .eoi m v => Sys2Proof.Machine.execEoi m v s
  | .msixMessage dest => Sys2Proof.Machine.execMsixMessage dest s
  | .functionLevelReset port fn => Sys2Proof.Machine.execFunctionLevelReset port fn s
  | .perst p => Sys2Proof.Machine.execPerst p s
  | .hotReset port => Sys2Proof.Machine.execHotReset port s
  | .getPdr t handle => Sys2Proof.Machine.execGetPdr t handle s
  | .getPdrRepositoryInfo t => Sys2Proof.Machine.execGetPdrRepositoryInfo t s
  | .getSensorReading t sensor => Sys2Proof.Machine.execGetSensorReading t sensor s
  | .getStateSensorReadings t sensor => Sys2Proof.Machine.execGetStateSensorReadings t sensor s
  | .setNumericEffecterValue m t o => Sys2Proof.Machine.execSetNumericEffecterValue m t o s
  | .getNumericEffecterValue m t effecter => Sys2Proof.Machine.execGetNumericEffecterValue m t effecter s
  | .setStateEffecterStates m t o => Sys2Proof.Machine.execSetStateEffecterStates m t o s
  | .getStateEffecterStates m t => Sys2Proof.Machine.execGetStateEffecterStates m t s
  | .setEventReceiver t eid => Sys2Proof.Machine.execSetEventReceiver t eid s
  | .pollForPlatformEventMessage t => Sys2Proof.Machine.execPollForPlatformEventMessage t s
  | .firmwareUpdate component image svn digest sig => Sys2Proof.Machine.execFirmwareUpdate component image svn digest sig s
  | .activateFirmware component => Sys2Proof.Machine.execActivateFirmware component s
  | .setEndpointId t eid => Sys2Proof.Machine.execSetEndpointId t eid s
  | .getVersion t => Sys2Proof.Machine.execGetVersion t s
  | .getCapabilities t => Sys2Proof.Machine.execGetCapabilities t s
  | .negotiateAlgorithms t => Sys2Proof.Machine.execNegotiateAlgorithms t s
  | .getDigests t => Sys2Proof.Machine.execGetDigests t s
  | .getCertificate t slot off len => Sys2Proof.Machine.execGetCertificate t slot off len s
  | .challenge t slot nonce => Sys2Proof.Machine.execChallenge t slot nonce s
  | .getMeasurements t index signed nonce => Sys2Proof.Machine.execGetMeasurements t index signed nonce s
  | .heatForecast => Sys2Proof.Machine.execHeatForecast s
  | .mailboxNop ch => Sys2Proof.Machine.execMailboxNop ch s
  | .jobCreate ch debug => Sys2Proof.Machine.execJobCreate ch debug s
  | .tenantAdd ch job extents => Sys2Proof.Machine.execTenantAdd ch job extents s
  | .measure ch job addr len quay engineError => Sys2Proof.Machine.execMeasure ch job addr len quay engineError s
  | .grant ch job mask => Sys2Proof.Machine.execGrant ch job mask s
  | .seal ch job l => Sys2Proof.Machine.execSeal ch job l s
  | .kill ch id => Sys2Proof.Machine.execKill ch id s
  | .release ch job => Sys2Proof.Machine.execRelease ch job s
  | .winOpen ch u s0 => Sys2Proof.Machine.execWinOpen ch u s0 s
  | .winClose ch u idx gen => Sys2Proof.Machine.execWinClose ch u idx gen s
  | .qsBind ch q id => Sys2Proof.Machine.execQsBind ch q id s
  | .signProv ch q rseq => Sys2Proof.Machine.execSignProv ch q rseq s
  | .signCkpt ch bytes => Sys2Proof.Machine.execSignCkpt ch bytes s
  | .macsecKey ch port rx an wrapped => Sys2Proof.Machine.execMacsecKey ch port rx an wrapped s
  | .fwVerify ch component copyB => Sys2Proof.Machine.execFwVerify ch component copyB s
  | .lcRequest ch target token opKey wrapKey => Sys2Proof.Machine.execLcRequest ch target token opKey wrapKey s
  | .debugUnlock ch token => Sys2Proof.Machine.execDebugUnlock ch token s
  | .faultReport ch code unit => Sys2Proof.Machine.execFaultReport ch code unit s
  | .dbgRead m => Sys2Proof.Machine.execDbgRead m s
  | .dbgWrite m => Sys2Proof.Machine.execDbgWrite m s
  | .bypass => Sys2Proof.Machine.execBypass s
  | .idcode => Sys2Proof.Machine.execIdcode s
  | .samplePreload pins => Sys2Proof.Machine.execSamplePreload pins s
  | .extest pins => Sys2Proof.Machine.execExtest pins s
  | .coreDebug => Sys2Proof.Machine.execCoreDebug s
  | .trst low => Sys2Proof.Machine.execTrst low s
  | .powerOnReset straps strapsStable => Sys2Proof.Machine.execPowerOnReset straps strapsStable s
  | .pinReset lowNs straps strapsStable => Sys2Proof.Machine.execPinReset lowNs straps strapsStable s
  | .clockLoss absentNs => Sys2Proof.Machine.execClockLoss absentNs s
  | .clockReturn => Sys2Proof.Machine.execClockReturn s
  | .moduleReset m v => Sys2Proof.Machine.execModuleReset m v s
  | .purserReset m v => Sys2Proof.Machine.execPurserReset m v s
  | .purserWatchdog => Sys2Proof.Machine.execPurserWatchdog s
  | .bootWatchdog => Sys2Proof.Machine.execBootWatchdog s
  | .boarding d => Sys2Proof.Machine.execBoarding d s
  | .groupwaitExpiry bank => Sys2Proof.Machine.execGroupwaitExpiry bank s
  | .ready => Sys2Proof.Machine.execReady s
  | .landingFatal l code => Sys2Proof.Machine.execLandingFatal l code s
  | .deckhandHeartbeatTimeout l => Sys2Proof.Machine.execDeckhandHeartbeatTimeout l s
  | .moduleFatal code unit => Sys2Proof.Machine.execModuleFatal code unit s
  | .hmWatchdog => Sys2Proof.Machine.execHmWatchdog s
  | .fatalAutoreset => Sys2Proof.Machine.execFatalAutoreset s
  | .rejoin m v => Sys2Proof.Machine.execRejoin m v s
  | .pwrOkDeassert n lowNs => Sys2Proof.Machine.execPwrOkDeassert n lowNs s
  | .pwrOkAssert n => Sys2Proof.Machine.execPwrOkAssert n s
  | .domainRequest m d v => Sys2Proof.Machine.execDomainRequest m d v s
  | .domainTransitionComplete d => Sys2Proof.Machine.execDomainTransitionComplete d s
  | .vcoreAdjust l stepMv acks => Sys2Proof.Machine.execVcoreAdjust l stepMv acks s
  | .capWindow meas base => Sys2Proof.Machine.execCapWindow meas base s
  | .setcap m v => Sys2Proof.Machine.execSetcap m v s
  | .settlim m v => Sys2Proof.Machine.execSettlim m v s
  | .setrun m v => Sys2Proof.Machine.execSetrun m v s
  | .paceWrite m v => Sys2Proof.Machine.execPaceWrite m v s
  | .forecastTick heat lapTenths hotNum hotDen => Sys2Proof.Machine.execForecastTick heat lapTenths hotNum hotDen s
  | .forecastStall => Sys2Proof.Machine.execForecastStall s
  | .thermalCheck hottest unit => Sys2Proof.Machine.execThermalCheck hottest unit s
  | .flowCheck inlet outlet => Sys2Proof.Machine.execFlowCheck inlet outlet s
  | .portLinkUp port peer peerPort => Sys2Proof.Machine.execPortLinkUp port peer peerPort s
  | .pcieLinkUp port => Sys2Proof.Machine.execPcieLinkUp port s
  | .configurationRequest port fn reg wr v => Sys2Proof.Machine.execConfigurationRequest port fn reg wr v s
  | .hostDmaCompletion q uid error => Sys2Proof.Machine.execHostDmaCompletion q uid error s
  | .rejoinCopyComplete l => Sys2Proof.Machine.execRejoinCopyComplete l s
  | .gradientWaveFetched l wave => Sys2Proof.Machine.execGradientWaveFetched l wave s
  | .dbgAccessComplete => Sys2Proof.Machine.execDbgAccessComplete s
  | .coolFlowPulse us => Sys2Proof.Machine.execCoolFlowPulse us s
  | .perstRelease port => Sys2Proof.Machine.execPerstRelease port s
  | .sysRstRelease => Sys2Proof.Machine.execSysRstRelease s
  | .reservedRequestOpcode q => Sys2Proof.Machine.execReservedRequestOpcode q s
  | .mailboxReservedOp ch => Sys2Proof.Machine.execMailboxReservedOp ch s
  | .provenanceSignatureDone => Sys2Proof.Machine.execProvenanceSignatureDone s

end Sys2Proof.Machine
end

