-- ==== Sys2Proof/Machine/Step.lean ====
section
/-! DEFINITION. One step: the first waiting command, or a TIMECLK tick where none waits. -/

namespace Sys2Proof.Machine

/-- The state with the command at the front of its queue taken out. -/
def State.withRest (s : State) (rest : List Instr) : State := { s with pending := rest }

/-- With no command waiting, one TIMECLK edge passes and the counters of time count it (R38, R397; log 20); landings whose
deckhand met FETCH_ECC are lost (R540; log 115). -/
def tick (s : State) : State := loseDeckhands (timeTick s)

/-- One step of the module. -/
def step (s : State) : Host.Outcome State Fault Refusal :=
  match s.pending with
  | [] => .next (tick s)
  | c :: rest => exec c (s.withRest rest)

/-- The state with the command that a word spells at the front of its queue. -/
def State.withFetchWord (s : State) (nbits w : Nat) : State :=
  match decodeTableWord nbits w with
  | some c => { s with pending := c :: s.pending }
  | none => s

end Sys2Proof.Machine
end

