-- ==== Sys2Proof/Safety.lean ====
section
/-! DEFINITION. What claims speak of: the canonical form of the memories and tables, and what a run leaves alone. -/

namespace Sys2Proof.Machine

/-- The canonical form of the memories: addresses strictly rising, no byte listed at zero, which is what an unlisted
address reads as (R366, R43). -/
def Memory.wf (m : List Host.Cell) : Bool := tabOk (fun _ => 0) 0 m

/-- The memories, the register words, and the tables of threads, cores and landings are in canonical form, so that equal
contents are equal data. The form is the model's own (log 3, log 72). -/
def Canonical (s : State) : Prop :=
  Memory.wf s.mem = true ∧ tabOk resetWord 0 s.regs = true ∧ tabOk (fun _ => ({} : Thread)) 0 s.threads = true ∧
    tabOk (fun _ => ({} : Core)) 0 s.cores = true ∧ tabOk (fun _ => ({} : Landing)) 0 s.lands = true

end Sys2Proof.Machine
end

