-- ==== Sys2Proof/WellFormed.lean ====
section
/-! DEFINITION. Which commands have operands that the module can meet: lengths, numbers and codes within what the rules
name. The meanings are total and do not rest on it; statements that need it say so. -/

namespace Sys2Proof

/-- A payload row of a frame or ferry: 512 B (R56, R405). -/
def rowOk (r : List Byte) : Bool := r.length == 512

/-- The payload of a ferry: as many rows as ROWS names, 1 to 64, each of 512 B (R56). -/
def payloadOk (n : Nat) (rows : List (List Byte)) : Bool :=
  decide (1 ≤ n) && decide (n ≤ 64) && rows.length == n && rows.all rowOk

/-- The payload of a frame with a transaction part: its rows, none for a scalar access (R405, R406). -/
def rowsOk (n : Nat) (rows : List (List Byte)) : Bool :=
  decide (n ≤ 64) && rows.length == n && rows.all rowOk

/-- A landing's part in a collecting ferry: 64 G32 rows of 128 values for each shard, or 32,768 bound bytes (R56, R89). -/
def waveOk (w : WaveItem) : Bool :=
  match w.rows with
  | .gradient rs => decide (rs.length ≤ 64) && rs.all fun r => r.all fun vs => vs.length == 128
  | .bounds rs => decide (rs.length ≤ 32768)

/-- A launch table: known kinds, slices within the count, a gradient share of 0 to 4, no layer twice (R51, R57, R65). -/
def tableOk (t : LaunchTable) : Bool :=
  decide (t.slices ≤ 65536) &&
    (t.layers.all fun y => decide (y.share ≤ 4) &&
      y.counts.all fun c => decide (c.slice < t.slices) && decide (c.count ≤ 2 ^ 20) &&
        (c.kind == 0 || c.kind == 2 || c.kind == 3)) &&
    decide ((t.layers.map fun y => y.layer).Nodup)

/-- The message types of R415. -/
def namedMessage (ty : BitVec 16) : Bool :=
  (1 ≤ ty.toNat && ty.toNat ≤ 0xc) || ty == 0x100

/-- What a command's operands must be. -/
def Instr.wf : Instr → Bool
  | .write _ _ t rows => rowsOk t.nrows rows
  | .read _ _ t => decide (t.nrows ≤ 64)
  | .resp _ _ t rows => rowsOk t.nrows rows
  | .ferry _ _ ⟨f, _⟩ => payloadOk f.hdr.rows f.payload
  | .ferryLaunch _ _ slot h _ => decide (slot < 2 ^ 16) && decide (1 ≤ h.rows) && decide (h.rows ≤ 64)
  | .slotArrival _ _ slot _ _ => decide (slot < 2 ^ 16)
  | .reservedFrame _ _ ty => decide (0xa ≤ ty.toNat)
  | .loss _ _ ty _ => decide (1 ≤ ty.toNat) && decide (ty.toNat ≤ 7)
  | .reservedMsgtype _ ty => !namedMessage ty
  | .mctpPacket _ bytes => decide (bytes.length ≤ 4096)
  | .registerWrite _ off _ => decide (off % 4 = 0) && decide (off < 2 ^ 27)
  | .bar0Access _ _ size _ _ => size == 4 || size == 8
  | .apertureAccess _ _ _ len wr data => decide (1 ≤ len) && (if wr then data.length == len else data.isEmpty)
  | .windowOpen _ _ i _ => decide (i < 1024)
  | .windowClose _ _ i => decide (i < 1024)
  | .windowCloseComplete _ i => decide (i < 1024)
  | .entryFetch _ entries => entries.all fun e => e.length == 64
  | .gradientSliceComplete _ _ data => decide (data.length % 512 = 0)
  | .gradientWaveFetched _ wave => wave.all waveOk
  | .tenantAdd _ _ extents => decide (extents.length ≤ 8)
  | .signCkpt _ bytes => bytes.length == 192
  | .lapStart _ t => tableOk t
  | _ => true

end Sys2Proof
end

