-- ==== Sys2Proof/Certificates/Slice0/Obligations.lean ====
section
/-! DEFINITION. The statements about the model, for the provers. Each comes from a numbered rule of the spec; what a
clause takes from the model's own log is named in its docstring. -/

open Sys2Proof Sys2Proof.Machine

namespace Sys2Proof.Claims

/-! ## Words that the statements use -/

/-- The command completes in state t. -/
abbrev Runs (i : Instr) (s t : State) : Prop := exec i s = .next t

/-- A scalar instruction of n words issues and stays inside scalar memory: the thread can issue (R108, R110, R143),
its word has no uncorrectable error (R150), and the next word is at most word 32,767 (R147). -/
def issues (s : State) (w : ThreadRef) : Prop :=
  mayIssue s w = true ∧ fetchBad s w 0 = false ∧ (getThr s w).pc.toNat + 1 < 32768

/-- The thread can issue and its word can be fetched, wherever the next word lies. -/
def fetches (s : State) (w : ThreadRef) : Prop := mayIssue s w = true ∧ fetchBad s w 0 = false

/-- What the fetch leaves: the thread is the last run of its priority (R110), and a correctable error of the word is
corrected and counted (R150). -/
def fetched (s : State) (w : ThreadRef) : State :=
  correctWord (noteRun s w) w (unitBase (localKey w (4 * (getThr s w).pc.toNat)))

/-- A thread with register r at v and its PC at the word pc. -/
def stepped (t : Thread) (r : BitVec 5) (v : Dword) (pc : Nat) : Thread :=
    { setReg t r v with pc := BitVec.ofNat 15 pc }

/-- The word after the thread's PC. -/
def nextPc (t : Thread) : Nat := t.pc.toNat + 1

/-- The relative target of a branch: the offset wraps within the 32,768 words (R146). -/
def branchTo (t : Thread) (off : BitVec 16) : Nat := (((t.pc.toNat : Int) + off.toInt) % 32768).toNat

/-- One for a condition that holds, else zero. -/
def truth (p : Prop) [Decidable p] : Dword := if p then 1 else 0

/-- The word of a register-form instruction, laid out by R135. -/
def regWord (op fn : Nat) (f : RForm) : Nat :=
  op * 2 ^ 26 + f.sd.toNat * 2 ^ 21 + f.sa.toNat * 2 ^ 16 + f.sb.toNat * 2 ^ 11 + f.sc.toNat * 2 ^ 6 + fn

/-- The word of an immediate-form instruction, laid out by R135. -/
def immWord (op : Nat) (f : IForm) : Nat := op * 2 ^ 26 + f.sd.toNat * 2 ^ 21 + f.sa.toNat * 2 ^ 16 + f.imm.toNat

/-- The register and bit of a thread's fault cause: CORE.CAUSE.TFAULT, or LC.CAUSE.DECKHAND (R165, R572, R574). -/
def faultCause : ThreadRef → Nat × Nat
  | .core l c _ => (coreBase l.val c.val + 0x3c0, 0)
  | .deckhand l => (lcBase l.val + 4, 6)

/-- The thread takes a precise fault: the record holds the code, INFO and the PC, STATE is FAULT, the cause is raised,
and PC, the registers and the rest of the thread are as they were (R163, R165). -/
def faults (s t : State) (w : ThreadRef) (code : Nat) (info : Dword) : Prop :=
  getThr t w =
    { getThr s w with
      st := .fault, wait := .none, hold := .none, yielding := false, fcode := BitVec.ofNat 8 code,
      deferred := false, more := false, fpc := (getThr s w).pc, info := info } ∧
  rdFld t (faultCause w).1 (faultCause w).2 (faultCause w).2 = 1

/-! ## Scalar arithmetic and constants -/

/-- A row: thread, destination, whether every field that must be zero is zero, the word, the result as a function of
the thread's registers. -/
abbrev Row := ThreadRef × BitVec 5 × Bool × Nat × (Thread → Dword)

/-- The instructions of R144 and R145: their rows. -/
def aluRow : Instr → Option Row
  | .add w f => some (w, f.sd, f.sc = 0, regWord 0x00 0x01 f, fun t =>
      .ofNat 64 ((getReg t f.sa).toNat + (getReg t f.sb).toNat))
  | .sub w f => some (w, f.sd, f.sc = 0, regWord 0x00 0x02 f, fun t =>
      .ofInt 64 ((getReg t f.sa).toNat - (getReg t f.sb).toNat))
  | .and w f => some (w, f.sd, f.sc = 0, regWord 0x00 0x03 f, fun t => getReg t f.sa &&& getReg t f.sb)
  | .or w f => some (w, f.sd, f.sc = 0, regWord 0x00 0x04 f, fun t => getReg t f.sa ||| getReg t f.sb)
  | .xor w f => some (w, f.sd, f.sc = 0, regWord 0x00 0x05 f, fun t => getReg t f.sa ^^^ getReg t f.sb)
  | .shl w f => some (w, f.sd, f.sc = 0, regWord 0x00 0x06 f,
      fun t => .ofNat 64 ((getReg t f.sa).toNat * 2 ^ ((getReg t f.sb).toNat % 64)))
  | .shr w f => some (w, f.sd, f.sc = 0, regWord 0x00 0x07 f,
      fun t => .ofNat 64 ((getReg t f.sa).toNat / 2 ^ ((getReg t f.sb).toNat % 64)))
  | .sra w f => some (w, f.sd, f.sc = 0, regWord 0x00 0x08 f,
      fun t => .ofInt 64 ((getReg t f.sa).toInt / 2 ^ ((getReg t f.sb).toNat % 64)))
  | .mul w f => some (w, f.sd, f.sc = 0, regWord 0x00 0x09 f, fun t =>
      .ofNat 64 ((getReg t f.sa).toNat * (getReg t f.sb).toNat))
  | .mulh w f => some (w, f.sd, f.sc = 0, regWord 0x00 0x0a f,
      fun t => .ofInt 64 ((getReg t f.sa).toInt * (getReg t f.sb).toInt / 2 ^ 64))
  | .mulhu w f => some (w, f.sd, f.sc = 0, regWord 0x00 0x0b f,
      fun t => .ofNat 64 ((getReg t f.sa).toNat * (getReg t f.sb).toNat / 2 ^ 64))
  | .cmpeq w f => some (w, f.sd, f.sc = 0, regWord 0x00 0x0c f, fun t => truth (getReg t f.sa = getReg t f.sb))
  | .cmpne w f => some (w, f.sd, f.sc = 0, regWord 0x00 0x0d f, fun t => truth (getReg t f.sa ≠ getReg t f.sb))
  | .cmplt w f => some (w, f.sd, f.sc = 0, regWord 0x00 0x0e f, fun t =>
      truth ((getReg t f.sa).toInt < (getReg t f.sb).toInt))
  | .cmpltu w f => some (w, f.sd, f.sc = 0, regWord 0x00 0x0f f, fun t =>
      truth ((getReg t f.sa).toNat < (getReg t f.sb).toNat))
  | .cmpge w f => some (w, f.sd, f.sc = 0, regWord 0x00 0x10 f, fun t =>
      truth ((getReg t f.sa).toInt ≥ (getReg t f.sb).toInt))
  | .cmpgeu w f => some (w, f.sd, f.sc = 0, regWord 0x00 0x11 f, fun t =>
      truth ((getReg t f.sa).toNat ≥ (getReg t f.sb).toNat))
  | .sel w f => some (w, f.sd, true, regWord 0x00 0x12 f, fun t => if getReg t f.sc ≠ 0 then getReg t f.sa else
      getReg t f.sb)
  | _ => none

/-- The immediate forms of R142, which put the extended immediate in the place of sb, and LI and LIH of R145. -/
def immRow : Instr → Option Row
  | .addImmediate w f => some (w, f.sd, true, immWord 0x01 f, fun t => .ofInt 64 ((getReg t f.sa).toInt + f.imm.toInt))
  | .andImmediate w f => some (w, f.sd, true, immWord 0x02 f, fun t => getReg t f.sa &&& .ofNat 64 f.imm.toNat)
  | .orImmediate w f => some (w, f.sd, true, immWord 0x03 f, fun t => getReg t f.sa ||| .ofNat 64 f.imm.toNat)
  | .xorImmediate w f => some (w, f.sd, true, immWord 0x04 f, fun t => getReg t f.sa ^^^ .ofNat 64 f.imm.toNat)
  | .shlImmediate w f => some (w, f.sd, f.imm.toNat < 64, immWord 0x05 f,
      fun t => .ofNat 64 ((getReg t f.sa).toNat * 2 ^ f.imm.toNat))
  | .shrImmediate w f => some (w, f.sd, f.imm.toNat < 64, immWord 0x06 f,
      fun t => .ofNat 64 ((getReg t f.sa).toNat / 2 ^ f.imm.toNat))
  | .sraImmediate w f => some (w, f.sd, f.imm.toNat < 64, immWord 0x07 f,
      fun t => .ofInt 64 ((getReg t f.sa).toInt / 2 ^ f.imm.toNat))
  | .mulImmediate w f => some (w, f.sd, true, immWord 0x08 f, fun t => .ofInt 64 ((getReg t f.sa).toInt * f.imm.toInt))
  | .cmpeqImmediate w f => some (w, f.sd, true, immWord 0x09 f, fun t => truth ((getReg t f.sa).toInt = f.imm.toInt))
  | .cmpneImmediate w f => some (w, f.sd, true, immWord 0x0a f, fun t => truth ((getReg t f.sa).toInt ≠ f.imm.toInt))
  | .cmpltImmediate w f => some (w, f.sd, true, immWord 0x0b f, fun t => truth ((getReg t f.sa).toInt < f.imm.toInt))
  | .cmpltuImmediate w f => some (w, f.sd, true, immWord 0x0c f,
      fun t => truth ((getReg t f.sa).toNat < (BitVec.ofInt 64 f.imm.toInt).toNat))
  | .cmpgeImmediate w f => some (w, f.sd, true, immWord 0x0d f, fun t => truth ((getReg t f.sa).toInt ≥ f.imm.toInt))
  | .cmpgeuImmediate w f => some (w, f.sd, true, immWord 0x0e f,
      fun t => truth ((getReg t f.sa).toNat ≥ (BitVec.ofInt 64 f.imm.toInt).toNat))
  | .li w f => some (w, f.sd, f.sa = 0, immWord 0x10 f, fun _ => .ofInt 64 f.imm.toInt)
  | .lih w f => some (w, f.sd, f.sa.toNat < 4, immWord 0x11 f, fun t =>
      let q := f.sa.toNat
      (getReg t f.sd &&& ~~~(.ofNat 64 (0xffff * 2 ^ (16 * q)))) ||| .ofNat 64 (f.imm.toNat * 2 ^ (16 * q)))
  | _ => none

/-- What a scalar instruction of a row table does: its one register takes the result, PC moves on, and nothing else
changes beyond what the fetch leaves. -/
def scalarResult (row : Instr → Option Row) : Prop :=
  ∀ i w r ok v g s, row i = some (w, r, ok, v, g) → ok = true → issues s w →
    Runs i s (setThr (fetched s w) w
      (stepped (getThr s w) r (g (getThr s w)) (nextPc (getThr s w))))

/-- A field that must be zero and is not: ILLEGAL, INFO holds the word in [31:0] (R136, R166). -/
def scalarIllegal (row : Instr → Option Row) : Prop :=
  ∀ i w r ok v g s, row i = some (w, r, ok, v, g) → ok = false → fetches s w →
    ∃ t, Runs i s t ∧ faults s t w 0x01 (.ofNat 64 v) ∧ t.mem = s.mem

end Sys2Proof.Claims

/-- R144: each operation of major opcode 0x00, as the table gives it. -/
def Sys2Proof.Claims.AluRegisterForms : Prop := Sys2Proof.Claims.scalarResult Sys2Proof.Claims.aluRow

/-- R142 and R145: the immediate forms, LI and LIH. -/
def Sys2Proof.Claims.AluImmediateForms : Prop := Sys2Proof.Claims.scalarResult Sys2Proof.Claims.immRow

/-- R136, for the arithmetic instructions whose unused or zero-marked field is not zero. -/
def Sys2Proof.Claims.AluIllegalFields : Prop :=
  Sys2Proof.Claims.scalarIllegal Sys2Proof.Claims.aluRow ∧ Sys2Proof.Claims.scalarIllegal Sys2Proof.Claims.immRow

open Sys2Proof.Claims in
/-- R136, R142, R144, R145: the scalar arithmetic of registers and immediates, LI and LIH, and the word whose field
that must be zero is not. -/
def Obligations.ScalarArithmetic : Prop := AluRegisterForms ∧ AluImmediateForms ∧ AluIllegalFields

namespace Sys2Proof.Claims

/-! ## Special registers (R138 to R140) -/

/-- Numbers that MFS reads at once (R138). -/
def readableSpr (n : Nat) : Prop := n = 0x000 ∨ (0x004 ≤ n ∧ n ≤ 0x009) ∨ (0x010 ≤ n ∧ n ≤ 0x012)

/-- The value of a special register (R138). A deckhand has no core number, and TID [11:4] of one is free (log 1). -/
def sprValue (s : State) (w : ThreadRef) (n : Nat) (v : Dword) : Prop :=
  if n = 0x000 then
    dfld v 27 17 = s.modnum.toNat ∧ dfld v 63 28 = 0 ∧
    match w with
    | .core l c t => dfld v 3 0 = t.val ∧ dfld v 11 4 = c.val ∧ dfld v 16 12 = l.val
    | .deckhand l => dfld v 3 0 = 0 ∧ dfld v 16 12 = l.val
  else if n ≤ 0x007 then ∀ j < 64, v.getLsbD j = coreActive s (thrLand w) (64 * (n - 4) + j)
  else if n = 0x008 then v = .ofNat 64 (8 * (s.edges - (getLand s (thrLand w)).onEdge))
  else if n = 0x009 then v = s.time
  else if n = 0x010 then v.toNat = (getThr s w).prio.toNat
  else if n = 0x011 then v = (getThr s w).syncset
  else v = .ofNat 64 (getThr s w).posted.length

/-- The other threads and the memories are as they were. -/
def othersKept (s t : State) (w : ThreadRef) : Prop := (∀ u, u ≠ w → getThr t u = getThr s u) ∧ t.mem = s.mem

/-! ## Local memory (R148, R150) -/

/-- The little-endian number in n bytes of memory from a key (R148, R208). -/
def leValue (s : State) (k : Nat) : Nat → Nat
  | 0 => 0
  | n + 1 => (getByte s k).toNat + 256 * leValue s (k + 1) n

/-- A local access: thread, the register that is loaded or stored, its byte address, its size (R148). -/
abbrev LocalRow := ThreadRef × BitVec 5 × (Thread → Dword) × Nat

/-- Register plus sign-extended offset. -/
def addrOf (f : IForm) (t : Thread) : Dword := getReg t f.sa + .ofInt 64 f.imm.toInt

def loadRow : Instr → Option (LocalRow × (Nat → Dword))
  | .ldD w f => some ((w, f.sd, addrOf f, 8), fun x => .ofNat 64 x)
  | .ldW w f => some ((w, f.sd, addrOf f, 4), fun x => .ofInt 64 (BitVec.ofNat 32 x).toInt)
  | .ldWu w f => some ((w, f.sd, addrOf f, 4), fun x => .ofNat 64 x)
  | .ldHu w f => some ((w, f.sd, addrOf f, 2), fun x => .ofNat 64 x)
  | .ldBu w f => some ((w, f.sd, addrOf f, 1), fun x => .ofNat 64 x)
  | _ => none

def storeRow : Instr → Option LocalRow
  | .stD w f => some (w, f.sd, addrOf f, 8)
  | .stW w f => some (w, f.sd, addrOf f, 4)
  | .stH w f => some (w, f.sd, addrOf f, 2)
  | .stB w f => some (w, f.sd, addrOf f, 1)
  | _ => none

/-- The checks of a local access pass, in R148's order. A store of 8 bytes does not look at the word's old content. -/
def localOk (s : State) (w : ThreadRef) (a n : Nat) (whole : Bool) : Prop :=
  a < 0x20000 ∧ a % n = 0 ∧ (whole = true ∨ uncorrectable s (unitBase (localKey w a)) = false)

/-! ## Branches (R146) -/

/-- A branch: thread, whether the fields that must be zero are, the link register with its value if it writes one, and
the next PC. -/
abbrev BranchRow := ThreadRef × Bool × Option (BitVec 5) × (Thread → Option Nat)

/-- Target of a conditional branch, none where it falls through. -/
def condTo (f : IForm) (p : Dword → Dword → Prop) [∀ a b, Decidable (p a b)] (t : Thread) : Option Nat :=
  if p (getReg t f.sd) (getReg t f.sa) then some (branchTo t f.imm) else none

def branchRow : Instr → Option BranchRow
  | .br w f => some (w, f.sd = 0 ∧ f.sa = 0, none, fun t => some (branchTo t f.imm))
  | .call w f => some (w, f.sa = 0, some f.sd, fun t => some (branchTo t f.imm))
  | .beq w f => some (w, true, none, condTo f fun a b => a = b)
  | .bne w f => some (w, true, none, condTo f fun a b => a ≠ b)
  | .blt w f => some (w, true, none, condTo f fun a b => a.toInt < b.toInt)
  | .bge w f => some (w, true, none, condTo f fun a b => a.toInt ≥ b.toInt)
  | .bltu w f => some (w, true, none, condTo f fun a b => a.toNat < b.toNat)
  | .bgeu w f => some (w, true, none, condTo f fun a b => a.toNat ≥ b.toNat)
  | _ => none

end Sys2Proof.Claims

open Sys2Proof.Claims in
/-- R138: MFS of each readable special register; CYCLE's unit is the model's (log 34), and bits of a deckhand's TID
are free (log 1). -/
def Sys2Proof.Claims.SpecialRegisterReads : Prop :=
  ∀ w sd n s, readableSpr n → issues s w →
    ∃ v t, sprValue s w n v ∧ Runs (.mfs w ⟨sd, 0, .ofNat 16 n⟩) s t ∧
      getThr t w = stepped (getThr s w) sd v (nextPc (getThr s w)) ∧ othersKept s t w

open Sys2Proof.Claims in
/-- R138, R140: MTS of TPRIO and SYNCSET, and TPRIO by its own row; R139: MFS and MTS of a number that is in no table
or may not be read, or written, fault with SPR and the number. -/
def Sys2Proof.Claims.SpecialRegisterWrites : Prop :=
  ∀ w (sa sd : BitVec 5) (n : BitVec 12) s,
    let t := getThr s w
    (issues s w →
      Runs (.mts w ⟨0, sa, 0x010⟩) s
        (setThr (fetched s w) w { t with prio := (getReg t sa).setWidth 2, pc := .ofNat 15 (nextPc t) }) ∧
      Runs (.tprio w sa) s
        (setThr (fetched s w) w { t with prio := (getReg t sa).setWidth 2, pc := .ofNat 15 (nextPc t) }) ∧
      Runs (.mts w ⟨0, sa, 0x011⟩) s
        (setThr (fetched s w) w { t with syncset := getReg t sa, pc := .ofNat 15 (nextPc t) })) ∧
    (fetches s w → ¬ isDeckhand w →
      (¬ readableSpr n.toNat → n ≠ 0x020 →
        ∃ u, Runs (.mfs w ⟨sd, 0, n.setWidth 16⟩) s u ∧ faults s u w 0x0e (n.setWidth 64) ∧ u.mem = s.mem) ∧
      (n ≠ 0x010 → n ≠ 0x011 → n ≠ 0x021 →
        ∃ u, Runs (.mts w ⟨0, sa, n.setWidth 16⟩) s u ∧ faults s u w 0x0e (n.setWidth 64) ∧ u.mem = s.mem))

open Sys2Proof.Claims in
/-- R138 to R140: MFS, MTS and TPRIO, and the numbers that they fault on. -/
def Obligations.SpecialRegisters : Prop := SpecialRegisterReads ∧ SpecialRegisterWrites

open Sys2Proof.Claims in
/-- R148, R150: LD.D, LD.W, LD.WU, LD.HU, LD.BU. A correctable error of the word is corrected and counted. -/
def Sys2Proof.Claims.LocalLoads : Prop :=
  ∀ i w r a n ext s, loadRow i = some ((w, r, a, n), ext) → issues s w →
    localOk s w (a (getThr s w)).toNat n false →
    let k := localKey w (a (getThr s w)).toNat
    Runs i s
      (setThr (correctWord (fetched s w) w (unitBase k)) w
        (stepped (getThr s w) r (ext (leValue s k n)) (nextPc (getThr s w))))

open Sys2Proof.Claims in
/-- R148, R150: ST.D, ST.W, ST.H, ST.B. The n bytes at the address take the low bytes of sd, every other byte of every
memory stays, the thread changes its PC alone, and ST.D leaves no error in the word. -/
def Sys2Proof.Claims.LocalStores : Prop :=
  ∀ i w r a n s, storeRow i = some (w, r, a, n) → issues s w →
    localOk s w (a (getThr s w)).toNat n (n == 8) →
    let k := localKey w (a (getThr s w)).toNat
    ∃ t, Runs i s t ∧
      (∀ j, j < n → (getByte t (k + j)).toNat = (getReg (getThr s w) r).toNat / 256 ^ j % 256) ∧
      (∀ x, x < k ∨ k + n ≤ x → getByte t x = getByte s x) ∧
      getThr t w = { getThr s w with pc := .ofNat 15 (nextPc (getThr s w)) } ∧
      (∀ u, u ≠ w → getThr t u = getThr s u) ∧
      (n = 8 → uncorrectable t (unitBase k) = false)

open Sys2Proof.Claims in
/-- R148: the checks of a local access run in order: LOCAL_RANGE, then LOCAL_ALIGN, then LOCAL_ECC (R150: a load, or a
store of less than the word), each with the byte address, and nothing is read or written. -/
def Sys2Proof.Claims.LocalFaults : Prop :=
  ∀ i w r a n s (load : Bool),
    (if load then (loadRow i).map Prod.fst = some (w, r, a, n) else storeRow i = some (w, r, a, n)) →
    fetches s w →
    let x := a (getThr s w)
    let f := fun code => ∃ t, Runs i s t ∧ faults s t w code x ∧ t.mem = s.mem
    (0x20000 ≤ x.toNat → f 0x05) ∧
    (x.toNat < 0x20000 → x.toNat % n ≠ 0 → f 0x04) ∧
    (x.toNat < 0x20000 → x.toNat % n = 0 → (load = true ∨ n < 8) →
      uncorrectable s (unitBase (localKey w x.toNat)) = true → f 0x06)

open Sys2Proof.Claims in
/-- R148, R150: local loads and stores, and the checks that turn them away. -/
def Obligations.LocalMemory : Prop := LocalLoads ∧ LocalStores ∧ LocalFaults

open Sys2Proof.Claims in
/-- R146: BR, CALL, the conditional branches and RET; R146 also: RET to a value of more than 15 bits faults with
ILLEGAL and that value. -/
def Sys2Proof.Claims.Branches : Prop :=
  (∀ i w ok link next s, branchRow i = some (w, ok, link, next) → ok = true → fetches s w →
    let t := getThr s w
    (∀ p, next t = some p →
      Runs i s (setThr (fetched s w) w
        (match link with
         | some r => stepped t r (.ofNat 64 (nextPc t)) p
         | none => { t with pc := .ofNat 15 p }))) ∧
    (next t = none → nextPc t < 32768 →
      Runs i s (setThr (fetched s w) w { t with pc := .ofNat 15 (nextPc t) }))) ∧
  (∀ w (sa : BitVec 5) s, fetches s w →
    let v := getReg (getThr s w) sa
    (v.toNat < 32768 → Runs (.ret w ⟨0, sa, 0,
      0⟩) s (setThr (fetched s w) w { getThr s w with pc := .ofNat 15 v.toNat })) ∧
    (32768 ≤ v.toNat → ∃ t, Runs (.ret w ⟨0, sa, 0, 0⟩) s t ∧ faults s t w 0x01 v ∧ t.mem = s.mem))

open Sys2Proof.Claims in
/-- R147: an instruction at word 32,767 that completes without a taken branch faults with PC_END there; shown for the
arithmetic rows, LI, LIH and the branches that fall through. INFO is free (log 1). -/
def Sys2Proof.Claims.PcEnd : Prop :=
  ∀ i w s, fetches s w → (getThr s w).pc.toNat = 32767 →
    ((∃ r v g, aluRow i = some (w, r, true, v, g) ∨ immRow i = some (w, r, true, v, g)) ∨
      ∃ link next, branchRow i = some (w, true, link, next) ∧ next (getThr s w) = none) →
    ∃ t, Runs i s t ∧ (getThr t w).st = .fault ∧ (getThr t w).fcode = 0x03 ∧ (getThr t w).fpc = 32767 ∧
      (getThr t w).pc = 32767 ∧ othersKept s t w

open Sys2Proof.Claims in
/-- R146, R147: branches, CALL and RET, and the end of scalar memory. -/
def Obligations.ControlFlow : Prop := Branches ∧ PcEnd

open Sys2Proof.Claims in
/-- R160: YIELD leaves the thread READY and passed over until its back-off ends, and YIELD_EXPIRY ends it; TRAP faults
with TRAP and the code zero-extended. -/
def Sys2Proof.Claims.YieldAndTrap : Prop :=
  ∀ w (imm : BitVec 16) s,
    (issues s w → ∃ t, Runs (.yield w 0 imm) s t ∧
      getThr t w = { getThr s w with yielding := true, pc := .ofNat 15 (nextPc (getThr s w)) } ∧
      mayIssue t w = false ∧ othersKept s t w) ∧
    ((getThr s w).yielding = true →
      Runs (.yieldExpiry w) s (setThr s w { getThr s w with yielding := false })) ∧
    (fetches s w → ∃ t, Runs (.trap w 0 imm) s t ∧ faults s t w 0x11 (imm.setWidth 64) ∧ othersKept s t w)

open Sys2Proof.Claims in
/-- R159, R161: FENCE completes at once where nothing it names is outstanding and else holds the thread in READY,
passed over; TASK_END with nothing outstanding, no tile held and a clean SYNCSET leaves the thread IDLE with its
registers; with a tile it faults with TILE_HELD and the handle, and else, where SYNCSET is not clean, with
DIRTY_SYNC. -/
def Sys2Proof.Claims.FenceAndTaskEnd : Prop :=
  ∀ w (imm : BitVec 16) s, issues s w → imm.toNat < 4 →
    let t := getThr s w
    let gw := imm.getLsbD 0
    let eng := imm.getLsbD 1
    let done := (gw = true → t.posted = []) ∧ (eng = true → engineBusy s w = false)
    (done → Runs (.fence w 0 imm) s (setThr (fetched s w) w { t with pc := .ofNat 15 (nextPc t) })) ∧
    (¬ done → ∃ u, Runs (.fence w 0 imm) s u ∧
      getThr u w = { t with hold := .fence gw eng } ∧ mayIssue u w = false ∧ othersKept s u w) ∧
    (t.posted = [] → engineBusy s w = false →
      (t.tile = none → dirtySync s w = none →
        Runs (.taskEnd w 0 0) s (setThr (fetched s w) w { t with st := .idle })) ∧
      (∀ h, t.tile = some h → ∃ u, Runs (.taskEnd w 0 0) s u ∧ faults s u w 0x10 h ∧ othersKept s u w) ∧
      (∀ n, t.tile = none → dirtySync s w = some n →
        ∃ u, Runs (.taskEnd w 0 0) s u ∧ faults s u w 0x13 (.ofNat 64 n) ∧ othersKept s u w))

open Sys2Proof.Claims in
/-- R159 to R161: YIELD, TRAP, FENCE and TASK_END. -/
def Obligations.ThreadControl : Prop := YieldAndTrap ∧ FenceAndTaskEnd

namespace Sys2Proof.Claims

/-! ## Global accesses (R152 to R156) -/

/-- The access that a thread of this module starts, numbered by the model's own count. -/
def threadAccess (s : State) (w : ThreadRef) (k : AKind) (a : Dword) (r : BitVec 5) : Access :=
  ⟨s.nextId, .thread w, k, a, none, none, (getThr s w).pc, r, false, none, none⟩

/-- The access is in flight. -/
def inFlight (s : State) (a : Access) : State := { s with accs := s.accs ++ [a], nextId := s.nextId + 1 }

def gloadRow : Instr → Option (ThreadRef × IForm × Nat)
  | .ldGD w f => some (w, f, 8)
  | .ldGW w f => some (w, f, 4)
  | _ => none

def gstoreRow : Instr → Option (ThreadRef × IForm × Nat)
  | .stGD w f => some (w, f, 8)
  | .stGW w f => some (w, f, 4)
  | _ => none

def gamoRow : Instr → Option (ThreadRef × RForm × Nat × Nat)
  | .amoaddD w f => some (w, f, 8, 0)
  | .amoaddW w f => some (w, f, 4, 1)
  | _ => none

/-- The fault code of an access's failure (R152, R164). A frame lost on the way counts as poison (R152). -/
def failCode : AStatus → Option Nat
  | .ok => none
  | .address => some 0x08
  | .domainOff => some 0x09
  | .windowClosed => some 0x0a
  | .poison => some 0x0b
  | .lost => some 0x0b
  | .amoSpace => some 0x0d

/-- The result of an access stands for a thread. -/
def answered (s : State) (id : Nat) (a : Access) (w : ThreadRef) (r : AResult) : Prop :=
  findAccess s id = some a ∧ a.src = .thread w ∧ a.res = some r

/-- Why a post to a thread is refused, in R113's order, 0 where it is not: an inactive core, an array that is OFF,
quarantine, a thread that is not IDLE, a thread that KILL finds without a fault. -/
def postWhy (s : State) (l : Fin 32) (c : Fin 256) (t : Fin 16) (kill : Bool) : Nat :=
  let x := getThr s (.core l c t)
  if coreActive s l.val c.val = false then 2
  else if domState s l.val = 0 then 6
  else if quarantined s l.val = true then 3
  else if kill = false ∧ (x.st ≠ .idle ∨ x.due = true) then 1
  else if kill = true ∧ x.st ≠ .fault then 5
  else 0

/-- The thread's posted accesses without one. -/
def without (t : Thread) (id : Nat) : List Nat := t.posted.filter (· ≠ id)

end Sys2Proof.Claims

open Sys2Proof.Claims in
/-- R152, R153, R154, R156: global loads and AMOADD start an access and wait with WREASON 0x4; a global store starts
one and the thread goes on; an address that is not aligned faults with GLOBAL_ALIGN at issue and starts nothing; a
ninth posted access does not issue; an AMOADD whose SC is not zero faults with ILLEGAL (R136). -/
def Obligations.GlobalIssue : Prop :=
  (∀ i w f n s, gloadRow i = some (w, f, n) → fetches s w →
    let t := getThr s w
    let a := addrOf f t
    (a.toNat % n = 0 →
      Runs i s (setThr (inFlight (fetched s w) (threadAccess s w (.read n) a f.sd)) w
        { t with st := .wait, wait := .response s.nextId })) ∧
    (a.toNat % n ≠ 0 → ∃ u, Runs i s u ∧ faults s u w 0x07 a ∧ u.accs = s.accs)) ∧
  (∀ i w f n s, gstoreRow i = some (w, f, n) → issues s w → (getThr s w).posted.length < 8 →
    let t := getThr s w
    let a := addrOf f t
    (a.toNat % n = 0 →
      Runs i s (setThr (inFlight (fetched s w) (threadAccess s w (.write (leBytes n (getReg t f.sd).toNat)) a 0)) w
        { t with posted := t.posted ++ [s.nextId], pc := .ofNat 15 (nextPc t) })) ∧
    (a.toNat % n ≠ 0 → ∃ u, Runs i s u ∧ faults s u w 0x07 a ∧ u.accs = s.accs)) ∧
  (∀ i w f n s, gstoreRow i = some (w, f, n) → 8 ≤ (getThr s w).posted.length → Runs i s s) ∧
  (∀ i w f n fn s, gamoRow i = some (w, f, n, fn) → 8 ≤ (getThr s w).posted.length → Runs i s s) ∧
  (∀ i w f n fn s, gamoRow i = some (w, f, n, fn) → fetches s w → f.sc ≠ 0 → (getThr s w).posted.length < 8 →
    ∃ u, Runs i s u ∧ faults s u w 0x01 (.ofNat 64 (regWord 0x24 fn f)) ∧ u.accs = s.accs) ∧
  (∀ i w f n fn s, gamoRow i = some (w, f, n, fn) → fetches s w → f.sc = 0 → (getThr s w).posted.length < 8 →
    let t := getThr s w
    let a := getReg t f.sa
    (a.toNat % n = 0 →
      Runs i s (setThr (inFlight (fetched s w) (threadAccess s w (.amo n (getReg t f.sb)) a f.sd)) w
        { t with st := .wait, wait := .response s.nextId, posted := t.posted ++ [s.nextId] })) ∧
    (a.toNat % n ≠ 0 → ∃ u, Runs i s u ∧ faults s u w 0x07 a ∧ u.accs = s.accs))

open Sys2Proof.Claims in
/-- R153, R155, R156, R165: the response of a load or AMOADD writes sd and the thread goes on, or faults precisely
with the code of R164; a posted store that completes is no longer outstanding, or leaves a deferred fault with its
own PC and address; GTIMEOUT does the same for an access without response, with its own code. -/
def Obligations.GlobalCompletion : Prop :=
  (∀ id a w r s, answered s id a w r → (∀ d, a.kind ≠ .write d) → a.id = id →
    (getThr s w).wait = .response id → (getThr s w).st = .wait → (getThr s w).pc.toNat + 1 < 32768 →
    let t := getThr s w
    let accs := s.accs.filter fun b => b.id ≠ id
    (failCode r.status = none →
      Runs (.globalResponse id) s (setThr { s with accs := accs } w
        (stepped { t with st := .ready, wait := .none, posted := without t id } a.sd
          (.ofNat 64 (leNat r.data)) (nextPc t)))) ∧
    (∀ c, failCode r.status = some c → ∃ u, Runs (.globalResponse id) s u ∧
      faults s (setThr u w { getThr u w with posted := t.posted }) w c a.addr ∧ u.accs = accs ∧
      (getThr u w).posted = without t id)) ∧
  (∀ id a w r d s, answered s id a w r → a.kind = .write d → a.id = id → (getThr s w).wait ≠ .response id →
    id ∈ (getThr s w).posted → (getThr s w).hold = .none → (getThr s w).st ≠ .fault →
    let t := getThr s w
    let accs := s.accs.filter fun b => b.id ≠ id
    (failCode r.status = none →
      Runs (.globalStoreCompletion id) s (setThr { s with accs := accs } w { t with posted := without t id })) ∧
    (∀ c, failCode r.status = some c → ∃ u, Runs (.globalStoreCompletion id) s u ∧ u.accs = accs ∧
      getThr u w =
        { t with
          st := .fault, wait := .none, yielding := false, posted := without t id, fcode := .ofNat 8 c,
          deferred := true, more := false, fpc := a.pc, info := a.addr })) ∧
  (∀ id a w s, findAccess s id = some a → a.src = .thread w → a.res = none → a.id = id →
    (getThr s w).wait = .response id → (getThr s w).st = .wait →
    ∃ u, Runs (.gtimeout id) s u ∧ (getThr u w).st = .fault ∧ (getThr u w).fcode = 0x0c ∧
      (getThr u w).info = a.addr ∧ (getThr u w).deferred = false ∧
      (getThr u w).fpc = (getThr s w).pc ∧ u.accs = s.accs.filter fun b => b.id ≠ id)

open Sys2Proof.Claims in
/-- R106, R107, R112, R113: an accepted TASK_POST starts the thread at ENTRY with PRIO, s1 the argument, s2 the
landing and core, s3 the thread, every other register zero, READY at once while the array is ON, and else when it
returns to ON; an accepted KILL_POST takes a faulted thread to IDLE with its record clear. A post that is refused
leaves the threads, with REFUSED and WHY in LC.TPSTAT: by R113's order, or CMD_OVERRULED for a deckhand's post that
met the harbourmaster's. A post of another master leaves the threads, and counts in LC.TPSTAT. -/
def Obligations.Posts : Prop :=
  ∀ m (l : Fin 32) (c : Fin 256) (t : Fin 16) prio entry arg s,
    let w := ThreadRef.core l c t
    let refused := fun i (why : Nat) => ∃ u, Runs i s u ∧ u.threads = s.threads ∧ u.mem = s.mem ∧
      rdFld u (rTpstat l.val) 0 0 = 1 ∧ rdFld u (rTpstat l.val) 3 1 = why
    absentLand s l.val = false → domState s (32 + l.val) ≠ 0 →
    (∀ met, ((m = .hm) ∨ (m = .deckhand l ∧ met = false)) →
      (postWhy s l c t false = 0 →
        ∃ u, Runs (.taskPost m l c t prio entry arg met) s (setThr s w u) ∧
          (domState s l.val = 2 → u.st = .ready) ∧ (domState s l.val ≠ 2 → u.st = .idle ∧ u.due = true) ∧
          u.pc = entry ∧ u.prio = prio ∧ u.syncset = 0 ∧ u.wait = .none ∧ u.posted = [] ∧ u.tile = none ∧
          ∀ r, getReg u r =
            if r = 1 then arg.setWidth 64 else if r = 2 then .ofNat 64 (256 * l.val + c.val)
            else if r = 3 then .ofNat 64 t.val else 0) ∧
      (postWhy s l c t true = 0 →
        ∃ u, Runs (.killPost m l c t prio entry arg met) s (setThr s w u) ∧
          u.st = .idle ∧ u.fcode = 0 ∧ u.info = 0 ∧ u.deferred = false ∧ u.more = false ∧ u.tile = none ∧
          u.regs = (getThr s w).regs) ∧
      (postWhy s l c t false ≠ 0 → refused (.taskPost m l c t prio entry arg met) (postWhy s l c t false)) ∧
      (postWhy s l c t true ≠ 0 → refused (.killPost m l c t prio entry arg met) (postWhy s l c t true))) ∧
    (m = .deckhand l →
      refused (.taskPost m l c t prio entry arg true) 4 ∧ refused (.killPost m l c t prio entry arg true) 4) ∧
    (m ≠ .hm → m ≠ .deckhand l → ∀ met (kill : Bool), ∃ u,
      Runs (if kill then .killPost m l c t prio entry arg met else .taskPost m l c t prio entry arg met) s u ∧
      u.threads = s.threads ∧ u.mem = s.mem ∧
      rdFld u (rTpstat l.val) 23 16 = min 255 (rdFld s (rTpstat l.val) 23 16 + 1))

namespace Sys2Proof.Claims

/-! ## Engine commands (R168 to R178, R202) -/

/-- A command's fields with IMM[hi:lo] given (R170, R191, R194). -/
def imm (f : EForm) (hi lo v : Nat) : EForm := { f with imm := .ofNat 18 (putBits f.imm.toNat hi lo v) }

/-- The queued commands: thread, OP, fields, queue (R170). -/
def engRow : Instr → Option (ThreadRef × BitVec 6 × EForm × Eng)
  | .mma w f => some (w, 0x30, f, .mtx)
  | .mld w f => some (w, 0x31, f, .mtx)
  | .mdr w f => some (w, 0x32, f, .mtx)
  | .mz w f => some (w, 0x33, f, .mtx)
  | .vopCopy w f => some (w, 0x34, imm f 7 0 0x01, .vec)
  | .vopAdd w f => some (w, 0x34, imm f 7 0 0x02, .vec)
  | .vopSub w f => some (w, 0x34, imm f 7 0 0x03, .vec)
  | .vopMul w f => some (w, 0x34, imm f 7 0 0x04, .vec)
  | .vopFma w f => some (w, 0x34, imm f 7 0 0x05, .vec)
  | .vopAxs w f => some (w, 0x34, imm f 7 0 0x06, .vec)
  | .vopAxsb w f => some (w, 0x34, imm f 7 0 0x07, .vec)
  | .vopMax w f => some (w, 0x34, imm f 7 0 0x08, .vec)
  | .vopMin w f => some (w, 0x34, imm f 7 0 0x09, .vec)
  | .vopAbs w f => some (w, 0x34, imm f 7 0 0x0a, .vec)
  | .vopNeg w f => some (w, 0x34, imm f 7 0 0x0b, .vec)
  | .vopCmpgt w f => some (w, 0x34, imm f 7 0 0x0c, .vec)
  | .vopCmpge w f => some (w, 0x34, imm f 7 0 0x0d, .vec)
  | .vopCmpeq w f => some (w, 0x34, imm f 7 0 0x0e, .vec)
  | .vopSel w f => some (w, 0x34, imm f 7 0 0x0f, .vec)
  | .vopExp w f => some (w, 0x34, imm f 7 0 0x20, .vec)
  | .vopExp2 w f => some (w, 0x34, imm f 7 0 0x21, .vec)
  | .vopLog w f => some (w, 0x34, imm f 7 0 0x22, .vec)
  | .vopLog2 w f => some (w, 0x34, imm f 7 0 0x23, .vec)
  | .vopRcp w f => some (w, 0x34, imm f 7 0 0x24, .vec)
  | .vopSqrt w f => some (w, 0x34, imm f 7 0 0x25, .vec)
  | .vopRsqrt w f => some (w, 0x34, imm f 7 0 0x26, .vec)
  | .vopTanh w f => some (w, 0x34, imm f 7 0 0x27, .vec)
  | .vopSigmoid w f => some (w, 0x34, imm f 7 0 0x28, .vec)
  | .vopSilu w f => some (w, 0x34, imm f 7 0 0x29, .vec)
  | .vopGelu w f => some (w, 0x34, imm f 7 0 0x2a, .vec)
  | .vopSin w f => some (w, 0x34, imm f 7 0 0x2b, .vec)
  | .vopCos w f => some (w, 0x34, imm f 7 0 0x2c, .vec)
  | .vopDiv w f => some (w, 0x34, imm f 7 0 0x2d, .vec)
  | .vopNrsqrt w f => some (w, 0x34, imm f 7 0 0x2e, .vec)
  | .vopSwiglu w f => some (w, 0x34, imm f 7 0 0x2f, .vec)
  | .vopRsub w f => some (w, 0x34, imm f 7 0 0x30, .vec)
  | .vopRmul w f => some (w, 0x34, imm f 7 0 0x31, .vec)
  | .vopRdiv w f => some (w, 0x34, imm f 7 0 0x32, .vec)
  | .vopRexpsub w f => some (w, 0x34, imm f 7 0 0x33, .vec)
  | .vopRscale w f => some (w, 0x34, imm f 7 0 0x34, .vec)
  | .pickge w f => some (w, 0x34, imm f 7 0 0x40, .vec)
  | .vcvt w f => some (w, 0x35, f, .vec)
  | .vtab w f => some (w, 0x36, f, .vec)
  | .redSum w f => some (w, 0x37, imm f 2 0 0, .red)
  | .redMax w f => some (w, 0x37, imm f 2 0 1, .red)
  | .redMin w f => some (w, 0x37, imm f 2 0 2, .red)
  | .redMaxi w f => some (w, 0x37, imm f 2 0 3, .red)
  | .redMini w f => some (w, 0x37, imm f 2 0 4, .red)
  | .pack w f => some (w, 0x38, imm f 17 17 0, .vec)
  | .unpk w f => some (w, 0x38, imm f 17 17 1, .vec)
  | .rowfill w f => some (w, 0x39, imm f 17 17 0, .bank)
  | .rowcopy w f => some (w, 0x39, imm f 17 17 1, .bank)
  | .strm w f => some (w, 0x3a, f, .se)
  | .rearm w f => some (w, 0x3b, f, .se)
  | _ => none

/-- A core's thread issues an engine command: both words can be fetched, the next word lies inside scalar memory, and
every field that must be zero is (R136, R147, R150, R171). -/
def cmdFetches (s : State) (w : ThreadRef) (op : BitVec 6) (f : EForm) : Prop :=
  mayIssue s w = true ∧ fetchBad s w 0 = false ∧ fetchBad s w 1 = false ∧ (getThr s w).pc.toNat + 2 < 32768 ∧
    illegalE op.toNat f = false

/-- What the fetch of both words leaves. -/
def cmdFetched (s : State) (w : ThreadRef) : State :=
  correctWord (fetched s w) w (unitBase (localKey w (4 * ((getThr s w).pc.toNat + 1))))

/-- The command as its queue holds it, with the registers read at issue (R172). -/
def asQueued (s : State) (w : ThreadRef) (t : Nat) (op : BitVec 6) (f : EForm) : EngCmd :=
  let r := getReg (getThr s w)
  { op := op, thr := .ofNat 4 t, pc := (getThr s w).pc, wctr := f.wctr, mark := (r f.wmr).setWidth 48
    sctr := f.sctr, sinc := f.sinc, imm := f.imm, ra := r f.ra, rb := r f.rb, rc := r f.rc }

/-- The checks of R202 that a queued command runs, as REASON with whether it fails. -/
def cmdChecks (s : State) (w : ThreadRef) (t : Nat) (op : BitVec 6) (f : EForm) : List (Nat × Bool) :=
  checksCommon f (getReg (getThr s w) f.wmr) ++ checksOf (asQueued s w t op f)

/-- The refusal word: REASON in [7:0], OP in [13:8], word 1 in [47:16] (R202). -/
def refusal (op : BitVec 6) (f : EForm) (reason : Nat) : Dword :=
  .ofNat 64 (reason + op.toNat * 2 ^ 8 +
    (f.sctr.toNat * 2 ^ 26 + f.sinc.toNat * 2 ^ 18 + f.imm.toNat) * 2 ^ 16)

/-- A thread past an engine command's two words. -/
def pastCmd (t : Thread) : Thread := { t with pc := .ofNat 15 (t.pc.toNat + 2) }

/-- The first word of an engine command (R171). -/
def firstWord (op : BitVec 6) (f : EForm) : Nat :=
  op.toNat * 2 ^ 26 + f.wctr.toNat * 2 ^ 20 + f.wmr.toNat * 2 ^ 15 + f.ra.toNat * 2 ^ 10 + f.rb.toNat * 2 ^ 5 +
    f.rc.toNat

/-- A core's queue with a command at its end; the wait watchdog times one that becomes the head (R177, R349). -/
def enqueued (s : State) (l c : Nat) (k : Core) (e : Eng) (cmd : EngCmd) : Core :=
  let q := getQueue k e
  setQueue k e
    { q with
      cmds := q.cmds ++ [cmd]
      since := if q.cmds = [] then runEdges s l else q.since
      limit := if q.cmds = [] then wdogEdges s l else q.limit
      met := if q.cmds = [] then decide (cmd.wctr = 0x3f ∨ cmd.mark.toNat ≤ ctrEff (getCtr s l c cmd.wctr.toNat)) else
        q.met }

/-- The head of an engine's queue, which the wait watchdog has not discarded. -/
def headCmd (s : State) (k : CoreRef) (e : Eng) (cmd : EngCmd) (rest : List EngCmd) (running : Bool) : Prop :=
  let q := getQueue (getCore s k.land.val k.core.val) e
  q.cmds = cmd :: rest ∧ q.running = running ∧ q.discard = false

/-- A scratchpad row and its poison as a reader sees them. -/
def rowOf (s : State) (k : CoreRef) (r : Nat) : List Byte × Bool := rowData s k.land.val k.core.val r

/-- From s to u the head has left the queue; what follows waits, or runs where it started behind the head (R181). -/
def headless (s u : State) (k : CoreRef) (e : Eng) (rest : List EngCmd) : Prop :=
  let q := getQueue (getCore u k.land.val k.core.val) e
  let n := (getQueue (getCore s k.land.val k.core.val) e).ahead
  q.cmds = rest ∧ (q.running = true ↔ n ≠ 0) ∧ q.ahead = n - 1 ∧ q.discard = false

/-- Some row that a command writes is held by a running MMA (R183). -/
def rowsHeld (s : State) (k : CoreRef) (cmd : EngCmd) : Prop :=
  ∃ r ∈ cmd.dstRanges, ∃ h ∈ heldRows s k.land.val k.core.val, r.1 ≤ h ∧ h < r.1 + r.2

/-- A byte lies in one of n scratchpad rows from row r. -/
def inRows (k : CoreRef) (r n key : Nat) : Prop :=
  rowKey k.land.val k.core.val r ≤ key ∧ key < rowKey k.land.val k.core.val r + 512 * n

end Sys2Proof.Claims

open Sys2Proof.Claims in
/-- R168, R172: the 45 queued commands. With a free place and no failed check the command stands at the end of its
engine's queue with the registers it read, and PC is past its two words; with a full queue the thread waits with
WREASON 0x3; a failed check is the precise fault ENGINE with the refusal word of the lowest REASON (R202; log 41 says
which ranges the checks look at). A field that must be zero and is not, and any such command of a deckhand, faults
with ILLEGAL (R136). -/
def Sys2Proof.Claims.EngineIssue : Prop :=
  (∀ i w op f e s, engRow i = some (w, op, f, e) → fetches s w →
    (isDeckhand w = true ∨
      (fetchBad s w 1 = false ∧ (getThr s w).pc.toNat ≠ 32767 ∧ illegalE op.toNat f = true)) →
    ∃ u, Runs i s u ∧ faults s u w 0x01 (.ofNat 64 (firstWord op f)) ∧ othersKept s u w) ∧
  ∀ i l c t op f e s, engRow i = some (.core l c t, op, f, e) →
    let w := ThreadRef.core l c t
    let u := cmdFetched s w
    let k := getCore u l.val c.val
    cmdFetches s w op f →
    ((getQueue k e).cmds.length < 16 → firstReason (cmdChecks s w t.val op f) = none →
      Runs i s (setThr (setCore u l.val c.val (enqueued u l.val c.val k e (asQueued s w t.val op f))) w (pastCmd (getThr s w)))) ∧
    (16 ≤ (getQueue k e).cmds.length →
      Runs i s (setThr u w { getThr s w with st := .wait, wait := .queue op f })) ∧
    (∀ r, (getQueue k e).cmds.length < 16 → firstReason (cmdChecks s w t.val op f) = some r →
      ∃ v, Runs i s v ∧ faults s v w 0x14 (refusal op f r) ∧ othersKept s v w)

open Sys2Proof.Claims in
/-- R168: the command of a thread that waits for a place enters once one is free, or is refused then. R202: REASON is
the lowest code of the checks that fail. -/
def Sys2Proof.Claims.EngineIssueLater : Prop :=
  (∀ l c t op f e s,
    let w := ThreadRef.core l c t
    (getThr s w).wait = .queue op f → engineOf op.toNat = some e → arrayOn s l.val = true →
    (getQueue (getCore s l.val c.val) e).cmds.length < 16 → (getThr s w).pc.toNat + 2 < 32768 →
    (firstReason (cmdChecks s w t.val op f) = none →
      Runs (.queueFullIssue w) s
        (setThr (setCore s l.val c.val (enqueued s l.val c.val (getCore s l.val c.val) e (asQueued s w t.val op f))) w
          (pastCmd { getThr s w with st := .ready, wait := .none }))) ∧
    (∀ r, firstReason (cmdChecks s w t.val op f) = some r →
      ∃ u, Runs (.queueFullIssue w) s u ∧ faults s u w 0x14 (refusal op f r) ∧ othersKept s u w)) ∧
  (∀ cs : List (Nat × Bool),
    (firstReason cs = none ↔ ∀ x ∈ cs, x.2 = false) ∧
    ∀ r, firstReason cs = some r ↔ (r, true) ∈ cs ∧ ∀ q, (q, true) ∈ cs → r ≤ q)

open Sys2Proof.Claims in
/-- R142, R144, R160, R170: a reserved OP, FN or SYS sub-operation faults with ILLEGAL and the word (R136); a VOP or
RED with a reserved operation code and no lower failed check is refused with SUBOP (R202). -/
def Sys2Proof.Claims.ReservedInstructions : Prop :=
  (∀ w w0 w1 s, reservedScalar w0 = true → fetches s w →
    ∃ u, Runs (.reservedInstruction w w0 w1) s u ∧ faults s u w 0x01 (w0.setWidth 64) ∧ othersKept s u w) ∧
  (∀ l c t w0 w1 s, reservedScalar w0 = false → reservedSubop w0 w1 = true →
    let w := ThreadRef.core l c t
    let op := BitVec.ofNat 6 (wfld w0 31 26)
    let f := formOf w0 w1
    let e := if op = 0x34 then Eng.vec else Eng.red
    cmdFetches s w op f → (getQueue (getCore (cmdFetched s w) l.val c.val) e).cmds.length < 16 →
    firstReason (cmdChecks s w t.val op f) = some 0x08 →
    ∃ u, Runs (.reservedInstruction w w0 w1) s u ∧ faults s u w 0x14 (refusal op f 0x08) ∧ othersKept s u w)

open Sys2Proof.Claims in
/-- R136, R142, R144, R160, R168, R170, R172, R202: the issue of the queued commands, at once or from a full queue,
and the words that spell no instruction. -/
def Obligations.EngineIssues : Prop := EngineIssue ∧ EngineIssueLater ∧ ReservedInstructions

open Sys2Proof.Claims in
/-- R174, R181, R190, R506: the head of a queue other than the stream engine's starts when its wait-before is met,
with ADRAIN once the drain port holds rows of its pairing, and a matrix engine that has been idle only where the
start gate lets it, which notes the start; before that it does not start. Behind running MMAs, and nothing else, the
next command of the MTX queue starts where R181 lets it. -/
def Sys2Proof.Claims.EngineStart : Prop :=
  (∀ k e cmd rest s, e ≠ .se → headCmd s k e cmd rest false → coreRuns s k.land.val k.core.val = true →
    let l := k.land.val
    let c := k.core.val
    let x := getCore s l c
    let ready := ((getQueue x e).met = true ∨ cmd.wctr = 0x3f ∨ cmd.mark.toNat ≤ ctrEff (getCtr s l c cmd.wctr.toNat)) ∧
      ¬ (cmd.drains = true ∧ portRows x = 0) ∧ (e = .mtx → gateOpen s l c = true)
    let on := setQueue x e { getQueue x e with running := true }
    (ready → ¬ (e = .mtx ∧ mtxIdle s l c = true) → Runs (.engineCommandStart k e) s (setCore s l c on)) ∧
    (ready → e = .mtx → mtxIdle s l c = true → Runs (.engineCommandStart k e) s
      (setCore (setLand s l { getLand s l with gate := runEdges s l :: gateUsed s l }) l c on)) ∧
    (e = .mtx → mtxIdle s l c = true → 16 ≤ (gateUsed s l).length → Runs (.engineCommandStart k e) s s) ∧
    (¬ ready → Runs (.engineCommandStart k e) s s)) ∧
  (∀ k a b rest s, headCmd s k .mtx a rest true → coreRuns s k.land.val k.core.val = true →
    let l := k.land.val
    let c := k.core.val
    let x := getCore s l c
    let met := b.wctr = 0x3f ∨ b.mark.toNat ≤ ctrEff (getCtr s l c b.wctr.toNat)
    let runs := (a :: rest).take (x.mtx.ahead + 1)
    rest[x.mtx.ahead]? = some b →
    (met → (∀ e ∈ runs, mayOverlap e b = true) →
      Runs (.engineCommandStart k .mtx) s (setCore s l c { x with mtx := { x.mtx with ahead := x.mtx.ahead + 1 } })) ∧
    (¬ met ∨ (∃ e ∈ runs, e.op ≠ 0x30) → Runs (.engineCommandStart k .mtx) s s))

open Sys2Proof.Claims in
/-- R176: what ENGINE_COMMAND_RETIRE commits for MZ (R189), MLD (R187), ROWFILL and ROWCOPY (R197): the command
leaves its queue; the slots that MZ names are clear and the others stay; the stationary rows, or scratchpad rows,
hold what the command says, and no other byte of any memory changes. A command whose destination rows a running MMA
holds, or whose drain is not yet in the port in full, waits (R183, R190). -/
def Obligations.EngineRetire : Prop :=
  (∀ k e cmd rest s, headCmd s k e cmd rest true → e ≠ .se → cmd.intoPort = false →
    canRetire s k.land.val k.core.val cmd = false → Runs (.engineCommandRetire k e) s s) ∧
  ∀ k e cmd rest s, headCmd s k e cmd rest true → coreRuns s k.land.val k.core.val = true →
    canRetire s k.land.val k.core.val cmd = true →
    let l := k.land.val
    let c := k.core.val
    (e = .mtx → cmd.op = 0x33 → ∃ u, Runs (.engineCommandRetire k e) s u ∧ headless s u k e rest ∧ u.mem = s.mem ∧
      ∀ n < 8, getSlot u l c n =
        if cmd.imm.getLsbD n then { drained := (getSlot s l c n).drained } else getSlot s l c n) ∧
    (e = .mtx → cmd.op = 0x31 → ∃ u, Runs (.engineCommandRetire k e) s u ∧ headless s u k e rest ∧ u.mem = s.mem ∧
      ∀ r, statRow u l c r =
        if cmd.b 6 0 ≤ r ∧ r < cmd.b 6 0 + cmd.a 20 13 then rowOf s k (cmd.a 12 0 + (r - cmd.b 6 0))
        else statRow s l c r) ∧
    (e = .bank → cmd.op = 0x39 → cmd.imm.getLsbD 17 = false →
      ∃ u, Runs (.engineCommandRetire k e) s u ∧ headless s u k e rest ∧
        (∀ r, cmd.a 12 0 ≤ r → r < cmd.a 12 0 + cmd.b 12 0 → (rowOf u k r).2 = false ∧
          ∀ j < 512, (rowOf u k r).1.getD j 0 = .ofNat 8 (cmd.rc.toNat / 256 ^ (j % 2 ^ cmd.im 1 0))) ∧
        ∀ x, ¬ inRows k (cmd.a 12 0) (cmd.b 12 0) x → getByte u x = getByte s x) ∧
    (e = .bank → cmd.op = 0x39 → cmd.imm.getLsbD 17 = true →
      ∃ u, Runs (.engineCommandRetire k e) s u ∧ headless s u k e rest ∧
        (∀ i < cmd.b 12 0, rowOf u k (cmd.a 25 13 + i) = rowOf s k (cmd.a 12 0 + i)) ∧
        ∀ x, ¬ inRows k (cmd.a 25 13) (cmd.b 12 0) x → getByte u x = getByte s x)

open Sys2Proof.Claims in
/-- R187 to R189, R191 to R197, R233: the frame of ENGINE_COMMAND_RETIRE. Whatever a command of an engine's queue
does, every byte of memory outside the destination rows that its operands name stays as it was; the tables that an
UNPK rewrites are among them, and a PACK with a supplement list has at least one row for it, as R202 asks. -/
def Obligations.EngineRetireFrame : Prop :=
  ∀ k e cmd rest s u, headCmd s k e cmd rest true → e ≠ .se →
    (cmd.op = 0x38 → cmd.imm.getLsbD 17 = false → cmd.imm.getLsbD 4 = true → 1 ≤ cmd.c 25 13) →
    Runs (.engineCommandRetire k e) s u →
    ∀ x, (∀ r ∈ cmd.dstRanges ++ cmd.tabRange, ¬ inRows k r.1 r.2 x) → getByte u x = getByte s x

open Sys2Proof.Claims in
/-- R177, R178, R203, R349: the wait watchdog on a waiting head. Once its wait has lasted its timeout, CORE.EERR of
the engine records WAIT_TIMEOUT where its record was free, and the counters keep their values. Then the command
leaves the queue, and the rows that it names are zero with poison; where a running MMA holds one of them, it stays at
the head, discarded, and memory is as it was. Before that nothing happens. -/
def Sys2Proof.Claims.CommandWatchdog : Prop :=
  ∀ k e cmd rest s, headCmd s k e cmd rest false → coreRuns s k.land.val k.core.val = true →
    cmd.wctr ≠ 0x3f → ctrEff (getCtr s k.land.val k.core.val cmd.wctr.toNat) < cmd.mark.toNat →
    (getQueue (getCore s k.land.val k.core.val) e).met = false →
    let l := k.land.val
    let c := k.core.val
    let q := getQueue (getCore s l c) e
    let o := coreBase l c + 0x120 + 8 * Eng.num e
    (runEdges s l < q.since + q.limit → Runs (.commandWaitTimeout k e) s s) ∧
    (q.since + q.limit ≤ runEdges s l →
      ∃ u, Runs (.commandWaitTimeout k e) s u ∧
        (∀ n, getCtr u l c n = getCtr s l c n) ∧
        (rdFld s o 0 0 = 0 → rdFld u o 0 0 = 1 ∧ rdFld u o 15 8 = 0x01 ∧ rdFld u o 21 16 = cmd.op.toNat) ∧
        rdFld u (lcBase l + 0x98) 15 0 = min 0xffff (rdFld s (lcBase l + 0x98) 15 0 + 1) ∧
        (cmd.intoPort = true → u.mem = s.mem) ∧
        (cmd.intoPort = false → rowsHeld s k cmd →
          u.mem = s.mem ∧ (getQueue (getCore u l c) e).cmds = cmd :: rest ∧ (getQueue (getCore u l c) e).discard =
            true) ∧
        (cmd.intoPort = false → ¬ rowsHeld s k cmd →
          headless s u k e rest ∧ ∀ r ∈ cmd.dstRanges, ∀ i < r.2, rowOf u k (r.1 + i) = (List.replicate 512 0, true)))

open Sys2Proof.Claims in
/-- R183, R323: a row write that an operand hold stalled proceeds: its row holds the data and the poison, and every
other byte stays. -/
def Sys2Proof.Claims.HeldRowWrites : Prop :=
  ∀ k h s, arrayOn s k.land.val = true →
    firstFree (heldRows s k.land.val k.core.val) [] (getCore s k.land.val k.core.val).held = some h →
    ∃ u, Runs (.heldRowWrite k) s u ∧ rowOf u k h.row = (fitTo 0 512 h.data, h.psn) ∧
      ∀ x, ¬ inRows k h.row 1 x → getByte u x = getByte s x

open Sys2Proof.Claims in
/-- R174, R177, R178, R181, R183, R190, R203, R323, R349, R506: how queued commands start, time out, and how writes
that operand holds stalled proceed. -/
def Obligations.EngineQueues : Prop := EngineStart ∧ CommandWatchdog ∧ HeldRowWrites

namespace Sys2Proof.Claims

/-! ## Chainage and closures (R200, R325 to R350) -/

/-- No enabled pair of the core watches a counter. -/
def unpaired (s : State) (k : CoreRef) (n : Nat) : Prop :=
  ∀ i < 16, let p := pairReg s k.land.val k.core.val i; pairEn p = true → pairP p ≠ n ∧ pairC p ≠ n

/-- A counter of a core, and a value after an addition: it never wraps (R325). -/
def ctrOf (s : State) (k : CoreRef) (n : Nat) : Ctr := getCtr s k.land.val k.core.val n
def ctrPlus (x : Ctr) (inc : Nat) : Nat := min (2 ^ 48 - 1) (x.val.toNat + inc)

/-- The wait-before of a sync command is met, or it has none (R173, R329). -/
def markMet (s : State) (w : ThreadRef) (k : CoreRef) (f : EForm) : Prop :=
  f.wctr = 0x3f ∨ (getReg (getThr s w) f.wmr).toNat % 2 ^ 48 ≤ ctrEff (ctrOf s k f.wctr.toNat)

/-- A sync command: its OP and fields, and what it does (R200). -/
def syncRow : Instr → Option (ThreadRef × BitVec 6 × EForm × SyncOp)
  | .sig w f => some (w, 0x3c, f, .sig)
  | .wait w f => some (w, 0x3d, f, .wait)
  | .cla w f => some (w, 0x3e, imm f 17 17 0, .cla (f.imm.setWidth 4))
  | .clw w f => some (w, 0x3e, imm f 17 17 1, .clw (f.imm.setWidth 4))
  | _ => none

/-- A sync command that every check of R202 lets through. -/
def syncIssues (s : State) (l : Fin 32) (c : Fin 256) (t : Fin 16) (op : BitVec 6) (f : EForm) (x : SyncOp) : Prop :=
  cmdFetches s (.core l c t) op f ∧
    firstReason (checksCommon f (getReg (getThr s (.core l c t)) f.wmr) ++ checksSync s l.val c.val t.val x f) = none

/-- The thread is past the command and its other parts are as they were, except the arrival it may have recorded. -/
def wentOn (s u : State) (w : ThreadRef) : Prop :=
  (getThr u w).pc.toNat = (getThr s w).pc.toNat + 2 ∧ (getThr u w).st = .ready ∧ (getThr u w).regs = (getThr s w).regs

/-- Arrivals of a core toward GEN and GEN + 1 of a group (R341, R342). -/
def arrivals (s : State) (l g c : Nat) : Nat × Nat := (tget 0 (getGroup s l g).now c, tget 0 (getGroup s l g).next c)

end Sys2Proof.Claims

open Sys2Proof.Claims in
/-- R200, R329, R341, R342: SIG and WAIT whose mark is reached add SINC to SCTR, if named, and go on; a CLA counts
toward GEN, else toward GEN + 1, else its thread is held with WREASON 0x2; a CLW goes on where its generation has
released and else waits with WREASON 0x2; with the mark not reached the thread waits with WREASON 0x1. -/
def Obligations.SyncCommands : Prop :=
  ∀ i l c t op f x s, syncRow i = some (.core l c t, op, f, x) → syncIssues s l c t op f x →
    let w := ThreadRef.core l c t
    let k : CoreRef := ⟨l, c⟩
    (¬ markMet s w k f → ∃ u, Runs i s u ∧ (getThr u w).st = .wait ∧
      (getThr u w).wait = .ctr f.wctr ((getReg (getThr s w) f.wmr).setWidth 48) x f.sctr f.sinc ∧
      (getThr u w).pc = (getThr s w).pc) ∧
    (markMet s w k f →
      ((x = .sig ∨ x = .wait) → ∃ u, Runs i s u ∧ wentOn s u w ∧
        (f.sctr ≠ 0x3f → unpaired s k f.sctr.toNat → (ctrOf s k f.sctr.toNat).sat = false →
          (ctrOf u k f.sctr.toNat).val.toNat = ctrPlus (ctrOf s k f.sctr.toNat) f.sinc.toNat)) ∧
      (∀ g, x = .cla g →
        let n := arrivals s l.val g.toNat c.val
        let need := cgNeed s l.val g.toNat
        (n.1 < need → ∃ u, Runs i s u ∧ wentOn s u w ∧ arrivals u l.val g.toNat c.val = (n.1 + 1, n.2) ∧
          tget none (getThr u w).arrived g.toNat = some (getGroup s l.val g.toNat).gen) ∧
        (need ≤ n.1 → n.2 < need → ∃ u, Runs i s u ∧ wentOn s u w ∧
          arrivals u l.val g.toNat c.val = (n.1, n.2 + 1) ∧
          tget none (getThr u w).arrived g.toNat = some ((getGroup s l.val g.toNat).gen + 1)) ∧
        (need ≤ n.1 → need ≤ n.2 → ∃ u, Runs i s u ∧ (getThr u w).st = .wait ∧
          (getThr u w).wait = .cla g f.sctr f.sinc ∧ arrivals u l.val g.toNat c.val = n)) ∧
      (∀ g gen, x = .clw g → tget none (getThr s w).arrived g.toNat = some gen →
        (openArrival s l.val g.toNat gen = true → ∃ u, Runs i s u ∧ (getThr u w).st = .wait ∧
          (getThr u w).wait = .clw g gen f.sctr f.sinc) ∧
        (openArrival s l.val g.toNat gen = false → ∃ u, Runs i s u ∧ wentOn s u w)))

open Sys2Proof.Claims in
/-- R330, R350: WAITER_RELEASE lets every WAIT of the core whose mark on the counter is reached go on, and leaves the
other threads; WAIT_TIMEOUT, once the wait has lasted its timeout (R349), is the precise fault of R350 with the
counter, or 48 plus the group, as INFO, counted in LC.WDSTAT.FIRED, and no counter changes; before that it does
nothing. -/
def Obligations.Waiters : Prop :=
  (∀ (k : CoreRef) (n : Fin 48) s, arrayOn s k.land.val = true → quarantined s k.land.val = false →
    ∃ u, Runs (.waiterRelease k n) s u ∧
      ∀ t : Fin 16, let w := ThreadRef.core k.land k.core t
        (∀ m mark, (getThr s w).wait = .ctr m mark .wait 0x3f 0 → m.toNat = n.val →
          mark.toNat ≤ ctrEff (ctrOf s k n.val) → (getThr s w).pc.toNat + 2 < 32768 →
          getThr u w = pastCmd { getThr s w with st := .ready, wait := .none }) ∧
        ((∀ m mark op sctr sinc, (getThr s w).wait = .ctr m mark op sctr sinc →
            m.toNat ≠ n.val ∨ ctrEff (ctrOf s k n.val) < mark.toNat) → getThr u w = getThr s w)) ∧
  (∀ l c t n s,
    let w := ThreadRef.core l c t
    timedWait (getThr s w) = some n → (getThr s w).st = .wait → arrayOn s l.val = true →
    waitOver s l.val c.val (getThr s w) = false →
    ((getThr s w).since + (getThr s w).limit ≤ runEdges s l.val →
      ∃ u, Runs (.waitTimeout w) s u ∧ faults s u w 0x12 (.ofNat 64 n) ∧
        rdFld u (lcBase l.val + 0x98) 15 0 = min 0xffff (rdFld s (lcBase l.val + 0x98) 15 0 + 1) ∧
        ∀ m, ctrOf u ⟨l, c⟩ m = ctrOf s ⟨l, c⟩ m) ∧
    (runEdges s l.val < (getThr s w).since + (getThr s w).limit → Runs (.waitTimeout w) s s))

open Sys2Proof.Claims in
/-- R335: additions to one counter from several sources commute; those that reach a core together move it once by
their sum, saturating (R325), with the SAT mark and CORE.CHSTAT.SAT once the sum reaches 2^48 - 1; a WAIT whose mark
the sum reaches is released, wherever the sums between lie. The counter is one that no enabled pair watches. -/
def Obligations.CounterAdditions : Prop :=
  ∀ (k : CoreRef) (n : Fin 48) (xs : List Add) s, (∀ a ∈ xs, a.ctr = n.val ∧ 0 < a.inc) → unpaired s k n.val →
    quarantined s k.land.val = false → (ctrOf s k n.val).sat = false →
    let u := addMany s k.land.val k.core.val xs
    let sum := (ctrOf s k n.val).val.toNat + (xs.map Add.inc).sum
    (ctrOf u k n.val).val.toNat = min (2 ^ 48 - 1) sum ∧ (ctrOf u k n.val).base = (ctrOf s k n.val).base ∧
    (∀ m, m ≠ n.val → ctrOf u k m = ctrOf s k m) ∧
    (xs ≠ [] → ((ctrOf u k n.val).sat = true ↔ 2 ^ 48 - 1 ≤ sum)) ∧
    (xs ≠ [] → 2 ^ 48 - 1 ≤ sum → rdFld u (coreBase k.land.val k.core.val + 0x154) 2 2 = 1) ∧
    (∀ ys, ys.Perm xs →
      (ctrOf (addMany s k.land.val k.core.val ys) k n.val).val = (ctrOf u k n.val).val) ∧
    ∀ t : Fin 16, let w := ThreadRef.core k.land k.core t
      ∀ m mark, (getThr s w).wait = .ctr m mark .wait 0x3f 0 → m.toNat = n.val →
        mark.toNat ≤ min (2 ^ 48 - 1) sum - (ctrOf s k n.val).base.toNat → arrayOn s k.land.val = true →
        (getThr s w).pc.toNat + 2 < 32768 →
        ∃ v, Runs (.waiterRelease k n) u v ∧ getThr v w = pastCmd { getThr s w with st := .ready, wait := .none }

open Sys2Proof.Claims in
/-- R337, R345: a write of a pair register or of a closure group's register takes effect only at the time and with the
settings that the rules name; any other write is ignored and recorded in CORE.CHSTAT.PREFUSED, or counted in
CGEVT.REFUSED. -/
def Obligations.SyncSettings : Prop :=
  (∀ m (k : CoreRef) (i : Fin 16) v s, reachesModule m = true → coreActive s k.land.val k.core.val = true →
    domState s k.land.val ≠ 0 →
    let l := k.land.val
    let c := k.core.val
    let others := ∀ j < 16, j ≠ i.val → pairEn (pairReg s l c j) = true →
      pairP v ≠ pairP (pairReg s l c j) ∧ pairP v ≠ pairC (pairReg s l c j) ∧
      pairC v ≠ pairP (pairReg s l c j) ∧ pairC v ≠ pairC (pairReg s l c j)
    let valid := pairP v < 48 ∧ pairC v < 48 ∧ pairP v ≠ pairC v ∧ pairD v ≠ 0 ∧ others
    let quiet := (∀ t : Fin 16, (getThr s (.core k.land k.core t)).st = .idle ∨
        (getThr s (.core k.land k.core t)).st = .fault) ∧
      ∀ e, (getQueue (getCore s l c) e).cmds = []
    (quiet ∧ (pairEn v = true → valid) → Runs (.pairWrite m k i v) s (wr s (coreBase l c + 0x380 + 4 * i.val) v)) ∧
    (¬ (quiet ∧ (pairEn v = true → valid)) → ∃ u, Runs (.pairWrite m k i v) s u ∧
      rdFld u (coreBase l c + 0x154) 5 5 = 1 ∧ pairReg u l c i.val = pairReg s l c i.val)) ∧
  (∀ m (l : Fin 32) (g : Fin 16) (reg : Fin 11) v s, reachesModule m = true → absentLand s l.val = false →
    domState s (32 + l.val) ≠ 0 →
    let o := cgBase l.val g.val + 4 * reg.val
    let x := getGroup s l.val g.val
    let closed := x.now = [] ∧ x.next = []
    let takes := (reg = 9 → v.getLsbD 0 = true → (cgLmask s l.val g.val).getLsbD l.val = true) ∧
      (reg = 10 → 200 ≤ v.toNat)
    (closed ∧ takes → ∃ u, Runs (.closureGroupWrite m l g reg v) s u ∧ rd u o = if reg = 9 then v &&& 0x7f else v) ∧
    (¬ closed → ∃ u, Runs (.closureGroupWrite m l g reg v) s u ∧ rd u o = rd s o ∧
      rdFld u (cgBase l.val g.val + 0x30) 23 16 = min 255 (rdFld s (cgBase l.val g.val + 0x30) 23 16 + 1)))

open Sys2Proof.Claims in
/-- R340, R343, R344, R347: a member landing's arrival message, with its own settings, reaches the master on its
module, or counts as MISMATCH there where the master's settings differ and bars its generation, or leaves for the
master's module; a complete generation releases, GEN advances by 1 modulo 2^16 and the arrivals counted toward GEN +
1 stand, beside those of CLAs held until then; at a periodic boundary with an arrival missing OVERRUN counts. -/
def Obligations.ClosureGenerations : Prop :=
  (∀ (src l : Fin 32) (g : Fin 16) s,
    let x := getGroup s l.val g.val
    let y := getGroup s src.val g.val
    let lmask := cgLmask s src.val g.val
    let ctl := cgCtl s src.val g.val
    let per := cgPer s src.val g.val
    let m := cgMasterMod s src.val g.val
    ownArrived s src.val g.val false = true → y.sent = false →
    let same := lmask = cgLmask s l.val g.val ∧ ctl = cgCtl s l.val g.val ∧ per = cgPer s l.val g.val
    (m = s.modnum.toNat → cgMasterLand s src.val g.val = some l.val →
      (same → y.gen = x.gen → ∃ u, Runs (.arrivalMessage src l g y.gen lmask ctl per) s u ∧
        (getGroup u l.val g.val).got = x.got ++ [(src.val, s.modnum.toNat)] ∧ (getGroup u src.val g.val).sent = true) ∧
      (¬ same → ∃ u, Runs (.arrivalMessage src l g y.gen lmask ctl per) s u ∧
        (getGroup u l.val g.val).got = x.got ∧ (y.gen = x.gen → (getGroup u l.val g.val).bar = true) ∧
        rdFld u (cgBase l.val g.val + 0x30) 15 8 = min 255 (rdFld s (cgBase l.val g.val + 0x30) 15 8 + 1))) ∧
    (m ≠ s.modnum.toNat → ∃ u, Runs (.arrivalMessage src l g y.gen lmask ctl per) s u ∧
      (getGroup u src.val g.val).sent = true ∧ ∀ k < 16, (getGroup u l.val k).got = (getGroup s l.val k).got)) ∧
  (∀ (l : Fin 32) (g : Fin 16) (periodic : Bool) s,
    isMaster s l.val g.val = true → cgEn s l.val g.val = true → cgPeriodic s l.val g.val = periodic →
    (periodic = true → s.time.toNat % (cgPer s l.val g.val).toNat = 0) →
    let i := if periodic then Instr.periodicClosureBoundary l g else .closureRelease l g
    ((getGroup s l.val g.val).bar = true → cgSingle s l.val g.val = false → cgComplete s l.val g.val = false) ∧
    (cgComplete s l.val g.val = true → ∃ u, Runs i s u ∧
      (getGroup u l.val g.val).gen = (getGroup s l.val g.val).gen + 1 ∧
      ((∀ c < 256, heldClas s l.val c g.val = []) →
        (getGroup u l.val g.val).now = (getGroup s l.val g.val).next ∧ (getGroup u l.val g.val).next = [])) ∧
    (cgComplete s l.val g.val = false → periodic = true → ∃ u, Runs i s u ∧
      rdFld u (cgBase l.val g.val + 0x30) 7 0 = min 255 (rdFld s (cgBase l.val g.val + 0x30) 7 0 + 1) ∧
      (getGroup u l.val g.val).gen = (getGroup s l.val g.val).gen))

namespace Sys2Proof.Claims

/-! ## Tiles and the ferry buffer (R115 to R120, R294 to R297) -/

/-- A tile of the thread's handle, taken; the handle that a core other than the owner holds has STOLEN set (R118). -/
def hasHandle (v : Dword) (t : Tile) : Bool := t.taken && (t.handle == v || (t.handle ||| (1 <<< 35)) == v)

/-- Free slot of a chain in the ferry buffer of a landing. -/
def freeSlot (s : State) (l k : Nat) : Option Nat :=
  (upto (fbDepth s l)).find? fun i => (getFSlot (getLand s l) k i).isNone

/-! ## The crossing and its laps (R51 to R71) -/

/-- A ring stop where a slot arrives (R55, R58). -/
def stopAt (s : State) (l : Fin 32) (d : Dir) (slot : Nat) : Prop :=
  liveLand s l.val = true ∧ uncoreOn s l.val = true ∧ slot < slotCount s ∧ arrivesAt s d slot l.val = true

/-- The hold word that a ring stop forwards: the landing's own bit is its hold bit (R67). -/
def holdWord (s : State) (l : Nat) (w : Word) : Word := .ofNat 32 (putBits w.toNat l l (b2n (holdBit s l)))

/-- Pace credit after an own slot, or a tick, in units of 1/256 and at most 512 (R70, R99). -/
def moreCredit (s : State) (l : Nat) : Nat := min 512 ((getLand s l).credit + paceEff s + 1)

end Sys2Proof.Claims

open Sys2Proof.Claims in
/-- R117, R119, R120: a TQTAKE without a tile waits with WREASON 0x5 in its core's order, one with a tile faults with
TILE_HELD; a grant serves the cores of the chain in ascending number, and hands the picked tile to the core's oldest
take, after which the tile is never offered again; a TQDONE of the held handle completes the tile, of another faults
with TQ_HANDLE; after the steal delay an untaken tile may be stolen. -/
def Obligations.TileQueue : Prop :=
  (∀ l c t sd s, let w := ThreadRef.core l c t
    (fetches s w → (getThr s w).tile = none → ∃ u, Runs (.tqtake w sd) s u ∧
      getThr u w = { getThr s w with st := .wait, wait := .tile sd } ∧
      (getCore u l.val c.val).takeQ = (getCore s l.val c.val).takeQ ++ [t.val] ∧ othersKept s u w) ∧
    (∀ h, fetches s w → (getThr s w).tile = some h →
      ∃ u, Runs (.tqtake w sd) s u ∧ faults s u w 0x10 h ∧ othersKept s u w) ∧
    (∀ sa, issues s w → (getThr s w).tile = some (getReg (getThr s w) sa) → ∃ u, Runs (.tqdone w sa) s u ∧
      getThr u w = { getThr s w with tile := none, pc := .ofNat 15 (nextPc (getThr s w)) } ∧
      (getLand u l.val).tiles = (getLand s l.val).tiles.eraseP (hasHandle (getReg (getThr s w) sa)) ∧
      othersKept s u w) ∧
    (∀ sa, fetches s w → (getThr s w).tile ≠ some (getReg (getThr s w) sa) → ∃ u, Runs (.tqdone w sa) s u ∧
      faults s u w 0x0f (getReg (getThr s w) sa) ∧ (getLand u l.val).tiles = (getLand s l.val).tiles ∧
      othersKept s u w)) ∧
  (∀ (k : CoreRef) (d : Fin 256) (t : Fin 16) rest sd x s,
    let l := k.land.val
    let c := d.val
    let w := ThreadRef.core k.land d t
    c ≤ k.core.val → c % 16 = k.core.val % 16 → (∀ e < c, e % 16 = c % 16 → (getCore s l e).takeQ = []) →
    (getCore s l c).takeQ = t.val :: rest → (getThr s w).wait = .tile sd → pickTile s l c = some x →
    arrayOn s l = true → (getThr s w).pc.toNat + 1 < 32768 →
    let h := if c = 16 * x.tg + x.lane then x.handle else x.handle ||| (1 <<< 35)
    ∃ u, Runs (.tileGrant k) s u ∧
      getThr u w = stepped { getThr s w with st := .ready, wait := .none, tile := some h } sd h (nextPc (getThr s w)) ∧
      (getCore u l c).takeQ = rest ∧ (∀ y ∈ (getLand u l).tiles, y.num = x.num → y.taken = true) ∧
      (d = k.core → othersKept s u w)) ∧
  (∀ (l : Fin 32) n s, Runs (.stealDelayExpiry l n) s (setLand s l.val
    { getLand s l.val with tiles := (getLand s l.val).tiles.map fun y =>
        if y.num = n ∧ y.taken = false then { y with stealable := true } else y }))

open Sys2Proof.Claims in
/-- R60, R115, R257, R294, R295, R297: the head of a chain's injection queue goes into a free slot of every active
core of the chain, its rows with their poison, where no operand hold stalls them, and each token group that had work
when it arrived gets one tile; while a core's chain-port buffer has no room for its rows, it stays in the queue.
LC.FBUF takes new values only with an empty ferry buffer and no tile, and else sets REFUSED. -/
def Obligations.FerryBuffer : Prop :=
  (∀ (l : Fin 32) (k : Fin 16) q rest slot s, injQueue (getLand s l.val) k.val = q :: rest →
    freeSlot s l.val k.val = some slot → arrayOn s l.val = true → absentLand s l.val = false →
    let base := rdFld s (lcBase l.val + 0x90) 12 0 + 64 * slot
    ((∀ c < 256, (getCore s l.val c).mtx.running = false ∧ (getCore s l.val c).held = []) →
      ∃ u, Runs (.chainInjection l k) s u ∧ injQueue (getLand u l.val) k.val = rest ∧
        (∀ c < 256, coreActive s l.val c = true → c % 16 = k.val → ∀ i < min 64 q.f.hdr.rows,
          rowData u l.val c (base + i) = (fRow q.f i, q.f.poison.getLsbD i)) ∧
        (getLand u l.val).tiles.length = (getLand s l.val).tiles.length +
          if q.f.hdr.sub = 0 then (maskBits 16 q.mask.toNat).length else 0) ∧
    ((∃ c < 256, coreActive s l.val c = true ∧ c % 16 = k.val ∧
        chainTakes s l.val c base (min 64 q.f.hdr.rows) = false) →
      ∃ u full, Runs (.chainInjection l k) s u ∧ u.mem = s.mem ∧
        injQueue (getLand u l.val) k.val = { q with stalled := q.stalled ++ full } :: rest)) ∧
  (∀ m (l : Fin 32) v s, absentLand s l.val = false → domState s (32 + l.val) ≠ 0 →
    let o := lcBase l.val + 0x90
    let empty := (getLand s l.val).fslots = [] ∧ (getLand s l.val).tiles = []
    let fits := 1 ≤ wfld v 18 13 ∧ wfld v 18 13 ≤ 32 ∧ wfld v 12 0 + 64 * wfld v 18 13 ≤ 6144
    let new := wfld v 12 0 ≠ rdFld s o 12 0 ∨ wfld v 18 13 ≠ rdFld s o 18 13
    (new → empty → fits → ∃ u, Runs (.fbufWrite m l v) s u ∧
      rdFld u o 12 0 = wfld v 12 0 ∧ rdFld u o 18 13 = wfld v 18 13) ∧
    (new → ¬ (empty ∧ fits) → ∃ u, Runs (.fbufWrite m l v) s u ∧ rdFld u o 31 31 = 1 ∧
      rdFld u o 12 0 = rdFld s o 12 0 ∧ rdFld u o 18 13 = rdFld s o 18 13))

namespace Sys2Proof.Claims

/-- A launch that every check lets through, of a ferry that does not retire at once: the home's number, the rows read,
and the state after reading them (R52, R63, R70). -/
def launchable (s : State) (l : Fin 32) (d : Dir) (slot : Nat) (h : FerryHdr) (off hm : Nat) (rows : List (List Byte))
    (psn : BitVec 64) (t : State) : Prop :=
  mayLaunch s l.val d slot (h.kind == 1) = true ∧ 1 ≤ h.rows ∧ h.rows ≤ 64 ∧ launchHome s l.val d slot h = some hm ∧
    launchPayload s l.val h off = some (rows, psn, t) ∧ circulating s h.version.toNat = true ∧ s.crs.nc ≠ 0 ∧
    ∃ n, nextLive s d l.val = some n ∧ n ≠ l.val

/-- The launch took slot and credit: the ferry f stands in the slot, and 256/256 of credit are spent (R56, R70). -/
def inSlot (s u : State) (l : Fin 32) (d : Dir) (slot : Nat) (f : Ferry) : Prop :=
  (getTSlot u d slot).ferry = some f ∧ (getTSlot u d slot).last = some l.val ∧
    (getLand u l.val).credit + 256 = (getLand s l.val).credit

/-- A ferry at its launch: HOPS 0, its launcher and module, its home's module, the time as STAMP (R56). -/
def launched (s : State) (l : Fin 32) (d : Dir) (hm : Nat) (h : FerryHdr) (psn : BitVec 64) (rows : List (List Byte)) :
    Ferry := ⟨h, d, 0, l, s.modnum, .ofNat 11 (hm / 32), psn, s.time, rows⟩

end Sys2Proof.Claims

open Sys2Proof.Claims in
/-- R52, R53, R55, R56, R65, R70, R90: a launch fills the launcher's slot with the header, HOPS 0, its own number and
the time as STAMP, and spends 256/256 of pace credit. Weights and an OFFSET-CARRY carry the rows of the launcher's
stacks; a GRADIENT ferry starts at zero with the launcher's own contribution added to its rows below ROWS. SHADOW
says that the launcher is not the home, LAST that it is the last of its kind for the layer, and DEST is zero but for
an OFFSET-CARRY. A ferry that is not due, by its layer, its gap or its SEQ, is not launched. The ferry is one that
does not retire at once. -/
def Obligations.FerryLaunches : Prop :=
  (∀ (l : Fin 32) d slot h off hm rows psn t s, launchable s l d slot h off hm rows psn t →
    (h.kind = 0 → h.sub.toNat ≤ 3 → h.fmt ≠ 0xf → h.version = s.crs.lapVer → ferryDue s l.val d hm h = true →
      ∃ u, Runs (.ferryLaunch l d slot h off) s u ∧ inSlot s u l d slot
        (launched s l d hm { h with shadow := decide (h.home ≠ l), last := isLast s l.val h, dest := 0 } psn rows)) ∧
    (h.kind = 1 → h.sub = 0 → h.fmt ≠ 0xf →
      ∃ u, Runs (.ferryLaunch l d slot h off) s u ∧ inSlot s u l d slot
        (launched s l d hm { h with shadow := false } psn rows)) ∧
    (h.kind = 2 → h.sub = 0 → h.version = s.crs.lapVer → ferryDue s l.val d hm h = true →
      ∃ u f, Runs (.ferryLaunch l d slot h off) s u ∧ inSlot s u l d slot f ∧
        f.hdr = { h with shadow := false, last := isLast s l.val h, fmt := 0xd, dest := 0 } ∧ f.hops = 0 ∧
        f.launcher = l ∧ f.lmodule = s.modnum ∧ homeId f = hm % 2 ^ 16 / 32 * 32 + h.home.val ∧ f.stamp = s.time ∧
        (∀ i, h.rows ≤ i → fRow f i = List.replicate 512 0) ∧ ∀ i < h.rows, ∀ r row, nonfinite s l.val f i = false →
          findRows (getLand s l.val).contrib (homeId f) h.layer.toNat h.seq.toNat = some r → r.rows[i]? = some row →
          row.length = 512 → fRow f i = row)) ∧
  (∀ (l : Fin 32) d slot h off hm s, h.kind ≠ 1 → launchHome s l.val d slot h = some hm →
    (h.version ≠ s.crs.lapVer ∨ ferryDue s l.val d hm h = false) → Runs (.ferryLaunch l d slot h off) s s)

open Sys2Proof.Claims in
/-- R55, R57 to R60, R63, R67, R70: at a ring stop of a crossing of one module an empty slot goes on with the
landing's hold bit and its owner gains pace credit; a slot with a bad header goes on empty and counts as HDR_LOSS; a
ferry that fails its CRC counts as CRC and is poisoned whole; a reserved kind, one that has passed every live
landing, and one whose version does not circulate are dropped and counted as BAD_KIND, STRAY and STALE_VER; a weight
ferry goes on one hop older, or retires before its launcher. -/
def Obligations.RingStops : Prop :=
  ∀ (l : Fin 32) d slot crcBad s, stopAt s l d slot → s.crs.ext = false → (nextLive s d l.val).isSome = true →
    let x := getTSlot s d slot
    let rs := fun (u : State) (e : Nat) =>
      let o := lcBase l.val + 0x10000 + 4 * (e / 4)
      let lo := 8 * (e % 4)
      rdFld u o (lo + 7) lo
    let went := fun (u : State) (f : Option Ferry) => (getTSlot u d slot).ferry = f ∧
      (getTSlot u d slot).last = some l.val ∧ (getTSlot u d slot).hold = holdWord s l.val x.hold
    (∀ hdrBad, x.ferry = none → ∃ u, Runs (.slotArrival l d slot hdrBad crcBad) s u ∧ went u none ∧
      (getLand u l.val).credit =
        (if ownsSlot s l.val d slot = true then moreCredit s l.val else (getLand s l.val).credit) ∧
      (hdrBad = true → rs u 0 = min 255 (rs s 0 + 1))) ∧
    (∀ f, x.ferry = some f → ∃ u, Runs (.slotArrival l d slot true crcBad) s u ∧ went u none ∧
      rs u 0 = min 255 (rs s 0 + 1)) ∧
    (∀ f, x.ferry = some f → emptyHdr f.hdr = true → ∃ u, Runs (.slotArrival l d slot false crcBad) s u ∧ went u none ∧
      u.regs = s.regs) ∧
    (∀ f, x.ferry = some f → emptyHdr f.hdr = false →
      let g := { f with hops := f.hops + 1, poison := if crcBad then 0xffffffffffffffff else f.poison }
      (∀ e, damage s g = some e → ∃ u, Runs (.slotArrival l d slot false crcBad) s u ∧ went u none ∧
        rs u e.num = min 255 (rs s e.num + 1) ∧ (crcBad = true → rs u 1 = min 255 (rs s 1 + 1))) ∧
      (damage s g = none → isDatum f = true → ∃ u, Runs (.slotArrival l d slot false crcBad) s u ∧
        (getTSlot u d slot).ferry = (if retiresAt s l.val f = true then none else some g) ∧
        (getTSlot u d slot).last = some l.val ∧ (crcBad = true → rs u 1 = min 255 (rs s 1 + 1)))) ∧
    (∀ f : Ferry, (damage s f = some .badKind ↔ kindKnown f.hdr = false) ∧
      (damage s f = some .stray ↔ kindKnown f.hdr = true ∧ (liveLands s).length ≤ f.hops) ∧
      (damage s f = some .staleVer ↔ kindKnown f.hdr = true ∧ f.hops < (liveLands s).length ∧
        circulating s f.hdr.version.toNat = false))

open Sys2Proof.Claims in
/-- R64, R66, R71, R87, R88, R91, R99, R596: a pace tick of an extended crossing adds credit; the next wave of a
layer, fetched whole, is in the double buffer as G32 rows of the recorded scales, and its hold clears; any other list
of contributions fetches nothing, and bound bytes alone leave the hold; a lap starts at T0 with the version due where
every home slice has a launcher and no hold is in effect, and sets NOLAUNCHER where one has none; the lap ends at a
landing, and once at every live landing LAPS counts it. -/
def Obligations.Laps : Prop :=
  (∀ (l : Fin 32) s, s.crs.ext = true → liveLand s l.val = true → uncoreOn s l.val = true →
    Runs (.paceCreditTick l) s (setLand s l.val { getLand s l.val with credit := moreCredit s l.val })) ∧
  (∀ (l : Fin 32) wave s, arrayOn s l.val = true → liveLand s l.val = true →
    let lasts := fun (w : WaveItem) => ∃ pre post, wave = pre ++ w :: post ∧
      ∀ v ∈ post, ¬ (v.home = w.home ∧ v.layer = w.layer ∧ v.seq = w.seq)
    let n := fun (u : State) (y : LtLayer) => (wavesOf (getLand u l.val) y.layer.toNat).fetched
    (wave.any waveGrad = true → (s.crs.inLap = false ∨ ∀ y ∈ s.crs.lt.layers, wholeWave s l.val y wave = false) →
      Runs (.gradientWaveFetched l wave) s s) ∧
    (∀ y, wave.any waveGrad = true → s.crs.inLap = true →
      (s.crs.lt.layers.find? fun y => wholeWave s l.val y wave) = some y →
      ∃ u, Runs (.gradientWaveFetched l wave) s u ∧ n u y = n s y + 1 ∧
        (getLand u l.val).waveHold = ((getLand u l.val).waves.any fun v => waveDue s.crs.lt v) ∧
        (∀ w rs, lasts w → w.rows = .gradient rs → ∃ r,
          findRows (getLand u l.val).contrib w.home w.layer.toNat w.seq.toNat = some r ∧
          r.rows.length = rs.length ∧ ∀ i shards, rs[i]? = some shards → r.rows[i]? =
            some (contribRow s ((boundByte s l.val w.home w.layer.toNat (64 * w.seq.toNat + i)).getD 0) shards).1)) ∧
    (wave.any waveGrad = false →
      ∃ u, Runs (.gradientWaveFetched l wave) s u ∧ (getLand u l.val).waveHold = (getLand s l.val).waveHold ∧
        (∀ w rs, lasts w → w.rows = .bounds rs → ∃ r,
          findRows (getLand u l.val).contribScale w.home w.layer.toNat w.seq.toNat = some r ∧
          ∀ i shards, rs[i]? = some shards → (r.rows.getD (i / 512) []).getD (i % 512) 0 = rowBound shards))) ∧
  (∀ t0 n s, s.crs.inLap = false → s.crs.cutHold = false → isReady s = true → fatal s = false →
    s.time.toNat ≤ t0.toNat →
    let b := boundary s n
    let v := versionDue b t0
    v.1 ≠ 0 → lapsRun b = true →
    (allLaunchers b v.1 = true → bhold (lapForecast b) = false → ∃ u, Runs (.lapStart t0 n) s u ∧
      u.crs.inLap = true ∧ u.crs.lapVer = .ofNat 16 v.1 ∧ rdPair u 0x40018 = t0.toNat) ∧
    (allLaunchers b v.1 = true → bhold (lapForecast b) = true → ∃ u, Runs (.lapStart t0 n) s u ∧
      u.crs.inLap = b.crs.inLap) ∧
    (allLaunchers b v.1 = false → ∃ u, Runs (.lapStart t0 n) s u ∧ rdFld u 0x40008 6 6 = 1 ∧
      u.crs.inLap = b.crs.inLap)) ∧
  (∀ t0 n s, s.crs.inLap = true → s.crs.stalled = false → Runs (.lapStart t0 n) s s) ∧
  (∀ (l : Fin 32) toks s, s.crs.inLap = true → liveLand s l.val = true → (getLand s l.val).ended = false →
    rdPair s 0x40018 ≤ s.time.toNat →
    (lapReceived s l.val = false → Runs (.lapEnd l toks) s s) ∧
    (lapReceived s l.val = true → ∃ u, Runs (.lapEnd l toks) s u ∧ (getLand u l.val).ended = true ∧
      ((∀ k ∈ liveLands s, k ≠ l.val → (getLand s k).ended = true) →
        u.crs.inLap = false ∧ u.crs.laps = s.crs.laps + 1) ∧
      ((∃ k ∈ liveLands s, k ≠ l.val ∧ (getLand s k).ended = false) →
        u.crs.inLap = true ∧ u.crs.laps = s.crs.laps)))

open Sys2Proof.Claims in
/-- R78, R83, R84, R86, R93: the orders of CRS.VCTL and the events of a load. A LOAD or LOCAL at the wrong time, or
of a wrong number, is refused with its reason; accepted, it takes INCOMING and its plan is checked before any data
moves; TURN needs READY; ABANDON discards what is not turned; the last slice starts the hashing, and the digest
decides. -/
def Obligations.VersionOrders : Prop :=
  ∀ m (v : BitVec 16) s, reachesModule m = true →
    let refused := fun (u : State) (why : Nat) => rdFld u 0x40104 5 5 = 1 ∧ rdFld u 0x40104 8 6 = why ∧
      rdFld u 0x40100 15 0 = v.toNat ∧ lstate u = lstate s
    (∀ i, i = Instr.load m v ∨ i = Instr.localVersion m v →
      (((lstate s ≠ 0 ∧ lstate s ≠ 4) ∨ retVer s ≠ 0) → ∃ u, Runs i s u ∧ refused u 2) ∧
      ((lstate s = 0 ∨ lstate s = 4) → retVer s = 0 → (v = 0 ∨ v.toNat = liveVer s) →
        ∃ u, Runs i s u ∧ refused u 4)) ∧
    ((lstate s = 0 ∨ lstate s = 4) → retVer s = 0 → v ≠ 0 → v.toNat ≠ liveVer s →
      (∃ u, Runs (.load m v) s u ∧ u.crs.incoming = v ∧ u.crs.viaLocal = false ∧ rdFld u 0x40100 15 0 = v.toNat ∧
        (lstate u = 1 ∧ rdFld u 0x40100 16 16 = 1 ∨
          lstate u = 4 ∧ rdFld u 0x40100 16 16 = 0 ∧ u.sto.incMap = [])) ∧
      (∃ u, Runs (.localVersion m v) s u ∧ u.crs.incoming = v ∧ u.crs.viaLocal = true ∧
        rdFld u 0x40100 15 0 = v.toNat ∧
        (lstate u = (if shadowOn s then 1 else 2) ∧ rdFld u 0x40100 19 19 = 1 ∨
          lstate u = 4 ∧ rdFld u 0x40100 19 19 = 0 ∧ u.sto.incMap = []))) ∧
    (lstate s = 3 → ∃ u, Runs (.turn m v) s u ∧ rdFld u 0x40100 17 17 = 1 ∧ lstate u = 3) ∧
    (lstate s ≠ 3 → ∃ u, Runs (.turn m v) s u ∧ refused u 1) ∧
    (rdFld s 0x40100 17 17 = 1 → ∃ u, Runs (.abandon m v) s u ∧ refused u 3) ∧
    (rdFld s 0x40100 17 17 = 0 → ∃ u, Runs (.abandon m v) s u ∧ lstate u = 0 ∧
      (lstate s ≠ 0 → lstate s ≠ 4 → u.sto.incMap = [] ∧ rdFld u 0x40100 16 16 = 0 ∧ rdFld u 0x40100 19 19 = 0))

open Sys2Proof.Claims in
/-- R83 steps 2 and 3, R86, R93, R94 step 4, R387, R567: the events that end the parts of a load. -/
def Obligations.LoadEvents : Prop :=
  (∀ s, lstate s = 1 → s.crs.viaLocal = false → opBusy s .load = false →
    ∃ u, Runs .lastSliceWritten s u ∧ lstate u = 2 ∧ u.mem = s.mem) ∧
  (∀ s, lstate s = 1 → s.crs.viaLocal = true →
    (∀ c ∈ localCopies s, copyReach s c.land c.off c.dest c.at' c.len = true) →
    ∃ u, Runs .localCopyComplete s u ∧ lstate u = 2 ∧
      ∀ x ∈ u.crs.shadows, x.ver = s.crs.incoming.toNat → x.done = true) ∧
  (∀ s, lstate s = 2 → s.crs.viaLocal = false →
    let d := rootOf (s.sto.leaves.filterMap fun e => e.2)
    (d = vdig s → ∃ u, Runs .digestComplete s u ∧ lstate u = 3 ∧ u.crs.incDig = d) ∧
    (d ≠ vdig s → ∃ u, Runs .digestComplete s u ∧ lstate u = 4 ∧ rdFld u 0x40104 3 3 = 1 ∧ u.sto.incMap = [] ∧
      rdFld u 0x8001c 31 31 = 1 ∧ rdFld u 0x8001c 7 0 = 0x04)) ∧
  (∀ s, lstate s = 2 → s.crs.viaLocal = true → imageReach s s.sto.incMap = true →
    ∃ u, Runs .digestComplete s u ∧ lstate u = 3 ∧ vdig u = u.crs.incDig ∧
      u.crs.incDig = imageRoot (imageRead s s.sto.incMap s.crs.incoming).1) ∧
  (∀ (l : Fin 32) r s, r ∈ s.sto.reloads → r.home = l.val → opBusy s (.reload r.home r.ver) = false →
    ∃ u, Runs (.sliceReloadComplete l) s u ∧ r ∉ u.sto.reloads ∧
      ∀ x ∈ u.crs.shadows, x.land = r.land → x.k = r.k → x.done = true) ∧
  (∀ h n rest x k j s, shadowOn s = true → liveVer s ≠ 0 → homeSlices s = (h, n) :: rest →
    shadowHolder s h = some x → areaWith s h 1 homeAreas = some k → liveLand s h = true →
    hasShadow s x h (liveVer s) = false →
    (shadowAreas.find? fun j => areaUse s x j == 0 && sliceLen s.sto.liveMap n ≤ areaSize s x j) = some j →
    copyReach s h (areaBase s h k) x (areaBase s x j) (sliceLen s.sto.liveMap n) = true →
    ∃ u, Runs .shadowCopyComplete s u ∧ hasShadow u x h (liveVer s) = true) ∧
  (∀ (l : Fin 32) off data s, liveLand s l.val = true → arrayOn s l.val = true → (getLand s l.val).gradArea ≠ [] →
    (gradsComplete s l.val = false → Runs (.gradientSliceComplete l off data) s s) ∧
    (∀ k, gradsComplete s l.val = true → areaWith s l.val 0 homeAreas = some k →
      let o := areaBase s l.val k + off
      off + data.length ≤ areaSize s l.val k → stackReach s l.val o data.length = true →
      ∃ u, Runs (.gradientSliceComplete l off data) s u ∧ (getLand u l.val).gradArea = [] ∧
        getBytes u (stackKey l.val o) data.length = data ∧
        (∀ x, (x < stackKey l.val o ∨ stackKey l.val o + data.length ≤ x) → getByte u x = getByte s x) ∧
        (getLand u l.val).gradFp32 = (getLand s l.val).gradArea.map fun r =>
          { r with rows := r.rows.zipIdx.map fun p => g32ToFp32 s r p.2 p.1 }))

namespace Sys2Proof.Claims

/-! ## Streams (R300 to R324) -/

/-- A stream context of a core, and the number of a ring row (R302). -/
def ctxOf (s : State) (k : CoreRef) (sid : Nat) : Ctx := getCtx s k.land.val k.core.val sid
def ringRowOf (x : Ctx) (p : Nat) : Nat := x.d.lrow + p % x.d.ring

/-- The core's engines run, and the context that its stream engine serves now issues u (R314, R315). -/
def serves (s : State) (k : CoreRef) (sid : Nat) (u : SUnit) : Prop :=
  coreRuns s k.land.val k.core.val = true ∧ pickCtx s k.land.val k.core.val = some (sid, u)

/-- What a context would issue, with its time to run dry. -/
def offer (s : State) (k : CoreRef) (sid : Nat) : Option SUnit :=
  nextUnit s k.land.val k.core.val sid (decide (tagsUsed s k.land.val k.core.val none < 64))
def dryOf (s : State) (k : CoreRef) (sid : Nat) : Int := dryTime s k.land.val k.core.val (ctxOf s k sid)

/-- Global address of the present row of a context without indices (R302). -/
def rowAddr (x : Ctx) : Dword :=
  x.d.gaddr + .ofNat 64 (x.issued / x.d.blkrows * x.d.gstride + 512 * (x.issued % x.d.blkrows))

/-- A LOAD row's access of a context, and its outcome as the event that ends it: a response, or a tag's timeout, which
counts as a lost frame (R313, R318). -/
def rowEnds (s : State) (i : Instr) (id : Nat) (k : CoreRef) (sid p : Nat) (r : AResult) : Prop :=
  ∃ a, findAccess s id = some a ∧ a.src = .row k sid p ∧ a.kind = .readRow ∧
    (i = .streamResponse id ∧ a.res = some r ∧ arrayOn s k.land.val = true ∧
        tagHeld s k.land.val k.core.val id = false ∨
      i = .tagTimeout id ∧ a.res = none ∧ tagHeld s k.land.val k.core.val id = false ∧ r = ⟨.lost, [], true⟩)

/-- CORE.SESTAT's count at bits [lo + 7:lo] is one higher, at most 255 (R324). -/
def seCounted (s u : State) (k : CoreRef) (lo : Nat) : Prop :=
  let o := coreBase k.land.val k.core.val + 0x1ec
  rdFld u o (lo + 7) lo = min 255 (rdFld s o (lo + 7) lo + 1)

/-! ## Windows and accesses at their targets (R25 to R28, R152, R370 to R380) -/

/-- No job is being killed or released. -/
def noKills (s : State) : Prop := ∀ j ∈ s.hm.jobs, j.dying = false

/-- An access that has not reached its target yet. -/
def outbound (s : State) (id : Nat) (a : Access) : Prop :=
  findAccess s id = some a ∧ a.res = none ∧ a.away = false ∧ accWaits s a = false ∧ afterStore s a = false

/-- The access's result. -/
def endsAs (u : State) (id : Nat) (r : AResult) : Prop := ∃ b, findAccess u id = some b ∧ b.res = some r

end Sys2Proof.Claims

open Sys2Proof.Claims in
/-- R302, R308, R314, R315: the context served is one that has something to issue, with the least time to run dry,
then the lowest number; a LOAD's next row starts a row read at its address, a STORE's the write of its ring row,
which carries the remote increment on the last row alone; with nothing to issue nothing happens. The context moves on
by one row. -/
def Obligations.StreamRequests : Prop :=
  ∀ k sid s,
    (∀ u, serves s k sid u → sid < 32 ∧ offer s k sid = some u ∧
      ∀ j < 32, (offer s k j).isSome = true → dryOf s k sid < dryOf s k j ∨ dryOf s k sid = dryOf s k j ∧ sid ≤ j) ∧
    (coreRuns s k.land.val k.core.val = true → (∀ j < 32, offer s k j = none) → Runs (.streamRequest k) s s) ∧
    (serves s k sid .row → (ctxOf s k sid).d.idx = false →
      let x := ctxOf s k sid
      let p := x.p0 + x.issued
      ∃ u, Runs (.streamRequest k) s u ∧ u.mem = s.mem ∧ (ctxOf u k sid).issued = x.issued + 1 ∧
        (x.d.store = false → u.accs = s.accs ++
          [⟨s.nextId, .row k sid p, .readRow, rowAddr x, x.d.win, none, 0, 0, false, none, none⟩]) ∧
        (x.d.store = true →
          let d := rowOf s k (ringRowOf x p)
          let inc := if x.issued + 1 = x.d.count * x.d.blkrows then x.d.inc else none
          u.accs = s.accs ++
            [⟨s.nextId, .row k sid p, .writeRow d.1 d.2, rowAddr x, x.d.win, inc, 0, 0, false, none, none⟩]))

open Sys2Proof.Claims in
/-- R316 to R319, R313: a LOAD row that no operand hold stalls lands in its ring row with its poison; a lost one, or
one whose tag times out, is zero with poison and counts as PSNROWS; a refused access fails its arming with the code
of R319 and counts as FAILED. The access is over, and no other byte of memory changes. A STORE row that left for
another module and times out counts as PSNROWS too. -/
def Obligations.StreamResponses : Prop :=
  (∀ id a k sid p data psn s, findAccess s id = some a → a.src = .row k sid p → a.kind = .writeRow data psn →
    a.res = none → a.away = true →
    ∃ u, Runs (.tagTimeout id) s u ∧ (∀ b ∈ u.accs, b.id ≠ id) ∧ seCounted s u k 8 ∧ u.mem = s.mem) ∧
  ∀ i id k sid p r s, rowEnds s i id k sid p r →
    let x := ctxOf s k sid
    let row := ringRowOf x p
    (refusedStatus r.status = false → rowHeld s k.land.val k.core.val row = false →
      ∃ u, Runs i s u ∧ (∀ b ∈ u.accs, b.id ≠ id) ∧
        (∀ y, ¬ inRows k row 1 y → getByte u y = getByte s y) ∧
        (r.status = .ok → rowOf u k row = (fitTo 0 512 r.data, r.psn)) ∧
        (r.status = .lost → rowOf u k row = (List.replicate 512 0, true)) ∧
        (r.status = .lost ∨ r.psn = true → seCounted s u k 8)) ∧
    (refusedStatus r.status = true → ∃ u, Runs i s u ∧ (∀ b ∈ u.accs, b.id ≠ id) ∧ u.mem = s.mem ∧
      (ctxOf u k sid).st = .failed ∧ seCounted s u k 16 ∧
      (ctxOf u k sid).err =
        (match r.status with | .domainOff => 2 | .windowClosed => 3 | _ => 1))

open Sys2Proof.Claims in
/-- R309, R324, R308, R326, R374: an arming whose rows are all complete ends and counts in ARMS, PARKED where it is
persistent, else IDLE; a missed deadline counts once per arming, which the rows of a failed one before it must have
left; a signal-only packet that its window admits adds its increment to the target core's counter, one with a stale
generation is counted and discarded. -/
def Obligations.StreamEnds : Prop :=
  (∀ k (sid : Fin 32) s, coreRuns s k.land.val k.core.val = true → armingOver (ctxOf s k sid.val) = true →
    let x := ctxOf s k sid.val
    ∃ u, Runs (.armingEnd k sid) s u ∧ (ctxOf u k sid.val).arms = x.arms + 1 ∧
      (ctxOf u k sid.val).st = (if x.d.persist then .parked else .idle) ∧ u.mem = s.mem) ∧
  (∀ k (sid : Fin 32) s, coreRuns s k.land.val k.core.val = true →
    let x := ctxOf s k sid.val
    x.st = .armed → x.fillTo ≤ x.pre → x.d.dl ≠ 0 → x.missed = false → x.start + x.d.dl ≤ s.edges →
    ∃ u, Runs (.deadlineMiss k sid) s u ∧ seCounted s u k 0 ∧ Runs (.deadlineMiss k sid) u u ∧
      ctxOf u k sid.val = { x with missed := true }) ∧
  (∀ t : Trans, ∀ s,
    let l : Fin 32 := Fin.ofNat 32 (gaUnit t.addr)
    let k : CoreRef := ⟨l, Fin.ofNat 256 t.rcore.toNat⟩
    let w := winSrc s (.port 0 t) t.sunit.toNat t.score.toNat
    let o := lcBase l.val + 0xa0
    gaMod t.addr = s.modnum.toNat → landSpace (gaSpace t.addr) = true → t.rctr.toNat < 48 → t.wen = true →
    absentLand s l.val = false → landFailed s l.val = false → quarantined s l.val = false →
    (winGen s l.val t.widx.toNat = t.wgen → admitsSignal s l.val t.widx.toNat w = true → arrayOn s l.val = true →
      coreActive s l.val t.rcore.toNat = true → unpaired s k t.rctr.toNat → (ctrOf s k t.rctr.toNat).sat = false →
      ∃ u, Runs (.remoteIncrement t) s u ∧
        (ctrOf u k t.rctr.toNat).val.toNat = ctrPlus (ctrOf s k t.rctr.toNat) t.rinc.toNat ∧ u.mem = s.mem) ∧
    (winGen s l.val t.widx.toNat ≠ t.wgen → ∃ u, Runs (.remoteIncrement t) s u ∧ u.cores = s.cores ∧
      rdFld u o 15 0 = min 0xffff (rdFld s o 15 0 + 1)))

open Sys2Proof.Claims in
/-- R370, R375, R376, R378: only the harbourmaster opens and closes windows; a window opens with its settings and its
generation; a close turns new accesses away at once and, with no access left at the target, completes: GEN advances by
1, and a window whose opening waited opens. -/
def Sys2Proof.Claims.WindowLife : Prop :=
  ∀ u i s, i < winCount (unitNum u) → unitOn s (unitNum u) = true →
    let n := unitNum u
    let b := winBase n i
    (∀ w, ∃ t, Runs (.windowOpen .hm u i w) s t ∧ rd t b = w.base ∧ rd t (b + 4) = w.pages ∧
      rdFld t (b + 8) 15 0 = w.job.toNat ∧ rdFld t (b + 8) 27 24 = w.space.toNat ∧
      rdFld t (b + 12) 13 10 = b2n w.rd + 2 * b2n w.wr + 4 * b2n w.amo + 8 * b2n w.inc ∧
      winGen t n i = winGen s n i ∧ (winClosing s n i = false → winOpen t n i = true) ∧
      (winClosing s n i = true → winOpen t n i = winOpen s n i ∧ winKey n i ∈ t.hm.reopen)) ∧
    (∃ t, Runs (.windowClose .hm u i) s t ∧ winOpen t n i = false ∧ winClosing t n i = true ∧
      winGen t n i = winGen s n i) ∧
    (∀ m w, m ≠ .hm → ∃ t, Runs (.windowOpen m u i w) s t ∧ Runs (.windowClose m u i) s t ∧ t = setFlag s 0x70004 0) ∧
    (winClosing s n i = true → winBusy s n i = false → winOpen s n i = false → noKills s →
      (∀ x ∈ s.hm.closes, x.ch < 50) → ∃ t, Runs (.windowCloseComplete u i) s t ∧ winClosing t n i = false ∧
        winGen t n i = winGen s n i + 1 ∧
        (winOpen t n i = true ↔ winKey n i ∈ s.hm.reopen)) ∧
    (winBusy s n i = true → Runs (.windowCloseComplete u i) s s)

open Sys2Proof.Claims in
/-- R366, R367, R368, R364: a scrub that ends lets the stack be read again, and its landing once both have ended; a
patrol pass counts and poisons in place every line with an uncorrectable error. -/
def Sys2Proof.Claims.ScrubAndPatrol : Prop :=
  ∀ (l : Fin 32) (st : Fin 2) s,
    (scrubbing s l.val st.val = true → noKills s → ∃ u, Runs (.scrubComplete l st) s u ∧ u.mem = s.mem ∧
      scrubbing u l.val st.val = false ∧
      (scrubbing s l.val (1 - st.val) = false → landScrubs u l.val = false)) ∧
    (uncoreOn s l.val = true → absentLand s l.val = false → rdFld s (scBase l.val st.val + 4) 15 0 ≠ 0 →
      scrubbing s l.val st.val = false → selfRefresh s l.val st.val = false →
      ∃ u, Runs (.patrolScrub l st) s u ∧ u.mem = s.mem ∧
        rdFld u (scBase l.val st.val + 4) 31 16 = min 0xffff (rdFld s (scBase l.val st.val + 4) 31 16 + 1) ∧
        ∀ k, inStack l.val st.val k = true → uncorrectable s k = true →
          uncorrectable u k = false ∧ poisoned u k = true)

open Sys2Proof.Claims in
/-- R364, R366 to R368, R370, R375, R376, R378: the life of a window, scrubs and patrol passes. -/
def Obligations.WindowsAndStacks : Prop := WindowLife ∧ ScrubAndPatrol

open Sys2Proof.Claims in
/-- R25, R27, R152, R156, R371, R379: an access of a core's thread at a target of its module: the first of ADDRESS,
AMO_SPACE, WINDOW_CLOSED and DOMAIN_OFF that applies ends it; else a read of memory answers its bytes, or POISON, a
write stores its bytes and no others, and AMOADD stores the sum and answers the old value. An access waits behind an
earlier store or AMOADD of its thread to the same 8 B (R158). -/
def Obligations.RemoteAccesses : Prop :=
  (∀ id s pre b mid a post, s.accs = pre ++ b :: mid ++ a :: post → (∀ x ∈ pre ++ b :: mid, x.id ≠ id) → a.id = id →
    isScalar a.kind = true → isScalar b.kind = true → isRead b.kind = false → b.res = none →
    (∃ w, a.src = .thread w ∧ b.src = .thread w) → b.addr.toNat / 8 = a.addr.toNat / 8 → Runs (.remoteAccess id) s s) ∧
  ∀ id a l c t s, outbound s id a → a.src = .thread (.core l c t) → gaMod a.addr = s.modnum.toNat →
    isScalar a.kind = true →
    let unit := gaUnit a.addr
    let sp := gaSpace a.addr
    let off := gaOff a.addr
    let k := memKey unit sp off
    let w := WSrc.land s.modnum.toNat l.val c.val
    let verdict := checkWindow s a w (.core l c) unit sp off
    let bad := accAddrBad s a unit sp off
    let noAmo := isAmo a.kind && !(sp == 0 || sp == 2 || sp == 4 || sp == 6)
    let fails := fun st => ∃ u, Runs (.remoteAccess id) s u ∧ endsAs u id ⟨st, [], false⟩ ∧ u.mem = s.mem
    (bad = true → fails .address) ∧
    (bad = false → noAmo = true → fails .amoSpace) ∧
    (bad = false → noAmo = false → (∀ v, verdict ≠ .go v) → fails .windowClosed) ∧
    (∀ v, bad = false → noAmo = false → verdict = .go v → accOn s a unit sp off = false → fails .domainOff) ∧
    (∀ v, bad = false → noAmo = false → verdict = .go v → accOn s a unit sp off = true → sp ≠ 3 → sp ≠ 5 →
      let d := memData s unit sp off (accLen a)
      (∀ n, a.kind = .read n → ∃ u, Runs (.remoteAccess id) s u ∧ u.mem = s.mem ∧
        endsAs u id (if d.2 then ⟨.poison, [], true⟩ else ⟨.ok, d.1, false⟩)) ∧
      (∀ data, a.kind = .write data → partBad s unit sp off data.length = false → a.inc = none →
        ∃ u, Runs (.remoteAccess id) s u ∧ endsAs u id ⟨.ok, [], false⟩ ∧ getBytes u k data.length = data ∧
          ∀ x, (x < k ∨ k + data.length ≤ x) → getByte u x = getByte s x) ∧
      (∀ n v, a.kind = .amo n v → d.2 = false → a.inc = none →
        ∃ u, Runs (.remoteAccess id) s u ∧ endsAs u id ⟨.ok, d.1, false⟩ ∧
          leNat (getBytes u k n) = (leNat d.1 + v.toNat) % 256 ^ n ∧
          ∀ x, (x < k ∨ k + n ≤ x) → getByte u x = getByte s x))

namespace Sys2Proof.Claims

/-- A command that has been sent to its target and has no completion. -/
def sentCmd (s : State) (id : Nat) (c : NvCmd) : Prop :=
  (s.sto.cmds.find? fun d => d.id == id && d.sent) = some c

/-- A load has failed with a code of STO.LERR: its commands are gone, and its slice map. -/
def loadFailed (u : State) (code : Nat) : Prop :=
  lstate u = 4 ∧ rdFld u 0x8001c 7 0 = code ∧ (∀ d ∈ u.sto.cmds, d.use.opOf ≠ some .load) ∧ u.sto.incMap = []

/-- A load alone waits for a target. -/
def loadWaits (s : State) (t : Nat) : Prop :=
  (∃ d ∈ s.sto.cmds, d.tgt = t ∧ d.use.opOf = some .load) ∧
    ∀ d ∈ s.sto.cmds, d.tgt = t → d.use = .connect ∨ d.use.opOf = some .load

end Sys2Proof.Claims

open Sys2Proof.Claims in
/-- R382, R383, R387, R390, R393, R395: an order of a checkpoint during another is refused with BUSY, one without a
plan, or with extents outside the stacks of live landings or a target that the table has not, with PLAN; accepted, it
reads both commit slots and STATE is WRITING or RESTORING; ABORT fails the operation with ABORTED. A completed read
of a load is no longer outstanding and its leaf is hashed; where a window or a stack bars its data the load fails
with ABORTED (the model's choice, log 80). An error status or a timeout fails the load, a refused Connect makes its
target unreachable; a lost connection is made again once, and its commands leave again when the target has answered. -/
def Obligations.StorageEvents : Prop :=
  (∀ m (rest : Bool) s, reachesModule m = true →
    let i := if rest then Instr.restore m else .checkpointWrite m
    let no := fun why => ∃ u, Runs i s u ∧ rdFld u 0x80014 4 4 = 1 ∧ rdFld u 0x80014 11 8 = why ∧
      rdFld u 0x80014 2 0 = rdFld s 0x80014 2 0 ∧ u.sto = s.sto
    (s.sto.ck.step ≠ .idle → no 1 ∧
      ∃ u, Runs (.checkpointAbort m) s u ∧ u.sto.ck.step = .idle ∧ rdFld u 0x80014 2 0 = 4 ∧
        rdFld u 0x80018 7 0 = 6 ∧ ∀ c ∈ u.sto.cmds, c.use.opOf ≠ some .ckpt) ∧
    (s.sto.ck.step = .idle → readPlan s 0x80008 2 0 = none → no 2) ∧
    (∀ p, s.sto.ck.step = .idle → readPlan s 0x80008 2 0 = some p → (ckPlanOk s p.2 = false ∨ 15 < field p.1 20 1) →
      no 2) ∧
    (∀ p, s.sto.ck.step = .idle → readPlan s 0x80008 2 0 = some p → ckPlanOk s p.2 = true → field p.1 20 1 ≤ 15 →
      ∃ u, Runs i s u ∧ rdFld u 0x80014 2 0 = (if rest then 5 else 1) ∧ u.sto.ck.step = .slots ∧ u.mem = s.mem ∧
        ∃ a b, a ∈ u.sto.cmds ∧ b ∈ u.sto.cmds ∧ a.use = .slot false ∧ b.use = .slot true ∧ a.op = 2 ∧ b.op = 2 ∧
          a.slba = field p.1 24 8 ∧ b.slba = field p.1 32 8)) ∧
  (∀ id c off (data : List Byte) s, sentCmd s id c → c.use = .load off →
    let bs := fitTo 0 (4096 * c.blocks) data
    let bars := fun p => barred s (quayOf c.tgt) { wr := true } p
    (c.op = 2 → (∀ p ∈ cmdPlaces s c.use 0 bs.length, bars p = false) →
      ∃ u, Runs (.nvmeCompletion id 0 data) s u ∧ (∀ d ∈ u.sto.cmds, d.id ≠ id) ∧
        tget none u.sto.leaves (off / 2 ^ 20) = some (leafDigest (bs.take (imageLen s.sto.incMap - off)))) ∧
    (c.op = 2 → (∃ p ∈ cmdPlaces s c.use 0 bs.length, bars p = true) →
      ∃ u, Runs (.nvmeCompletion id 0 data) s u ∧ loadFailed u 6 ∧ u.mem = s.mem) ∧
    (∀ status, status ≠ 0 → ∃ u, Runs (.nvmeCompletion id status data) s u ∧ loadFailed u 2) ∧
    (∃ u, Runs (.nvmeTimeout id) s u ∧ loadFailed u 3)) ∧
  (∀ id c s, sentCmd s id c → c.use = .connect → loadWaits s c.tgt →
    (∀ status data, status ≠ 0 → ∃ u, Runs (.nvmeCompletion id status data) s u ∧ loadFailed u 1) ∧
    (∃ u, Runs (.nvmeTimeout id) s u ∧ loadFailed u 1) ∧
    (hasQp s c.tgt = true → (∀ d ∈ s.sto.cmds, d.tgt = c.tgt → d.use = .connect → d.id = id) →
      (s.sto.cmds.filter fun d => d.tgt == c.tgt).length ≤ queueRoom c.tgt →
      ∃ u, Runs (.nvmeCompletion id 0 []) s u ∧ ∀ d ∈ s.sto.cmds, d.tgt = c.tgt → d.id ≠ id → d.sent = false →
        ∃ n, Out.nvme d.tgt d.op d.nsid d.slba d.blocks d.fua d.data n ∈ u.outs)) ∧
  (∀ (t : Fin 16) s, hasQp s t.val = true → loadWaits s t.val →
    (∃ u, Runs (.connectionLoss t false) s u ∧ loadFailed u 1) ∧
    (.load ∈ s.sto.lost → ∃ u, Runs (.connectionLoss t true) s u ∧ loadFailed u 1) ∧
    (.load ∉ s.sto.lost → ∃ u, Runs (.connectionLoss t true) s u ∧ .load ∈ u.sto.lost ∧ lstate u = lstate s ∧
      Out.nvme t.val 3 0 0 0 false (leBytes 4 0) 0 ∈ u.outs ∧
      ∀ d ∈ s.sto.cmds, d.tgt = t.val → d.use ≠ .connect → { d with sent := false } ∈ u.sto.cmds))

namespace Sys2Proof.Claims

/-! ## Far ports (R402 to R415) -/

/-- The frames that carry a link part: the port and the link part. -/
def linkOf : Instr → Option (Fin 16 × LinkPart)
  | .ferry p k _ => some (p, k)
  | .write p k _ _ => some (p, k)
  | .read p k _ => some (p, k)
  | .resp p k _ _ => some (p, k)
  | .signal p k _ => some (p, k)
  | .amo p k _ => some (p, k)
  | .idle p k => some (p, k)
  | .nack p k _ => some (p, k)
  | .loss p k _ _ => some (p, k)
  | .reservedFrame p k _ => some (p, k)
  | .time h _ _ _ _ => some (h.port, h.link)
  | .heartbeat h => some (h.port, h.link)
  | .hold h _ _ => some (h.port, h.link)
  | .clArrive h _ _ _ _ _ _ => some (h.port, h.link)
  | .clRelease h _ _ => some (h.port, h.link)
  | .clAck h _ _ => some (h.port, h.link)
  | .vturn h _ _ => some (h.port, h.link)
  | .vturnAck h _ => some (h.port, h.link)
  | .fault h => some (h.port, h.link)
  | .wdog h _ _ => some (h.port, h.link)
  | .wdogAck h _ _ => some (h.port, h.link)
  | .cutout h _ => some (h.port, h.link)
  | .mctpPacket (.tc3 h) _ => some (h.port, h.link)
  | .reservedMsgtype h _ => some (h.port, h.link)
  | _ => none

/-- Key of a group and class. -/
def groupKey (s : State) (p : Fin 16) (tc : BitVec 2) : Nat := 4 * portRole s p.val + tc.toNat

/-- A frame whose CRC checks is the next of its link and of its group, on a port that is UP, in a module that is not
fenced; nothing of its group and class waits for it (R403, R407, R421). -/
def comes (s : State) (p : Fin 16) (k : LinkPart) : Prop :=
  slipUp s p.val = true ∧ k.crcOk = true ∧ k.lseq.toNat = (getPort s p.val).exp ∧
    k.gseq.toNat = tget 0 s.xpt.grx (groupKey s p k.tc) ∧ fenced s = false ∧
    ∀ it ∈ s.xpt.rxq, rxKey it ≠ groupKey s p k.tc

/-- The link has taken the frame: the next LSEQ is expected, and the frame's credits, of 512 B each with its header of
64 B, are owed to the sender (R407, R409). -/
def taken (s u : State) (p : Fin 16) (k : LinkPart) (payload : Nat) : Prop :=
  (getPort u p.val).exp = ((getPort s p.val).exp + 1) % 65536 ∧ (getPort u p.val).skip = false ∧
    tget 0 (getPort u p.val).owed k.tc.toNat = tget 0 (getPort s p.val).owed k.tc.toNat + (64 + payload + 511) / 512

/-- A scalar access of 4 B or 8 B, or 1 to 64 rows (R406). -/
def scalarTrans (t : Trans) : Prop := t.nrows = 0 ∧ 2 ≤ t.ssize.toNat
def scalarSize (t : Trans) : Nat := if t.ssize = 2 then 4 else 8
def rowsTrans (t : Trans) : Prop := 1 ≤ t.nrows ∧ t.nrows ≤ 64

/-- What a request frame asks at its target: its transaction part, payload rows, and the access it is (R405, R406). -/
def asks (i : Instr) (p : Fin 16) (k : LinkPart) (t : Trans) (n : Nat) (x : AKind) : Prop :=
  (∃ rows, i = .write p k t rows ∧ n = rows.length ∧
    (scalarTrans t ∧ x = .write (leBytes (scalarSize t) t.data.toNat) ∨
      rowsTrans t ∧ x = .writeRow ((List.range t.nrows).flatMap fun j => fitTo 0 512 (rows.getD j [])) false)) ∨
  (i = .read p k t ∧ n = 0 ∧ (scalarTrans t ∧ x = .read (scalarSize t) ∨ rowsTrans t ∧ x = .readRow)) ∨
  (i = .signal p k t ∧ n = 0 ∧ x = .signal) ∨
  (i = .amo p k t ∧ n = 0 ∧ scalarTrans t ∧ x = .amo (scalarSize t) t.data)

/-- The frame is a WRITE with STATUS LOST, which stands for one lost on its way (R408). -/
def lostWrite (i : Instr) (t : Trans) : Prop := (∃ p k rows, i = .write p k t rows) ∧ t.status = 5

/-- The rows of a lost WRITE on their way to its target: every one poisoned, and STATUS LOST (R317, R408). -/
def lostRows (t : Trans) : Trans := { t with status := 5, poison := .ofNat 64 (2 ^ t.nrows - 1) }

/-- A frame of the link's sequence: no IDLE, NACK or LOSS. -/
def inSeq (i : Instr) : Prop :=
  (∀ p k, i ≠ .idle p k) ∧ (∀ p k n, i ≠ .nack p k n) ∧ ∀ p k n t, i ≠ .loss p k n t

/-- No register changes but the port's count of corrected codewords, a free value (log 1). -/
def regsBut (s u : State) (p : Fin 16) : Prop := ∀ o, o ≠ rPort p.val + 0xc → rd u o = rd s o

/-- The access that a request frame becomes, numbered by the model's own count. -/
def frameAccess (s : State) (p : Fin 16) (t : Trans) (x : AKind) : Access :=
  ⟨s.nextId, .port p.val t, x, t.addr, if t.wen then some (t.widx, t.wgen) else none,
    if t.rctr = 0x3f then none else some (t.rcore, t.rctr, t.rinc), 0, 0, false, none, none⟩

/-- Group that carries frames to a module, and its queue of a class. -/
def roleTo (s : State) (m : Nat) : Nat := entryRole s (routeEntry s m)
def queueOf (s : State) (r tc : Nat) : List Frame := tget [] s.xpt.txq (4 * r + tc)

/-- Frames can be sent to a module (R412, R421). -/
def routed (s : State) (m : Nat) : Prop := groupDown s (roleTo s m) = false ∧ fenced s = false

/-- A message of TC2 can be sent to a module, on the group that R414 gives it. -/
def msgRouted (s : State) (m : Nat) : Prop := groupDown s (msgRole s m) = false ∧ fenced s = false

/-- A frame leaves the port: its link sequence, class and group sequence (R404). -/
def leaves (s u : State) (p : Fin 16) (e : Sent) : Prop :=
  ∃ k : LinkPart, u.outs = s.outs ++ [.frame p.val k e.frame (frameHead k e.frame)] ∧ k.lseq = .ofNat 16 e.lseq ∧
    k.tc = .ofNat 2 e.tc ∧
    k.gseq = .ofNat 16 e.gseq ∧ k.crcOk = true

/-- The messages: type, fields, payload (R415). -/
def msgRow : Instr → Option (MsgHead × Nat × List Int × List Byte)
  | .time h a b c d => some (h, 0x001, [a, b, c, d], [])
  | .heartbeat h => some (h, 0x002, [], [])
  | .hold h x y => some (h, 0x003, [(b2n x : Int), (b2n y : Int)], [])
  | .clArrive h l g gen m c p =>
    some (h, 0x004, [(l.val : Int), (g.val : Int), (gen.toNat : Int), (m.toNat : Int), (c.toNat : Int),
      (p.toNat : Int)], [])
  | .clRelease h g gen => some (h, 0x005, [(g.val : Int), (gen.toNat : Int)], [])
  | .clAck h g gen => some (h, 0x006, [(g.val : Int), (gen.toNat : Int)], [])
  | .vturn h v t => some (h, 0x007, [(v.toNat : Int), (t.toNat : Int)], [])
  | .vturnAck h t => some (h, 0x008, [(t.toNat : Int)], [])
  | .fault h => some (h, 0x009, [], [])
  | .wdog h g gen => some (h, 0x00a, [(g.val : Int), (gen.toNat : Int)], [])
  | .cutout h m => some (h, 0x00b, [(m.toNat : Int)], [])
  | .wdogAck h g gen => some (h, 0x00c, [(g.val : Int), (gen.toNat : Int)], [])
  | .mctpPacket (.tc3 h) bs => some (h, 0x100, [], bs)
  | .reservedMsgtype h ty => some (h, ty.toNat, [], [])
  | _ => none

/-- A message for this module comes; one from a module that has only a switch for its far end names 0x7FF. -/
def msgComes (s : State) (h : MsgHead) : Prop := comes s h.port h.link ∧ (h.dst = s.modnum ∨ h.dst = 0x7ff)

/-- A message from this module to another. -/
def msgTo (s : State) (ty m : Nat) (args : List Int) : Frame := .msg ty s.modnum.toNat m args []

/-- A message on every group with a port UP, to its far end (R415). -/
def toAll (s u : State) (ty : Nat) (args : List Int) : Prop :=
  ∀ r ∈ liveRoles s, ∀ m, farEnd s r = some m → queueOf u r 2 = queueOf s r 2 ++ [msgTo s ty m args]

/-- Fields of a count of events of 8 or 16 bits one higher (R432). -/
def counted (s u : State) (o hi lo : Nat) : Prop :=
  rdFld u o hi lo = min (2 ^ (hi + 1 - lo) - 1) (rdFld s o hi lo + 1)

end Sys2Proof.Claims

open Sys2Proof.Claims in
/-- R405, R406, R409, R412: a WRITE, READ, SIGNAL or AMO for this module becomes the access that its transaction part
asks for; one for another module goes on to the group of its route entry with HOPS one higher. -/
def Obligations.RequestFrames : Prop :=
  ∀ i p k t n x s, asks i p k t n x → comes s p k → ¬ lostWrite i t →
    (gaMod t.addr = s.modnum.toNat → ∃ u, Runs i s u ∧ taken s u p k (512 * n) ∧
      u.accs = s.accs ++ [frameAccess s p { t with status := 0 } x] ∧ u.mem = s.mem ∧ regsBut s u p) ∧
    (gaMod t.addr ≠ s.modnum.toNat → t.hops < 16 → groupDown s (roleTo s (gaMod t.addr)) = false →
      ∃ u ft rows, Runs i s u ∧ taken s u p k (512 * n) ∧ u.accs = s.accs ∧
        queueOf u (roleTo s (gaMod t.addr)) k.tc.toNat =
          queueOf s (roleTo s (gaMod t.addr)) k.tc.toNat ++ [.acc ft { t with hops := t.hops + 1, status := 0 } rows])

open Sys2Proof.Claims in
/-- R98, R317, R318, R405 to R409: a RESP ends the access it answers with its status and data, POISON where scalar
data is poisoned; a FERRY takes a free slot before the entry landing of an extended crossing, with its hold word;
IDLE returns credits; a reserved FTYPE is dropped and counts as CRCERR; a LOSS passes its frame's place in the
sequence, counts as LOST, ends the access of a lost RESP as LOST; a lost WRITE of rows leaves zero rows with poison
at its target, and goes on as such to another module with STATUS LOST. -/
def Obligations.OtherFrames : Prop :=
  (∀ p k (t : Trans) rows a s, comes s p k → gaMod t.addr = s.modnum.toNat → awaiting s t.tag = some a →
    (t.poison = 0 → isScalar a.kind = true → ∃ u, Runs (.resp p k t rows) s u ∧ taken s u p k (512 * rows.length) ∧
      endsAs u a.id ⟨codeStatus t.status, leBytes (accLen a) t.data.toNat, false⟩) ∧
    (t.poison ≠ 0 → isScalar a.kind = true → codeStatus t.status = .ok → ∃ u, Runs (.resp p k t rows) s u ∧
      endsAs u a.id ⟨.poison, leBytes (accLen a) t.data.toNat, true⟩) ∧
    (isScalar a.kind = false → ∃ u, Runs (.resp p k t rows) s u ∧ taken s u p k (512 * rows.length) ∧
      endsAs u a.id ⟨codeStatus t.status, fitTo 0 512 (rows.getD 0 []), t.poison != 0⟩) ∧
    ∃ u d b, Runs (.loss p k 4 t) s u ∧ endsAs u a.id ⟨.lost, d, b⟩ ∧ counted s u (rPort p.val + 8) 7 0 ∧
      (getPort u p.val).exp = ((getPort s p.val).exp + 1) % 65536) ∧
  (∀ i p k (t : Trans) s, comes s p k → rowsTrans t →
    (i = .loss p k 2 t ∨ (∃ rows, i = .write p k t rows) ∧ t.status = 5) →
    (gaMod t.addr = s.modnum.toNat → ∃ u, Runs i s u ∧
      (i = .loss p k 2 t → counted s u (rPort p.val + 8) 7 0) ∧
      u.accs = s.accs ++ [frameAccess s p (lostRows t)
        (.writeRow ((List.range t.nrows).flatMap fun _ => fitTo 0 512 []) false)]) ∧
    (gaMod t.addr ≠ s.modnum.toNat → t.hops < 16 → groupDown s (roleTo s (gaMod t.addr)) = false →
      ∃ u, Runs i s u ∧ u.accs = s.accs ∧ queueOf u (roleTo s (gaMod t.addr)) k.tc.toNat =
        queueOf s (roleTo s (gaMod t.addr)) k.tc.toNat ++
          [.acc 2 { lostRows t with hops := t.hops + 1 } (List.replicate t.nrows [])])) ∧
  (∀ p k (f : Ferry) hold s, comes s p k →
    (s.crs.ext = false → ∃ u, Runs (.ferry p k ⟨f, hold⟩) s u ∧ u.trainCw = s.trainCw ∧ u.trainCcw = s.trainCcw) ∧
    ((∃ n < slotCount s, atEdge s f.dir (getTSlot s f.dir n) = true ∧ (getTSlot s f.dir n).ferry = none) →
      s.crs.ext = true → ∃ u n, Runs (.ferry p k ⟨f, hold⟩) s u ∧ taken s u p k (512 * f.hdr.rows) ∧
        (getTSlot s f.dir n).ferry = none ∧ (getTSlot u f.dir n).ferry = some f ∧ (getTSlot u f.dir n).hold = hold)) ∧
  (∀ p k ft s, comes s p k → ∃ u, Runs (.reservedFrame p k ft) s u ∧ counted s u (rPort p.val + 4) 15 0 ∧
    u.accs = s.accs ∧ (getPort u p.val).exp = ((getPort s p.val).exp + 1) % 65536) ∧
  (∀ p k s, slipUp s p.val = true → k.crcOk = true → (getPort s p.val).skip = false →
    ∃ u, Runs (.idle p k) s u ∧ regsBut s u p ∧
      tget 0 (getPort u p.val).credit k.crtc.toNat = tget 0 (getPort s p.val).credit k.crtc.toNat + k.crcnt.toNat ∧
      (k.ackv = false → (getPort u p.val).sent = (getPort s p.val).sent) ∧
      (∀ a e b, k.ackv = true → (getPort s p.val).sent = a ++ e :: b → e.lseq = k.lack.toNat →
        (∀ y ∈ a, y.lseq ≠ k.lack.toNat) → (getPort u p.val).sent = b))

open Sys2Proof.Claims in
/-- R407, R408: a frame whose CRC fails has no effect but its count, a NACK that names it, and the discard of what
follows; one ahead of the sequence is discarded with a NACK of the frame that is missing; a NACK replays every frame
from the failed one on and counts; after 4 replays of it a LOSS goes in its place and LOST counts. -/
def Obligations.LinkErrors : Prop :=
  (∀ i p k s, linkOf i = some (p, k) → slipUp s p.val = true → k.crcOk = false → (getPort s p.val).skip = false →
    ∃ u, Runs i s u ∧ counted s u (rPort p.val + 4) 15 0 ∧ u.accs = s.accs ∧ u.mem = s.mem ∧
      (getPort u p.val).skip = true ∧ (getPort u p.val).exp = (getPort s p.val).exp ∧
      (getPort u p.val).ctl.map Sent.frame = (getPort s p.val).ctl.map Sent.frame ++ [.nack k.lseq.toNat]) ∧
  (∀ i p k s, linkOf i = some (p, k) → inSeq i → slipUp s p.val = true → k.crcOk = true →
    (getPort s p.val).skip = false → seqAhead k.lseq.toNat (getPort s p.val).exp = true →
    ∃ u, Runs i s u ∧ u.accs = s.accs ∧ u.mem = s.mem ∧ u.xpt.rxq = s.xpt.rxq ∧ (getPort u p.val).skip = true ∧
      (getPort u p.val).ctl.map Sent.frame = (getPort s p.val).ctl.map Sent.frame ++ [.nack (getPort s p.val).exp]) ∧
  (∀ p k (failed : BitVec 16) a e b s, slipUp s p.val = true → k.crcOk = true → (getPort s p.val).skip = false →
    k.ackv = false → (getPort s p.val).sent = a ++ e :: b → e.lseq = failed.toNat →
    (∀ y ∈ a, y.lseq ≠ failed.toNat) →
    (∀ n, (getPort s p.val).tried = some (failed.toNat, n) ∧ n < 4 ∨ (getPort s p.val).tried = none ∧ n = 0 →
      ∃ u, Runs (.nack p k failed) s u ∧ (getPort u p.val).replay = e :: b ∧
        (getPort u p.val).tried = some (failed.toNat, n + 1) ∧ counted s u (rPort p.val + 4) 31 16) ∧
    ((getPort s p.val).tried = some (failed.toNat, 4) → ∃ u, Runs (.nack p k failed) s u ∧
      (getPort u p.val).replay = b ∧ counted s u (rPort p.val + 8) 7 0 ∧ rdFld u 0x5000c 2 2 = 1 ∧
      (getPort u p.val).ctl = (getPort s p.val).ctl ++ [{ e with frame := lossOf e.frame }]))

open Sys2Proof.Claims in
/-- R403, R407, R409, R410, R421: what a port sends next: NACK and LOSS, then replays, which a fenced module sends of
TC3 alone; then TC2 before TC3, and TC0 and TC1 by weighted round robin, with the credits of the frame, its rate and
room in the replay buffer; IDLE where nothing goes, or where one is due (the model's choice, log 88). A new frame
takes the next LSEQ and its group's next GSEQ, stays in the replay buffer, and spends its credits; one of TC3 holds
the class for the time that 1 % of the port gives it. -/
def Obligations.FrameSends : Prop :=
  ∀ p s, slipUp s p.val = true →
    let x := getPort s p.val
    let ctl := x.ctl.filter (mayGo s)
    let replay := x.replay.filter (mayGo s)
    let left := fun tc => tget 0 x.left tc
    let turn := fun tc => canSend s p.val (1 - tc) = false ∨ (b2n x.onTc1 = tc ∧ 0 < left tc) ∨
      (b2n x.onTc1 ≠ tc ∧ left (1 - tc) ≤ 0 ∧ 0 < left tc + tcWeight s tc)
    (fenced s = false → ctl = x.ctl ∧ replay = x.replay) ∧
    (fenced s = true → ∀ e ∈ replay, e.tc = 3 ∨ e.frame = .idle ∨ ∃ n, e.frame = .nack n) ∧
    (∀ e rest, ctl = e :: rest → ∃ u, Runs (.frameSend p) s u ∧ leaves s u p e ∧ (getPort u p.val).ctl = rest) ∧
    (∀ e rest, ctl = [] → replay = e :: rest →
      ∃ u, Runs (.frameSend p) s u ∧ leaves s u p e ∧ (getPort u p.val).replay = rest) ∧
    (ctl = [] → replay = [] →
      let idles := fun u => leaves s u p ⟨x.next, 0, 0, .idle⟩ ∧ u.xpt.txq = s.xpt.txq
      (∀ tc f rest, canSend s p.val tc = true →
        (tc = 2 ∨ tc = 3 ∧ canSend s p.val 2 = false ∨
          tc ≤ 1 ∧ canSend s p.val 2 = false ∧ canSend s p.val 3 = false ∧ turn tc) →
        queueOf s (portRole s p.val) tc = f :: rest →
        let e : Sent := ⟨x.next, tc, tget 0 s.xpt.gtx (4 * portRole s p.val + tc), f⟩
        ∃ u, Runs (.frameSend p) s u ∧ if idleDue s = true then idles u else
          leaves s u p e ∧ queueOf u (portRole s p.val) tc = rest ∧
          (getPort u p.val).sent = x.sent ++ [e] ∧ (getPort u p.val).next = (x.next + 1) % 65536 ∧
          tget 0 (getPort u p.val).credit tc + frameCredits f = tget 0 x.credit tc ∧
          (tc = 3 → (getPort u p.val).tc3At = s.edges + (100 * frameBytes f + 999) / 1000)) ∧
      ((∀ tc < 4, canSend s p.val tc = false) → ∃ u, Runs (.frameSend p) s u ∧ idles u))

open Sys2Proof.Claims in
/-- R100, R344, R412, R415 to R421: what each message does at its destination, in the order of R415's table; a message
for another module goes on, in TC2 to the group that R414 gives it, else to that of its route entry; one of a reserved
type is dropped and counted. -/
def Obligations.Messages : Prop :=
  (∀ i h ty args bs s, msgRow i = some (h, ty, args, bs) → comes s h.port h.link → h.dst ≠ s.modnum → h.dst ≠ 0x7ff →
    (msgTypeOf ty).isSome = true →
    let r := if h.link.tc = 2 then msgRole s h.dst.toNat else roleTo s h.dst.toNat
    groupDown s r = false → ∃ u, Runs i s u ∧ taken s u h.port h.link bs.length ∧
      queueOf u r h.link.tc.toNat = queueOf s r h.link.tc.toNat ++ [.msg ty h.src.toNat h.dst.toNat args bs]) ∧
  (∀ h (ty : BitVec 16) s, comes s h.port h.link → (ty.toNat = 0 ∨ 0xd ≤ ty.toNat ∧ ty.toNat ≠ 0x100) →
    ∃ u, Runs (.reservedMsgtype h ty) s u ∧ counted s u (rPort h.port.val + 8) 31 24 ∧ u.crs = s.crs ∧
      u.xpt.txq = s.xpt.txq) ∧
  (∀ h s, msgComes s h →
    let own := s.modnum.toNat
    let src := h.src.toNat
    (∀ a b c d : Int, timeMaster s = false → fromParent s h.port.val src = false → msgRouted s src →
      ∃ u, Runs (.time h a b c d) s u ∧
        queueOf u (msgRole s src) 2 = queueOf s (msgRole s src) 2 ++ [msgTo s 1 src [a, b, c]]) ∧
    (∀ a b c d : Int, fromParent s h.port.val src = true →
      let u1 := ((a - b) + (d - c)) / 2
      ∃ u, Runs (.time h a b c d) s u ∧ rd u 0x50014 = BitVec.ofInt 32 u1 ∧ u.xpt.exch = s.xpt.exch + 1 ∧
        (inTime s .acquiring = true → 32 ≤ s.xpt.exch + 1 → inTime u .locked = true)) ∧
    (∃ u, Runs (.heartbeat h) s u ∧ regsBut s u h.port ∧ u.crs = s.crs ∧ u.lands = s.lands ∧
      taken s u h.port h.link 0) ∧
    (∀ x y, ∃ u, Runs (.hold h x y) s u ∧
      u.crs.notices = (s.crs.notices.filter fun n => n.mod ≠ src) ++ [⟨src, x, y⟩]) ∧
    (∀ (l : Fin 32) (g : Fin 16) k m c p, ((liveLands s).find? fun j => m.getLsbD j) = some k →
      m = cgLmask s k g.val → c = cgCtl s k g.val → p = cgPer s k g.val →
      ∃ u, Runs (.clArrive h l g (getGroup s k g.val).gen m c p) s u ∧
        (getGroup u k g.val).got = (getGroup s k g.val).got ++ [(l.val, src)]) ∧
    (∀ (g : Fin 16) gen, ∃ u, Runs (.clRelease h g gen) s u ∧ ∀ l, liveLand s l = true → cgEn s l g.val = true →
      cgSys s l g.val = true → cgMasterMod s l g.val = src → (getGroup s l g.val).gen = gen →
      (getGroup u l g.val).gen = gen + 1) ∧
    (∀ (g : Fin 16) (gen : BitVec 16), let gone := fun n : Unacked => ¬ (n.g = g.val ∧ n.gen = gen.toNat ∧ n.mod = src)
      (∃ u, Runs (.clAck h g gen) s u ∧ (∀ n, n ∈ u.xpt.clRel ↔ n ∈ s.xpt.clRel ∧ gone n)) ∧
      (∃ u, Runs (.wdogAck h g gen) s u ∧ (∀ n, n ∈ u.xpt.wdogs ↔ n ∈ s.xpt.wdogs ∧ gone n)) ∧
      (msgRouted s src → ∃ u, Runs (.wdog h g gen) s u ∧
        queueOf u (msgRole s src) 2 = queueOf s (msgRole s src) 2 ++
          [msgTo s 0xc src [(g.val : Int), (gen.toNat : Int)]])) ∧
    (∀ t0 : Dword, s.crs.ext = true → turnArmed s = true → ∃ u, Runs (.vturn h s.crs.incoming t0) s u ∧
      u.crs.turnT0.toNat = max s.crs.turnT0.toNat t0.toNat) ∧
    (∃ u, Runs (.vturnAck h s.crs.turnT0) s u ∧ src ∈ u.xpt.vturnGot) ∧
    (src ≠ own → src ∉ s.xpt.declared →
      (isNeighbour s src = true → ∃ u, Runs (.fault h) s u ∧ src ∈ u.xpt.declared ∧ routeEntry u src = 0xf) ∧
      (isNeighbour s src = false → ∃ u, Runs (.fault h) s u ∧ regsBut s u h.port ∧ src ∉ u.xpt.declared)) ∧
    (∀ m : BitVec 11, ∃ u, Runs (.cutout h m) s u ∧
      if m.toNat = own then fenced u = true ∧ rdFld u 0x5000c 5 5 = 1 else routeEntry u m.toNat = 0xf) ∧
    (∀ bs, (∀ ty, mctpType bs = some ty → hmRuns s = false ∨ ty = 0 ∨ ty = 5 ∨ ty = 1 ∧ pldmType bs ≠ 0) →
      ∃ u, Runs (.mctpPacket (.tc3 h) bs) s u ∧ regsBut s u h.port ∧ u.mem = s.mem ∧ u.xpt.txq = s.xpt.txq) ∧
    (∀ bs ty, mctpType bs = some ty → hmRuns s = true → ty ∉ [0, 1, 5] ∨ ty = 1 ∧ pldmType bs = 0 → routed s src →
      ∃ u, Runs (.mctpPacket (.tc3 h) bs) s u ∧ queueOf u (roleTo s src) 3 = queueOf s (roleTo s src) 3 ++
        [.msg 0x100 own src [] (if ty = 1 then Config.pldmBase bs else Config.mctpUnsupported bs)]))

open Sys2Proof.Claims in
/-- R100, R415 to R420: what the timers send: heartbeats, hold notices, faults and cut-outs, and the notices not yet
acknowledged, again; a new turn point; the exchange with the time parent, which is
the neighbour with the fewest hops. -/
def Obligations.MessageTimers : Prop :=
  (∀ s, fenced s = false →
    (∃ u, Runs .heartbeatTimer s u ∧ toAll s u 0x2 []) ∧
    (fatal s = true → ∃ u, Runs .faultRepeat s u ∧ toAll s u 0x9 []) ∧
    (fatal s = false → Runs .faultRepeat s s) ∧
    (∃ u, Runs .cutoutRepeat s u ∧ ∀ c, c ∈ u.xpt.cuts ↔ c ∈ s.xpt.cuts ∧ s.time.toNat < c.2.toNat + 200000) ∧
    (∀ c ∈ s.xpt.cuts, s.time.toNat < c.2.toNat + 200000 → ∃ u, Runs .cutoutRepeat s u ∧
      ∀ r ∈ liveRoles s, ∀ m, farEnd s r = some m → msgTo s 0xb m [(c.1 : Int)] ∈ queueOf u r 2) ∧
    (∀ x ∈ s.xpt.clRel, msgRouted s x.mod → ∃ u, Runs .clReleaseResend s u ∧
      msgTo s 0x5 x.mod [(x.g : Int), (x.gen : Int)] ∈ queueOf u (msgRole s x.mod) 2) ∧
    (∀ x ∈ s.xpt.wdogs, msgRouted s x.mod → ∃ u, Runs .wdogResend s u ∧
      msgTo s 0xa x.mod [(x.g : Int), (x.gen : Int)] ∈ queueOf u (msgRole s x.mod) 2) ∧
    (s.crs.ext = true → ∃ u, Runs .holdNoticeTimer s u ∧ u.crs.lastHold = anyHold s ∧ u.crs.lastBoard = bhold s ∧
      ∀ m ∈ members s, m ≠ s.modnum.toNat → msgRouted s m →
        msgTo s 0x3 m [(b2n (anyHold s) : Int), (b2n (bhold s) : Int)] ∈ queueOf u (msgRole s m) 2) ∧
    (∀ t0 : Dword, s.crs.ext = true → crossingMaster s = true → turnArmed s = true →
      (∃ m ∈ members s, m ≠ s.modnum.toNat ∧ m ∉ s.xpt.vturnGot) → s.time.toNat + 200000 ≤ t0.toNat →
      s.crs.turnT0.toNat < t0.toNat →
      ∃ u, Runs (.vturnAckTimeout t0) s u ∧ u.crs.turnT0 = t0 ∧ u.xpt.vturnGot = [] ∧
        ∀ m ∈ members s, m ≠ s.modnum.toNat → msgRouted s m →
          msgTo s 0x7 m [(s.crs.incoming.toNat : Int), (t0.toNat : Int)] ∈ queueOf u (msgRole s m) 2)) ∧
  (∀ phy s, timeMaster s = false → inTime s .holdover = false → fenced s = false →
    (∀ best port, bestPath (timePaths s) = some (best, port) → ∃ u, Runs (.timeExchange phy) s u ∧
      parentPort u = port ∧
      (port ≠ parentPort s ∨ inTime s .free = true → inTime u .acquiring = true ∧ u.xpt.exch = 0) ∧
      (portPeer s port ≠ 0x7ff →
        queueOf u (portRole s port) 2 = queueOf s (portRole s port) 2 ++ [msgTo s 0x1 (portPeer s port) [phy]])) ∧
    (let p := parentPort s
     bestPath (timePaths s) = none → inTime s .free = false → groupDown s (portRole s p) = false →
      portPeer s p ≠ 0x7ff → ∃ u, Runs (.timeExchange phy) s u ∧
        queueOf u (portRole s p) 2 = queueOf s (portRole s p) 2 ++ [msgTo s 0x1 (portPeer s p) [phy]]) ∧
    (bestPath (timePaths s) = none → inTime s .free = true → Runs (.timeExchange phy) s s)) ∧
  (∀ s, timeMaster s = false → inTime s .free = false →
    (∃ u, Runs (.timeParentLoss none) s u ∧ inTime u .holdover = true ∧ rdFld u 0x5000c 6 6 = 1 ∧
      u.xpt.rate = s.xpt.rate) ∧
    (∀ p h, ∃ u, Runs (.timeParentLoss (some (p, h))) s u ∧ inTime u .acquiring = true ∧ parentPort u = p.val))

open Sys2Proof.Claims in
/-- R401, R402, R419, R420, R428, R432, R591: a port that leaves UP, or does not train in 5 ms, shows DOWN, and a
group of which every port is DOWN sets GROUPDOWN; the frames that no LACK has covered are replayed once the port is
UP with the same far end, and its sequences start anew with another; a silent neighbour is declared failed and cut
out; XPT.RING takes its neighbours, but not during a lap of an extended crossing. -/
def Obligations.LinksAndRing : Prop :=
  (∀ (p : Fin 16) s, slipUp s p.val = true → ∃ u, Runs (.portLinkDown p) s u ∧ portState u p.val = 0 ∧
    rdFld u 0x5000c 0 0 = 1 ∧
    (portRole s p.val ≠ 0 → (∀ q ∈ rolePorts s (portRole s p.val), q ≠ p.val → portState s q = 0) →
      rdFld u 0x5000c 1 1 = 1) ∧ (getPort u p.val).replay = (getPort s p.val).sent ∧ u.xpt.txq = s.xpt.txq) ∧
  (∀ (p : Fin 16) s, portUp s p.val = true → portEth s p.val = true → ∃ u, Runs (.portLinkDown p) s u ∧
    portState u p.val = 0) ∧
  (∀ (p : Fin 16) s, portState s p.val = 1 → ∃ u, Runs (.linkTrainingTimeout p) s u ∧ portState u p.val = 0) ∧
  (∀ (p : Fin 16) peer pp s, bankOn s p.val = true → portUp s p.val = false → portRole s p.val ≠ 0 →
    portEth s p.val = false → ∃ u, Runs (.portLinkUp p peer pp) s u ∧ portUp u p.val = true ∧
      portPeer u p.val = peer.toNat ∧
      let x := getPort s p.val
      if x.met = true ∧ portPeer s p.val = peer.toNat ∧ rdFld s (rPort p.val) 22 19 = pp.toNat then
        (getPort u p.val).replay = x.sent ∧ (getPort u p.val).next = x.next ∧ (getPort u p.val).exp = x.exp
      else (getPort u p.val).exp = 0 ∧ (getPort u p.val).next = 0 ∧ (getPort u p.val).sent = []) ∧
  (∀ (r : Fin 7) m s, 1 ≤ r.val → r.val ≤ 4 → peerOf s r.val = some m → m ∉ s.xpt.declared → m ≠ s.modnum.toNat →
    m < 2048 →
    ∃ u, Runs (.neighbourSilence r) s u ∧ m ∈ u.xpt.declared ∧ routeEntry u m = 0xf ∧ rdFld u 0x5000c 3 3 = 1) ∧
  (∀ m v s, reachesModule m = true →
    (¬ (s.crs.ext = true ∧ s.crs.inLap = true) →
      ∃ u, Runs (.ringWrite m v) s u ∧ rdFld u 0x50004 21 0 = wfld v 21 0) ∧
    (s.crs.ext = true → s.crs.inLap = true →
      ∃ u, Runs (.ringWrite m v) s u ∧ rd u 0x50004 = rd s 0x50004 ∧ rdFld u 0x5000c 9 9 = 1))

open Sys2Proof.Claims in
/-- R397, R423 to R426: a port in Ethernet mode: a packet in sequence of an existing queue pair advances its sequence
number and, a Send, is acknowledged; one ahead is asked for again; one of no queue pair is dropped and counted; an
acknowledgement ends the wait of the packets that it covers, and a negative one has the packets from its number on
sent again; the rate halves at a congestion notification and rises by 5 % of line rate; ARP, neighbour discovery and
ICMP echo are answered while purser firmware runs; a packet or frame that is too long, and any other frame, is
dropped and counted. -/
def Obligations.EthernetPorts : Prop :=
  ∀ (p : Fin 16) s, ethUp s p.val = true →
    let dropped := fun u => counted s u (rPort p.val + 8) 31 24 ∧ u.outs = s.outs
    (∀ qp psn op ok, macPasses s p.val (macKey s p.val) ok false = true → roceBytes op ≤ 4096 →
      (findQp s p.val qp = none → ∃ u, Runs (.rocePacket p qp psn op ok) s u ∧ dropped u) ∧
      (∀ q, findQp s p.val qp = some q →
        (op = .ack → ∃ u, Runs (.rocePacket p qp psn op ok) s u ∧
          findQp u p.val qp = some { q with unacked := unackedAfter q psn }) ∧
        (∀ a b o, op = .nak → q.unacked = a ++ (psn, o) :: b → (∀ e ∈ a, e.1 ≠ psn) →
          ∃ u, Runs (.rocePacket p qp psn op ok) s u ∧ findQp u p.val qp = some { q with unacked := (psn, o) :: b } ∧
            u.outs = s.outs ++ o :: b.map fun e => e.2) ∧
        (∀ bs, psn = q.psn → op = .send bs → ∃ u, Runs (.rocePacket p qp psn op ok) s u ∧
          findQp u p.val qp = some { q with psn := (psn + 1) % 2 ^ 24 } ∧ u.outs = s.outs ++ [.eth p.val 0 []]) ∧
        (op ≠ .ack → op ≠ .nak → q.psn < psn → psn - q.psn < 2 ^ 23 → psn < 2 ^ 24 →
          ∃ u, Runs (.rocePacket p qp psn op ok) s u ∧
          findQp u p.val qp = some q ∧ u.outs = s.outs ++ [.eth p.val 1 (leBytes 4 q.psn)]))) ∧
    (∀ qp psn op ok, (macPasses s p.val (macKey s p.val) ok false = false ∨ 4096 < roceBytes op) →
      ∃ u, Runs (.rocePacket p qp psn op ok) s u ∧ dropped u) ∧
    (∀ f, macPasses s p.val (macKey s p.val) f.macsecOk false = false ∨ findQp s p.val f.qp = none →
      ∃ u, Runs (.congestionNotification p f) s u ∧ dropped u) ∧
    (∀ qp q, findQp s p.val qp = some q →
      (∀ ok, macPasses s p.val (macKey s p.val) ok false = true → ∃ u, Runs (.congestionNotification p ⟨qp, ok⟩) s u ∧
        findQp u p.val qp = some { q with rate := q.rate / 2 }) ∧
      (∃ u, Runs (.rateIncrease p qp) s u ∧
        findQp u p.val qp = some { q with rate := min (20 * 2 ^ 20) (q.rate + 2 ^ 20) })) ∧
    (∀ (kind : Fin 3) body sec ok, macPasses s p.val sec ok (decide (kind.val < 2)) = true → ranCopy s 1 ≠ 0 →
      body.length ≤ 9216 →
      ∃ u, Runs (.localProtocolFrame p kind body sec ok) s u ∧ u.outs = s.outs ++ [.eth p.val (3 + kind.val) body]) ∧
    (∀ (kind : Fin 3) body sec ok, 9216 < body.length →
      ∃ u, Runs (.localProtocolFrame p kind body sec ok) s u ∧ dropped u) ∧
    (∃ u, Runs (.unknownEthernetFrame p) s u ∧ dropped u)

namespace Sys2Proof.Claims

/-! ## The host (R10 to R12, R31 to R33, R434 to R463, R558 to R564) -/

/-- Registers of module scope that a write changes as their access codes say alone: number, RW bits, W1C bits:
INT.DEST, CRS.LAPCTL, XPT.TCW, SVC.BATCH, SVC.HOSTERR, STO.CKEVT. -/
def codedRegs : List (Nat × Word × Word) :=
  [(0x10008, 0x7, 0), (0x40000, 0x1ffff, 0), (0x50008, 0xffff, 0), (0x68400, 0xfff7ff, 0), (0x6840c, 0, 0x1),
    (0x80028, 0, 0x3)]

/-- A register's value after a write as its access codes say alone. -/
def coded (old rw w1c v : Word) : Word := ((old &&& ~~~rw) ||| (v &&& rw)) &&& ~~~(v &&& w1c)

/-- Masters whose writes reach every register of module scope. -/
def moduleMaster (m : Master) : Prop := m = .hm ∨ m = .bmc ∨ ∃ p, m = .pf p

/-- How a master learns that its register write lost (R468). -/
def lostNotice (u : State) (m : Master) : Prop :=
  match m with
  | .pf p => rdFld u (rPfovr p.val) 0 0 = 1
  | _ => u.outs.getLast? = some (.status m (if m = .bmc then 0xa0 else 8))

/-- An enabled queue set posts its next record on its board at once (R450, R454, R456). -/
def boardOpen (s : State) (q : Nat) : Prop :=
  qsEn s q = true ∧ (getQs s q).held = [] ∧ (getQs s q).halted = false ∧ (getQs s q).resetting = false ∧
    qsRmode s q = false ∧ qsOpen s q < 1024

/-- A record of a request is on the board: its state, error, request and number (R449); RTAIL counts it. -/
def recorded (s u : State) (q st err id : Nat) : Prop :=
  let n := (getQs s q).rseq
  let r := tget [] (getQs u q).board ((n - 1) % 1024)
  field r 0 1 = st ∧ field r 18 2 = err ∧ field r 4 4 = id ∧ field r 8 8 = n % 2 ^ 64 ∧ (getQs u q).rseq = n + 1 ∧
    rd u (rQs q 0x24) = rd s (rQs q 0x24) + 1

/-- The next entry of a queue set that may be taken up. -/
def entryNext (s : State) (q : Nat) (t : Dword) (e : List Byte) (rest : List (Dword × List Byte)) : Prop :=
  (getQs s q).entries = (t, e) :: rest ∧ (getQs s q).halted = false ∧ (getQs s q).resetting = false

/-- A queue set as its reset leaves it (R455). -/
def freshQueue (u : State) (q : Nat) : Prop :=
  getQs u q = {} ∧ (∀ r ∈ u.reqs, r.q ≠ q) ∧ rd u (rQs q 0x18) = 0 ∧ rd u (rQs q 0x1c) = 0 ∧ rd u (rQs q 0x20) = 0 ∧
    rd u (rQs q 0x24) = 0 ∧ rdFld u (rQs q 0) 2 2 = 0 ∧ rdFld u (rQs q 0x3c) 2 2 = 0

/-- The request that a CANCEL's entry names (R446). -/
def cancels (q : Nat) (e : List Byte) (r : Req) : Prop := r.q = q ∧ reqId r.raw = reqId e

end Sys2Proof.Claims

open Sys2Proof.Claims in
/-- R12, R31 to R34, R434, R436 to R439, R451, R453, R465, R468, R564: a register write takes the RW bits and clears
W1C bits written 1, and no other register changes; where two masters write one register in a slot the higher in rank
prevails, and the other learns that it lost (rank of cores and deckhands: log 90); a BAR0 write is the register write
of its function, a read answers the register; a refused one is recorded in INT.BARERR and reads as zeros; BAR2 shows
the result board, a slot without a record as PENDING; an aperture reaches the memory it names, or sets APERR. -/
def Obligations.HostRegisters : Prop :=
  (∀ o rw w1c m v s, (o, rw, w1c) ∈ codedRegs → moduleMaster m →
    (∃ u, Runs (.registerWrite m o ⟨v, none⟩) s u ∧ rd u o = coded (rd s o) rw w1c v ∧ ∀ x, x ≠ o → rd u x = rd s x) ∧
    ∀ m' v', moduleMaster m' →
      (prevails m m' = true → ∃ u, Runs (.registerWrite m o ⟨v, some (m', v')⟩) s u ∧ rd u o = coded (rd s o) rw w1c v ∧
        lostNotice u m') ∧
      (prevails m m' = false → m ≠ m' → ∃ u, Runs (.registerWrite m o ⟨v, some (m', v')⟩) s u ∧
        rd u o = coded (rd s o) rw w1c v' ∧ lostNotice u m)) ∧
  (∀ (p q : Fin 2), p.val < q.val → prevails .hm .bmc = true ∧ prevails .bmc (.pf p) = true ∧
    prevails (.pf p) (.pf q) = true ∧ prevails (.pf q) (.pf p) = false) ∧
  (∀ (p : Fin 2) (fn : Fin 33) off s, pcieUp s p.val = true →
    let m := fnMaster p fn
    let open' := (fn = 0 ∨ vfEnabled s p.val fn.val = true) ∧ inD3 s p.val fn.val = false
    (¬ open' → ∀ board size v, Runs (.bar0Access p ⟨fn, board, off⟩ size true v) s s ∧
      ∃ u, Runs (.bar0Access p ⟨fn, board, off⟩ size false v) s u ∧ u.outs = s.outs ++ [.completion p.val 1 [] false]) ∧
    (open' → ∀ o, bar0Refusal s p.val fn.val off 4 = none → bar0Reg p.val fn.val off = some o →
      (∀ v, ∃ u, Runs (.bar0Access p ⟨fn, false, off⟩ 4 true v) s u ∧
        Runs (.registerWrite m o ⟨v.setWidth 32, none⟩) s u) ∧
      (∀ v, pairLow o = false → pairLow (o - 4) = false → foreignChan m o = false →
        answers s m o = true → ∃ u, Runs (.bar0Access p ⟨fn, false, off⟩ 4 false v) s u ∧ u.mem = s.mem ∧
          u.outs = s.outs ++ [.completion p.val 0 (leBytes 4 (regView s m o).toNat) false])) ∧
    (open' → ∀ size wr v why, bar0Refusal s p.val fn.val off size = some why →
      ∃ u, Runs (.bar0Access p ⟨fn, false, off⟩ size wr v) s u ∧ u.mem = s.mem ∧ (∀ x, x ≠ 0x10020 → rd u x = rd s x) ∧
        (wr = false → u.outs = s.outs ++ [.completion p.val 0 (List.replicate size 0) false]) ∧
        (rdFld s 0x10020 0 0 = 0 → rd u 0x10020 =
          .ofNat 32 (1 + 4 * why + 16 * p.val + (if wr then 32 else 0) + 64 * (off / 4 % 2 ^ 24))) ∧
        (rdFld s 0x10020 0 0 = 1 → rdFld u 0x10020 1 1 = 1)) ∧
    (∀ size, (bar0Refusal s p.val fn.val off size = some 0 ↔ size ≠ 4 ∧ size ≠ 8) ∧
      (bar0Refusal s p.val fn.val off size = some 1 ↔ (size = 4 ∨ size = 8) ∧ off % size ≠ 0)) ∧
    (open' → ∀ q k size v, k < 1024 → (fn = 0 ∧ q < 64 ∧ off = 65536 * q + 64 * k ∨
        fn ≠ 0 ∧ q = 32 * p.val + fn.val - 1 ∧ off = 64 * k) →
      Runs (.bar0Access p ⟨fn, true, off⟩ size true v) s s ∧
      ∃ u, Runs (.bar0Access p ⟨fn, true, off⟩ 64 false v) s u ∧ getQs u q = getQs s q ∧
        let slot := tget [] (getQs s q).board k
        u.outs = s.outs ++ [.completion p.val 0
          (if slot = [] ∨ qsRmode s q = true then 1 :: List.replicate 63 0 else fitTo 0 64 slot) false])) ∧
  (∀ (p : Fin 2) (a : ApSel) off len data s, pcieUp s p.val = true →
    let n := match a with | .pf k => k.val | .vf i => 32 * p.val + i.val
    let fn := match a with | .pf _ => 0 | .vf i => i.val + 1
    let open' := (fn = 0 ∨ vfEnabled s p.val fn = true) ∧ inD3 s p.val fn = false
    let unit := apUnit s n
    let sp := apSpace s n
    let o := apBase s n + off
    let k := memKey unit sp o
    (¬ open' → Runs (.apertureAccess p a off len true data) s s ∧
      ∃ u, Runs (.apertureAccess p a off len false data) s u ∧ u.outs = s.outs ++ [.completion p.val 1 [] false]) ∧
    (open' → ∀ v, apCheck s n off len false = .go v → sp ≠ 3 → sp ≠ 5 →
      ∃ u, Runs (.apertureAccess p a off len false data) s u ∧ u.mem = s.mem ∧
        u.outs = s.outs ++ [.completion p.val 0 (memData s unit sp o len).1 (memData s unit sp o len).2]) ∧
    (open' → ∀ v, apCheck s n off len true = .go v → sp ≠ 1 → sp ≠ 3 → sp ≠ 5 → partBad s unit sp o len = false →
      ∃ u, Runs (.apertureAccess p a off len true data) s u ∧ getBytes u k len = fitTo 0 len data ∧
        ∀ x, (x < k ∨ k + len ≤ x) → getByte u x = getByte s x) ∧
    (open' → ∀ wr stale, apCheck s n off len wr = .fail stale →
      ∃ u, Runs (.apertureAccess p a off len wr data) s u ∧ u.mem = s.mem ∧ rdFld u 0x6840c 0 0 = 1 ∧
        (wr = false → u.outs = s.outs ++ [.completion p.val 4 [] false])))

open Sys2Proof.Claims in
/-- R437, R448, R452, R455, R456: a doorbell within its ring takes its value, one beyond it is not taken and sets its
cause; EN, RMODE and the sizes take new values while EN is 0; RESET, or EN = 0, empties the queue set at once, or,
with requests in a lap, ends what waits and reads 1 until the lap boundary. -/
def Obligations.QueueSets : Prop :=
  ∀ m (q : Fin 64) s,
    let r := fun o => rQs q.val o
    (qsAccess s m q.val ≠ .all → ∀ v, Runs (.requestDoorbell m q v) s s ∧ Runs (.resultDoorbell m q v) s s) ∧
    (qsAccess s m q.val = .all →
      (∀ t, (t - rd s (r 0x1c)).toNat ≤ 2 ^ rdFld s (r 0) 11 8 → ∃ u, Runs (.requestDoorbell m q t) s u ∧
        rd u (r 0x18) = t) ∧
      (∀ t, 2 ^ rdFld s (r 0) 11 8 < (t - rd s (r 0x1c)).toNat → ∃ u, Runs (.requestDoorbell m q t) s u ∧
        rd u (r 0x18) = rd s (r 0x18) ∧ rdFld u (r 0x28) 0 0 = 1) ∧
      (∀ h, (h - rd s (r 0x20)).toNat ≤ (rd s (r 0x24) - rd s (r 0x20)).toNat →
        ∃ u, Runs (.resultDoorbell m q h) s u ∧ rd u (r 0x20) = h ∧
          (h = rd s (r 0x24) → rdFld u (r 0x3c) 2 2 = 0 ∧ (getQs u q.val).fresh = 0)) ∧
      (∀ h, (rd s (r 0x24) - rd s (r 0x20)).toNat < (h - rd s (r 0x20)).toNat →
        ∃ u, Runs (.resultDoorbell m q h) s u ∧ rd u (r 0x20) = rd s (r 0x20) ∧ rdFld u (r 0x28) 1 1 = 1)) ∧
    (∀ i v, (i = Instr.queueSetEnable m q v ∨ i = .queueSetReset m q v) →
      let reset := wfld v 2 2 = 1 ∨ wfld v 0 0 = 0 ∧ qsAccess s m q.val = .all
      (qsAccess s m q.val = .all → ¬ reset →
        (qsEn s q.val = false → ∃ u, Runs i s u ∧ qsEn u q.val = true ∧ rdFld u (r 0) 1 1 = wfld v 1 1 ∧
          rdFld u (r 0) 11 8 = wfld v 11 8 ∧ rdFld u (r 0) 19 16 = wfld v 19 16) ∧
        (qsEn s q.val = true → ∃ u, Runs i s u ∧ rd u (r 0) = rd s (r 0))) ∧
      (qsAccess s m q.val ≠ .none → reset → s.crs.inLap = false → ∃ u, Runs i s u ∧ freshQueue u q.val) ∧
      (qsAccess s m q.val ≠ .none → reset → s.crs.inLap = true →
        (∃ x ∈ s.reqs, x.q = q.val ∧ x.st = .active ∧ ∀ y ∈ s.reqs, y.q = q.val → y.st = .waiting → y.uid ≠ x.uid) →
        ∃ u, Runs i s u ∧ (getQs u q.val).resetting = true ∧ rdFld u (r 0) 2 2 = 1 ∧
          ∀ x ∈ u.reqs, x.q = q.val → x.st = .active))

open Sys2Proof.Claims in
/-- R95, R440, R446 to R450, R453, R454, R456, R457, R460, R463, R484, R561 to R563: entries are read from the ring
of the queue set whose turn it is, copied in order and taken up by their opcode; the inputs of a request are read
from host memory; a request that is not admitted, cancelled, too long without a version, or failed by a DMA error
gets its record with the error that R447 names; records post in order and count toward PEND; QS.IRQ and INT.EOI clear
and arm. -/
def Obligations.QueueEntries : Prop :=
  (∀ (q : Fin 64) es s, (fetchTurn s ≠ some q.val → Runs (.entryFetch q es) s s) ∧ (fetchTurn s = some q.val →
    let n := min (min 32 es.length) (rd s (rQs q.val 0x18) - rd s (rQs q.val 0x1c)).toNat
    let slot := fun i => ((rd s (rQs q.val 0x1c)).toNat + i) % 2 ^ rdFld s (rQs q.val 0) 11 8
    ∃ u, Runs (.entryFetch q es) s u ∧ rd u (rQs q.val 0x1c) = rd s (rQs q.val 0x1c) + .ofNat 32 n ∧ u.fetched = q.val ∧
      u.outs = s.outs ++ ((upto n).map fun i =>
        .hostRead (q.val / 32) (.ofNat 64 (rdPair s (rQs q.val 8) + 64 * slot i)) 64) ∧
      (getQs u q.val).entries = (getQs s q.val).entries ++ (es.take n).map fun e => (s.time, fitTo 0 64 e))) ∧
  (∀ (q : Fin 64) t e rest s, entryNext s q.val t e rest →
    let opc := field e 0 1
    let failed := fun i err => boardOpen s q.val → ∃ u, Runs i s u ∧ recorded s u q.val 4 err (reqId e) ∧
      (getQs u q.val).entries = rest
    (opc = 0 → Runs (.nop q) s (setQs s q.val { getQs s q.val with entries := rest })) ∧
    (3 ≤ opc → failed (.reservedRequestOpcode q) 1) ∧
    (∀ input, opc = 1 → (qsJob s q.val = 0 ∨ reqOk s e = false) → failed (.generate q input) 1) ∧
    (∀ input, opc = 1 → qsJob s q.val ≠ 0 → reqOk s e = true → dmaOk s q.val = false → Runs (.generate q input) s s) ∧
    (∀ input, opc = 1 → qsJob s q.val ≠ 0 → reqOk s e = true → dmaOk s q.val = true →
      ∃ u r, Runs (.generate q input) s u ∧ r.copied = t ∧
        u.outs = s.outs ++ [.hostRead (q.val / 32) (.ofNat 64 (field e 8 8)) (4 * field e 16 4)] ∧ r ∈ u.reqs ∧
          u.reqs.length = s.reqs.length + 1 ∧ r.uid = s.nextReq ∧
        r.q = q.val ∧ r.st = .waiting ∧ r.raw = e ∧ r.tenant = qsJob s q.val ∧ r.input = fitTo 0 (field e 16 4) input) ∧
    (opc = 2 → (field e 1 3 ≠ 0 ∨ field e 8 56 ≠ 0) → failed (.cancel q) 1) ∧
    (opc = 2 → field e 1 3 = 0 → field e 8 56 = 0 →
      ((∀ r ∈ s.reqs, ¬ cancels q.val e r) → failed (.cancel q) 7) ∧
      ((∃ r ∈ s.reqs, cancels q.val e r) → (∀ r ∈ s.reqs, cancels q.val e r → r.st = .active ∧ r.cancel = none) →
        ∃ u, Runs (.cancel q) s u ∧ (∀ r ∈ u.reqs, cancels q.val e r → r.cancel = some t) ∧
          u.reqs.length = s.reqs.length) ∧
      (∀ a r b, s.reqs = a ++ r :: b → cancels q.val e r → (∀ x ∈ a ++ b, ¬ cancels q.val e x) → r.st = .waiting →
        r.toks = [] → reqFlag r.raw 0 = false → boardOpen s q.val →
        ∃ u, Runs (.cancel q) s u ∧ recorded s u q.val 5 0 (reqId e) ∧ ∀ x ∈ u.reqs, x.uid ≠ r.uid))) ∧
  (∀ (q : Fin 64) r s, boardOpen s q.val → r.toks = [] →
    ((s.reqs.find? fun x => x.q == q.val && x.st == .waiting) = some r → liveVer s = 0 →
      r.copied.toNat + 60000 * 200000 ≤ s.time.toNat →
      ∃ u, Runs (.noVersionTimeout q) s u ∧ recorded s u q.val 4 3 (reqId r.raw) ∧ ∀ x ∈ u.reqs, x.uid ≠ r.uid) ∧
    ((s.reqs.find? fun x => x.uid == r.uid && x.q == q.val) = some r →
      ∃ u, Runs (.hostDmaCompletion q (some r.uid) true) s u ∧ recorded s u q.val 4 4 (reqId r.raw) ∧
        (getQs u q.val).halted = true ∧ rdFld u (rQs q.val 0x28) 2 2 = 1)) ∧
  (∀ (q : Fin 64) s,
    (∀ uid, Runs (.hostDmaCompletion q uid false) s s) ∧
    (∀ r rest, (getQs s q.val).held = r :: rest → canPost s q.val r = true →
      (rest ≠ [] ∨ (getQs s q.val).closing = false) → ∃ u, Runs (.heldRecordPost q) s u ∧
      (getQs u q.val).held = rest ∧ rd u (rQs q.val 0x24) = rd s (rQs q.val 0x24) + 1 ∧
      (getQs u q.val).fresh = (getQs s q.val).fresh + 1 ∧
      (max 1 (rdFld s (rQs q.val 0x38) 7 0) ≤ (getQs s q.val).fresh + 1 → rdFld u (rQs q.val 0x3c) 2 2 = 1)) ∧
    (∀ r, (getQs s q.val).held = [r] → canPost s q.val r = true → (getQs s q.val).closing = true → s.crs.inLap = false →
      ∃ u, Runs (.heldRecordPost q) s u ∧ freshQueue u q.val) ∧
    (∀ t, t = rdFld s (rQs q.val 0x38) 23 8 →
      t ≠ 0 → 1 ≤ (getQs s q.val).fresh → (getQs s q.val).first.toNat + 200 * t ≤ s.time.toNat →
      ∃ u, Runs (.coalesceTimer q) s u ∧ rdFld u (rQs q.val 0x3c) 2 2 = 1) ∧
    (∀ m v, qsAccess s m q.val = .all →
      (wfld v 2 2 = 1 → ∃ u, Runs (.pendClear m q v) s u ∧ rdFld u (rQs q.val 0x3c) 2 2 = 0 ∧
        (getQs u q.val).fresh = 0 ∧ rdFld u (rQs q.val 0x3c) 1 0 = wfld v 1 0) ∧
      (wfld v 3 3 = 1 → ∃ u, Runs (.qsEoi m q v) s u ∧ rdFld u (rQs q.val 0x3c) 4 4 = 1)) ∧
    (∀ m v, reachesModule m = true → ∃ u, Runs (.eoi m v) s u ∧
      rdFld u 0x1000c 3 2 = rdFld s 0x1000c 3 2 ||| wfld v 1 0)) ∧
  (∀ uid r (l : Fin 32) (g : Fin 16) keeps s, (s.reqs.find? fun x => x.uid == uid && x.lost) = some r →
    isReady s = true → liveLand s l.val = true → arrayOn s l.val = true → ∃ u x, Runs (.readmission uid l g keeps) s u ∧
      x ∈ u.reqs ∧
      x.uid = uid ∧ x.lost = false ∧ x.land = l.val ∧ x.tg = g.val ∧ x.filled = 0 ∧ x.toks = r.toks.take r.posted ∧
      x.raw = r.raw)

open Sys2Proof.Claims in
/-- R434, R435, R441, R522, R525, R531, R558, R562, R590: one message leaves per arming while its function may send,
else it is pending; a function-level reset resets its queue sets, closes their apertures and arms; PERST# and a hot
reset take the link down; it trains with the quay ON and PERST# high; configuration requests are retried, refused or
served. -/
def Obligations.PciePorts : Prop :=
  (∀ (p : Fin 2) s, pcieUp s p.val = true →
    (armedPf s p.val = true → rdFld s 0x10008 p.val p.val = 1 → intPending s = true →
      ∃ u, Runs (.msixMessage ⟨p.val, by omega⟩) s u ∧ armedPf u p.val = false ∧
        Runs (.msixMessage ⟨p.val, by omega⟩) u u ∧
        (msixOn s p.val 0 = true → u.outs = s.outs ++ [.msix p.val]) ∧
        (msixOn s p.val 0 = false → u.outs = s.outs ∧ 0 ∈ (getPcie u p.val).pend)) ∧
    (s.crs.inLap = false → ∃ u, Runs (.functionLevelReset p 0) s u ∧ armedPf u p.val = true ∧
      (getPcie u p.val).cfg = [] ∧ ∀ q, q / 32 = p.val →
        freshQueue u q ∧ rdFld u (0x68000 + 8 * q) 0 0 = 0 ∧ rdFld u (rQs q 0x3c) 4 4 = 1) ∧
    (∀ fn : Fin 33, fn ≠ 0 → vfEnabled s p.val fn.val = true → s.crs.inLap = false →
      let q := 32 * p.val + fn.val - 1
      ∃ u, Runs (.functionLevelReset p fn) s u ∧ freshQueue u q ∧ rdFld u (0x68000 + 8 * q) 0 0 = 0 ∧
        rdFld u (rQs q 0x3c) 4 4 = 1 ∧ ∀ x, x ≠ q → getQs u x = getQs s x) ∧
    (∃ u, Runs (.hotReset p) s u ∧ pcieUp u p.val = false)) ∧
  (∀ (q : Fin 64) s, pcieUp s (q.val / 32) = true → qsBound s q.val = true → rdFld s (rQs q.val 0x3c) 4 4 = 1 →
    qsReports s q.val = true → msixOn s (q.val / 32) (q.val % 32 + 1) = true →
    ∃ u, Runs (.msixMessage ⟨2 + q.val, by omega⟩) s u ∧ rdFld u (rQs q.val 0x3c) 4 4 = 0 ∧
      u.outs = s.outs ++ [.msix (2 + q.val)]) ∧
  (∀ (p : Fin 2) s,
    (∀ ns, ns < 2000 → Runs (.perst ⟨p, ns⟩) s { s with free := s.free + 1 }) ∧
    (∀ ns, 10000 ≤ ns → ¬ (p = 0 ∧ s.boot.cfg.perstMod = true) → ∃ u, Runs (.perst ⟨p, ns⟩) s u ∧
      pcieUp u p.val = false ∧ (getPcie u p.val).low = true) ∧
    (∃ u, Runs (.perstRelease p) s u ∧ (getPcie u p.val).low = false ∧ pcieUp u p.val = pcieUp s p.val) ∧
    (quayOn s (2 * p.val) = true → (getPcie s p.val).low = false →
      ∃ u, Runs (.pcieLinkUp p) s u ∧ pcieUp u p.val = true) ∧
    ((quayOn s (2 * p.val) = false ∨ (getPcie s p.val).low = true) → Runs (.pcieLinkUp p) s s)) ∧
  (∀ (p : Fin 2) (fn : Fin 33) reg wr v s,
    let answer := fun (st : Nat) bs => ∃ u, Runs (.configurationRequest p fn reg wr v) s u ∧
      u.outs = s.outs ++ [.completion p.val st bs false] ∧ u.regs = s.regs
    (quayOn s (2 * p.val) = false → answer 2 []) ∧
    (quayOn s (2 * p.val) = true → pcieUp s p.val = true →
      (fn ≠ 0 → vfEnabled s p.val fn.val = false → answer 1 []) ∧
      ((fn = 0 ∨ vfEnabled s p.val fn.val = true) → reg = 0 → wr = false →
        answer 0 (leBytes 4 (if fn = 0 then 0x09321f6e else 0x09331f6e))) ∧
      (fn = 0 → reg = 0x16c → wr = false → answer 0 (leBytes 4 (32 + 32 * 2 ^ 16))) ∧
      (fn = 0 → reg = 0x44 → wr = true → v.getLsbD 0 = v.getLsbD 1 →
        ∃ u, Runs (.configurationRequest p fn reg wr v) s u ∧
        inD3 u p.val 0 = v.getLsbD 0) ∧
      (fn = 0 → reg = 4 → wr = true → inD3 s p.val 0 = false → ∃ u, Runs (.configurationRequest p fn reg wr v) s u ∧
        busMaster u p.val 0 = v.getLsbD 2)))

namespace Sys2Proof.Claims

/-! ## The management bus (R442 to R444, R473, R491, R492, R519) -/

/-- SMBus needs a right PEC, a PCIe transport its port's link. -/
def busUp (s : State) : Transport → Prop
  | .smbus pec => pec = true
  | .i3c => True
  | .vdm p | .doe p => (getPcie s p.val).up = true

/-- The monitor takes PLDM on the transport; DOE carries SPDM alone (R442, R491). -/
def pldmUp (s : State) (t : Transport) : Prop :=
  domState s 69 = 2 ∧ s.boot.romOnly = false ∧ busUp s t ∧ ∀ p, t ≠ .doe p

/-- The monitor takes SPDM on the transport. -/
def spdmUp (s : State) (t : Transport) : Prop := domState s 69 = 2 ∧ s.boot.romOnly = false ∧ busUp s t

/-- A state with an answer sent: completion or error code, then data. -/
def answer (s : State) (t : Transport) (code : Nat) (data : List Byte) : State :=
  { s with outs := s.outs ++ [.answer t code data] }

/-- The monitor takes an order or a question of a master over PLDM; a remote manager's comes over TC3 (R411, R442). -/
def hearsMaster (s : State) (m : Master) (t : Transport) : Prop :=
  match m with
  | .remote _ => domState s 69 = 2 ∧ s.boot.romOnly = false
  | _ => pldmUp s t

/-- The answer that a master gets: on its transport, or over TC3 for a remote manager, where a group leads to it. -/
def answers' (s u : State) (m : Master) (t : Transport) (code : Nat) (data : List Byte) : Prop :=
  match m with
  | .remote k => groupDown s (roleTo s k.toNat) = false → queueOf u (roleTo s k.toNat) 3 =
      queueOf s (roleTo s k.toNat) 3 ++ [.msg 0x100 s.modnum.toNat k.toNat [] (.ofNat 8 code :: data)]
  | _ => u.outs.getLast? = some (.answer t code data)

/-- How far a transport's SPDM connection has come. -/
def spdmAt (s : State) (t : Transport) : Nat := tget 0 s.mgmt.spdm (trNum t)
def atSpdm (s : State) (t : Transport) (n : Nat) : State :=
  { s with mgmt := { s.mgmt with spdm := tput 0 (trNum t) n s.mgmt.spdm } }

/-- Register fields of the numeric sensors 0 to 4: input power, inlet, outlet, flow, hottest junction. The model
numbers the sensors (log 12). -/
def sensorField (s : State) : Nat → Nat
  | 0 => rdFld s 0x20014 15 0
  | 1 => rdFld s 0x3001c 20 11
  | 2 => rdFld s 0x30020 9 0
  | 3 => rdFld s 0x3001c 31 21
  | _ => rdFld s 0x3001c 10 0

/-- The PDRs of R443 by their handles. The order and the numbers are the model's (log 12). -/
def pdrOf (h : Nat) : Option Config.Pdr :=
  if h = 0 then some ⟨.numericSensor, 0, .modulePower, .watts, none⟩
  else if h = 1 then some ⟨.numericSensor, 1, .coolantInlet, .celsius, none⟩
  else if h = 2 then some ⟨.numericSensor, 2, .coolantOutlet, .celsius, none⟩
  else if h = 3 then some ⟨.numericSensor, 3, .coolantFlow, .litresPerMinute, none⟩
  else if h = 4 then some ⟨.numericSensor, 4, .moduleJunction, .celsius, none⟩
  else if h < 37 then some ⟨.numericSensor, h, .landingJunction (h - 5), .celsius, none⟩
  else if h < 41 then some ⟨.numericSensor, h, .quayJunction (h - 37), .celsius, none⟩
  else if h = 41 then some ⟨.stateSensor, 0, .lifeCycle, .states, none⟩
  else if h = 42 then some ⟨.numericEffecter, 0, .powerCap, .watts, some (4000, 24000)⟩
  else if h = 43 then some ⟨.numericEffecter, 1, .junctionLimit, .celsius, some (60, 95)⟩
  else if h = 44 then some ⟨.stateEffecter, 0, .runState, .states, none⟩
  else none

/-- A master's own value of a safety quantity, and the effective one (R466). -/
def ownAndEffective (s : State) (m : Master) (q : Qty) : List Byte :=
  (match safetyIdx m with
    | some i => leBytes 2 (safeVal s i q)
    | none => leBytes 2 (safeEff s q)) ++ leBytes 2 (safeEff s q)

/-- The jobs with a landing grant, ascending. -/
def grantedJobs (s : State) : List Job :=
  ((upto 1024).filterMap fun n => findJob s n).filter fun j => !j.lands.isEmpty

/-- The job registry: each job with a landing grant and its program digest, which is there once every landing is
sealed (R473, R474). -/
def registryDigest (s : State) : BitVec 384 :=
  sha384 ((grantedJobs s).flatMap fun j =>
    leBytes 2 j.num ++ beBytes 48 ((if j.lands.all j.sealed.contains then j.prog.getD 0 else 0 : BitVec 384)).toNat)

/-- The measurement blocks of R473; block 18 is the registry as its last change left it. -/
def blockValue (s : State) (n : Nat) : BitVec 384 :=
  if n = 1 then Config.romDigest
  else if n ≤ 5 then tget 0 s.boot.digests n
  else if n = 6 then
    if s.hm.unlock = 0 then 0
    else sha384 (leBytes 1 (rdFld s 0x70000 4 4) ++ beBytes 48 s.hm.unlock.toNat)
  else if n = 16 then s.crs.liveDig
  else if n = 17 then s.crs.retDig
  else s.hm.registry.getD (sha384 [])

def blockNumbers : List Nat := [1, 2, 3, 4, 5, 6, 16, 17, 18]

/-- A block in a response. -/
def blockBytes (s : State) (n : Nat) : List Byte := leBytes 1 n ++ beBytes 48 (blockValue s n).toNat

/-- A body with the device key's signature over the requester's nonce and the body. -/
def signedBody (s : State) (nonce : BitVec 256) (body : List Byte) : List Byte :=
  body ++ beBytes 96 (Config.ecdsaSign (deviceKey s.fuses.serial) (sha384 (beBytes 32 nonce.toNat ++ body))).toNat

end Sys2Proof.Claims

open Sys2Proof.Claims in
/-- R411, R442 to R444, R519: what the monitor answers to each PLDM request, over TC3 to a remote manager, and what
each changes; and its answers to the MCTP packets of other types. The model's own choices: the sensor numbers and
completion codes (log 12), and the readings of sensors 5 to 40 whose unit is not the hottest, left free up to the
hottest (log 1). -/
def Sys2Proof.Claims.PldmRequests : Prop :=
  (∀ m t s, hearsMaster s m t →
    (∃ u, Runs (.getNumericEffecterValue m t 0) s u ∧ answers' s u m t 0 (ownAndEffective s m .cap)) ∧
    (∃ u, Runs (.getNumericEffecterValue m t 1) s u ∧ answers' s u m t 0 (ownAndEffective s m .tlim)) ∧
    ∃ u, Runs (.getStateEffecterStates m t) s u ∧ answers' s u m t 0 (ownAndEffective s m .run)) ∧
  ∀ t s, pldmUp s t →
    (∀ h, Runs (.getPdr t h) s
      (match pdrOf h with | some x => answer s t 0 (Config.pdrBytes x) | none => answer s t 0x82 [])) ∧
    Runs (.getPdrRepositoryInfo t) s (answer s t 0 (leBytes 4 45)) ∧
    (∀ n < 5, Runs (.getSensorReading t n) s (answer s t 0 (leBytes 4 (sensorField s n)))) ∧
    (∀ n, 5 ≤ n → n < 41 →
      (rdFld s 0x30020 15 10 = n - 5 → Runs (.getSensorReading t n) s (answer s t 0 (leBytes 4 (sensorField s 4)))) ∧
      (rdFld s 0x30020 15 10 ≠ n - 5 → ∃ v ≤ sensorField s 4,
        Runs (.getSensorReading t n) s (answer { s with free := s.free + 1 } t 0 (leBytes 4 v)))) ∧
    (∀ n, 41 ≤ n → Runs (.getSensorReading t n) s (answer s t 0x80 [])) ∧
    (∀ n, Runs (.getStateSensorReadings t n) s
      (if n = 0 then answer s t 0 [s.fuses.lcs.setWidth 8] else answer s t 0x80 [])) ∧
    (∀ e, Runs (.setEventReceiver t e) s
      (answer { s with mgmt := { s.mgmt with receiver := some (trNum t, e) } } t 0 [])) ∧
    Runs (.pollForPlatformEventMessage t) s
      (answer { s with mgmt := { s.mgmt with event := none } } t 0
        (match s.mgmt.event with | some bs => 0xf0 :: bs | none => [])) ∧
    (∀ e, Runs (.setEndpointId t e) s
      (answer { s with mgmt := { s.mgmt with eids := tput 0 (trNum t) e s.mgmt.eids } } t 0 [e])) ∧
    (∀ bs ty, mctpType bs = some ty →
      (ty ∉ [0, 1, 5] → Runs (.mctpPacket (.bus t) bs) s (answer s t 0 (Config.mctpUnsupported bs))) ∧
      (ty = 1 → pldmType bs = 0 → Runs (.mctpPacket (.bus t) bs) s (answer s t 0 (Config.pldmBase bs))) ∧
      (ty = 0 ∨ ty = 5 ∨ ty = 1 ∧ pldmType bs ≠ 0 → Runs (.mctpPacket (.bus t) bs) s s)) ∧
    (∀ c, Runs (.activateFirmware c) s
      { s with mgmt := { s.mgmt with activated := sadd c.val s.mgmt.activated } }) ∧
    (∀ c image svn digest sig, ∃ f : FlashCopy,
      let k := 1 - activeCopy s c.val
      let body := if c = 2 then image.take 256 else image
      Runs (.firmwareUpdate c image svn digest sig) s (setCopy s c.val k f) ∧
      f.image = image ∧ f.digest = sha384 body ∧ f.tried = false ∧ f.seq = (flashCopy s c.val k).seq ∧
      (c ≠ 2 → f.svn = svn.toNat ∧
        (f.sig = true ↔ digest = sha384 image ∧ Config.ecdsaVerify Config.vendorKey digest sig = true)))

open Sys2Proof.Claims in
/-- R473, R491, R492: the SPDM responder takes GET_VERSION always, each further request of a connection in its order,
and answers a request out of it with an error; slot 1 is there in OPERATIONAL alone; a measurement response shows the
blocks of one state. The error codes and the bodies are the model's (log 12). -/
def Sys2Proof.Claims.SpdmRequests : Prop :=
  ∀ t s, spdmUp s t →
    let n := spdmAt s t
    let late := fun (i : Instr) (k : Nat) (u : State) => Runs i s (if k ≤ n then u else answer s t 4 [])
    let slot := fun (k : Nat) => k = 0 ∨ k = 1 ∧ s.fuses.lcs = 2
    let chain := fun (k : Nat) => beBytes 48 (sha384 (Config.certChain k)).toNat
    let slots := if s.fuses.lcs = 2 then [3] ++ chain 0 ++ chain 1 else [1] ++ chain 0
    Runs (.getVersion t) s (answer (atSpdm s t 1) t 0 (Config.spdmBody 0x84 1)) ∧
    late (.getCapabilities t) 1 (answer (atSpdm s t 2) t 0 (Config.spdmBody 0xe1 2)) ∧
    late (.negotiateAlgorithms t) 2 (answer (atSpdm s t 3) t 0 (Config.spdmBody 0xe3 3)) ∧
    late (.getDigests t) 3 (answer s t 0 slots) ∧
    (∀ k off len,
      (slot k → off < (Config.certChain k).length →
        late (.getCertificate t k off len) 3 (answer s t 0 (((Config.certChain k).drop off).take len))) ∧
      (¬ slot k → late (.getCertificate t k off len) 3 (answer s t 1 []))) ∧
    (∀ k nonce,
      (slot k → s.fuses.lcs ≠ 4 →
        late (.challenge t k nonce) 3 (answer s t 0 (signedBody s nonce (Config.spdmBody 0x83 3)))) ∧
      (¬ slot k → late (.challenge t k nonce) 3 (answer s t 1 []))) ∧
    (∀ k nonce,
      (k ∈ blockNumbers → late (.getMeasurements t k false nonce) 3 (answer s t 0 (blockBytes s k)) ∧
        (s.fuses.lcs ≠ 4 →
          late (.getMeasurements t k true nonce) 3 (answer s t 0 (signedBody s nonce (blockBytes s k))))) ∧
      (k = 0 → late (.getMeasurements t k false nonce) 3 (answer s t 0 [9])) ∧
      (k = 0xff → late (.getMeasurements t k false nonce) 3 (answer s t 0 (blockNumbers.flatMap (blockBytes s)))) ∧
      (k ≠ 0 → k ≠ 0xff → k ∉ blockNumbers → late (.getMeasurements t k false nonce) 3 (answer s t 1 [])))

open Sys2Proof.Claims in
/-- R411, R442 to R444, R473, R491, R492, R519: the PLDM requests and the SPDM responder. -/
def Obligations.Management : Prop := PldmRequests ∧ SpdmRequests

namespace Sys2Proof.Claims

/-! ## The mailbox (R475 to R490, R531) -/

/-- A request of channel c can be taken now: the monitor runs, the channel is not BUSY, no request waits on it, and
none that waits on another channel comes before it in turn (R480). -/
def mbxFree (s : State) (c : Nat) : Prop :=
  domState s 69 = 2 ∧ s.boot.romOnly = false ∧ rdFld s (rMbx c + 4) 2 0 ≠ 1 ∧ c ∉ s.hm.posted ∧
    inTurn s c = true

/-- The request is done: STATE DONE, CODE, RLEN and the payload of the response, GO 0, one more request counted. -/
def mbxEnds (s u : State) (c code : Nat) (out : List Byte) : Prop :=
  rd u (rMbx c + 4) = .ofNat 32 (2 + code * 2 ^ 8 + out.length * 2 ^ 16) ∧ rdFld u (rMbx c) 31 31 = 0 ∧
  rd u (rMbx c + 8) = rd s (rMbx c + 8) + 1 ∧
  ∀ i < 64, rd u (rMbx c + 0x200 + 4 * i) = .ofNat 32 (leNat ((out.drop (4 * i)).take 4))

/-- The request is accepted and not done yet. -/
def mbxWaits (s u : State) (c : Nat) : Prop :=
  rdFld u (rMbx c + 4) 2 0 = 1 ∧ rd u (rMbx c + 8) = rd s (rMbx c + 8) + 1

/-- Requests with their operation code, their payload, and the channels that R478 allows. The layout of a payload is
the model's (log 26). -/
def mbxRow : Instr → Option (Fin 50 × Nat × List Byte × (Nat → Prop))
  | .jobCreate c dbg => some (c, 0x01, [if dbg then 1 else 0], fun c => c < 16)
  | .tenantAdd c j es => some (c, 0x02, leBytes 2 j.toNat ++ es.flatMap fun e =>
      leBytes 1 e.1.val ++ leBytes 8 e.2.1 ++ leBytes 8 e.2.2, fun c => c < 16)
  | .measure c j a n _ _ => some (c, 0x03, leBytes 2 j.toNat ++ leBytes 8 a.toNat ++ leBytes 8 n, fun c => c < 16)
  | .grant c j mask => some (c, 0x04, leBytes 2 j.toNat ++ leBytes 4 mask.toNat, fun c => c < 16)
  | .seal c j l => some (c, 0x05, leBytes 2 j.toNat ++ leBytes 1 l.val, fun c => c < 16)
  | .kill c j => some (c, 0x06, leBytes 2 j.toNat, fun c => c < 16 ∨ c = 48 ∨ c = 49)
  | .release c j => some (c, 0x07, leBytes 2 j.toNat, fun c => c < 16)
  | .winOpen c u w => some (c, 0x10, leBytes 1 (unitNum u) ++ leBytes 1 w.space.toNat ++ leBytes 4 w.base.toNat ++
      leBytes 4 w.pages.toNat ++ leBytes 2 w.job.toNat ++ leBytes 1 (b2n w.host + 2 * b2n w.quay + 4 * b2n w.rd +
        8 * b2n w.wr + 16 * b2n w.amo + 32 * b2n w.inc), fun c => c < 16)
  | .winClose c u i g =>
    some (c, 0x11, leBytes 1 (unitNum u) ++ leBytes 2 i.toNat ++ leBytes 1 g.toNat, fun c => c < 16)
  | .qsBind c q j => some (c, 0x12, leBytes 1 q.val ++ leBytes 2 j.toNat, fun c => c < 16)
  | .signProv c q n => some (c, 0x20, leBytes 1 q.val ++ leBytes 8 n, fun c => c < 16)
  | .signCkpt c bs => some (c, 0x21, bs, fun c => c < 16)
  | .macsecKey c p rx an k => some (c, 0x30, leBytes 1 p.val ++ leBytes 1 (b2n rx) ++ leBytes 1 an.toNat ++ k, fun c =>
      c < 16)
  | .lcRequest c goal token op wr => some (c, 0x40, leBytes 1 goal.toNat ++
      (if goal = 2 then leBytes 96 op.toNat ++ leBytes 32 wr.toNat else leBytes 96 token.toNat), fun c => c = 48 ∨
        c = 49)
  | .debugUnlock c token => some (c, 0x41, leBytes 96 token.toNat, fun c => c = 48 ∨ c = 49)
  | _ => none

/-- REQ and PIN of a channel hold a request that its owner has submitted (R477). -/
def posted (s : State) (c op : Nat) (pay : List Byte) : Prop :=
  c ∈ s.hm.posted ∧ rdFld s (rMbx c) 15 0 = op ∧ rdFld s (rMbx c) 24 16 = pay.length ∧
    ∀ i < pay.length, pay.getD i 0 = .ofNat 8 ((rd s (rMbx c + 0x100 + 4 * (i / 4))).toNat / 256 ^ (i % 4))

/-- An entry of the tenancy table that lives: its job ID has TENANT 0. -/
def liveJob (s : State) (id : BitVec 16) (j : Job) : Prop :=
  idTenant id = 0 ∧ findJob s (idJob id) = some j ∧ j.dying = false

/-- What a request leaves of the rest of the machine: memories, threads, the data of cores and landings. -/
def machineKept (s u : State) : Prop :=
  u.mem = s.mem ∧ u.threads = s.threads ∧ u.cores = s.cores ∧ u.lands = s.lands

/-- The landing's threads are IDLE, and its scratchpads and scalar memories read zero (R484 steps 1 and 2). -/
def landCleared (u : State) (l : Fin 32) : Prop :=
  (∀ c t, (getThr u (.core l c t)).st = .idle) ∧
  (∀ off < 2 ^ 32, getByte u (memKey l.val 1 off) = 0) ∧ ∀ off < 2 ^ 25, getByte u (memKey l.val 2 off) = 0

end Sys2Proof.Claims

open Sys2Proof.Claims in
/-- R477 to R480, R531: a request while the channel is BUSY is ignored and sets BUSYWRITE; one that is not next in
turn waits, BUSY, its operation code, length and payload in REQ and PIN; one that register writes have submitted is
served as any, by the operation and the payload that they wrote alone, and with a LEN that its OP does not take
answered BADARG; one on a channel that R478 does not allow, or before READY, is counted and answered DENIED; NOP
answers OK on every channel and a reserved operation BADOP, before READY too. -/
def Sys2Proof.Claims.MailboxAcceptance : Prop :=
  (∀ i c op pay ok s, mbxRow i = some (c, op, pay, ok) → pay.length ≤ 256 → domState s 69 = 2 →
    (rdFld s (rMbx c.val + 4) 2 0 = 1 → c.val ∉ s.hm.posted → Runs i s (setFlag s 0x70004 2)) ∧
    (rdFld s (rMbx c.val + 4) 2 0 ≠ 1 → c.val ∉ s.hm.posted →
      (inTurn s c.val = false → ∃ u, Runs i s u ∧ posted u c.val op pay ∧
        rdFld u (rMbx c.val) 31 31 = 1 ∧ rdFld u (rMbx c.val + 4) 2 0 = 1 ∧ machineKept s u ∧ u.hm.jobs = s.hm.jobs) ∧
      ∃ v, posted v c.val op pay ∧ machineKept s v ∧ v.hm.jobs = s.hm.jobs ∧ ∀ u, Runs i s u → Runs i v u) ∧
    (c.val ∈ s.hm.posted → rdFld s (rMbx c.val) 15 0 ≠ op ∨ inTurn s c.val = false → Runs i s s) ∧
    (c.val ∈ s.hm.posted → lenOk op (rdFld s (rMbx c.val) 24 16) = true → ¬ posted s c.val op pay → Runs i s s) ∧
    (c.val ∈ s.hm.posted → s.boot.romOnly = false → inTurn s c.val = true → ok c.val → isReady s = true →
      rdFld s (rMbx c.val) 15 0 = op → lenOk op (rdFld s (rMbx c.val) 24 16) = false →
      ∃ u, Runs i s u ∧ mbxEnds s u c.val 2 [] ∧ machineKept s u ∧ u.hm.jobs = s.hm.jobs) ∧
    (mbxFree s c.val → (¬ ok c.val ∨ isReady s = false) →
      ∃ u, Runs i s u ∧ mbxEnds s u c.val 3 [] ∧ rdFld u (rMbx c.val) 15 0 = op ∧ machineKept s u ∧
        u.hm.jobs = s.hm.jobs ∧ u.fuses = s.fuses)) ∧
  (∀ (c : Fin 50) s, mbxFree s c.val →
    (∃ u, Runs (.mailboxNop c) s u ∧ mbxEnds s u c.val 0 [] ∧ machineKept s u ∧ u.hm.jobs = s.hm.jobs) ∧
    ∃ u, Runs (.mailboxReservedOp c) s u ∧ mbxEnds s u c.val 1 [] ∧ machineKept s u ∧ u.hm.jobs = s.hm.jobs)

open Sys2Proof.Claims in
/-- R473, R474, R478, R480 to R484, R487, R576: JOB_CREATE, TENANT_ADD, MEASURE, GRANT, SEAL, KILL and RELEASE on a
channel of a management core, where what they name lives; in BLANK and RETURNED a job runs with a vendor-signed image
alone. The layout of the responses and the number chosen are the model's (log 26). -/
def Obligations.Jobs : Prop :=
  ∀ (ch : Fin 50) id s, ch.val < 16 → mbxFree s ch.val → isReady s = true →
    let c := ch.val
    (∀ dbg, s.fuses.lcs ≠ 4 → s.hm.jobs.length < 256 → (∃ n, 1 ≤ n ∧ n < 1024 ∧ findJob s n = none) →
      ∃ n u, 1 ≤ n ∧ n < 1024 ∧ findJob s n = none ∧ Runs (.jobCreate ch dbg) s u ∧
        u.hm.jobs = s.hm.jobs ++ [{ num := n, debug := dbg }] ∧ mbxEnds s u c 0 (leBytes 2 (64 * n)) ∧
          machineKept s u) ∧
    (∀ dbg, s.fuses.lcs ≠ 4 → 256 ≤ s.hm.jobs.length →
      ∃ u, Runs (.jobCreate ch dbg) s u ∧ u.hm.jobs = s.hm.jobs ∧ mbxEnds s u c 9 []) ∧
    (∀ j, liveJob s id j → j.num < 1024 →
      (∀ (es : List (Fin 32 × Nat × Nat)), es.length ≤ 8 →
        (∀ e ∈ es, e.1.val ∈ j.lands ∧ e.2.1 % 4096 = 0 ∧ e.2.2 % 4096 = 0 ∧ e.2.1 + e.2.2 ≤ stackBytes) →
        j.tenants = [] → s.hm.jobs = [j] →
        ∃ u, Runs (.tenantAdd ch id es) s u ∧ mbxEnds s u c 0 (leBytes 2 (64 * j.num + 1)) ∧ machineKept s u ∧
          u.hm.jobs = [{ j with tenants := [⟨.ofNat 16 (64 * j.num + 1), es.map fun e => ⟨e.1.val, e.2.1, e.2.2⟩⟩] }]) ∧
      (∀ es, 8 < es.length → ∃ u, Runs (.tenantAdd ch id es) s u ∧ mbxEnds s u c 2 [] ∧ u.hm.jobs = s.hm.jobs) ∧
      (∀ addr len quay, imageOk s addr len = true → (s.fuses.lcs = 1 ∨ s.fuses.lcs = 2) →
        let image := (memData s (gaUnit addr) (gaSpace addr) (gaOff addr) len).1
        let code := Config.imageCode image
        let d := sha384 (measured image (Config.imageSkip image))
        code.1 + code.2 ≤ len →
        (∃ u, Runs (.measure ch id addr len quay false) s u ∧ mbxEnds s u c 0 (beBytes 48 d.toNat) ∧ u.mem = s.mem ∧
          u.hm.registry = s.hm.registry ∧
          ∀ x ∈ u.hm.jobs, x.num = j.num →
            x.prog = some d ∧ x.code = (image.drop code.1).take code.2 ∧ x.sealed = []) ∧
        ∃ u d', Runs (.measure ch id addr len quay true) s u ∧ mbxEnds s u c 0 (beBytes 48 d') ∧
          (quayOn s quay.val = true → rdFld u (rQcause quay.val) 2 2 = 1)) ∧
      let runs := s.fuses.lcs = 1 ∨ s.fuses.lcs = 2 ∨
        (s.fuses.lcs = 0 ∨ s.fuses.lcs = 3) ∧ ∃ d, j.prog = some d ∧ Config.vendorTest d = true
      (∀ mask, ¬ runs → (∀ l : Fin 32, mask.getLsbD l.val = true → landFree s l.val = true) →
        ∃ u, Runs (.grant ch id mask) s u ∧ mbxEnds s u c 3 [] ∧ u.hm.jobs = s.hm.jobs ∧ machineKept s u) ∧
      (∀ mask, runs → (∀ l : Fin 32, mask.getLsbD l.val = true → landFree s l.val = true) →
        ∃ u, Runs (.grant ch id mask) s u ∧ mbxEnds s u c 0 [] ∧ u.mem = s.mem ∧
          u.hm.registry = some (registryDigest u) ∧
          ∀ l : Fin 32, mask.getLsbD l.val = true →
            bindJob u l.val = j.num ∧ quarantined u l.val = false ∧ landFree u l.val = false ∧
            ∀ x ∈ u.hm.jobs, x.num = j.num → l.val ∈ x.lands) ∧
      (∀ mask (l : Fin 32), mask.getLsbD l.val = true → landFree s l.val = false →
        ∃ u, Runs (.grant ch id mask) s u ∧ mbxEnds s u c 4 [] ∧ u.hm.jobs = s.hm.jobs ∧ machineKept s u) ∧
      (∀ (l : Fin 32), l.val ∈ j.lands → j.prog.isSome = true → arrayOn s l.val = true →
        ((∀ k ∈ activeCores s l.val, codeThere s j l.val k = true) →
          ∃ u, Runs (.seal ch id l) s u ∧ mbxEnds s u c 0 [] ∧ machineKept s u ∧
            u.hm.registry = some (registryDigest u) ∧
            ∀ x ∈ u.hm.jobs, x.num = j.num → ∃ y ∈ s.hm.jobs, x = { y with sealed := sadd l.val y.sealed }) ∧
        (∀ k ∈ activeCores s l.val, codeThere s j l.val k = false →
          ∃ u, Runs (.seal ch id l) s u ∧ mbxEnds s u c 5 [] ∧ machineKept s u)) ∧
      (∀ i, i = .kill ch id ∨ i = .release ch id → ∃ u, Runs i s u ∧
        (∀ x ∈ u.hm.jobs, x.num = j.num → x.dying = true) ∧
        ∀ l : Fin 32, l.val ∈ j.lands → landCleared u l)) ∧
    (∀ j, idTenant id = 0 → findJob s (idJob id) = some j → j.dying = true →
      ∀ i, i = .kill ch id ∨ i = .release ch id → ∃ u, Runs i s u ∧ mbxWaits s u c ∧ machineKept s u ∧
        ∀ x ∈ u.hm.jobs, x.num = j.num → ∃ y ∈ s.hm.jobs, x = { y with waiters := y.waiters ++ [c] })

open Sys2Proof.Claims in
/-- R375 to R377, R478, R480, R482, R495: WIN_OPEN takes a window that is neither open nor closing and answers its
index and generation, and its landing is not free with it open; WIN_CLOSE cuts the window its handle names and waits
for the close; QS_BIND binds a queue set, and refuses a bound one another ID. SIGN_PROV waits in the signing queue,
and a record of a job that is not sealed is denied and waits for no signature (log 121), and
PROVENANCE_SIGNATURE_DONE writes the signature over bytes 0 to 319 of the record into bytes 320 to 415 (R493);
SIGN_CKPT answers signature, serial number and public key (R392). -/
def Obligations.MailboxServices : Prop :=
  ∀ (ch : Fin 50) s, ch.val < 16 → mbxFree s ch.val → isReady s = true →
    let c := ch.val
    (∀ un (w : WinSpec) j, liveJob s w.job j → w.space.toNat ≤ 6 → unitOn s (unitNum un) = true →
      let n := unitNum un
      (∀ i < winCount n, i ∈ busyWins s n) ∧ (∃ u, Runs (.winOpen ch un w) s u ∧ mbxEnds s u c 9 []) ∨
      ∃ i u, i < winCount n ∧ winOpen s n i = false ∧ winClosing s n i = false ∧ Runs (.winOpen ch un w) s u ∧
        winOpen u n i = true ∧ (n < 32 → landFree u n = false) ∧ rd u (winBase n i) = w.base ∧
          rd u (winBase n i + 4) = w.pages ∧
        winGen u n i = winGen s n i ∧ mbxEnds s u c 0 (leBytes 2 i ++ leBytes 1 (winGen s n i).toNat)) ∧
    (∀ un (i : BitVec 10) gen, i.toNat < winCount (unitNum un) → unitOn s (unitNum un) = true →
      let n := unitNum un
      (winGen s n i.toNat = gen → winOpen s n i.toNat = true →
        ∃ u, Runs (.winClose ch un i gen) s u ∧ winOpen u n i.toNat = false ∧ winClosing u n i.toNat = true ∧
          u.hm.closes = s.hm.closes ++ [⟨c, n, i.toNat⟩] ∧ mbxWaits s u c) ∧
      (winGen s n i.toNat ≠ gen →
        ∃ u, Runs (.winClose ch un i gen) s u ∧ mbxEnds s u c 2 [] ∧ winOpen u n i.toNat = winOpen s n i.toNat)) ∧
    (∀ (q : Fin 64) id j, idTenant id = 0 → findJob s (idJob id) = some j → j.dying = false →
      (qsJob s q.val = 0 ∨ qsJob s q.val = id →
        ∃ u, Runs (.qsBind ch q id) s u ∧ qsJob u q.val = id ∧ mbxEnds s u c 0 []) ∧
      (qsJob s q.val ≠ 0 → qsJob s q.val ≠ id →
        ∃ u, Runs (.qsBind ch q id) s u ∧ qsJob u q.val = qsJob s q.val ∧ mbxEnds s u c 4 [])) ∧
    (∀ (q : Fin 64) rseq,
      (s.fuses.lcs ≠ 1 → s.fuses.lcs ≠ 2 → ∃ u, Runs (.signProv ch q rseq) s u ∧ mbxEnds s u c 7 []) ∧
      (∀ r, (s.fuses.lcs = 1 ∨ s.fuses.lcs = 2) → unsignedRec s q.val rseq = some r → notSealed r = false →
        s.hm.signs.length < 8192 →
        ∃ u, Runs (.signProv ch q rseq) s u ∧ u.hm.signs = s.hm.signs ++ [⟨c, q.val, rseq⟩] ∧ mbxWaits s u c)) ∧
    (∀ (q : Fin 64) rseq r, (s.fuses.lcs = 1 ∨ s.fuses.lcs = 2) → unsignedRec s q.val rseq = some r →
      notSealed r = true →
      ∃ u, Runs (.signProv ch q rseq) s u ∧ mbxEnds s u c 3 [] ∧ unsignedRec u q.val rseq = none) ∧
    (∀ x rest, s.hm.signs = x :: rest → ∃ u, Runs .provenanceSignatureDone s u ∧ u.hm.signs = rest ∧
      ((unsignedRec s x.q x.rseq).isSome = true →
        rd u (rMbx x.ch + 4) = 2 ∧
        (getQs u x.q).held = (getQs s x.q).held.map fun r =>
          if r.rseq = x.rseq ∧ r.unsigned = true then
            { r with
              unsigned := false
              prov := r.prov.map fun p =>
                (p.1, p.2.take 320 ++
                  beBytes 96 (Config.ecdsaSign (deviceKey s.fuses.serial) (sha384 (p.2.take 320))).toNat ++
                  p.2.drop 416) }
          else r)) ∧
    (∀ bs : List Byte, bs.length = 192 → (s.fuses.lcs = 1 ∨ s.fuses.lcs = 2) →
      let key := deviceKey s.fuses.serial
      ∃ u, Runs (.signCkpt ch bs) s u ∧ machineKept s u ∧
        mbxEnds s u c 0 (beBytes 96 (Config.ecdsaSign key (sha384 bs)).toNat ++ leBytes 8 s.fuses.serial.toNat ++
          beBytes 96 (Config.ecdsaPublic key).toNat))

namespace Sys2Proof.Claims

/-- No POWER-ON reset runs: PWR_OK_0 is high, and the always-on domain has boarded since the last one (R538, R586). -/
def noPowerOn (s : State) : Prop := 0 ∉ s.pwr.bad ∧ (rdFld s 0x40 18 16 ≠ 0 ∨ domState s 68 = 2)

/-- A transition of R488 with the keys whose token it takes: vendor, operator, none needed. -/
def lcMoves (a b : Nat) (vendor operator : Prop) : Option Prop :=
  match a, b with
  | 0, 1 => some vendor
  | 1, 2 => some True
  | 2, 1 => some operator
  | 1, 3 => some vendor
  | 2, 3 => some operator
  | 0, 4 => some (vendor ∨ operator)
  | 1, 4 => some (vendor ∨ operator)
  | 2, 4 => some (vendor ∨ operator)
  | 3, 4 => some (vendor ∨ operator)
  | _, _ => none

end Sys2Proof.Claims

open Sys2Proof.Claims in
/-- R425, R472, R478, R487 to R490, R536, R564: MACSEC_KEY, FW_VERIFY, FAULT_REPORT, LC_REQUEST with the transitions
of R488 and their tokens, and DEBUG_UNLOCK. The layout of a token's digest is the model's (log 27). -/
def Sys2Proof.Claims.MailboxKeys : Prop :=
  ∀ (ch : Fin 50) s, mbxFree s ch.val →
    let c := ch.val
    (∀ (p : Fin 16) rx (an : BitVec 2) wrapped, c < 16 → isReady s = true →
      let i := Instr.macsecKey ch p rx an wrapped
      let wraps := 24 ≤ wrapped.length ∧ wrapped.length ≤ 253 ∧ wrapped.length % 8 = 0
      (¬ wraps → ∃ u, Runs i s u ∧ mbxEnds s u c 2 [] ∧ u.hm.keys = s.hm.keys) ∧
      (wraps → s.hm.wrapKey = none → ∃ u, Runs i s u ∧ mbxEnds s u c 7 [] ∧ u.hm.keys = s.hm.keys) ∧
      ∀ w, wraps → s.hm.wrapKey = some w → ∃ u, Runs i s u ∧
        match Config.unwrapKey w wrapped with
        | none => mbxEnds s u c 6 [] ∧ u.hm.keys = s.hm.keys
        | some key => mbxEnds s u c 0 [] ∧ ⟨p.val, rx, an.toNat, key⟩ ∈ u.hm.keys ∧
            ∀ k ∈ u.hm.keys, (k.port, k.rx, k.an) = (p.val, rx, an.toNat) → k.key = key) ∧
    (∀ (comp : Fin 3) (b : Bool), c < 16 →
      let k := b2n b
      let f := flashCopy s comp.val k
      (f.sig = false → ∃ u, Runs (.fwVerify ch comp b) s u ∧ mbxEnds s u c 6 [] ∧ u.boot.flash = s.boot.flash) ∧
      (f.sig = true → ∃ u, Runs (.fwVerify ch comp b) s u ∧ mbxEnds s u c 0 [] ∧
        ((∀ j < 2, (flashCopy s comp.val j).seq ≠ some 0xffffffff) → activeCopy u comp.val = k) ∧
        ∃ n, flashCopy u comp.val k = { f with seq := some n })) ∧
    (∀ code (un : BitVec 6), ∃ u, Runs (.faultReport ch code un) s u ∧ mbxEnds s u c 0 [] ∧ machineKept s u ∧
      (rdFld s 0x10024 0 0 = 0 → rd u 0x10024 = .ofNat 32 (1 + c * 4 + code.toNat * 2 ^ 8 + un.toNat * 2 ^ 16)) ∧
      (rdFld s 0x10024 0 0 = 1 → rd u 0x10024 = rd s 0x10024 ||| 2)) ∧
    (∀ (goal : BitVec 3) token opKey wrapKey, (c = 48 ∨ c = 49) → isReady s = true →
      let i := Instr.lcRequest ch goal token opKey wrapKey
      let d := sha384 (leBytes 8 s.fuses.serial.toNat ++ leBytes 1 s.fuses.lcs.toNat ++ leBytes 1 goal.toNat ++
        leBytes 8 (Config.nonce s.hm.nonce).toNat)
      let vendor := Config.ecdsaVerify Config.vendorKey d token = true
      let operator := ∃ k, s.hm.opKey = some k ∧ Config.ecdsaVerify k d token = true
      ∃ u, Runs i s u ∧
        match lcMoves s.fuses.lcs.toNat goal.toNat vendor operator with
        | none => mbxEnds s u c 3 [] ∧ u.fuses = s.fuses
        | some ok =>
          (¬ ok → mbxEnds s u c 6 [] ∧ u.fuses = s.fuses) ∧
          (ok → u.fuses = { s.fuses with lcs := goal } ∧ s.hm.nonce < u.hm.nonce ∧
            u.hm.opKey = (if goal = 2 then some opKey else none) ∧
            u.hm.wrapKey = (if goal = 2 then some wrapKey else none) ∧
            (noPowerOn s → s.boot.pinLow = false → rdFld u 0x40 4 4 = 1 ∧ rdFld u 0x40 18 16 = 3 ∧ domState u 0 = 0 ∧
              u.mem = []))) ∧
    (∀ token, (c = 48 ∨ c = 49) → isReady s = true →
      let d := sha384 (leBytes 8 s.fuses.serial.toNat ++ leBytes 1 s.fuses.lcs.toNat ++ leBytes 1 s.fuses.lcs.toNat ++
        leBytes 8 (Config.nonce s.hm.nonce).toNat)
      let ok := s.fuses.lcs = 1 ∧ Config.ecdsaVerify Config.vendorKey d token = true ∨
        s.fuses.lcs = 2 ∧ ∃ k, s.hm.opKey = some k ∧ Config.ecdsaVerify k d token = true
      ∃ u, Runs (.debugUnlock ch token) s u ∧ machineKept s u ∧
        (s.fuses.lcs ≠ 1 → s.fuses.lcs ≠ 2 → mbxEnds s u c 3 []) ∧
        (s.fuses.lcs = 1 ∨ s.fuses.lcs = 2 → ¬ ok → mbxEnds s u c 6 [] ∧ rdFld u 0x70000 4 4 = rdFld s 0x70000 4 4) ∧
        (ok → mbxEnds s u c 0 [] ∧ rdFld u 0x70000 4 4 = 1 ∧ u.hm.unlock = sha384 (beBytes 96 token.toNat)))

open Sys2Proof.Claims in
/-- R425, R472, R477 to R480, R487 to R490, R531, R536, R564: which requests the mailbox takes, and those of keys,
firmware, life-cycle state and fault reports. -/
def Obligations.MailboxSecurity : Prop := MailboxAcceptance ∧ MailboxKeys

namespace Sys2Proof.Claims

/-! ## Debug (R490, R569 to R571, R583, R588) -/

/-- The access of the DBG block as its registers give it: bytes and address. -/
def dbgTarget (s : State) (n : Nat) (a : Dword) : Prop :=
  (n = 8 ∧ rdFld s 0x90000 3 2 = 0 ∨ n = 64 ∧ rdFld s 0x90000 3 2 = 1 ∨ n = 512 ∧ rdFld s 0x90000 3 2 = 2) ∧
  a = .ofNat 64 (rdPair s 0x90008)

/-- The four checks of R570, in their order: STATUS of the first that fails, 0 where none does. -/
def dbgStatus (s : State) (n : Nat) (a : Dword) (v : Nat) : Prop :=
  let l := gaUnit a
  let sp := gaSpace a
  let off := gaOff a
  let fits := gaMod a = s.modnum.toNat ∧ (sp = 0 ∨ sp = 1 ∨ sp = 2 ∨ sp = 6) ∧ addrBad s l sp off n = false ∧
    a.toNat % n = 0
  let allowed := s.fuses.lcs = 0 ∨ s.fuses.lcs = 3 ∨
    (s.fuses.lcs = 1 ∨ s.fuses.lcs = 2) ∧ ∃ j, findJob s (bindJob s l) = some j ∧ j.debug = true
  let quar := quarantined s l = true ∧ (sp = 1 ∨ sp = 2 ∨ bindJob s l ≠ 0 ∨ landScrubs s l = true)
  (¬ fits ∧ v = 3) ∨ (fits ∧ ¬ allowed ∧ v = 2) ∨ (fits ∧ allowed ∧ quar ∧ v = 1) ∨
    (fits ∧ allowed ∧ ¬ quar ∧ targetOn s l sp off n = false ∧ v = 4) ∨
    (fits ∧ allowed ∧ ¬ quar ∧ targetOn s l sp off n = true ∧ v = 0)

/-- DBG.STAT after an access that ends with a STATUS: DONE, not BUSY, GO 0. -/
def dbgEnds (u : State) (v : Nat) : Prop := rd u 0x90004 = .ofNat 32 (2 + 16 * v) ∧ rdFld u 0x90000 0 0 = 0

end Sys2Proof.Claims

open Sys2Proof.Claims in
/-- R569 to R571: a DBG read whose checks pass is BUSY until its data returns in DBG.DATA, or zero where its target
is quarantined by then; a write stores DBG.DATA's bytes and no others; a failing check ends either with its STATUS, a
read with zero in DBG.DATA; GO while BUSY is ignored. -/
def Sys2Proof.Claims.DebugAccesses : Prop :=
  (∀ m n a v s, reachesModule m = true → rdFld s 0x90004 1 0 ≠ 1 → dbgTarget s n a → dbgStatus s n a v →
    let l := gaUnit a
    let sp := gaSpace a
    let off := gaOff a
    let k := memKey l sp off
    (v ≠ 0 → (∃ u, Runs (.dbgRead m) s u ∧ dbgEnds u v ∧ u.mem = s.mem ∧ ∀ i < 128, rd u (0x90200 + 4 * i) = 0) ∧
      ∃ u, Runs (.dbgWrite m) s u ∧ dbgEnds u v ∧ u.mem = s.mem) ∧
    (v = 0 → (∃ u, Runs (.dbgRead m) s u ∧ rdFld u 0x90004 1 0 = 1 ∧ u.mem = s.mem ∧
        ∃ d p, u.dbg = some ⟨l, k, d, p⟩ ∧ (sp ≠ 0 → d = getBytes s k n)) ∧
      (sp = 2 ∨ sp = 6 → ∃ u, Runs (.dbgWrite m) s u ∧ dbgEnds u 0 ∧
        (∀ j, j < n → getByte u (k + j) = .ofNat 8 ((rd s (0x90200 + 4 * (j / 4))).toNat / 256 ^ (j % 4))) ∧
        ∀ x, x < k ∨ k + n ≤ x → getByte u x = getByte s x))) ∧
  (∀ x s, s.dbg = some x → x.data.length ≤ 512 → ∃ u, Runs .dbgAccessComplete s u ∧ u.dbg = none ∧ u.mem = s.mem ∧
    let q := dbgQuar s x.land (x.key / 2 ^ 44 % 16)
    dbgEnds u (if q then 1 else if x.psn then 5 else 0) ∧
    ∀ i < 128, 4 * i < x.data.length →
      rd u (0x90200 + 4 * i) = if q then 0 else .ofNat 32 (leNat ((x.data.drop (4 * i)).take 4))) ∧
  (∀ m s, rdFld s 0x90004 1 0 = 1 → Runs (.dbgRead m) s s ∧ Runs (.dbgWrite m) s s)

open Sys2Proof.Claims in
/-- R490, R583, R585, R588: the instructions of the TAP: BYPASS and IDCODE always; SAMPLE_PRELOAD and EXTEST in BLANK,
RETURNED and after DEBUG_UNLOCK, CORE_DEBUG in the first two, and else as BYPASS; none while TRST_N is low. A scan
captures the levels of the signals and loads the cells, from which EXTEST drives the outputs; without power no
open-drain output is driven. The order of the cells is the model's (log 120). -/
def Sys2Proof.Claims.TestAccessPort : Prop :=
  ∀ pins s,
    let open' := s.fuses.lcs = 0 ∨ s.fuses.lcs = 3
    let scan := open' ∨ rdFld s 0x70000 4 4 = 1
    let tdo := fun (bs : List Bool) (x : Tap) => { s with tap := x, outs := s.outs ++ [.tdo bs] }
    let bypass := tdo [false] { s.tap with ir := 0x1f, drive := false }
    let id := 1 + 2 * 0x3b5 + 2 ^ 12 * 0x9320 + 2 ^ 28 * s.fuses.step.toNat
    (∀ low, Runs (.trst low) s { s with
      tap := if low then { s.tap with held := true, ir := 1, drive := false } else { s.tap with held := false } }) ∧
    (s.tap.held = true → ∀ i ∈ [Instr.bypass, .idcode, .samplePreload pins, .extest pins, .coreDebug], Runs i s s) ∧
    (s.tap.held = false →
      Runs .bypass s bypass ∧
      Runs .idcode s (tdo ((upto 32).map fun i => id.testBit i) { s.tap with ir := 1, drive := false }) ∧
      (scan → ∃ bs : List Bool, bs.length = 34 ∧ bs[2]? = some (!intLow s) ∧ bs[3]? = some (!s.boot.pinLow) ∧
        bs[15]? = some (!thermtripLow s) ∧ (∀ n < 6, bs[16 + n]? = some (!s.pwr.bad.contains n)) ∧
        let scanned := fun (x : Tap) => { tdo bs x with free := s.free + 34 }
        Runs (.samplePreload pins) s (scanned { s.tap with ir := 2, bsr := fitTo false 34 pins, drive := false }) ∧
        Runs (.extest pins) s (scanned { s.tap with ir := 0, bsr := fitTo false 34 pins, drive := true })) ∧
      (¬ scan → Runs (.samplePreload pins) s bypass ∧ Runs (.extest pins) s bypass) ∧
      (open' → Runs .coreDebug s { s with tap := { s.tap with ir := 8, drive := false } }) ∧
      (¬ open' → Runs .coreDebug s bypass)) ∧
    (0 ∈ s.pwr.bad → intLow s = false ∧ thermtripLow s = false ∧ coolShown s = 255) ∧
    (0 ∉ s.pwr.bad → s.tap.drive = false → (thermtripLow s = true ↔ rdFld s 0x30000 2 2 = 1) ∧
      (intLow s = true ↔ rdFld s 0x10008 2 2 = 1 ∧ intPending s = true) ∧ coolShown s = rdFld s 0x30028 7 0) ∧
    (0 ∉ s.pwr.bad → s.tap.drive = true → ∀ b, (s.tap.bsr[15]? = some b → thermtripLow s = !b) ∧
      (s.tap.bsr[2]? = some b → intLow s = !b))

open Sys2Proof.Claims in
/-- R490, R569 to R571, R583, R585, R588: the DBG block, the TAP, and the open-drain outputs. -/
def Obligations.DebugPorts : Prop := DebugAccesses ∧ TestAccessPort

namespace Sys2Proof.Claims

/-! ## Resets (R38, R39, R378, R466, R522 to R527, R538, R546, R547, R586, R587) -/

/-- The register words are listed in their canonical form; every step keeps it. -/
def regsListed (s : State) : Prop := tabOk resetWord 0 s.regs = true

/-- What a reset of the whole module leaves: memories zero, threads, cores and landings at reset, no job, request or
access, no domain ON but PD68, every REQ at ON, no landing failed, READY clear, another nonce (R497); and what it
never touches. -/
def freshModule (s u : State) : Prop :=
  u.mem = [] ∧ u.threads = [] ∧ u.cores = [] ∧ u.lands = [] ∧ u.hm.jobs = [] ∧ u.reqs = [] ∧ u.accs = [] ∧
  (∀ d < 72, d ≠ 68 → domState u d = 0 ∧ pdReq u d = 2) ∧ rd u 0x50 = 0 ∧ isReady u = false ∧ fatal u = false ∧
  u.fuses = s.fuses ∧ u.pending = s.pending ∧ s.hm.nonce < u.hm.nonce

/-- The always-on state of R523 is kept, the reset's own flag and LAST of GLB.RSTCAUSE apart, and the window
generations advance. -/
def alwaysOnKept (s u : State) (kind : Nat) : Prop :=
  u.time = s.time ∧ rdFld u 0x40 kind kind = 1 ∧ rdFld u 0x40 18 16 = kind ∧
  (∀ b < 9, b ≠ kind → rdFld u 0x40 b b = rdFld s 0x40 b b) ∧ (∀ i < 8, rd u (0x60 + 4 * i) = rd s (0x60 + 4 * i)) ∧
  rd u 0x20018 = rd s 0x20018 ∧ rd u 0x2001c = rd s 0x2001c ∧ rdFld u 0x20000 8 3 = rdFld s 0x20000 8 3 ∧
  rdFld u 0x30000 2 2 = rdFld s 0x30000 2 2 ∧
  ∀ n i, n < 36 → i < winCount n → winGen u n i = winGen s n i + 1 ∧ winOpen u n i = false

/-- The six masters' safety values, and the owners of the shared one (R466, R467). -/
def safetyWords : List Nat := [0x20040, 0x20044, 0x20048, 0x2004c, 0x20050, 0x20054, 0x20060, 0x20064]

/-- What a PURSER reset leaves (R526, R529, R548): boarding held, queue sets and quay SRAM fresh, those with requests
in a lap once it ends, READY clear, the stage back at QUAYS where it had come past it and no module-fatal error
stands, and jobs, cores' threads and the landings' memories as they were. -/
def purserFresh (s u : State) (flag : Nat) : Prop :=
  rdFld u 0x40 flag flag = 1 ∧ rdFld u 0x40 18 16 = 4 ∧ bhold u = true ∧ isReady u = false ∧ u.boot.resetAt = s.time ∧
  rdFld u 0x4c 3 0 = (if fatal s = true ∨ rdFld s 0x4c 3 0 < 3 then rdFld s 0x4c 3 0 else 3) ∧
  u.hm.jobs = s.hm.jobs ∧ (∀ l c t, getThr u (.core l c t) = getThr s (.core l c t)) ∧
  (∀ l, getThr u (.deckhand l) = {}) ∧
  (∀ q < 64, getQs u q = {} ∨ s.crs.inLap = true ∧ (getQs u q).resetting = true) ∧
  (∀ q off, q < 4 → off < 2 ^ 26 → getByte u (memKey q 4 off) = 0) ∧
  ∀ l sp off, l < 32 → sp ∈ [0, 1, 2, 6] → off < 2 ^ 44 → getByte u (memKey l sp off) = getByte s (memKey l sp off)

end Sys2Proof.Claims

open Sys2Proof.Claims in
/-- R38, R39, R378, R466, R522 to R524, R538, R547, R586, R587: the resets of the whole module: what each leaves and
keeps, when each acts, and the release of the pin and the return of the clock. A low SYS_RST_N while a POWER-ON reset
runs adds nothing but its own end. Between 2 µs and 10 µs a low SYS_RST_N may act or not. -/
def Sys2Proof.Claims.ModuleResets : Prop :=
  ∀ s,
    (s.boot.noClock = true → ∀ straps b, ∃ u, Runs (.powerOnReset straps b) s u ∧ 0 ∉ u.pwr.bad ∧ u.boot = s.boot ∧
      u.mem = s.mem ∧ ∀ d < 72, domState u d = domState s d) ∧
    (s.boot.noClock = false → ∀ straps, ∃ u, Runs (.powerOnReset straps true) s u ∧ freshModule s u ∧ u.time = 0 ∧
      rd u 0x40 = 1 ∧
      domState u 68 = 0 ∧ rdFld u 0x50000 3 0 = straps.toNat ∧ (∀ o ∈ safetyWords, rd u o = resetWord o) ∧
      ∀ n i, n < 36 → i < winCount n → winGen u n i = 0) ∧
    (s.boot.noClock = false → ∀ straps, ∃ u, Runs (.powerOnReset straps false) s u ∧ freshModule s u ∧ rd u 0x40 = 1) ∧
    (¬ noPowerOn s → ∀ ns straps b, 10000 ≤ ns →
      Runs (.pinReset ns straps b) s { s with free := s.free + 1, boot := { s.boot with pinLow := true } }) ∧
    (regsListed s → noPowerOn s → ∀ ns straps, 10000 ≤ ns → ∃ u, Runs (.pinReset ns straps true) s u ∧
      freshModule s u ∧ alwaysOnKept s u 1 ∧ domState u 68 = 0 ∧ rdFld u 0x50000 3 0 = straps.toNat ∧
      u.boot.pinLow = true ∧ ∀ o ∈ safetyWords, rd u o = resetWord o) ∧
    (∀ ns straps b, ns < 2000 → Runs (.pinReset ns straps b) s { s with free := s.free + 1 }) ∧
    (regsListed s → noPowerOn s → s.boot.pinLow = false →
      (∀ ns, 2000 < ns → ∃ u, Runs (.clockLoss ns) s u ∧ freshModule s u ∧ alwaysOnKept s u 2 ∧ domState u 68 = 2 ∧
        u.boot.noClock = true ∧ ∀ o ∈ safetyWords, rd u o = rd s o) ∧
      (∀ m v, reachesModule m = true → wfld v 7 0 = 0x5a → wfld v 8 8 = 1 → ∃ u, Runs (.moduleReset m v) s u ∧
        freshModule s u ∧ alwaysOnKept s u 3 ∧ domState u 68 = 2 ∧ ∀ o ∈ safetyWords, rd u o = rd s o)) ∧
    (∀ ns, ns ≤ 2000 → Runs (.clockLoss ns) s s) ∧
    (∀ m v, reachesModule m = false ∨ wfld v 7 0 ≠ 0x5a ∨ wfld v 8 8 ≠ 1 → Runs (.moduleReset m v) s s) ∧
    (s.boot.pinLow = true → Runs .sysRstRelease s
      { s with boot := { s.boot with pinLow := false, resetAt := s.time } }) ∧
    (s.boot.noClock = true → Runs .clockReturn s
      { s with boot := { s.boot with noClock := false, resetAt := s.time } })

open Sys2Proof.Claims in
/-- R526, R527, R547: a keyed write of GLB.RSTPUR, and the watchdog after PURWD x 10 ms without a request on channel
0, reset purser firmware; before that, and with another key, nothing happens. -/
def Sys2Proof.Claims.PurserResets : Prop :=
  ∀ s,
    (∀ m v, reachesModule m = true → 0 ∉ s.pwr.bad → s.boot.pinLow = false → s.boot.noClock = false →
      (wfld v 7 0 = 0x5a → wfld v 8 8 = 1 → ∃ u, Runs (.purserReset m v) s u ∧ purserFresh s u 8) ∧
      (wfld v 7 0 ≠ 0x5a ∨ wfld v 8 8 ≠ 1 → Runs (.purserReset m v) s s)) ∧
    (quayOn s 0 = true → s.boot.served.toNat + s.boot.cfg.purwd * 2000000 ≤ s.time.toNat →
      ∃ u, Runs .purserWatchdog s u ∧ purserFresh s u 7) ∧
    (s.time.toNat < s.boot.served.toNat + s.boot.cfg.purwd * 2000000 → Runs .purserWatchdog s s)

open Sys2Proof.Claims in
/-- R38, R39, R378, R466, R522 to R524, R526, R527, R538, R547, R586, R587: the resets of the module and of purser
firmware. -/
def Obligations.Resets : Prop := ModuleResets ∧ PurserResets

namespace Sys2Proof.Claims

/-! ## Start-up (R471 to R473, R505, R529 to R531, R535, R548) -/

/-- A domain's boarding time finds what it needs: present, not forced OFF, the clock there, the pin high, and every
domain that it requires ON (R40, R41, R505). -/
def canBoard (s : State) (d : Nat) : Prop :=
  absentDom s d = false ∧ rdFld s (rPd d) 7 7 = 0 ∧ s.boot.noClock = false ∧ s.boot.pinLow = false ∧
    ∀ r ∈ requires d, domState s r = 2

/-- Its transition to ON runs. -/
def goesOn (u : State) (d : Nat) : Prop :=
  (goalOf u d).map Prod.fst = some 2 ∧ rdFld u (rPd d) 6 6 = 1 ∧ d ∈ u.pwr.boarded

/-- The conditions of READY (R530): domains and their requests, scrubs, firmware, groups, time; and the boot chain has
run and the module is in neither READY, FATAL nor SAFE. -/
def readyConditions (s : State) : Prop :=
  s.boot.chained = true ∧ isReady s = false ∧ fatal s = false ∧ rdFld s 0x4c 3 0 ≠ 8 ∧
  (∀ d < 72, absentDom s d = false → (d < 64 → landFailed s (d % 32) = false) → pdReq s d = 2 → domState s d = 2) ∧
  (∀ l ∈ presentLands s, uncoreOn s l = true → scrubbing s l 0 = false ∧ scrubbing s l 1 = false) ∧
  (ranCopy s 1 ≠ 0 ∧ ∀ l ∈ presentLands s, uncoreOn s l = true → l ∈ s.boot.deckhands) ∧
  (∀ r < 7, r ≠ 0 → rolePorts s r ≠ [] → (∃ p ∈ rolePorts s r, portUp s p = true) ∨
    ∀ p ∈ rolePorts s r, p / 8 ∈ s.boot.waited) ∧
  timeReady s = true

end Sys2Proof.Claims

open Sys2Proof.Claims in
/-- R471 to R473, R505, R529, R530, R535: a domain boards where its REQ is ON and is skipped where it is not; with
PD69 ON the ROM runs, and a valid monitor, whose image and purser firmware's are measured, without which no quay
boards; the first quay's boarding begins stage QUAYS; READY comes exactly when R530 holds; five seconds after stage
QUAYS began, the boot watchdog marks the other purser copy active and resets, or ends in SAFE. -/
def Obligations.StartUp : Prop :=
  ∀ s,
    (∀ d : Fin 72, canBoard s d.val →
      (d.val = 68 ∨ d.val = 69 ∨ domState s 69 = 2 ∧ s.boot.romOnly = false ∧ s.boot.chained = true) →
      ∃ u, Runs (.boarding d) s u ∧ u.mem = s.mem ∧ d.val ∈ u.pwr.boarded ∧
        (pdReq s d.val = 2 → domState s d.val = 0 → goalOf s d.val = none → goesOn u d.val) ∧
        (pdReq s d.val ≠ 2 → goalOf u d.val = goalOf s d.val ∧ domState u d.val = domState s d.val)) ∧
    (∀ sref, goalOf s 69 = some (2, sref) → domState s 68 = 2 → s.boot.romOnly = false → s.boot.chained = false →
      ∃ u, Runs (.domainTransitionComplete 69) s u ∧ domState u 69 = 2 ∧
        (chosenCopy s 0 = none → u.boot.romOnly = true ∧ u.boot.chained = false) ∧
        (∀ k, chosenCopy s 0 = some k → u.boot.chained = true ∧ 2 ≤ rdFld u 0x4c 3 0 ∧
          tget 0 u.boot.digests 2 = (flashCopy s 0 k).digest ∧
          ∀ j, chosenCopy s 1 = some j → tget 0 u.boot.digests 3 = (flashCopy s 1 j).digest)) ∧
    (∀ d : Fin 72, d ≠ 68 → d ≠ 69 → domState s 69 = 2 → s.boot.noClock = false → s.boot.pinLow = false →
      (s.boot.chained = false → Runs (.boarding d) s s) ∧
      (s.boot.chained = true → s.boot.released = false → ∃ u, Runs (.boarding d) s u ∧ 3 ≤ rdFld u 0x4c 3 0 ∧
        u.boot.quaysAt = s.time ∧ u.boot.served = s.time)) ∧
    (∀ b : Fin 2, domState s (70 + b.val) = 2 →
      (tget 0 s.boot.bankAt b.val).toNat + s.boot.cfg.groupWait * 200000 ≤ s.time.toNat →
      Runs (.groupwaitExpiry b) s { s with boot := { s.boot with waited := sadd b.val s.boot.waited } }) ∧
    (readyConditions s → ∃ u, Runs .ready s u ∧ isReady u = true ∧ rdFld u 0x4c 3 0 = 7 ∧ rdFld u 0x30 3 3 = 1 ∧
      rdFld u 0x4c 31 16 = min 0xffff ((s.time.toNat - s.boot.resetAt.toNat) / 200000) ∧
      (rdFld s 0x50010 1 0 ≠ 2 → rdFld u 0x4c 7 7 = 1) ∧ u.mem = s.mem ∧ u.pwr.purHold = false) ∧
    (¬ readyConditions s → Runs .ready s s) ∧
    (isReady s = false → fatal s = false → s.boot.chained = true → rdFld s 0x4c 3 0 ≠ 8 →
      s.boot.quaysAt.toNat + 1000000000 ≤ s.time.toNat →
      let k := if ranCopy s 1 = 1 then 1 else 0
      (copyValid s 1 k = true → (flashCopy s 1 k).tried = false → (∀ j < 2, (flashCopy s 1 j).seq ≠ some 0xffffffff) →
        noPowerOn s → s.boot.pinLow = false → ∃ u, Runs .bootWatchdog s u ∧ rdFld u 0x40 5 5 = 1 ∧ activeCopy u 1 = k) ∧
      (copyValid s 1 k = false ∨ (flashCopy s 1 k).tried = true → Runs .bootWatchdog s (wrFld s 0x4c 3 0 8))) ∧
    (isReady s = true ∨ s.time.toNat < s.boot.quaysAt.toNat + 1000000000 → Runs .bootWatchdog s s)

namespace Sys2Proof.Claims

/-! ## Errors (R94, R97, R540 to R545) -/

/-- A landing is lost (R543): its bit and code, the landing cause, both domains OFF, no job, its requests and stacks
lost; the crossing closes around it, or, with no live neighbour on a side, opens. -/
def landingLost (s u : State) (l code : Nat) : Prop :=
  landFailed u l = true ∧ rdFld u (0x60 + 4 * (l / 4)) (8 * (l % 4) + 7) (8 * (l % 4)) = code ∧ rdFld u 0x30 0 0 = 1 ∧
  domState u l = 0 ∧ domState u (32 + l) = 0 ∧ bindJob u l = 0 ∧ liveLand u l = false ∧
  (∀ r ∈ u.reqs, r.st = .active → r.land = l → r.lost = true) ∧
  (∀ off < 2 ^ 44, getByte u (memKey l 0 off) = 0) ∧
  (liveLand s l = true → canSpan s l = true → rdFld u 0x40008 2 2 = 1) ∧
  (liveLand s l = true → canSpan s l = false → fatal u = true ∧ rdFld u 0x40008 3 3 = 1 ∧
    rdFld u 0x40008 2 2 = rdFld s 0x40008 2 2)

/-- A module-fatal error that is in effect (R541, R542). -/
def fatalWith (u : State) (code unit : Nat) : Prop :=
  fatal u = true ∧ rdFld u 0x58 15 8 = code ∧ rdFld u 0x58 21 16 = unit ∧ rdFld u 0x4c 3 0 = 0xf ∧ rdFld u 0x30 2 2 = 1

/-- A rejoin of the landing is refused (R545). -/
def rejoinRefused (s : State) (l : Nat) : Prop :=
  uncoreOn s l = false ∨ arrayOn s l = false ∨ landFailed s l = false ∨ rdFld s 0x40104 4 4 = 1 ∨
    landFailed s ((l + 1) % 32) = true ∨ landFailed s ((l + 31) % 32) = true

end Sys2Proof.Claims

open Sys2Proof.Claims in
/-- R94, R97, R540, R543: a landing-fatal error of a code of R540, a deckhand without heartbeat and a landing without
header lose the landing, a failed one with a domain ON again too; an error of a lost landing that is OFF, another code
and an absent landing change nothing. -/
def Sys2Proof.Claims.LostLandings : Prop :=
  ∀ (l : Fin 32) s,
    let n := l.val
    (absentLand s n = false →
      landFailed s n = false ∨ rdFld s 0x54 n n ≠ 0 ∨ tget false s.boot.rejoins n = true ∨ domState s n ≠ 0 ∨
        domState s (32 + n) ≠ 0 →
      (∀ code : BitVec 8, 1 ≤ code.toNat → code.toNat ≤ 6 →
        ∃ u, Runs (.landingFatal l code) s u ∧ landingLost s u n code.toNat) ∧
      (n ∈ s.boot.deckhands → uncoreOn s n = true →
        ∃ u, Runs (.deckhandHeartbeatTimeout l) s u ∧ landingLost s u n 4) ∧
      (liveLand s n = true → ∃ u, Runs (.noHeaderTimeout l) s u ∧ landingLost s u n 1)) ∧
    (landFailed s n = true → rdFld s 0x54 n n = 0 → tget false s.boot.rejoins n = false → domState s n = 0 →
      domState s (32 + n) = 0 → ∀ code, Runs (.landingFatal l code) s s) ∧
    (∀ code : BitVec 8, code = 0 ∨ 6 < code.toNat ∨ absentLand s n = true → Runs (.landingFatal l code) s s) ∧
    (n ∉ s.boot.deckhands → Runs (.deckhandHeartbeatTimeout l) s s) ∧
    (liveLand s n = false → Runs (.noHeaderTimeout l) s s)

open Sys2Proof.Claims in
/-- R541, R542, R550: a module-fatal error is recorded and enters stage FATAL, and the first one stands; HM_FAULT, and
with AUTORST every other after FATALDLY, a trip once the junctions have cooled, resets the module with
GLB.RSTCAUSE.FATAL. -/
def Obligations.FatalErrors : Prop :=
  ∀ s,
    let due := fatal s = true ∧ rdFld s 0x5c 0 0 = 1 ∧
      s.boot.fatalAt.toNat + max 1 (rdFld s 0x5c 15 8) * 2000000 ≤ s.time.toNat ∧
      (s.boot.tripped = true → rdFld s 0x3001c 10 0 + 100 < 10 * safeEff s .tlim)
    (∀ (code : BitVec 8) unit, 2 ≤ code.toNat → code.toNat ≤ 6 →
      (fatal s = false → ∃ u, Runs (.moduleFatal code unit) s u ∧ fatalWith u code.toNat unit.toNat ∧ u.mem = s.mem) ∧
      (fatal s = true → Runs (.moduleFatal code unit) s s)) ∧
    (∀ code unit, code = (0 : BitVec 8) ∨ 6 < code.toNat → Runs (.moduleFatal code unit) s s) ∧
    (noPowerOn s → s.boot.pinLow = false →
      (∀ unit, ∃ u, Runs (.moduleFatal 1 unit) s u ∧ freshModule s u ∧ rdFld u 0x40 6 6 = 1) ∧
      (domState s 69 = 2 → ∃ u, Runs .hmWatchdog s u ∧ freshModule s u ∧ rdFld u 0x40 6 6 = 1)) ∧
    (domState s 69 ≠ 2 → Runs .hmWatchdog s s) ∧
    (due → noPowerOn s → s.boot.pinLow = false →
      ∃ u, Runs .fatalAutoreset s u ∧ freshModule s u ∧ rdFld u 0x40 6 6 = 1) ∧
    (¬ due → Runs .fatalAutoreset s s)

open Sys2Proof.Claims in
/-- R544, R545, R549: a rejoin that R545 refuses sets REJREFUSED and REJLAND; else GLB.REJOIN shows it. When its
copies are complete, which they are not while one of them is not whole or has no area, or a stack cannot be reached,
they are noted, and the landing's home slice of the live version lies in a home area of its own. -/
def Sys2Proof.Claims.Rejoins : Prop :=
  ∀ (l : Fin 32) s,
    let n := l.val
    (∀ m, reachesModule m = true → rdFld s 0x54 n n = 0 →
      (rejoinRefused s n → Runs (.rejoin m (.ofNat 32 (2 ^ n))) s (wrFld (wrFld s 0x58 0 0 1) 0x58 5 1 n)) ∧
      (¬ rejoinRefused s n → Runs (.rejoin m (.ofNat 32 (2 ^ n))) s (wrFld s 0x54 n n 1))) ∧
    (∀ m v, reachesModule m = false → Runs (.rejoin m v) s s) ∧
    (rdFld s 0x54 n n = 1 → tget false s.boot.rejoins n = false → uncoreOn s n = true → arrayOn s n = true →
      let reach := fun (c : Copy) => copyReach s c.land c.off c.dest c.at' c.len = true
      let there := liveVer s ≠ 0 → (homeBack s n).isSome = true ∧ (shadowOn s = true → (shadowBack s n).isSome = true)
      ((¬ there ∨ ∃ c ∈ rejoinCopies s n, ¬ reach c) → Runs (.rejoinCopyComplete l) s s) ∧
      (there → (∀ c ∈ rejoinCopies s n, reach c) →
      ∃ u, Runs (.rejoinCopyComplete l) s u ∧ tget false u.boot.rejoins n = true ∧ u.threads = s.threads ∧
        (liveVer s = 0 → u.mem = s.mem) ∧
        ∀ x h k, liveVer s ≠ 0 → shadowOn s = false →
          s.crs.shadows.find? (fun x => x.home == n && x.ver == liveVer s && x.done) = some x → x.land ≠ n →
          (homeSlices s).find? (fun h => h.1 == n) = some h →
          homeAreas.find? (fun k => areaUse s n k == 0 && sliceLen s.sto.liveMap h.2 ≤ areaSize s n k) = some k →
          ∀ j < sliceLen s.sto.liveMap h.2,
            getByte u (stackKey n (areaBase s n k + j)) = getByte s (stackKey x.land (areaBase s x.land x.k + j)))) ∧
    (rdFld s 0x54 n n = 0 → Runs (.rejoinCopyComplete l) s s)

open Sys2Proof.Claims in
/-- R94, R97, R540, R543 to R545, R549: the loss of a landing and its rejoin. -/
def Obligations.LandingLoss : Prop := LostLandings ∧ Rejoins

namespace Sys2Proof.Claims

/-! ## Power (R40 to R45, R465, R499 to R511, R513, R515) -/

/-- The domains that an input holds OFF (R499). -/
def forcedBy (n d : Nat) : Prop :=
  n = 0 ∨ n = 1 ∧ (d < 68 ∨ d = 70 ∨ d = 71) ∨ 2 ≤ n ∧ d < 64 ∧ d % 32 / 8 = n - 2

/-- Masters that may request domain states (R502). -/
def requests (m : Master) : Prop :=
  m = .hm ∨ (∃ p, m = .pf p) ∨ (∃ q k, m = .purser q k) ∨ ∃ l, m = .deckhand l

/-- The word of a domain request. -/
def pdWord (req : Nat) (sref : Bool) : Word := .ofNat 32 (req + b2n sref * 16)

/-- A transition to a state is under way, and REQ shows it. -/
def moves (u : State) (d req : Nat) (sref : Bool) : Prop :=
  goalOf u d = some (req, sref) ∧ rdFld u (rPd d) 6 6 = 1 ∧ pdReq u d = req

end Sys2Proof.Claims

open Sys2Proof.Claims in
/-- R499, R513, R541, R586: a PWR_OK_n that is low for 100 ns forces its domains OFF and shows it; all but PWR_OK_0
leave the stamp and their bit, PWR_OK_1 is QUAY_POWER, a row group opens the crossing; on reassertion the domains are
forced no longer, and that of PWR_OK_0 with ROOTCLK present is a POWER-ON reset. -/
def Sys2Proof.Claims.PowerInputs : Prop :=
  ∀ (n : Fin 6) s,
    let k := n.val
    (∀ ns, 100 ≤ ns → k ∉ s.pwr.bad → ∃ u, Runs (.pwrOkDeassert n ns) s u ∧ k ∈ u.pwr.bad ∧
      (∀ d < 72, forcedBy k d → domState u d = 0 ∧ rdFld u (rPd d) 7 7 = 1 ∧ pdReq u d = pdReq s d) ∧
      (k ≠ 0 → rdPair u 0x20018 = s.time.toNat ∧ rdFld u 0x20000 3 3 = 1 ∧ rdFld u 0x20000 (3 + k) (3 + k) = 1) ∧
      (k = 1 → fatal s = false → fatalWith u 5 0x3f) ∧
      (2 ≤ k → fatal s = false → fatalWith u 3 0x3f) ∧
      (2 ≤ k → rdFld u 0x40008 3 3 = 1 ∧ ∀ l < 32, l / 8 = k - 2 → liveLand u l = false)) ∧
    (∀ ns, ns < 100 ∨ k ∈ s.pwr.bad → Runs (.pwrOkDeassert n ns) s s) ∧
    (k ∉ s.pwr.bad → Runs (.pwrOkAssert n) s s) ∧
    (k ∈ s.pwr.bad → ∃ u, Runs (.pwrOkAssert n) s u ∧ (∀ b, b ∈ u.pwr.bad ↔ b ∈ s.pwr.bad ∧ b ≠ k) ∧
      (k = 0 → s.boot.noClock = false → u.time = 0 ∧ rd u 0x40 = 1 ∧ u.mem = []) ∧
      ∀ d < 72, (k ≠ 0 ∨ s.boot.noClock = true → domState u d = domState s d) ∧
        (k = 0 → s.boot.noClock = false → domState u d = 0) ∧
        ((∀ b ∈ s.pwr.bad, b < 6) → (rdFld u (rPd d) 7 7 = 1 ↔ ∃ b ∈ u.pwr.bad, forcedBy b d)))

open Sys2Proof.Claims in
/-- R41, R45, R502 to R505: domain requests. Before a domain's boarding time REQ and SREF are replaced, but
self-refresh of a landing in use is refused; a request of another master, or for an absent landing, changes nothing;
one with REQ 3, for a domain that leaves ON by reset alone, to a domain whose required domains are not ON, to take a
landing out of a crossing that cannot close, or for self-refresh of a landing in use, is refused; the others start a
transition, a landing's uncore with its cut-out and with its array no higher. -/
def Sys2Proof.Claims.DomainRequests : Prop :=
  ∀ m (d : Fin 72) req sref s, req < 4 →
    let n := d.val
    let i := Instr.domainRequest m d (pdWord req sref)
    let idle := goalOf s n = none ∧ rdFld s (rPd n) 7 7 = 0
    (¬ requests m ∨ absentDom s n = true → Runs i s s) ∧
    (requests m → absentDom s n = false →
      (n ∉ s.pwr.boarded → req ≠ 3 → (req = 2 → ∀ r ∈ requires n, domState s r = 2) →
        let sr := decide (32 ≤ n ∧ n < 64) && sref
        Runs i s (if sr = true ∧ ¬ ((getLand s (n - 32)).out = true ∧ arrayOn s (n - 32) = false) then
          wrFld s 0x20000 0 0 1
          else wrFld (wrFld s (rPd n) 1 0 req) (rPd n) 4 4 (b2n sr))) ∧
      (n ∈ s.pwr.boarded ∨ req = 3 ∨ (req = 2 ∧ ∃ r ∈ requires n, domState s r ≠ 2) →
        (req = 3 ∨ (64 ≤ n ∧ n < 70 ∧ req ≠ 2) ∨
            (req = 2 ∧ domState s n ≠ 2 ∧ ∃ r ∈ requires n, domState s r ≠ 2) ∨
            (32 ≤ n ∧ n < 64 ∧ sref = true ∧ rdFld s (rPd n) 5 5 = 0 ∧
              ((getLand s (n - 32)).out = false ∨ arrayOn s (n - 32) = true)) →
          Runs i s (wrFld s 0x20000 0 0 1)) ∧
        (n < 32 → req < 3 → domState s n ≠ req → idle → (req = 2 → domState s (32 + n) = 2) →
          ∃ u, Runs i s u ∧ moves u n req false ∧ u.mem = s.mem) ∧
        (32 ≤ n → n < 64 → req < 2 → sref = false → domState s n = 2 → liveLand s (n - 32) = true →
          (canSpan s (n - 32) = false → Runs i s (wrFld s 0x20000 0 0 1)) ∧
          (canSpan s (n - 32) = true → idle → ∃ u, Runs i s u ∧ moves u n req false ∧
            liveLand u (n - 32) = false ∧ rdFld u 0x40008 2 2 = 1 ∧ pdReq u (n - 32) = min req (pdReq s (n - 32)))) ∧
        (32 ≤ n → n < 64 → req < 2 → domState s n = 2 → liveLand s (n - 32) = false → arrayOn s (n - 32) = false →
          (getLand s (n - 32)).out = true → idle → ∃ u, Runs i s u ∧ moves u n req sref ∧
            pdReq u (n - 32) = min req (pdReq s (n - 32)))))

open Sys2Proof.Claims in
/-- R41 to R43, R113, R138, R501, R502, R504, R529: a transition that may complete leaves the domain in its state
with BUSY clear where REQ asks no more; an array that is OFF has lost scratchpads, scalar memories and threads; an
uncore that leaves ON without self-refresh has lost its stacks, and one that boards from self-refresh keeps them; an
array that boards takes its fused VCORE, or keeps the voltage with AVSERR where the rail does not acknowledge, and
starts CYCLE. -/
def Sys2Proof.Claims.DomainTransitions : Prop :=
  ∀ (d : Fin 72) v sref s, v ≤ 2 →
    let n := d.val
    let i := Instr.domainTransitionComplete d
    let may := (v < 2 → ∀ k < 72, n ∈ requires k → domState s k ≤ v ∧ ∀ g, goalOf s k = some g → g.1 ≤ v) ∧
      (v = 2 → ∀ r ∈ requires n, domState s r = 2)
    (goalOf s n = none → Runs i s s) ∧
    (goalOf s n = some (v, sref) → ¬ may → Runs i s s) ∧
    (goalOf s n = some (v, sref) → may → ∃ u, Runs i s u ∧ domState u n = v ∧ (rdFld u (rPd n) 5 5 = 1 ↔ sref = true) ∧
      (pdReq s n = v → rdFld s (rPd n) 4 4 = b2n sref → rdFld s (rPd n) 7 7 = 0 → goalOf u n = none ∧
        rdFld u (rPd n) 6 6 = 0) ∧
      (n < 32 → v = 0 → domState s n ≠ 0 →
        (∀ off < 2 ^ 32, getByte u (memKey n 1 off) = 0) ∧ (∀ off < 2 ^ 25, getByte u (memKey n 2 off) = 0) ∧
        ∀ l c t, l.val = n → getThr u (.core l c t) = {}) ∧
      (n < 32 → v = 1 → u.mem = s.mem) ∧
      (n < 32 → domState s n = 0 → v ≠ 0 → tget 0 u.pwr.vcore n = tget 750 s.fuses.vcore n ∨
        tget 0 u.pwr.vcore n = tget 0 s.pwr.vcore n ∧ rdFld u 0x20000 2 2 = 1) ∧
      (n < 32 → domState s n ≠ 2 → v = 2 → (getLand u n).onEdge = s.edges ∧
        ∀ l c t, l.val = n → (getThr s (.core l c t)).due = true → (getThr u (.core l c t)).st = .ready) ∧
      (32 ≤ n → n < 64 → domState s n = 2 → v ≠ 2 → sref = false →
        ∀ off < 2 ^ 44, getByte u (memKey (n - 32) 0 off) = 0) ∧
      (32 ≤ n → n < 64 → domState s n ≠ 2 → v = 2 → n - 32 ∈ u.boot.deckhands ∧
        (rdFld s (rPd n) 5 5 = 1 → ∀ off < 2 ^ 44, getByte u (memKey (n - 32) 0 off) =
          getByte s (memKey (n - 32) 0 off))))

open Sys2Proof.Claims in
/-- R41 to R43, R45, R113, R138, R501 to R505, R529: domain requests and transitions. -/
def Obligations.PowerDomains : Prop := DomainRequests ∧ DomainTransitions

open Sys2Proof.Claims in
/-- R500, R501, R507, R509, R510, R515, R566: VCORE moves by at most 5 mV within 600 mV to 900 mV while the array is
ON, once in 1 ms, with one retry and then AVSERR; a window's measure sets the cap limit by R509's rule and, ten
windows above the cap at limit 0, CAPFAIL and the boarding hold; LIM is the smallest limit; a write of CRS.PACE sets
REQ and the software hold, and ends the hold of a cut-out. -/
def Sys2Proof.Claims.PowerLimits : Prop :=
  ∀ s,
    (∀ (l : Fin 32) (mv : Int) (a b : Bool), arrayOn s l.val = true → -5 ≤ mv → mv ≤ 5 →
      let old : Int := ((tget 0 s.pwr.vcore l.val : Nat) : Int)
      (600 ≤ old + mv → old + mv ≤ 900 → tget 0 s.pwr.vcoreAt l.val ≤ s.edges →
        ∃ u, Runs (.vcoreAdjust l mv (a, b)) s u ∧
        ((tget 0 u.pwr.vcore l.val : Nat) : Int) = (if a = true ∨ b = true then old + mv else old) ∧
        rdFld u 0x20000 2 2 = (if a = true ∨ b = true then rdFld s 0x20000 2 2 else 1) ∧
        u.outs.length = s.outs.length + (if a = true then 1 else 2) ∧
        tget 0 u.pwr.vcoreAt l.val = s.edges + 200000) ∧
      (old + mv < 600 ∨ 900 < old + mv ∨ s.edges < tget 0 s.pwr.vcoreAt l.val → Runs (.vcoreAdjust l mv (a, b)) s s)) ∧
    (∀ meas base, meas < 65536 → base < 65536 → s.pwr.thmLim ≤ 255 →
      let cap := safeEff s .cap
      let lim := s.pwr.capLim
      let new :=
        if meas ≤ base then 0
        else if meas > cap then (if cap ≤ base then 0 else (lim + 1) * (cap - base) / (meas - base) - 1)
        else if 100 * meas < 98 * cap then min 255 (lim + 4) else lim
      let run := if meas > cap then s.pwr.overCap + 1 else 0
      ∃ u, Runs (.capWindow meas base) s u ∧ rd u 0x20014 = .ofNat 32 (meas + base * 65536) ∧ u.pwr.capLim = new ∧
        u.pwr.overCap = run ∧ rdFld u 0x30018 7 0 = min new (min s.pwr.thmLim s.pwr.flowLim) ∧ u.mem = s.mem ∧
        (new = 0 → 10 ≤ run → rdFld u 0x20000 1 1 = 1 ∧ ghold u = true) ∧
        (new ≠ 0 ∨ run < 10 → rdFld u 0x20000 1 1 = rdFld s 0x20000 1 1 ∧ ghold u = ghold s)) ∧
    (∀ m v, reachesModule m = true → ∃ u, Runs (.paceWrite m v) s u ∧ rdFld u 0x30018 15 8 = wfld v 7 0 ∧
      (u.pwr.swHold = true ↔ wfld v 8 8 = 1) ∧ rdFld u 0x30018 7 0 = rdFld s 0x30018 7 0 ∧ u.crs.cutHold = false ∧
      u.mem = s.mem) ∧
    (∀ m v, reachesModule m = false → Runs (.paceWrite m v) s s)

open Sys2Proof.Claims in
/-- R499 to R501, R507, R509, R510, R513, R515, R541, R566, R586: the power inputs, VCORE, the cap and the pace. -/
def Obligations.PowerSupply : Prop := PowerInputs ∧ PowerLimits

namespace Sys2Proof.Claims

/-! ## Safety values and heat (R443, R466 to R468, R508, R514 to R520) -/

/-- A value clamped to the range of its effecter (R443, R508). -/
def clamped (q : Qty) (v : Nat) : Nat :=
  match q with
  | .cap => min 24000 (max 4000 v)
  | .tlim => min 95 (max 60 v)
  | .run => min 1 v

/-- Owner of the remote managers' shared value (R467). -/
def remoteOwner (s : State) : Qty → Nat
  | .cap => rdFld s 0x20060 10 0
  | .tlim => rdFld s 0x20060 21 11
  | .run => rdFld s 0x20064 10 0

/-- The order takes effect: any of an own value; of the shared one where it is safer, changes nothing, or comes from
the owner (R467). -/
def orderTakes (s : State) (m : Master) (q : Qty) (v : Nat) : Prop :=
  ∀ k, m = .remote k → safer q v (safeVal s 5 q) = true ∨ v = safeVal s 5 q ∨ remoteOwner s q = k.toNat

/-- What an order leaves (R466, R467): its master's value where it takes effect, and no other value. -/
def ordered (s u : State) (m : Master) (i : Nat) (q : Qty) (v : Nat) : Prop :=
  (orderTakes s m q (clamped q v) → safeVal u i q = clamped q v) ∧
  (¬ orderTakes s m q (clamped q v) → safeVal u i q = safeVal s i q) ∧
  (∀ j r, j < 6 → (j ≠ i ∨ r ≠ q) → safeVal u j r = safeVal s j r) ∧
  (∀ k, m = .remote k → safer q (clamped q v) (safeVal s 5 q) = true → remoteOwner u q = k.toNat)

/-- The order lost, or leaves the effective value unchanged while another master holds a safer value (R466 to R468). -/
def overruled (s u : State) (m : Master) (q : Qty) (v : Nat) : Prop :=
  ¬ orderTakes s m q (clamped q v) ∨ safeEff u q = safeEff s q ∧ ∃ j < 6, safer q (safeVal u j q) (clamped q v) = true

end Sys2Proof.Claims

open Sys2Proof.Claims in
/-- R443, R465 to R468, R508: the effective value is the safest that a master holds; a write of SETCAP, SETTLIM or
SETRUN and the effecters set the sender's own value, clamped; an overruled order is answered CMD_OVERRULED over PLDM
(to a remote manager over TC3), and recorded in SVC.PFOVR for a physical function. Of two orders that meet the safer
one prevails, and at equal safety that of the higher rank; the other changes nothing, and its master learns of it. A
core and a virtual function have no safety values. -/
def Obligations.SafetyOrders : Prop :=
  (∀ s q, (∃ j < 6, safeEff s q = safeVal s j q) ∧ ∀ j < 6, safer q (safeVal s j q) (safeEff s q) = false) ∧
  (∀ m i v s, safetyIdx m = some i →
    (∃ u, Runs (.setcap m v) s u ∧ ordered s u m i .cap (wfld v 14 0) ∧ u.mem = s.mem) ∧
    (∃ u, Runs (.settlim m v) s u ∧ ordered s u m i .tlim (wfld v 6 0) ∧ u.mem = s.mem) ∧
    (∃ u, Runs (.setrun m v) s u ∧ ordered s u m i .run (wfld v 0 0) ∧ u.mem = s.mem)) ∧
  (∀ (v : Word) s, rdFld s 0x68408 0 0 = 0 → ∃ u, Runs (.setcap (.pf 0) v) s u ∧
    (overruled s u (.pf 0) .cap (wfld v 14 0) → rdFld u 0x68408 0 0 = 1 ∧ rdFld u 0x68408 25 2 = 0x20004 / 4) ∧
    (¬ overruled s u (.pf 0) .cap (wfld v 14 0) → rd u 0x68408 = rd s 0x68408)) ∧
  (∀ m i t s, safetyIdx m = some i → hearsMaster s m t →
    (∀ w : BitVec 15, ∃ u code, Runs (.setNumericEffecterValue m t ⟨.cap w.toNat, none⟩) s u ∧
      ordered s u m i .cap w.toNat ∧ answers' s u m t code [] ∧
      (overruled s u m .cap w.toNat → code = 0xa0) ∧ (¬ overruled s u m .cap w.toNat → code = 0)) ∧
    (∀ c : BitVec 7, ∃ u code, Runs (.setNumericEffecterValue m t ⟨.tlim c.toNat, none⟩) s u ∧
      ordered s u m i .tlim c.toNat ∧ answers' s u m t code [] ∧
      (overruled s u m .tlim c.toNat → code = 0xa0) ∧ (¬ overruled s u m .tlim c.toNat → code = 0)) ∧
    (∀ stop, ∃ u code, Runs (.setStateEffecterStates m t ⟨stop, none⟩) s u ∧ ordered s u m i .run (b2n stop) ∧
      answers' s u m t code [] ∧
      (overruled s u m .run (b2n stop) → code = 0xa0) ∧ (¬ overruled s u m .run (b2n stop) → code = 0))) ∧
  (∀ m m' i i' (v v' : Word) s, moduleMaster m → moduleMaster m' → m ≠ m' → safetyIdx m = some i →
    safetyIdx m' = some i' →
    let first := wfld v 14 0 < wfld v' 14 0 ∨ wfld v 14 0 = wfld v' 14 0 ∧ prevails m m' = true
    ∃ u, Runs (.registerWrite m 0x20004 ⟨v, some (m', v')⟩) s u ∧
      (first → ordered s u m i .cap (wfld v 14 0) ∧ lostNotice u m') ∧
      (¬ first → ordered s u m' i' .cap (wfld v' 14 0) ∧ lostNotice u m)) ∧
  (∀ t (p : Fin 2) (w x : BitVec 15) s, pldmUp s t →
    (w.toNat ≤ x.toNat → ∃ u, Runs (.setNumericEffecterValue .bmc t ⟨.cap w.toNat, some (.pf p, x.toNat)⟩) s u ∧
      ordered s u .bmc 1 .cap w.toNat ∧ lostNotice u (.pf p)) ∧
    (x.toNat < w.toNat → ∃ u, Runs (.setNumericEffecterValue .bmc t ⟨.cap w.toNat, some (.pf p, x.toNat)⟩) s u ∧
      ordered s u (.pf p) (2 + p.val) .cap x.toNat ∧ answers' s u .bmc t 0xa0 [])) ∧
  (∀ m v s, safetyIdx m = none → ∃ u, Runs (.setcap m v) s u ∧ ∀ j < 6, ∀ q, safeVal u j q = safeVal s j q)

namespace Sys2Proof.Claims

/-- The inlet temperature at step k of the forecast of R514, in units of 2^-40 °C, with n laps under test; the
rounding is the model's (log 23). -/
def tinAt (s : State) (n : Nat) : Nat → Int
  | 0 => s.pwr.inlet * fxOne / 10
  | k + 1 =>
    tinAt s n k + fcAlpha s * (inletGoal s (heatAt s n (k + 1) (10 * thetaS s)) - tinAt s n k) / fxOne

/-- The hottest junction at step k. -/
def junctionAt (s : State) (n k : Nat) : Int := junction s (tinAt s n k) (plannedHeat s n k)

/-- The state in which a forecast is made: its settings taken up (R521), its measured inputs noted. -/
def heatNoted (s : State) (heat lapLen hotNum hotDen : Nat) : State :=
  { s with pwr := { s.pwr with
    loop := rd s 0x30004, base := rd s 0x30008, jcfg := rd s 0x3000c, flow := rd s 0x30010
    heat := (heat :: s.pwr.heat).take 600, lapLen := lapLen, hotNum := hotNum, hotDen := hotDen } }

end Sys2Proof.Claims

open Sys2Proof.Claims in
/-- R514, R515, R517, R519: the forecast's peak is the highest junction of the recurrence over the horizon and its
time the first step that reaches it; THM.FCST shows both; a forecast at least 2 °C below the threshold ends the
boarding hold and no other does; the demand is the largest planned heat over θ + τ, full after 1 s without a
forecast; the event is due each second and on a change, has 148 bytes, is held for a poll, and goes out to a receiver
on SMBus, or on PCIe VDM with its link up. -/
def Sys2Proof.Claims.Forecasts : Prop :=
  (∀ s n, (∀ k, 1 ≤ k → k ≤ fcSteps s → junctionAt s n k ≤ (forecast s n).peak) ∧
    1 ≤ (forecast s n).tpeak ∧ (forecast s n).tpeak ≤ fcSteps s ∧
    (forecast s n).peak = junctionAt s n (forecast s n).tpeak ∧
    ∀ k, 1 ≤ k → k < (forecast s n).tpeak → junctionAt s n k < (forecast s n).peak) ∧
  (∀ heat lapLen hotNum hotDen s,
    let v := heatNoted s heat lapLen hotNum hotDen
    let n := b2n (ghold s)
    let p := tenths (forecast v n).peak
    let limit : Int := 10 * ((safeEff s .tlim : Nat) : Int) - 10 * ((rdFld s 0x3000c 14 10 : Nat) : Int)
    fcDefined v = true → 0 ≤ p → p < 2048 →
    ∃ u, Runs (.forecastTick heat lapLen hotNum hotDen) s u ∧ u.mem = s.mem ∧ u.pwr.fcTime = s.time ∧
      u.pwr.fcEdge = s.edges ∧ u.pwr.fcStep = fcSpacing v ∧
      ((rdFld u 0x30024 10 0 : Nat) : Int) = p ∧ rdFld u 0x30024 30 11 = (forecast v n).tpeak ∧
      (p ≤ limit - 20 → ghold u = false) ∧ (limit - 20 < p → ghold u = ghold s)) ∧
  (∀ s, (∀ k ≤ 10 * (thetaS s + tauS s), (255 * plannedHeat s 0 k + 12000) / 24000 ≤ coolDuty s ∨ coolDuty s = 255) ∧
    min 255 (rdFld s 0x30028 15 8) ≤ coolDuty s ∧ coolDuty s ≤ 255 ∧
    (s.pwr.fcEdge + 200000000 ≤ s.edges → Runs .forecastStall s (wrFld s 0x30028 7 0 255)) ∧
    (s.edges < s.pwr.fcEdge + 200000000 → Runs .forecastStall s s)) ∧
  (∀ s,
    let peak := rdFld s 0x30024 10 0
    let q := ((s.pwr.points.head?).map Prod.fst).getD 0
    let due := (∀ e, s.pwr.evEdge = some e → e + 200000000 ≤ s.edges) ∨ ghold s ≠ s.pwr.evHold ∨
      s.pwr.evPeak + 10 < peak ∨ peak + 10 < s.pwr.evPeak ∨ 105 * s.pwr.evHeat < 100 * q ∨ 100 * q < 95 * s.pwr.evHeat
    (s.pwr.points = [] ∨ ¬ due → Runs .heatForecast s s) ∧
    (s.pwr.points ≠ [] → due → ∃ u bs, Runs .heatForecast s u ∧ bs.length = 148 ∧ bs.take 2 = [1, 32] ∧
      u.mgmt.event = some bs ∧ u.pwr.fcSeq = s.pwr.fcSeq + 1 ∧ u.pwr.evEdge = some s.edges ∧ u.pwr.evPeak = peak ∧
      u.outs = match s.mgmt.receiver with
        | none => s.outs
        | some (t, e) => if t = 0 ∨ 2 ≤ t ∧ (getPcie s (t - 2)).up = true then s.outs ++ [.event t e 0xf0 bs] else
            s.outs))

open Sys2Proof.Claims in
/-- R516, R518, R586: the thermal limit against the effective junction limit, the trip at 105 °C, the bad sensors, the
flow's and the inlet's conditions, and the pulses that count. -/
def Sys2Proof.Claims.HeatLimits : Prop :=
  (∀ (h : Int) (unit : Fin 36) s,
    let tl : Int := 10 * ((safeEff s .tlim : Nat) : Int)
    let good := -100 ≤ h ∧ h ≤ 1500
    (0 ≤ h → h < 1050 → ∃ u, Runs (.thermalCheck h unit) s u ∧ u.mem = s.mem ∧
      ((rdFld u 0x3001c 10 0 : Nat) : Int) = h ∧ rdFld u 0x30020 15 10 = unit.val ∧
      (tl ≤ h → u.pwr.thmLim = 0 ∧ ghold u = true) ∧
      (tl - 20 ≤ h → h < tl → u.pwr.thmLim = s.pwr.thmLim * 7 / 8) ∧
      (tl - 20 ≤ h → u.pwr.thmHot = true ∧ rdFld u 0x30000 1 1 = 1) ∧
      (tl - 40 ≤ h → h < tl - 20 → s.pwr.thmHot = true → u.pwr.thmLim = s.pwr.thmLim) ∧
      (h < tl - 40 → u.pwr.thmLim = min 255 (s.pwr.thmLim + 4) ∧ u.pwr.thmHot = false)) ∧
    (1050 ≤ h ∨ ¬ good → ∃ u, Runs (.thermalCheck h unit) s u ∧ rdFld u 0x30000 2 2 = 1 ∧
      (∀ l < 32, absentLand s l = false → domState u l = 0) ∧ (fatal s = false → fatalWith u 4 unit.val) ∧
      (¬ good → rdFld u 0x30000 6 6 = 1))) ∧
  (∀ (inlet outlet : Int) s, ∃ u, Runs (.flowCheck inlet outlet) s u ∧ u.mem = s.mem ∧
    let bad := fun (t : Int) => t < -100 ∨ 1500 < t
    let count := (s.pwr.pulses.filter fun t => s.edges ≤ t + 200000000).length
    let recent := (s.pwr.pulses.filter fun t => s.edges ≤ t + 400000000).length
    let min' := wfld s.pwr.flow 19 12 * wfld s.pwr.flow 11 0
    let below := count * 60 < min'
    let lowSince := s.pwr.lowAt.getD s.edges
    let okSince := s.pwr.okAt.getD s.edges
    (bad inlet ∨ bad outlet → rdFld u 0x30000 6 6 = 1) ∧ (bad inlet → u.pwr.inlet = 400) ∧
    (¬ bad inlet → u.pwr.inlet = inlet ∧ (400 < inlet → rdFld u 0x30000 5 5 = 1 ∧ ghold u = true)) ∧
    (recent = 0 → 400000000 ≤ s.edges → u.pwr.flowLim = 0 ∧ rdFld u 0x30000 4 4 = 1 ∧ ghold u = true) ∧
    (wfld s.pwr.flow 11 0 ≠ 0 → below → lowSince + 400000000 ≤ s.edges →
      u.pwr.flowLim ≤ 127 ∧ rdFld u 0x30000 3 3 = 1 ∧ ghold u = true) ∧
    (wfld s.pwr.flow 11 0 ≠ 0 → ¬ below → s.pwr.flowLow = false → recent ≠ 0 → u.pwr.flowLim = 255) ∧
    (wfld s.pwr.flow 11 0 ≠ 0 → ¬ below → s.pwr.flowLow = true → recent ≠ 0 →
      u.pwr.flowLim = if min' < count * 60 ∧ okSince + 2000000000 ≤ s.edges then 255 else 127) ∧
    (0 ≤ inlet → inlet < 1024 → ((rdFld u 0x3001c 20 11 : Nat) : Int) = inlet)) ∧
  (∀ us s, (us < 20 → Runs (.coolFlowPulse us) s s) ∧
    (20 ≤ us → Runs (.coolFlowPulse us) s { s with pwr := { s.pwr with
      pulses := s.edges :: s.pwr.pulses.filter fun t => s.edges ≤ t + 400000000 } }))

open Sys2Proof.Claims in
/-- R514 to R519, R586: the forecast and its event, the thermal and flow limits, and the trip. -/
def Obligations.Heat : Prop := Forecasts ∧ HeatLimits

namespace Sys2Proof.Claims

/-! ## The whole machine -/

/-- What no event of a module's life changes, and what only grows: the identity in its fuses stays, RETIRED is final,
and no security-version counter falls. -/
def identityKept (s t : State) : Prop :=
  t.fuses.grade = s.fuses.grade ∧ t.fuses.absent = s.fuses.absent ∧ t.fuses.inactive = s.fuses.inactive ∧
  t.fuses.step = s.fuses.step ∧ t.fuses.serial = s.fuses.serial ∧ t.fuses.vcore = s.fuses.vcore ∧
  (s.fuses.lcs = 4 → t.fuses.lcs = 4) ∧ (s.fuses.lcs ≠ 0 → t.fuses.lcs ≠ 0) ∧
  ∀ c, tget 0 s.fuses.svn c ≤ tget 0 t.fuses.svn c

end Sys2Proof.Claims

namespace Sys2Proof.Claims

/-! ## Words (R134, R135, R142, R144, R160, R170, R171) -/

/-- The second word of an engine command (R171). -/
def secondWord (f : EForm) : Nat := f.sctr.toNat * 2 ^ 26 + f.sinc.toNat * 2 ^ 18 + f.imm.toNat

/-- The words of the scalar instructions beyond the arithmetic ones. MFS of TQTAKE, and MTS of TQDONE and TPRIO, are
commands of their own. -/
def restWord : Instr → Option (ThreadRef × Nat)
  | .mfs w f => if f.sa = 0 ∧ f.imm = 0x020 then none else some (w, immWord 0x12 f)
  | .mts w f => if f.sd = 0 ∧ (f.imm = 0x021 ∨ f.imm = 0x010) then none else some (w, immWord 0x13 f)
  | .tqtake w sd => some (w, immWord 0x12 ⟨sd, 0, 0x020⟩)
  | .tqdone w sa => some (w, immWord 0x13 ⟨0, sa, 0x021⟩)
  | .tprio w sa => some (w, immWord 0x13 ⟨0, sa, 0x010⟩)
  | .ldD w f => some (w, immWord 0x14 f)
  | .ldW w f => some (w, immWord 0x15 f)
  | .ldWu w f => some (w, immWord 0x16 f)
  | .ldHu w f => some (w, immWord 0x17 f)
  | .ldBu w f => some (w, immWord 0x18 f)
  | .stD w f => some (w, immWord 0x19 f)
  | .stW w f => some (w, immWord 0x1a f)
  | .stH w f => some (w, immWord 0x1b f)
  | .stB w f => some (w, immWord 0x1c f)
  | .ldGD w f => some (w, immWord 0x20 f)
  | .ldGW w f => some (w, immWord 0x21 f)
  | .stGD w f => some (w, immWord 0x22 f)
  | .stGW w f => some (w, immWord 0x23 f)
  | .amoaddD w f => some (w, regWord 0x24 0 f)
  | .amoaddW w f => some (w, regWord 0x24 1 f)
  | .br w f => some (w, immWord 0x26 f)
  | .call w f => some (w, immWord 0x27 f)
  | .beq w f => some (w, immWord 0x28 f)
  | .bne w f => some (w, immWord 0x29 f)
  | .blt w f => some (w, immWord 0x2a f)
  | .bge w f => some (w, immWord 0x2b f)
  | .bltu w f => some (w, immWord 0x2c f)
  | .bgeu w f => some (w, immWord 0x2d f)
  | .ret w f => some (w, regWord 0x2e 0 f)
  | .fence w sa imm => some (w, immWord 0x2f ⟨0, sa, imm⟩)
  | .yield w sa imm => some (w, immWord 0x2f ⟨1, sa, imm⟩)
  | .trap w sa imm => some (w, immWord 0x2f ⟨2, sa, imm⟩)
  | .taskEnd w sa imm => some (w, immWord 0x2f ⟨3, sa, imm⟩)
  | _ => none

/-- The thread and word of a scalar instruction. -/
def scalarWord (i : Instr) : Option (ThreadRef × Nat) :=
  match aluRow i, immRow i with
  | some r, _ => some (r.1, r.2.2.2.1)
  | none, some r => some (r.1, r.2.2.2.1)
  | none, none => restWord i

/-- The thread, OP and fields of an engine command. -/
def commandWords (i : Instr) : Option (ThreadRef × BitVec 6 × EForm) :=
  match engRow i, syncRow i with
  | some r, _ => some (r.1, r.2.1, r.2.2.1)
  | none, some r => some (r.1, r.2.1, r.2.2.1)
  | none, none => none

end Sys2Proof.Claims

open Sys2Proof.Claims in
/-- R134 to R136, R142, R144, R160, R170, R171, R194, R273: the words of every scalar instruction and engine command,
laid out by the tables, decode to a command that does what the instruction does, whatever its fields hold; a word
whose OP, FN, SD or operation code is reserved decodes to the reserved instruction. -/
def Obligations.WordsDecode : Prop :=
  (∀ i w v x, scalarWord i = some (w, v) → decodeWords w (.ofNat 32 v) x = i) ∧
  (∀ i w op f s, commandWords i = some (w, op, f) →
    exec (decodeWords w (.ofNat 32 (firstWord op f)) (.ofNat 32 (secondWord f))) s = exec i s) ∧
  (∀ w (w0 w1 : Word),
    let op := (w0.extractLsb' 26 6).toNat
    let fn := (w0.extractLsb' 0 6).toNat
    (op ∈ [0x0f, 0x1d, 0x1e, 0x1f, 0x25, 0x3f] ∨ op = 0 ∧ (fn = 0 ∨ 0x13 ≤ fn) ∨ op = 0x24 ∧ 2 ≤ fn ∨ op = 0x2e ∧
      fn ≠ 0 ∨
      op = 0x2f ∧ 4 ≤ (w0.extractLsb' 21 5).toNat ∨ op = 0x37 ∧ 5 ≤ (w1.extractLsb' 0 3).toNat) →
    decodeWords w w0 w1 = .reservedInstruction w w0 w1)

open Sys2Proof.Claims in
/-- The model's step: the command at the front of the queue runs on the state with the rest of the queue, which it
leaves alone; no word spells a command, since the table gives no row bits; on an empty queue GLB.TIME moves on by one
TIMECLK (R38), by 0 to 2 while it slews (R418), a landing whose deckhand met FETCH_ECC is lost (R540), and without one
memories, threads and cores stay. -/
def Obligations.StepRunsFront : Prop :=
  (∀ c rest (s : State), step { s with pending := c :: rest } = exec c { s with pending := rest }) ∧
  (∀ s : State, s.pending = [] → ∃ t, step s = .next t ∧ t.pending = [] ∧ t.edges = s.edges + 1 ∧
    ((∀ l < 32, deckhandBad s l = false) → t.mem = s.mem ∧ t.threads = s.threads ∧ t.cores = s.cores) ∧
    (∀ l < 32, absentLand s l = false → deckhandBad s l = true → landFailed t l = true ∧ domState t (32 + l) = 0) ∧
    (s.xpt.slew = 0 → inTime s .holdover = false → t.time = s.time + 1)) ∧
  ∀ nbits w (s : State), s.withFetchWord nbits w = s

open Sys2Proof.Claims in
/-- R546, R548, R504, R520, R521, R565: what the reset state holds in each group of registers; it is in canonical
form, no command waits and no unit works. -/
def Obligations.ResetState : Prop :=
  let s := State.reset
  Canonical s ∧ s.pending = [] ∧ s.time = 0 ∧ (∀ k, getByte s k = 0) ∧ (∀ w, getThr s w = {}) ∧
  (∀ d < 72, domState s d = 0 ∧ pdReq s d = 2) ∧ rd s 0x40 = 1 ∧ rd s 0x4c = 0 ∧ rd s 0x50 = 0 ∧
  safeEff s .cap = 24000 ∧ safeEff s .tlim = 95 ∧ safeEff s .run = 0 ∧ rd s 0x20004 = 0x5dc0 ∧
  rdFld s 0x30018 15 8 = 255 ∧ rdFld s 0x30018 7 0 = 255 ∧ s.accs = [] ∧ s.reqs = [] ∧ s.hm.jobs = [] ∧
  ∀ u i, u < 36 → i < winCount u → winOpen s u i = false ∧ winGen s u i = 0

open Sys2Proof.Claims in
/-- Every step keeps the canonical form of State, which is the model's own representation (log 3): tables are sorted
and list no default, and memory lists no zero byte (log 72), so that equal states are equal data. -/
def Obligations.CanonicalKept : Prop :=
  ∀ s t, Canonical s → step s = .next t → Canonical t

open Sys2Proof.Claims in
/-- R3, R4, R472, R487 to R489, R537: whatever command runs, the module keeps its identity, RETIRED stays RETIRED,
BLANK is not returned to, and the security-version counters do not fall; the command leaves the queue alone. -/
def Obligations.IdentityKept : Prop :=
  ∀ c s t, exec c s = .next t → identityKept s t ∧ t.pending = s.pending
end

