-- ==== Sys2Proof/Laws/Table.lean ====
section
/-! SUPPORT. Laws of sparse tables: a read after a write, writes at one key and at two, and the canonical form. -/

namespace Sys2Proof.Laws

open Sys2Proof Sys2Proof.Machine

variable {α : Type}

@[simp] theorem tget_nil (d : α) (k : Nat) : tget d [] k = d := rfl

theorem tget_tdel_same (d : α) (k : Nat) (t : Tab α) : tget d (tdel k t) k = d := by
  induction t with
  | nil => rfl
  | cons e r ih =>
    by_cases h : e.1 = k
    · simpa [tdel, h] using ih
    · have : tdel k (e :: r) = e :: tdel k r := by simp [tdel, h]
      rw [this]; simpa [tget, h] using ih

theorem tget_tdel_ne (d : α) {k j : Nat} (hj : j ≠ k) (t : Tab α) : tget d (tdel k t) j = tget d t j := by
  induction t with
  | nil => rfl
  | cons e r ih =>
    by_cases h : e.1 = k
    · have h1 : tdel k (e :: r) = tdel k r := by simp [tdel, h]
      rw [h1, ih]; simp [tget, h, Ne.symm hj]
    · have h1 : tdel k (e :: r) = e :: tdel k r := by simp [tdel, h]
      rw [h1]; simp only [tget, ih]

theorem tget_tins_ne (d : α) {k j : Nat} (hj : j ≠ k) (v : α) (t : Tab α) : tget d (tins k v t) j = tget d t j := by
  induction t with
  | nil => simp [tins, tget, Ne.symm hj]
  | cons e r ih =>
    obtain ⟨k', v'⟩ := e
    by_cases h : k < k'
    · simp [tins, h, tget, Ne.symm hj]
    · simp only [tins, h, if_false, tget, ih]

theorem tget_tins_tdel (d : α) (k : Nat) (v : α) (t : Tab α) : tget d (tins k v (tdel k t)) k = v := by
  induction t with
  | nil => simp [tdel, tins, tget]
  | cons e r ih =>
    obtain ⟨k', v'⟩ := e
    by_cases h : k' = k
    · simpa [tdel, h] using ih
    · have h1 : tdel k ((k', v') :: r) = (k', v') :: tdel k r := by simp [tdel, h]
      rw [h1]
      by_cases h2 : k < k'
      · simp [tins, h2, tget]
      · simp only [tins, h2, if_false, tget, h]; simpa using ih

@[simp] theorem tget_tput_same [DecidableEq α] (d : α) (k : Nat) (v : α) (t : Tab α) :
    tget d (tput d k v t) k = v := by
  unfold tput
  split
  · rw [tget_tdel_same]; exact Eq.symm ‹_›
  · exact tget_tins_tdel d k v t

/-- The other keys, whatever they and key k read as unlisted. -/
theorem tget_tput_other [DecidableEq α] (d d' : α) {k j : Nat} (hj : j ≠ k) (v : α) (t : Tab α) :
    tget d' (tput d k v t) j = tget d' t j := by
  unfold tput
  split
  · exact tget_tdel_ne d' hj t
  · rw [tget_tins_ne d' hj, tget_tdel_ne d' hj]

theorem tget_tput_ne [DecidableEq α] (d : α) {k j : Nat} (hj : j ≠ k) (v : α) (t : Tab α) :
    tget d (tput d k v t) j = tget d t j := tget_tput_other d d hj v t

theorem tdel_tdel (k : Nat) (t : Tab α) : tdel k (tdel k t) = tdel k t := by simp [tdel]

theorem tdel_tins (k : Nat) (v : α) (t : Tab α) : tdel k (tins k v t) = tdel k t := by
  induction t with
  | nil => simp [tins, tdel]
  | cons e r ih =>
    obtain ⟨k', v'⟩ := e
    by_cases h : k < k'
    · simp [tins, h, tdel]
    · simp only [tins, h, if_false]
      by_cases h2 : k' = k
      · simpa [tdel, h2] using ih
      · simpa [tdel, h2] using ih

@[simp] theorem tput_tput [DecidableEq α] (d : α) (k : Nat) (v v' : α) (t : Tab α) :
    tput d k v (tput d k v' t) = tput d k v t := by
  have h : tdel k (tput d k v' t) = tdel k t := by
    unfold tput
    split
    · exact tdel_tdel k t
    · rw [tdel_tins, tdel_tdel]
  show (if v = d then tdel k (tput d k v' t) else tins k v (tdel k (tput d k v' t))) = tput d k v t
  rw [h]; rfl

/-! ## The canonical form -/

theorem tabOk_mono [DecidableEq α] {d : Nat → α} {a b : Nat} (h : a ≤ b) {t : Tab α} (ok : tabOk d b t = true) :
    tabOk d a t = true := by
  cases t with
  | nil => rfl
  | cons e r =>
    obtain ⟨k, v⟩ := e
    simp only [tabOk, Bool.and_eq_true, decide_eq_true_eq] at *
    exact ⟨⟨Nat.le_trans h ok.1.1, ok.1.2⟩, ok.2⟩

theorem tabOk_filter [DecidableEq α] {d : Nat → α} (p : Nat × α → Bool) {a : Nat} {t : Tab α}
    (ok : tabOk d a t = true) : tabOk d a (t.filter p) = true := by
  induction t generalizing a with
  | nil => rfl
  | cons e r ih =>
    obtain ⟨k, v⟩ := e
    simp only [tabOk, Bool.and_eq_true, decide_eq_true_eq] at ok
    rw [List.filter_cons]
    split
    · simp only [tabOk, Bool.and_eq_true, decide_eq_true_eq]
      exact ⟨ok.1, ih ok.2⟩
    · exact tabOk_mono (Nat.le_succ_of_le ok.1.1) (ih ok.2)

theorem tabOk_tins [DecidableEq α] {d : Nat → α} {k : Nat} {v : α} (hv : v ≠ d k) {a : Nat} (ha : a ≤ k) {t : Tab α}
    (ok : tabOk d a t = true) (hk : ∀ e ∈ t, e.1 ≠ k) : tabOk d a (tins k v t) = true := by
  induction t generalizing a with
  | nil => simp [tins, tabOk, ha, hv]
  | cons e r ih =>
    obtain ⟨k', v'⟩ := e
    simp only [tabOk, Bool.and_eq_true, decide_eq_true_eq] at ok
    have hne : k' ≠ k := hk (k', v') (List.mem_cons_self ..)
    have hr : ∀ e ∈ r, e.1 ≠ k := fun e he => hk e (List.mem_cons_of_mem _ he)
    by_cases h : k < k'
    · simp only [tins, h, if_true, tabOk, Bool.and_eq_true, decide_eq_true_eq]
      exact ⟨⟨ha, hv⟩, ⟨h, ok.1.2⟩, ok.2⟩
    · simp only [tins, h, if_false, tabOk, Bool.and_eq_true, decide_eq_true_eq]
      exact ⟨ok.1, ih (by omega) ok.2 hr⟩

theorem tabOk_tdel [DecidableEq α] {d : Nat → α} (k : Nat) {a : Nat} {t : Tab α} (ok : tabOk d a t = true) :
    tabOk d a (tdel k t) = true := tabOk_filter _ ok

theorem tabOk_tput [DecidableEq α] {d : Nat → α} (k : Nat) (v : α) {t : Tab α} (ok : tabOk d 0 t = true) :
    tabOk d 0 (tput (d k) k v t) = true := by
  unfold tput
  split
  · exact tabOk_tdel k ok
  · refine tabOk_tins ‹_› (Nat.zero_le k) (tabOk_tdel k ok) fun e he => ?_
    simp only [tdel, List.mem_filter, decide_eq_true_eq] at he
    exact he.2

theorem tabOk_tput_const [DecidableEq α] {d : α} (k : Nat) (v : α) {t : Tab α}
    (ok : tabOk (fun _ => d) 0 t = true) : tabOk (fun _ => d) 0 (tput d k v t) = true :=
  tabOk_tput (d := fun _ => d) k v ok

theorem tabOk_tclear [DecidableEq α] {d : Nat → α} (lo n : Nat) {a : Nat} {t : Tab α} (ok : tabOk d a t = true) :
    tabOk d a (tclear t lo n) = true := tabOk_filter _ ok

/-- Entries dropped or changed at their own key, to a value that is not the key's default. -/
theorem tabOk_filterMap [DecidableEq α] {d : Nat → α} (f : Nat × α → Option (Nat × α))
    (hf : ∀ e x, e.2 ≠ d e.1 → f e = some x → x.1 = e.1 ∧ x.2 ≠ d x.1) {a : Nat} {t : Tab α}
    (ok : tabOk d a t = true) : tabOk d a (t.filterMap f) = true := by
  induction t generalizing a with
  | nil => rfl
  | cons e r ih =>
    obtain ⟨k, v⟩ := e
    simp only [tabOk, Bool.and_eq_true, decide_eq_true_eq] at ok
    cases h : f (k, v) with
    | none =>
      rw [List.filterMap_cons_none h]
      exact tabOk_mono (Nat.le_succ_of_le ok.1.1) (ih ok.2)
    | some x =>
      obtain ⟨h1, h2⟩ := hf _ _ ok.1.2 h
      rw [List.filterMap_cons_some h]
      simp only [tabOk, Bool.and_eq_true, decide_eq_true_eq]
      simp only at h1
      rw [h1] at h2
      rw [h1]
      exact ⟨⟨ok.1.1, h2⟩, ih ok.2⟩

theorem tabOk_twrite [DecidableEq α] {d : α} (vs : List α) (k : Nat) {t : Tab α}
    (ok : tabOk (fun _ => d) 0 t = true) : tabOk (fun _ => d) 0 (twrite d t k vs) = true := by
  induction vs generalizing k t with
  | nil => exact ok
  | cons v r ih => exact ih (k + 1) (tabOk_tput_const k v ok)

/-! ## Writes of several entries -/

theorem tget_twrite_below [DecidableEq α] (d : α) (vs : List α) {k j : Nat} (h : j < k) (t : Tab α) :
    tget d (twrite d t k vs) j = tget d t j := by
  induction vs generalizing k t with
  | nil => rfl
  | cons v r ih =>
    rw [twrite, ih (by omega), tget_tput_ne d (by omega)]

theorem tget_twrite_above [DecidableEq α] (d : α) (vs : List α) {k j : Nat} (h : k + vs.length ≤ j) (t : Tab α) :
    tget d (twrite d t k vs) j = tget d t j := by
  induction vs generalizing k t with
  | nil => rfl
  | cons v r ih =>
    simp only [List.length_cons] at h
    rw [twrite, ih (by omega), tget_tput_ne d (by omega)]

theorem tget_twrite_in [DecidableEq α] (d : α) (vs : List α) {k j : Nat} (h1 : k ≤ j) (h2 : j < k + vs.length)
    (t : Tab α) : tget d (twrite d t k vs) j = vs.getD (j - k) d := by
  induction vs generalizing k t with
  | nil => simp at h2; omega
  | cons v r ih =>
    simp only [List.length_cons] at h2
    rw [twrite]
    by_cases h : j = k
    · subst h
      rw [tget_twrite_below d r (by omega)]
      simp
    · rw [ih (by omega) (by omega)]
      obtain ⟨m, rfl⟩ : ∃ m, j = k + 1 + m := ⟨j - (k + 1), by omega⟩
      have e1 : k + 1 + m - (k + 1) = m := by omega
      have e2 : k + 1 + m - k = m + 1 := by omega
      rw [e1, e2]; simp

end Sys2Proof.Laws
end

