-- ==== Sys2Proof/Laws/State.lean ====
section
/-! SUPPORT. What each basic update of the state leaves alone, field by field, and a read after a write. -/

namespace Sys2Proof.Laws

open Sys2Proof Sys2Proof.Machine

/-! ## setThr -/

@[simp] theorem setThr_pending (s : State) (w : ThreadRef) (t : Thread) : (setThr s w t).pending = s.pending := rfl
@[simp] theorem setThr_time (s : State) (w : ThreadRef) (t : Thread) : (setThr s w t).time = s.time := rfl
@[simp] theorem setThr_mem (s : State) (w : ThreadRef) (t : Thread) : (setThr s w t).mem = s.mem := rfl
@[simp] theorem setThr_poison (s : State) (w : ThreadRef) (t : Thread) : (setThr s w t).poison = s.poison := rfl
@[simp] theorem setThr_uerr (s : State) (w : ThreadRef) (t : Thread) : (setThr s w t).uerr = s.uerr := rfl
@[simp] theorem setThr_cerr (s : State) (w : ThreadRef) (t : Thread) : (setThr s w t).cerr = s.cerr := rfl
@[simp] theorem setThr_regs (s : State) (w : ThreadRef) (t : Thread) : (setThr s w t).regs = s.regs := rfl
@[simp] theorem setThr_latch (s : State) (w : ThreadRef) (t : Thread) : (setThr s w t).latch = s.latch := rfl
@[simp] theorem setThr_heldLow (s : State) (w : ThreadRef) (t : Thread) : (setThr s w t).heldLow = s.heldLow := rfl
@[simp] theorem setThr_cores (s : State) (w : ThreadRef) (t : Thread) : (setThr s w t).cores = s.cores := rfl
@[simp] theorem setThr_lands (s : State) (w : ThreadRef) (t : Thread) : (setThr s w t).lands = s.lands := rfl
@[simp] theorem setThr_trainCw (s : State) (w : ThreadRef) (t : Thread) : (setThr s w t).trainCw = s.trainCw := rfl
@[simp] theorem setThr_trainCcw (s : State) (w : ThreadRef) (t : Thread) : (setThr s w t).trainCcw = s.trainCcw := rfl
@[simp] theorem setThr_crs (s : State) (w : ThreadRef) (t : Thread) : (setThr s w t).crs = s.crs := rfl
@[simp] theorem setThr_accs (s : State) (w : ThreadRef) (t : Thread) : (setThr s w t).accs = s.accs := rfl
@[simp] theorem setThr_nextId (s : State) (w : ThreadRef) (t : Thread) : (setThr s w t).nextId = s.nextId := rfl
@[simp] theorem setThr_sto (s : State) (w : ThreadRef) (t : Thread) : (setThr s w t).sto = s.sto := rfl
@[simp] theorem setThr_xpt (s : State) (w : ThreadRef) (t : Thread) : (setThr s w t).xpt = s.xpt := rfl
@[simp] theorem setThr_reqs (s : State) (w : ThreadRef) (t : Thread) : (setThr s w t).reqs = s.reqs := rfl
@[simp] theorem setThr_qsets (s : State) (w : ThreadRef) (t : Thread) : (setThr s w t).qsets = s.qsets := rfl
@[simp] theorem setThr_pcie (s : State) (w : ThreadRef) (t : Thread) : (setThr s w t).pcie = s.pcie := rfl
@[simp] theorem setThr_hm (s : State) (w : ThreadRef) (t : Thread) : (setThr s w t).hm = s.hm := rfl
@[simp] theorem setThr_pwr (s : State) (w : ThreadRef) (t : Thread) : (setThr s w t).pwr = s.pwr := rfl
@[simp] theorem setThr_boot (s : State) (w : ThreadRef) (t : Thread) : (setThr s w t).boot = s.boot := rfl
@[simp] theorem setThr_tap (s : State) (w : ThreadRef) (t : Thread) : (setThr s w t).tap = s.tap := rfl
@[simp] theorem setThr_mgmt (s : State) (w : ThreadRef) (t : Thread) : (setThr s w t).mgmt = s.mgmt := rfl
@[simp] theorem setThr_dbg (s : State) (w : ThreadRef) (t : Thread) : (setThr s w t).dbg = s.dbg := rfl
@[simp] theorem setThr_served (s : State) (w : ThreadRef) (t : Thread) : (setThr s w t).served = s.served := rfl
@[simp] theorem setThr_nextReq (s : State) (w : ThreadRef) (t : Thread) : (setThr s w t).nextReq = s.nextReq := rfl
@[simp] theorem setThr_fuses (s : State) (w : ThreadRef) (t : Thread) : (setThr s w t).fuses = s.fuses := rfl
@[simp] theorem setThr_modnum (s : State) (w : ThreadRef) (t : Thread) : (setThr s w t).modnum = s.modnum := rfl
@[simp] theorem setThr_free (s : State) (w : ThreadRef) (t : Thread) : (setThr s w t).free = s.free := rfl
@[simp] theorem setThr_outs (s : State) (w : ThreadRef) (t : Thread) : (setThr s w t).outs = s.outs := rfl

/-! ## setCore -/

@[simp] theorem setCore_pending (s : State) (l c : Nat) (x : Core) : (setCore s l c x).pending = s.pending := rfl
@[simp] theorem setCore_time (s : State) (l c : Nat) (x : Core) : (setCore s l c x).time = s.time := rfl
@[simp] theorem setCore_mem (s : State) (l c : Nat) (x : Core) : (setCore s l c x).mem = s.mem := rfl
@[simp] theorem setCore_poison (s : State) (l c : Nat) (x : Core) : (setCore s l c x).poison = s.poison := rfl
@[simp] theorem setCore_uerr (s : State) (l c : Nat) (x : Core) : (setCore s l c x).uerr = s.uerr := rfl
@[simp] theorem setCore_cerr (s : State) (l c : Nat) (x : Core) : (setCore s l c x).cerr = s.cerr := rfl
@[simp] theorem setCore_regs (s : State) (l c : Nat) (x : Core) : (setCore s l c x).regs = s.regs := rfl
@[simp] theorem setCore_latch (s : State) (l c : Nat) (x : Core) : (setCore s l c x).latch = s.latch := rfl
@[simp] theorem setCore_heldLow (s : State) (l c : Nat) (x : Core) : (setCore s l c x).heldLow = s.heldLow := rfl
@[simp] theorem setCore_threads (s : State) (l c : Nat) (x : Core) : (setCore s l c x).threads = s.threads := rfl
@[simp] theorem setCore_lands (s : State) (l c : Nat) (x : Core) : (setCore s l c x).lands = s.lands := rfl
@[simp] theorem setCore_trainCw (s : State) (l c : Nat) (x : Core) : (setCore s l c x).trainCw = s.trainCw := rfl
@[simp] theorem setCore_trainCcw (s : State) (l c : Nat) (x : Core) : (setCore s l c x).trainCcw = s.trainCcw := rfl
@[simp] theorem setCore_crs (s : State) (l c : Nat) (x : Core) : (setCore s l c x).crs = s.crs := rfl
@[simp] theorem setCore_accs (s : State) (l c : Nat) (x : Core) : (setCore s l c x).accs = s.accs := rfl
@[simp] theorem setCore_nextId (s : State) (l c : Nat) (x : Core) : (setCore s l c x).nextId = s.nextId := rfl
@[simp] theorem setCore_sto (s : State) (l c : Nat) (x : Core) : (setCore s l c x).sto = s.sto := rfl
@[simp] theorem setCore_xpt (s : State) (l c : Nat) (x : Core) : (setCore s l c x).xpt = s.xpt := rfl
@[simp] theorem setCore_reqs (s : State) (l c : Nat) (x : Core) : (setCore s l c x).reqs = s.reqs := rfl
@[simp] theorem setCore_qsets (s : State) (l c : Nat) (x : Core) : (setCore s l c x).qsets = s.qsets := rfl
@[simp] theorem setCore_pcie (s : State) (l c : Nat) (x : Core) : (setCore s l c x).pcie = s.pcie := rfl
@[simp] theorem setCore_hm (s : State) (l c : Nat) (x : Core) : (setCore s l c x).hm = s.hm := rfl
@[simp] theorem setCore_pwr (s : State) (l c : Nat) (x : Core) : (setCore s l c x).pwr = s.pwr := rfl
@[simp] theorem setCore_boot (s : State) (l c : Nat) (x : Core) : (setCore s l c x).boot = s.boot := rfl
@[simp] theorem setCore_tap (s : State) (l c : Nat) (x : Core) : (setCore s l c x).tap = s.tap := rfl
@[simp] theorem setCore_mgmt (s : State) (l c : Nat) (x : Core) : (setCore s l c x).mgmt = s.mgmt := rfl
@[simp] theorem setCore_dbg (s : State) (l c : Nat) (x : Core) : (setCore s l c x).dbg = s.dbg := rfl
@[simp] theorem setCore_served (s : State) (l c : Nat) (x : Core) : (setCore s l c x).served = s.served := rfl
@[simp] theorem setCore_nextReq (s : State) (l c : Nat) (x : Core) : (setCore s l c x).nextReq = s.nextReq := rfl
@[simp] theorem setCore_fuses (s : State) (l c : Nat) (x : Core) : (setCore s l c x).fuses = s.fuses := rfl
@[simp] theorem setCore_modnum (s : State) (l c : Nat) (x : Core) : (setCore s l c x).modnum = s.modnum := rfl
@[simp] theorem setCore_free (s : State) (l c : Nat) (x : Core) : (setCore s l c x).free = s.free := rfl
@[simp] theorem setCore_outs (s : State) (l c : Nat) (x : Core) : (setCore s l c x).outs = s.outs := rfl

/-! ## setLand -/

@[simp] theorem setLand_pending (s : State) (l : Nat) (x : Landing) : (setLand s l x).pending = s.pending := rfl
@[simp] theorem setLand_time (s : State) (l : Nat) (x : Landing) : (setLand s l x).time = s.time := rfl
@[simp] theorem setLand_mem (s : State) (l : Nat) (x : Landing) : (setLand s l x).mem = s.mem := rfl
@[simp] theorem setLand_poison (s : State) (l : Nat) (x : Landing) : (setLand s l x).poison = s.poison := rfl
@[simp] theorem setLand_uerr (s : State) (l : Nat) (x : Landing) : (setLand s l x).uerr = s.uerr := rfl
@[simp] theorem setLand_cerr (s : State) (l : Nat) (x : Landing) : (setLand s l x).cerr = s.cerr := rfl
@[simp] theorem setLand_regs (s : State) (l : Nat) (x : Landing) : (setLand s l x).regs = s.regs := rfl
@[simp] theorem setLand_latch (s : State) (l : Nat) (x : Landing) : (setLand s l x).latch = s.latch := rfl
@[simp] theorem setLand_heldLow (s : State) (l : Nat) (x : Landing) : (setLand s l x).heldLow = s.heldLow := rfl
@[simp] theorem setLand_threads (s : State) (l : Nat) (x : Landing) : (setLand s l x).threads = s.threads := rfl
@[simp] theorem setLand_cores (s : State) (l : Nat) (x : Landing) : (setLand s l x).cores = s.cores := rfl
@[simp] theorem setLand_trainCw (s : State) (l : Nat) (x : Landing) : (setLand s l x).trainCw = s.trainCw := rfl
@[simp] theorem setLand_trainCcw (s : State) (l : Nat) (x : Landing) : (setLand s l x).trainCcw = s.trainCcw := rfl
@[simp] theorem setLand_crs (s : State) (l : Nat) (x : Landing) : (setLand s l x).crs = s.crs := rfl
@[simp] theorem setLand_accs (s : State) (l : Nat) (x : Landing) : (setLand s l x).accs = s.accs := rfl
@[simp] theorem setLand_nextId (s : State) (l : Nat) (x : Landing) : (setLand s l x).nextId = s.nextId := rfl
@[simp] theorem setLand_sto (s : State) (l : Nat) (x : Landing) : (setLand s l x).sto = s.sto := rfl
@[simp] theorem setLand_xpt (s : State) (l : Nat) (x : Landing) : (setLand s l x).xpt = s.xpt := rfl
@[simp] theorem setLand_reqs (s : State) (l : Nat) (x : Landing) : (setLand s l x).reqs = s.reqs := rfl
@[simp] theorem setLand_qsets (s : State) (l : Nat) (x : Landing) : (setLand s l x).qsets = s.qsets := rfl
@[simp] theorem setLand_pcie (s : State) (l : Nat) (x : Landing) : (setLand s l x).pcie = s.pcie := rfl
@[simp] theorem setLand_hm (s : State) (l : Nat) (x : Landing) : (setLand s l x).hm = s.hm := rfl
@[simp] theorem setLand_pwr (s : State) (l : Nat) (x : Landing) : (setLand s l x).pwr = s.pwr := rfl
@[simp] theorem setLand_boot (s : State) (l : Nat) (x : Landing) : (setLand s l x).boot = s.boot := rfl
@[simp] theorem setLand_tap (s : State) (l : Nat) (x : Landing) : (setLand s l x).tap = s.tap := rfl
@[simp] theorem setLand_mgmt (s : State) (l : Nat) (x : Landing) : (setLand s l x).mgmt = s.mgmt := rfl
@[simp] theorem setLand_dbg (s : State) (l : Nat) (x : Landing) : (setLand s l x).dbg = s.dbg := rfl
@[simp] theorem setLand_served (s : State) (l : Nat) (x : Landing) : (setLand s l x).served = s.served := rfl
@[simp] theorem setLand_nextReq (s : State) (l : Nat) (x : Landing) : (setLand s l x).nextReq = s.nextReq := rfl
@[simp] theorem setLand_fuses (s : State) (l : Nat) (x : Landing) : (setLand s l x).fuses = s.fuses := rfl
@[simp] theorem setLand_modnum (s : State) (l : Nat) (x : Landing) : (setLand s l x).modnum = s.modnum := rfl
@[simp] theorem setLand_free (s : State) (l : Nat) (x : Landing) : (setLand s l x).free = s.free := rfl
@[simp] theorem setLand_outs (s : State) (l : Nat) (x : Landing) : (setLand s l x).outs = s.outs := rfl

/-! ## wr -/

@[simp] theorem wr_pending (s : State) (o : Nat) (v : Word) : (wr s o v).pending = s.pending := rfl
@[simp] theorem wr_time (s : State) (o : Nat) (v : Word) : (wr s o v).time = s.time := rfl
@[simp] theorem wr_mem (s : State) (o : Nat) (v : Word) : (wr s o v).mem = s.mem := rfl
@[simp] theorem wr_poison (s : State) (o : Nat) (v : Word) : (wr s o v).poison = s.poison := rfl
@[simp] theorem wr_uerr (s : State) (o : Nat) (v : Word) : (wr s o v).uerr = s.uerr := rfl
@[simp] theorem wr_cerr (s : State) (o : Nat) (v : Word) : (wr s o v).cerr = s.cerr := rfl
@[simp] theorem wr_latch (s : State) (o : Nat) (v : Word) : (wr s o v).latch = s.latch := rfl
@[simp] theorem wr_heldLow (s : State) (o : Nat) (v : Word) : (wr s o v).heldLow = s.heldLow := rfl
@[simp] theorem wr_threads (s : State) (o : Nat) (v : Word) : (wr s o v).threads = s.threads := rfl
@[simp] theorem wr_cores (s : State) (o : Nat) (v : Word) : (wr s o v).cores = s.cores := rfl
@[simp] theorem wr_lands (s : State) (o : Nat) (v : Word) : (wr s o v).lands = s.lands := rfl
@[simp] theorem wr_trainCw (s : State) (o : Nat) (v : Word) : (wr s o v).trainCw = s.trainCw := rfl
@[simp] theorem wr_trainCcw (s : State) (o : Nat) (v : Word) : (wr s o v).trainCcw = s.trainCcw := rfl
@[simp] theorem wr_crs (s : State) (o : Nat) (v : Word) : (wr s o v).crs = s.crs := rfl
@[simp] theorem wr_accs (s : State) (o : Nat) (v : Word) : (wr s o v).accs = s.accs := rfl
@[simp] theorem wr_nextId (s : State) (o : Nat) (v : Word) : (wr s o v).nextId = s.nextId := rfl
@[simp] theorem wr_sto (s : State) (o : Nat) (v : Word) : (wr s o v).sto = s.sto := rfl
@[simp] theorem wr_xpt (s : State) (o : Nat) (v : Word) : (wr s o v).xpt = s.xpt := rfl
@[simp] theorem wr_reqs (s : State) (o : Nat) (v : Word) : (wr s o v).reqs = s.reqs := rfl
@[simp] theorem wr_qsets (s : State) (o : Nat) (v : Word) : (wr s o v).qsets = s.qsets := rfl
@[simp] theorem wr_pcie (s : State) (o : Nat) (v : Word) : (wr s o v).pcie = s.pcie := rfl
@[simp] theorem wr_hm (s : State) (o : Nat) (v : Word) : (wr s o v).hm = s.hm := rfl
@[simp] theorem wr_pwr (s : State) (o : Nat) (v : Word) : (wr s o v).pwr = s.pwr := rfl
@[simp] theorem wr_boot (s : State) (o : Nat) (v : Word) : (wr s o v).boot = s.boot := rfl
@[simp] theorem wr_tap (s : State) (o : Nat) (v : Word) : (wr s o v).tap = s.tap := rfl
@[simp] theorem wr_mgmt (s : State) (o : Nat) (v : Word) : (wr s o v).mgmt = s.mgmt := rfl
@[simp] theorem wr_dbg (s : State) (o : Nat) (v : Word) : (wr s o v).dbg = s.dbg := rfl
@[simp] theorem wr_served (s : State) (o : Nat) (v : Word) : (wr s o v).served = s.served := rfl
@[simp] theorem wr_nextReq (s : State) (o : Nat) (v : Word) : (wr s o v).nextReq = s.nextReq := rfl
@[simp] theorem wr_fuses (s : State) (o : Nat) (v : Word) : (wr s o v).fuses = s.fuses := rfl
@[simp] theorem wr_modnum (s : State) (o : Nat) (v : Word) : (wr s o v).modnum = s.modnum := rfl
@[simp] theorem wr_free (s : State) (o : Nat) (v : Word) : (wr s o v).free = s.free := rfl
@[simp] theorem wr_outs (s : State) (o : Nat) (v : Word) : (wr s o v).outs = s.outs := rfl

/-! ## wrFld -/

@[simp] theorem wrFld_pending (s : State) (o hi lo v : Nat) : (wrFld s o hi lo v).pending = s.pending := rfl
@[simp] theorem wrFld_time (s : State) (o hi lo v : Nat) : (wrFld s o hi lo v).time = s.time := rfl
@[simp] theorem wrFld_mem (s : State) (o hi lo v : Nat) : (wrFld s o hi lo v).mem = s.mem := rfl
@[simp] theorem wrFld_poison (s : State) (o hi lo v : Nat) : (wrFld s o hi lo v).poison = s.poison := rfl
@[simp] theorem wrFld_uerr (s : State) (o hi lo v : Nat) : (wrFld s o hi lo v).uerr = s.uerr := rfl
@[simp] theorem wrFld_cerr (s : State) (o hi lo v : Nat) : (wrFld s o hi lo v).cerr = s.cerr := rfl
@[simp] theorem wrFld_latch (s : State) (o hi lo v : Nat) : (wrFld s o hi lo v).latch = s.latch := rfl
@[simp] theorem wrFld_heldLow (s : State) (o hi lo v : Nat) : (wrFld s o hi lo v).heldLow = s.heldLow := rfl
@[simp] theorem wrFld_threads (s : State) (o hi lo v : Nat) : (wrFld s o hi lo v).threads = s.threads := rfl
@[simp] theorem wrFld_cores (s : State) (o hi lo v : Nat) : (wrFld s o hi lo v).cores = s.cores := rfl
@[simp] theorem wrFld_lands (s : State) (o hi lo v : Nat) : (wrFld s o hi lo v).lands = s.lands := rfl
@[simp] theorem wrFld_trainCw (s : State) (o hi lo v : Nat) : (wrFld s o hi lo v).trainCw = s.trainCw := rfl
@[simp] theorem wrFld_trainCcw (s : State) (o hi lo v : Nat) : (wrFld s o hi lo v).trainCcw = s.trainCcw := rfl
@[simp] theorem wrFld_crs (s : State) (o hi lo v : Nat) : (wrFld s o hi lo v).crs = s.crs := rfl
@[simp] theorem wrFld_accs (s : State) (o hi lo v : Nat) : (wrFld s o hi lo v).accs = s.accs := rfl
@[simp] theorem wrFld_nextId (s : State) (o hi lo v : Nat) : (wrFld s o hi lo v).nextId = s.nextId := rfl
@[simp] theorem wrFld_sto (s : State) (o hi lo v : Nat) : (wrFld s o hi lo v).sto = s.sto := rfl
@[simp] theorem wrFld_xpt (s : State) (o hi lo v : Nat) : (wrFld s o hi lo v).xpt = s.xpt := rfl
@[simp] theorem wrFld_reqs (s : State) (o hi lo v : Nat) : (wrFld s o hi lo v).reqs = s.reqs := rfl
@[simp] theorem wrFld_qsets (s : State) (o hi lo v : Nat) : (wrFld s o hi lo v).qsets = s.qsets := rfl
@[simp] theorem wrFld_pcie (s : State) (o hi lo v : Nat) : (wrFld s o hi lo v).pcie = s.pcie := rfl
@[simp] theorem wrFld_hm (s : State) (o hi lo v : Nat) : (wrFld s o hi lo v).hm = s.hm := rfl
@[simp] theorem wrFld_pwr (s : State) (o hi lo v : Nat) : (wrFld s o hi lo v).pwr = s.pwr := rfl
@[simp] theorem wrFld_boot (s : State) (o hi lo v : Nat) : (wrFld s o hi lo v).boot = s.boot := rfl
@[simp] theorem wrFld_tap (s : State) (o hi lo v : Nat) : (wrFld s o hi lo v).tap = s.tap := rfl
@[simp] theorem wrFld_mgmt (s : State) (o hi lo v : Nat) : (wrFld s o hi lo v).mgmt = s.mgmt := rfl
@[simp] theorem wrFld_dbg (s : State) (o hi lo v : Nat) : (wrFld s o hi lo v).dbg = s.dbg := rfl
@[simp] theorem wrFld_served (s : State) (o hi lo v : Nat) : (wrFld s o hi lo v).served = s.served := rfl
@[simp] theorem wrFld_nextReq (s : State) (o hi lo v : Nat) : (wrFld s o hi lo v).nextReq = s.nextReq := rfl
@[simp] theorem wrFld_fuses (s : State) (o hi lo v : Nat) : (wrFld s o hi lo v).fuses = s.fuses := rfl
@[simp] theorem wrFld_modnum (s : State) (o hi lo v : Nat) : (wrFld s o hi lo v).modnum = s.modnum := rfl
@[simp] theorem wrFld_free (s : State) (o hi lo v : Nat) : (wrFld s o hi lo v).free = s.free := rfl
@[simp] theorem wrFld_outs (s : State) (o hi lo v : Nat) : (wrFld s o hi lo v).outs = s.outs := rfl

/-! ## setFlag -/

@[simp] theorem setFlag_pending (s : State) (o i : Nat) : (setFlag s o i).pending = s.pending := rfl
@[simp] theorem setFlag_time (s : State) (o i : Nat) : (setFlag s o i).time = s.time := rfl
@[simp] theorem setFlag_mem (s : State) (o i : Nat) : (setFlag s o i).mem = s.mem := rfl
@[simp] theorem setFlag_poison (s : State) (o i : Nat) : (setFlag s o i).poison = s.poison := rfl
@[simp] theorem setFlag_uerr (s : State) (o i : Nat) : (setFlag s o i).uerr = s.uerr := rfl
@[simp] theorem setFlag_cerr (s : State) (o i : Nat) : (setFlag s o i).cerr = s.cerr := rfl
@[simp] theorem setFlag_latch (s : State) (o i : Nat) : (setFlag s o i).latch = s.latch := rfl
@[simp] theorem setFlag_heldLow (s : State) (o i : Nat) : (setFlag s o i).heldLow = s.heldLow := rfl
@[simp] theorem setFlag_threads (s : State) (o i : Nat) : (setFlag s o i).threads = s.threads := rfl
@[simp] theorem setFlag_cores (s : State) (o i : Nat) : (setFlag s o i).cores = s.cores := rfl
@[simp] theorem setFlag_lands (s : State) (o i : Nat) : (setFlag s o i).lands = s.lands := rfl
@[simp] theorem setFlag_trainCw (s : State) (o i : Nat) : (setFlag s o i).trainCw = s.trainCw := rfl
@[simp] theorem setFlag_trainCcw (s : State) (o i : Nat) : (setFlag s o i).trainCcw = s.trainCcw := rfl
@[simp] theorem setFlag_crs (s : State) (o i : Nat) : (setFlag s o i).crs = s.crs := rfl
@[simp] theorem setFlag_accs (s : State) (o i : Nat) : (setFlag s o i).accs = s.accs := rfl
@[simp] theorem setFlag_nextId (s : State) (o i : Nat) : (setFlag s o i).nextId = s.nextId := rfl
@[simp] theorem setFlag_sto (s : State) (o i : Nat) : (setFlag s o i).sto = s.sto := rfl
@[simp] theorem setFlag_xpt (s : State) (o i : Nat) : (setFlag s o i).xpt = s.xpt := rfl
@[simp] theorem setFlag_reqs (s : State) (o i : Nat) : (setFlag s o i).reqs = s.reqs := rfl
@[simp] theorem setFlag_qsets (s : State) (o i : Nat) : (setFlag s o i).qsets = s.qsets := rfl
@[simp] theorem setFlag_pcie (s : State) (o i : Nat) : (setFlag s o i).pcie = s.pcie := rfl
@[simp] theorem setFlag_hm (s : State) (o i : Nat) : (setFlag s o i).hm = s.hm := rfl
@[simp] theorem setFlag_pwr (s : State) (o i : Nat) : (setFlag s o i).pwr = s.pwr := rfl
@[simp] theorem setFlag_boot (s : State) (o i : Nat) : (setFlag s o i).boot = s.boot := rfl
@[simp] theorem setFlag_tap (s : State) (o i : Nat) : (setFlag s o i).tap = s.tap := rfl
@[simp] theorem setFlag_mgmt (s : State) (o i : Nat) : (setFlag s o i).mgmt = s.mgmt := rfl
@[simp] theorem setFlag_dbg (s : State) (o i : Nat) : (setFlag s o i).dbg = s.dbg := rfl
@[simp] theorem setFlag_served (s : State) (o i : Nat) : (setFlag s o i).served = s.served := rfl
@[simp] theorem setFlag_nextReq (s : State) (o i : Nat) : (setFlag s o i).nextReq = s.nextReq := rfl
@[simp] theorem setFlag_fuses (s : State) (o i : Nat) : (setFlag s o i).fuses = s.fuses := rfl
@[simp] theorem setFlag_modnum (s : State) (o i : Nat) : (setFlag s o i).modnum = s.modnum := rfl
@[simp] theorem setFlag_free (s : State) (o i : Nat) : (setFlag s o i).free = s.free := rfl
@[simp] theorem setFlag_outs (s : State) (o i : Nat) : (setFlag s o i).outs = s.outs := rfl

/-! ## putBytes -/

@[simp] theorem putBytes_pending (s : State) (k : Nat) (bs : List Byte) : (putBytes s k bs).pending = s.pending := rfl
@[simp] theorem putBytes_time (s : State) (k : Nat) (bs : List Byte) : (putBytes s k bs).time = s.time := rfl
@[simp] theorem putBytes_poison (s : State) (k : Nat) (bs : List Byte) : (putBytes s k bs).poison = s.poison := rfl
@[simp] theorem putBytes_uerr (s : State) (k : Nat) (bs : List Byte) : (putBytes s k bs).uerr = s.uerr := rfl
@[simp] theorem putBytes_cerr (s : State) (k : Nat) (bs : List Byte) : (putBytes s k bs).cerr = s.cerr := rfl
@[simp] theorem putBytes_regs (s : State) (k : Nat) (bs : List Byte) : (putBytes s k bs).regs = s.regs := rfl
@[simp] theorem putBytes_latch (s : State) (k : Nat) (bs : List Byte) : (putBytes s k bs).latch = s.latch := rfl
@[simp] theorem putBytes_heldLow (s : State) (k : Nat) (bs : List Byte) : (putBytes s k bs).heldLow = s.heldLow := rfl
@[simp] theorem putBytes_threads (s : State) (k : Nat) (bs : List Byte) : (putBytes s k bs).threads = s.threads := rfl
@[simp] theorem putBytes_cores (s : State) (k : Nat) (bs : List Byte) : (putBytes s k bs).cores = s.cores := rfl
@[simp] theorem putBytes_lands (s : State) (k : Nat) (bs : List Byte) : (putBytes s k bs).lands = s.lands := rfl
@[simp] theorem putBytes_trainCw (s : State) (k : Nat) (bs : List Byte) : (putBytes s k bs).trainCw = s.trainCw := rfl
@[simp] theorem putBytes_trainCcw (s : State) (k : Nat) (bs : List Byte) :
    (putBytes s k bs).trainCcw = s.trainCcw := rfl
@[simp] theorem putBytes_crs (s : State) (k : Nat) (bs : List Byte) : (putBytes s k bs).crs = s.crs := rfl
@[simp] theorem putBytes_accs (s : State) (k : Nat) (bs : List Byte) : (putBytes s k bs).accs = s.accs := rfl
@[simp] theorem putBytes_nextId (s : State) (k : Nat) (bs : List Byte) : (putBytes s k bs).nextId = s.nextId := rfl
@[simp] theorem putBytes_sto (s : State) (k : Nat) (bs : List Byte) : (putBytes s k bs).sto = s.sto := rfl
@[simp] theorem putBytes_xpt (s : State) (k : Nat) (bs : List Byte) : (putBytes s k bs).xpt = s.xpt := rfl
@[simp] theorem putBytes_reqs (s : State) (k : Nat) (bs : List Byte) : (putBytes s k bs).reqs = s.reqs := rfl
@[simp] theorem putBytes_qsets (s : State) (k : Nat) (bs : List Byte) : (putBytes s k bs).qsets = s.qsets := rfl
@[simp] theorem putBytes_pcie (s : State) (k : Nat) (bs : List Byte) : (putBytes s k bs).pcie = s.pcie := rfl
@[simp] theorem putBytes_hm (s : State) (k : Nat) (bs : List Byte) : (putBytes s k bs).hm = s.hm := rfl
@[simp] theorem putBytes_pwr (s : State) (k : Nat) (bs : List Byte) : (putBytes s k bs).pwr = s.pwr := rfl
@[simp] theorem putBytes_boot (s : State) (k : Nat) (bs : List Byte) : (putBytes s k bs).boot = s.boot := rfl
@[simp] theorem putBytes_tap (s : State) (k : Nat) (bs : List Byte) : (putBytes s k bs).tap = s.tap := rfl
@[simp] theorem putBytes_mgmt (s : State) (k : Nat) (bs : List Byte) : (putBytes s k bs).mgmt = s.mgmt := rfl
@[simp] theorem putBytes_dbg (s : State) (k : Nat) (bs : List Byte) : (putBytes s k bs).dbg = s.dbg := rfl
@[simp] theorem putBytes_served (s : State) (k : Nat) (bs : List Byte) : (putBytes s k bs).served = s.served := rfl
@[simp] theorem putBytes_nextReq (s : State) (k : Nat) (bs : List Byte) : (putBytes s k bs).nextReq = s.nextReq := rfl
@[simp] theorem putBytes_fuses (s : State) (k : Nat) (bs : List Byte) : (putBytes s k bs).fuses = s.fuses := rfl
@[simp] theorem putBytes_modnum (s : State) (k : Nat) (bs : List Byte) : (putBytes s k bs).modnum = s.modnum := rfl
@[simp] theorem putBytes_free (s : State) (k : Nat) (bs : List Byte) : (putBytes s k bs).free = s.free := rfl
@[simp] theorem putBytes_outs (s : State) (k : Nat) (bs : List Byte) : (putBytes s k bs).outs = s.outs := rfl

/-! ## setPoison -/

@[simp] theorem setPoison_pending (s : State) (u : Nat) (b : Bool) : (setPoison s u b).pending = s.pending := rfl
@[simp] theorem setPoison_time (s : State) (u : Nat) (b : Bool) : (setPoison s u b).time = s.time := rfl
@[simp] theorem setPoison_mem (s : State) (u : Nat) (b : Bool) : (setPoison s u b).mem = s.mem := rfl
@[simp] theorem setPoison_uerr (s : State) (u : Nat) (b : Bool) : (setPoison s u b).uerr = s.uerr := rfl
@[simp] theorem setPoison_cerr (s : State) (u : Nat) (b : Bool) : (setPoison s u b).cerr = s.cerr := rfl
@[simp] theorem setPoison_regs (s : State) (u : Nat) (b : Bool) : (setPoison s u b).regs = s.regs := rfl
@[simp] theorem setPoison_latch (s : State) (u : Nat) (b : Bool) : (setPoison s u b).latch = s.latch := rfl
@[simp] theorem setPoison_heldLow (s : State) (u : Nat) (b : Bool) : (setPoison s u b).heldLow = s.heldLow := rfl
@[simp] theorem setPoison_threads (s : State) (u : Nat) (b : Bool) : (setPoison s u b).threads = s.threads := rfl
@[simp] theorem setPoison_cores (s : State) (u : Nat) (b : Bool) : (setPoison s u b).cores = s.cores := rfl
@[simp] theorem setPoison_lands (s : State) (u : Nat) (b : Bool) : (setPoison s u b).lands = s.lands := rfl
@[simp] theorem setPoison_trainCw (s : State) (u : Nat) (b : Bool) : (setPoison s u b).trainCw = s.trainCw := rfl
@[simp] theorem setPoison_trainCcw (s : State) (u : Nat) (b : Bool) : (setPoison s u b).trainCcw = s.trainCcw := rfl
@[simp] theorem setPoison_crs (s : State) (u : Nat) (b : Bool) : (setPoison s u b).crs = s.crs := rfl
@[simp] theorem setPoison_accs (s : State) (u : Nat) (b : Bool) : (setPoison s u b).accs = s.accs := rfl
@[simp] theorem setPoison_nextId (s : State) (u : Nat) (b : Bool) : (setPoison s u b).nextId = s.nextId := rfl
@[simp] theorem setPoison_sto (s : State) (u : Nat) (b : Bool) : (setPoison s u b).sto = s.sto := rfl
@[simp] theorem setPoison_xpt (s : State) (u : Nat) (b : Bool) : (setPoison s u b).xpt = s.xpt := rfl
@[simp] theorem setPoison_reqs (s : State) (u : Nat) (b : Bool) : (setPoison s u b).reqs = s.reqs := rfl
@[simp] theorem setPoison_qsets (s : State) (u : Nat) (b : Bool) : (setPoison s u b).qsets = s.qsets := rfl
@[simp] theorem setPoison_pcie (s : State) (u : Nat) (b : Bool) : (setPoison s u b).pcie = s.pcie := rfl
@[simp] theorem setPoison_hm (s : State) (u : Nat) (b : Bool) : (setPoison s u b).hm = s.hm := rfl
@[simp] theorem setPoison_pwr (s : State) (u : Nat) (b : Bool) : (setPoison s u b).pwr = s.pwr := rfl
@[simp] theorem setPoison_boot (s : State) (u : Nat) (b : Bool) : (setPoison s u b).boot = s.boot := rfl
@[simp] theorem setPoison_tap (s : State) (u : Nat) (b : Bool) : (setPoison s u b).tap = s.tap := rfl
@[simp] theorem setPoison_mgmt (s : State) (u : Nat) (b : Bool) : (setPoison s u b).mgmt = s.mgmt := rfl
@[simp] theorem setPoison_dbg (s : State) (u : Nat) (b : Bool) : (setPoison s u b).dbg = s.dbg := rfl
@[simp] theorem setPoison_served (s : State) (u : Nat) (b : Bool) : (setPoison s u b).served = s.served := rfl
@[simp] theorem setPoison_nextReq (s : State) (u : Nat) (b : Bool) : (setPoison s u b).nextReq = s.nextReq := rfl
@[simp] theorem setPoison_fuses (s : State) (u : Nat) (b : Bool) : (setPoison s u b).fuses = s.fuses := rfl
@[simp] theorem setPoison_modnum (s : State) (u : Nat) (b : Bool) : (setPoison s u b).modnum = s.modnum := rfl
@[simp] theorem setPoison_free (s : State) (u : Nat) (b : Bool) : (setPoison s u b).free = s.free := rfl
@[simp] theorem setPoison_outs (s : State) (u : Nat) (b : Bool) : (setPoison s u b).outs = s.outs := rfl

/-! ## freshCheck -/

@[simp] theorem freshCheck_pending (s : State) (u : Nat) : (freshCheck s u).pending = s.pending := rfl
@[simp] theorem freshCheck_time (s : State) (u : Nat) : (freshCheck s u).time = s.time := rfl
@[simp] theorem freshCheck_mem (s : State) (u : Nat) : (freshCheck s u).mem = s.mem := rfl
@[simp] theorem freshCheck_poison (s : State) (u : Nat) : (freshCheck s u).poison = s.poison := rfl
@[simp] theorem freshCheck_regs (s : State) (u : Nat) : (freshCheck s u).regs = s.regs := rfl
@[simp] theorem freshCheck_latch (s : State) (u : Nat) : (freshCheck s u).latch = s.latch := rfl
@[simp] theorem freshCheck_heldLow (s : State) (u : Nat) : (freshCheck s u).heldLow = s.heldLow := rfl
@[simp] theorem freshCheck_threads (s : State) (u : Nat) : (freshCheck s u).threads = s.threads := rfl
@[simp] theorem freshCheck_cores (s : State) (u : Nat) : (freshCheck s u).cores = s.cores := rfl
@[simp] theorem freshCheck_lands (s : State) (u : Nat) : (freshCheck s u).lands = s.lands := rfl
@[simp] theorem freshCheck_trainCw (s : State) (u : Nat) : (freshCheck s u).trainCw = s.trainCw := rfl
@[simp] theorem freshCheck_trainCcw (s : State) (u : Nat) : (freshCheck s u).trainCcw = s.trainCcw := rfl
@[simp] theorem freshCheck_crs (s : State) (u : Nat) : (freshCheck s u).crs = s.crs := rfl
@[simp] theorem freshCheck_accs (s : State) (u : Nat) : (freshCheck s u).accs = s.accs := rfl
@[simp] theorem freshCheck_nextId (s : State) (u : Nat) : (freshCheck s u).nextId = s.nextId := rfl
@[simp] theorem freshCheck_sto (s : State) (u : Nat) : (freshCheck s u).sto = s.sto := rfl
@[simp] theorem freshCheck_xpt (s : State) (u : Nat) : (freshCheck s u).xpt = s.xpt := rfl
@[simp] theorem freshCheck_reqs (s : State) (u : Nat) : (freshCheck s u).reqs = s.reqs := rfl
@[simp] theorem freshCheck_qsets (s : State) (u : Nat) : (freshCheck s u).qsets = s.qsets := rfl
@[simp] theorem freshCheck_pcie (s : State) (u : Nat) : (freshCheck s u).pcie = s.pcie := rfl
@[simp] theorem freshCheck_hm (s : State) (u : Nat) : (freshCheck s u).hm = s.hm := rfl
@[simp] theorem freshCheck_pwr (s : State) (u : Nat) : (freshCheck s u).pwr = s.pwr := rfl
@[simp] theorem freshCheck_boot (s : State) (u : Nat) : (freshCheck s u).boot = s.boot := rfl
@[simp] theorem freshCheck_tap (s : State) (u : Nat) : (freshCheck s u).tap = s.tap := rfl
@[simp] theorem freshCheck_mgmt (s : State) (u : Nat) : (freshCheck s u).mgmt = s.mgmt := rfl
@[simp] theorem freshCheck_dbg (s : State) (u : Nat) : (freshCheck s u).dbg = s.dbg := rfl
@[simp] theorem freshCheck_served (s : State) (u : Nat) : (freshCheck s u).served = s.served := rfl
@[simp] theorem freshCheck_nextReq (s : State) (u : Nat) : (freshCheck s u).nextReq = s.nextReq := rfl
@[simp] theorem freshCheck_fuses (s : State) (u : Nat) : (freshCheck s u).fuses = s.fuses := rfl
@[simp] theorem freshCheck_modnum (s : State) (u : Nat) : (freshCheck s u).modnum = s.modnum := rfl
@[simp] theorem freshCheck_free (s : State) (u : Nat) : (freshCheck s u).free = s.free := rfl
@[simp] theorem freshCheck_outs (s : State) (u : Nat) : (freshCheck s u).outs = s.outs := rfl

/-! ## emit -/

@[simp] theorem emit_pending (s : State) (o : Out) : (emit s o).pending = s.pending := rfl
@[simp] theorem emit_time (s : State) (o : Out) : (emit s o).time = s.time := rfl
@[simp] theorem emit_mem (s : State) (o : Out) : (emit s o).mem = s.mem := rfl
@[simp] theorem emit_poison (s : State) (o : Out) : (emit s o).poison = s.poison := rfl
@[simp] theorem emit_uerr (s : State) (o : Out) : (emit s o).uerr = s.uerr := rfl
@[simp] theorem emit_cerr (s : State) (o : Out) : (emit s o).cerr = s.cerr := rfl
@[simp] theorem emit_regs (s : State) (o : Out) : (emit s o).regs = s.regs := rfl
@[simp] theorem emit_latch (s : State) (o : Out) : (emit s o).latch = s.latch := rfl
@[simp] theorem emit_heldLow (s : State) (o : Out) : (emit s o).heldLow = s.heldLow := rfl
@[simp] theorem emit_threads (s : State) (o : Out) : (emit s o).threads = s.threads := rfl
@[simp] theorem emit_cores (s : State) (o : Out) : (emit s o).cores = s.cores := rfl
@[simp] theorem emit_lands (s : State) (o : Out) : (emit s o).lands = s.lands := rfl
@[simp] theorem emit_trainCw (s : State) (o : Out) : (emit s o).trainCw = s.trainCw := rfl
@[simp] theorem emit_trainCcw (s : State) (o : Out) : (emit s o).trainCcw = s.trainCcw := rfl
@[simp] theorem emit_crs (s : State) (o : Out) : (emit s o).crs = s.crs := rfl
@[simp] theorem emit_accs (s : State) (o : Out) : (emit s o).accs = s.accs := rfl
@[simp] theorem emit_nextId (s : State) (o : Out) : (emit s o).nextId = s.nextId := rfl
@[simp] theorem emit_sto (s : State) (o : Out) : (emit s o).sto = s.sto := rfl
@[simp] theorem emit_xpt (s : State) (o : Out) : (emit s o).xpt = s.xpt := rfl
@[simp] theorem emit_reqs (s : State) (o : Out) : (emit s o).reqs = s.reqs := rfl
@[simp] theorem emit_qsets (s : State) (o : Out) : (emit s o).qsets = s.qsets := rfl
@[simp] theorem emit_pcie (s : State) (o : Out) : (emit s o).pcie = s.pcie := rfl
@[simp] theorem emit_hm (s : State) (o : Out) : (emit s o).hm = s.hm := rfl
@[simp] theorem emit_pwr (s : State) (o : Out) : (emit s o).pwr = s.pwr := rfl
@[simp] theorem emit_boot (s : State) (o : Out) : (emit s o).boot = s.boot := rfl
@[simp] theorem emit_tap (s : State) (o : Out) : (emit s o).tap = s.tap := rfl
@[simp] theorem emit_mgmt (s : State) (o : Out) : (emit s o).mgmt = s.mgmt := rfl
@[simp] theorem emit_dbg (s : State) (o : Out) : (emit s o).dbg = s.dbg := rfl
@[simp] theorem emit_served (s : State) (o : Out) : (emit s o).served = s.served := rfl
@[simp] theorem emit_nextReq (s : State) (o : Out) : (emit s o).nextReq = s.nextReq := rfl
@[simp] theorem emit_fuses (s : State) (o : Out) : (emit s o).fuses = s.fuses := rfl
@[simp] theorem emit_modnum (s : State) (o : Out) : (emit s o).modnum = s.modnum := rfl
@[simp] theorem emit_free (s : State) (o : Out) : (emit s o).free = s.free := rfl

/-! ## Reads after writes -/

/-- Threads have different numbers. -/
theorem thrKey_inj {w v : ThreadRef} (h : thrKey w = thrKey v) : w = v := by
  cases w with
  | core l c t =>
    cases v with
    | core l' c' t' =>
      simp only [thrKey] at h
      have := l.isLt; have := c.isLt; have := t.isLt
      have := l'.isLt; have := c'.isLt; have := t'.isLt
      have e1 : l.val = l'.val := by omega
      have e2 : c.val = c'.val := by omega
      have e3 : t.val = t'.val := by omega
      rw [Fin.ext e1, Fin.ext e2, Fin.ext e3]
    | deckhand l' =>
      simp only [thrKey] at h
      have := l.isLt; have := c.isLt; have := t.isLt
      omega
  | deckhand l =>
    cases v with
    | core l' c' t' =>
      simp only [thrKey] at h
      have := l'.isLt; have := c'.isLt; have := t'.isLt
      omega
    | deckhand l' =>
      simp only [thrKey] at h
      rw [Fin.ext (by omega : l.val = l'.val)]

@[simp] theorem getThr_setThr (s : State) (w : ThreadRef) (t : Thread) : getThr (setThr s w t) w = t := by
  simp [getThr, setThr]

theorem getThr_setThr_ne (s : State) {w v : ThreadRef} (h : v ≠ w) (t : Thread) :
    getThr (setThr s w t) v = getThr s v := by
  simp only [getThr, setThr]
  exact tget_tput_ne _ (fun e => h (thrKey_inj e)) _ _

@[simp] theorem setThr_setThr (s : State) (w : ThreadRef) (t u : Thread) :
    setThr (setThr s w t) w u = setThr s w u := by simp [setThr]

@[simp] theorem getCore_setCore (s : State) (l c : Nat) (x : Core) : getCore (setCore s l c x) l c = x := by
  simp [getCore, setCore]

theorem getCore_setCore_ne (s : State) {l c l' c' : Nat} (h : coreKey l' c' ≠ coreKey l c) (x : Core) :
    getCore (setCore s l c x) l' c' = getCore s l' c' := by
  simp only [getCore, setCore]; exact tget_tput_ne _ h _ _

@[simp] theorem setCore_setCore (s : State) (l c : Nat) (x y : Core) :
    setCore (setCore s l c x) l c y = setCore s l c y := by simp [setCore]

@[simp] theorem getLand_setLand (s : State) (l : Nat) (x : Landing) : getLand (setLand s l x) l = x := by
  simp [getLand, setLand]

theorem getLand_setLand_ne (s : State) {l l' : Nat} (h : l' ≠ l) (x : Landing) :
    getLand (setLand s l x) l' = getLand s l' := by
  simp only [getLand, setLand]; exact tget_tput_ne _ h _ _

@[simp] theorem setLand_setLand (s : State) (l : Nat) (x y : Landing) :
    setLand (setLand s l x) l y = setLand s l y := by simp [setLand]

@[simp] theorem rd_wr (s : State) (o : Nat) (v : Word) : rd (wr s o v) o = v := by simp [rd, wr]

theorem rd_wr_ne (s : State) {o p : Nat} (h : p ≠ o) (v : Word) : rd (wr s o v) p = rd s p := by
  simp only [rd, wr]; exact tget_tput_other _ _ h _ _

@[simp] theorem wr_wr (s : State) (o : Nat) (v v' : Word) : wr (wr s o v') o v = wr s o v := by simp [wr]

/-- A byte inside and outside the bytes written. -/
theorem getByte_putBytes_out (s : State) (k : Nat) (bs : List Byte) {a : Nat} (h : a < k ∨ k + bs.length ≤ a) :
    getByte (putBytes s k bs) a = getByte s a := by
  simp only [getByte, putBytes]
  rcases h with h | h
  · exact tget_twrite_below _ _ h _
  · exact tget_twrite_above _ _ h _

theorem getByte_putBytes_in (s : State) (k : Nat) (bs : List Byte) {a : Nat} (h1 : k ≤ a) (h2 : a < k + bs.length) :
    getByte (putBytes s k bs) a = bs.getD (a - k) 0 := by
  simp only [getByte, putBytes]; exact tget_twrite_in (0 : Byte) bs h1 h2 s.mem

@[simp] theorem getThr_of_setCore (s : State) (l c : Nat) (x : Core) (w' : ThreadRef) :
    getThr (setCore s l c x) w' = getThr s w' := rfl
@[simp] theorem getThr_of_setLand (s : State) (l : Nat) (x : Landing) (w' : ThreadRef) :
    getThr (setLand s l x) w' = getThr s w' := rfl
@[simp] theorem getThr_of_wr (s : State) (o : Nat) (v : Word) (w' : ThreadRef) :
    getThr (wr s o v) w' = getThr s w' := rfl
@[simp] theorem getThr_of_wrFld (s : State) (o hi lo v : Nat) (w' : ThreadRef) :
    getThr (wrFld s o hi lo v) w' = getThr s w' := rfl
@[simp] theorem getThr_of_setFlag (s : State) (o i : Nat) (w' : ThreadRef) :
    getThr (setFlag s o i) w' = getThr s w' := rfl
@[simp] theorem getThr_of_putBytes (s : State) (k : Nat) (bs : List Byte) (w' : ThreadRef) :
    getThr (putBytes s k bs) w' = getThr s w' := rfl
@[simp] theorem getThr_of_setPoison (s : State) (u : Nat) (b : Bool) (w' : ThreadRef) :
    getThr (setPoison s u b) w' = getThr s w' := rfl
@[simp] theorem getThr_of_freshCheck (s : State) (u : Nat) (w' : ThreadRef) :
    getThr (freshCheck s u) w' = getThr s w' := rfl
@[simp] theorem getThr_of_emit (s : State) (o : Out) (w' : ThreadRef) : getThr (emit s o) w' = getThr s w' := rfl
@[simp] theorem getCore_of_setThr (s : State) (w : ThreadRef) (t : Thread) (l' c' : Nat) :
    getCore (setThr s w t) l' c' = getCore s l' c' := rfl
@[simp] theorem getCore_of_setLand (s : State) (l : Nat) (x : Landing) (l' c' : Nat) :
    getCore (setLand s l x) l' c' = getCore s l' c' := rfl
@[simp] theorem getCore_of_wr (s : State) (o : Nat) (v : Word) (l' c' : Nat) :
    getCore (wr s o v) l' c' = getCore s l' c' := rfl
@[simp] theorem getCore_of_wrFld (s : State) (o hi lo v : Nat) (l' c' : Nat) :
    getCore (wrFld s o hi lo v) l' c' = getCore s l' c' := rfl
@[simp] theorem getCore_of_setFlag (s : State) (o i : Nat) (l' c' : Nat) :
    getCore (setFlag s o i) l' c' = getCore s l' c' := rfl
@[simp] theorem getCore_of_putBytes (s : State) (k : Nat) (bs : List Byte) (l' c' : Nat) :
    getCore (putBytes s k bs) l' c' = getCore s l' c' := rfl
@[simp] theorem getCore_of_setPoison (s : State) (u : Nat) (b : Bool) (l' c' : Nat) :
    getCore (setPoison s u b) l' c' = getCore s l' c' := rfl
@[simp] theorem getCore_of_freshCheck (s : State) (u : Nat) (l' c' : Nat) :
    getCore (freshCheck s u) l' c' = getCore s l' c' := rfl
@[simp] theorem getCore_of_emit (s : State) (o : Out) (l' c' : Nat) : getCore (emit s o) l' c' = getCore s l' c' := rfl
@[simp] theorem getLand_of_setThr (s : State) (w : ThreadRef) (t : Thread) (l' : Nat) :
    getLand (setThr s w t) l' = getLand s l' := rfl
@[simp] theorem getLand_of_setCore (s : State) (l c : Nat) (x : Core) (l' : Nat) :
    getLand (setCore s l c x) l' = getLand s l' := rfl
@[simp] theorem getLand_of_wr (s : State) (o : Nat) (v : Word) (l' : Nat) : getLand (wr s o v) l' = getLand s l' := rfl
@[simp] theorem getLand_of_wrFld (s : State) (o hi lo v : Nat) (l' : Nat) :
    getLand (wrFld s o hi lo v) l' = getLand s l' := rfl
@[simp] theorem getLand_of_setFlag (s : State) (o i : Nat) (l' : Nat) : getLand (setFlag s o i) l' = getLand s l' := rfl
@[simp] theorem getLand_of_putBytes (s : State) (k : Nat) (bs : List Byte) (l' : Nat) :
    getLand (putBytes s k bs) l' = getLand s l' := rfl
@[simp] theorem getLand_of_setPoison (s : State) (u : Nat) (b : Bool) (l' : Nat) :
    getLand (setPoison s u b) l' = getLand s l' := rfl
@[simp] theorem getLand_of_freshCheck (s : State) (u : Nat) (l' : Nat) :
    getLand (freshCheck s u) l' = getLand s l' := rfl
@[simp] theorem getLand_of_emit (s : State) (o : Out) (l' : Nat) : getLand (emit s o) l' = getLand s l' := rfl
@[simp] theorem rd_of_setThr (s : State) (w : ThreadRef) (t : Thread) (o' : Nat) : rd (setThr s w t) o' = rd s o' := rfl
@[simp] theorem rd_of_setCore (s : State) (l c : Nat) (x : Core) (o' : Nat) : rd (setCore s l c x) o' = rd s o' := rfl
@[simp] theorem rd_of_setLand (s : State) (l : Nat) (x : Landing) (o' : Nat) : rd (setLand s l x) o' = rd s o' := rfl
@[simp] theorem rd_of_putBytes (s : State) (k : Nat) (bs : List Byte) (o' : Nat) :
    rd (putBytes s k bs) o' = rd s o' := rfl
@[simp] theorem rd_of_setPoison (s : State) (u : Nat) (b : Bool) (o' : Nat) : rd (setPoison s u b) o' = rd s o' := rfl
@[simp] theorem rd_of_freshCheck (s : State) (u : Nat) (o' : Nat) : rd (freshCheck s u) o' = rd s o' := rfl
@[simp] theorem rd_of_emit (s : State) (o : Out) (o' : Nat) : rd (emit s o) o' = rd s o' := rfl
@[simp] theorem getByte_of_setThr (s : State) (w : ThreadRef) (t : Thread) (k' : Nat) :
    getByte (setThr s w t) k' = getByte s k' := rfl
@[simp] theorem getByte_of_setCore (s : State) (l c : Nat) (x : Core) (k' : Nat) :
    getByte (setCore s l c x) k' = getByte s k' := rfl
@[simp] theorem getByte_of_setLand (s : State) (l : Nat) (x : Landing) (k' : Nat) :
    getByte (setLand s l x) k' = getByte s k' := rfl
@[simp] theorem getByte_of_wr (s : State) (o : Nat) (v : Word) (k' : Nat) : getByte (wr s o v) k' = getByte s k' := rfl
@[simp] theorem getByte_of_wrFld (s : State) (o hi lo v : Nat) (k' : Nat) :
    getByte (wrFld s o hi lo v) k' = getByte s k' := rfl
@[simp] theorem getByte_of_setFlag (s : State) (o i : Nat) (k' : Nat) : getByte (setFlag s o i) k' = getByte s k' := rfl
@[simp] theorem getByte_of_setPoison (s : State) (u : Nat) (b : Bool) (k' : Nat) :
    getByte (setPoison s u b) k' = getByte s k' := rfl
@[simp] theorem getByte_of_freshCheck (s : State) (u : Nat) (k' : Nat) :
    getByte (freshCheck s u) k' = getByte s k' := rfl
@[simp] theorem getByte_of_emit (s : State) (o : Out) (k' : Nat) : getByte (emit s o) k' = getByte s k' := rfl

end Sys2Proof.Laws
end

