-- ==== Sys2Proof/Laws/Keeps.lean ====
section
/-! SUPPORT. The canonical form holds at reset, and every shared operation over registers, threads, cores, landings and
memory keeps it. -/

namespace Sys2Proof.Laws

open Sys2Proof Sys2Proof.Machine

/-! ## Memory alone -/

theorem memory_wf_reset : Memory.wf State.reset.mem = true := rfl

theorem memory_wf_putBytes {s : State} (k : Nat) (bs : List Byte) (h : Memory.wf s.mem = true) :
    Memory.wf (putBytes s k bs).mem = true := tabOk_twrite bs k h

theorem memory_wf_scrubRange {s : State} (k n : Nat) (h : Memory.wf s.mem = true) :
    Memory.wf (scrubRange s k n).mem = true := tabOk_tclear k n h

theorem memory_wf_filter {m : List Host.Cell} (p : Host.Cell → Bool) (h : Memory.wf m = true) :
    Memory.wf (m.filter p) = true := tabOk_filter p h

/-! ## The canonical form: basic updates -/

theorem canonical_reset : Canonical State.reset := ⟨rfl, rfl, rfl, rfl, rfl⟩

section
variable {s : State}

theorem canonical_setThr (w : ThreadRef) (t : Thread) (h : Canonical s) : Canonical (setThr s w t) :=
  ⟨h.1, h.2.1, tabOk_tput_const _ _ h.2.2.1, h.2.2.2⟩

theorem canonical_setCore (l c : Nat) (x : Core) (h : Canonical s) : Canonical (setCore s l c x) :=
  ⟨h.1, h.2.1, h.2.2.1, tabOk_tput_const _ _ h.2.2.2.1, h.2.2.2.2⟩

theorem canonical_setLand (l : Nat) (x : Landing) (h : Canonical s) : Canonical (setLand s l x) :=
  ⟨h.1, h.2.1, h.2.2.1, h.2.2.2.1, tabOk_tput_const _ _ h.2.2.2.2⟩

theorem canonical_wr (o : Nat) (v : Word) (h : Canonical s) : Canonical (wr s o v) :=
  ⟨h.1, tabOk_tput (d := resetWord) o v h.2.1, h.2.2⟩

theorem canonical_putBytes (k : Nat) (bs : List Byte) (h : Canonical s) : Canonical (putBytes s k bs) :=
  ⟨memory_wf_putBytes k bs h.1, h.2⟩

theorem canonical_scrubRange (k n : Nat) (h : Canonical s) : Canonical (scrubRange s k n) :=
  ⟨memory_wf_scrubRange k n h.1, h.2⟩

theorem canonical_setPoison (u : Nat) (b : Bool) (h : Canonical s) : Canonical (setPoison s u b) := h

theorem canonical_freshCheck (u : Nat) (h : Canonical s) : Canonical (freshCheck s u) := h

theorem canonical_freshRow (k : Nat) (h : Canonical s) : Canonical (freshRow s k) := h

theorem canonical_emit (o : Out) (h : Canonical s) : Canonical (emit s o) := h

/-! ## Register words -/

theorem canonical_wrFld (o hi lo v : Nat) (h : Canonical s) : Canonical (wrFld s o hi lo v) := canonical_wr _ _ h

theorem canonical_setFlag (o i : Nat) (h : Canonical s) : Canonical (setFlag s o i) := canonical_wr _ _ h

theorem canonical_wrPair (o v : Nat) (h : Canonical s) : Canonical (wrPair s o v) := canonical_wr _ _ (canonical_wr _ _ h)

theorem canonical_raiseCore (l c b : Nat) (h : Canonical s) : Canonical (raiseCore s l c b) := canonical_setFlag _ _ h

theorem canonical_raiseLand (l b : Nat) (h : Canonical s) : Canonical (raiseLand s l b) := canonical_setFlag _ _ h

theorem canonical_countUp (o hi lo n : Nat) (c : Option (Nat × Nat)) (h : Canonical s) :
    Canonical (countUp s o hi lo n c) := by
  unfold countUp
  cases c with
  | none => exact canonical_wrFld _ _ _ _ h
  | some x =>
    dsimp only
    split
    · exact canonical_setFlag _ _ (canonical_wrFld _ _ _ _ h)
    · exact canonical_wrFld _ _ _ _ h

theorem canonical_countCore (l c o hi lo n k : Nat) (h : Canonical s) : Canonical (countCore s l c o hi lo n k) :=
  canonical_countUp _ _ _ _ _ h

end

/-! ## Repetition -/

/-- Steps that each keep a property keep it together. -/
theorem foldl_keeps {α β : Type} {P : β → Prop} {f : β → α → β} (hf : ∀ b a, P b → P (f b a)) (xs : List α) {b : β}
    (h : P b) : P (xs.foldl f b) := by
  induction xs generalizing b with
  | nil => exact h
  | cons x r ih => exact ih (hf b x h)

section
variable {s : State}

/-! ## Scratchpad rows -/

theorem canonical_readRowMarks (l c r : Nat) (h : Canonical s) : Canonical (readRowMarks s l c r) := by
  unfold readRowMarks
  dsimp only
  split
  · exact h
  · split
    · exact canonical_countUp _ _ _ _ _ (canonical_freshRow _ h)
    · exact canonical_countCore _ _ _ _ _ _ _ (canonical_setPoison _ _ (canonical_countUp _ _ _ _ _ (canonical_freshRow _ h)))

theorem canonical_dropCached (l c r : Nat) (h : Canonical s) : Canonical (dropCached s l c r) := by
  unfold dropCached
  dsimp only
  split
  · split
    · exact canonical_setCore _ _ _ h
    · exact h
  · exact h

theorem canonical_putRow (l c r : Nat) (bs : List Byte) (p : Bool) (h : Canonical s) : Canonical (putRow s l c r bs p) :=
  canonical_dropCached _ _ _ (canonical_setPoison _ _ (canonical_freshRow _ (canonical_putBytes _ _ h)))

theorem canonical_putRows (l c r : Nat) (xs : List (List Byte × Bool)) (h : Canonical s) :
    Canonical (putRows s l c r xs) := by
  induction xs generalizing s r with
  | nil => exact h
  | cons x rest ih => exact ih (r + 1) (canonical_putRow l c r x.1 x.2 h)

theorem canonical_readRowsMarks (l c r n : Nat) (h : Canonical s) : Canonical (readRowsMarks s l c r n) := by
  induction n generalizing s r with
  | zero => exact h
  | succ n ih => exact ih (r + 1) (canonical_readRowMarks l c r h)

theorem canonical_poisonRows (l c r n : Nat) (h : Canonical s) : Canonical (poisonRows s l c r n) :=
  canonical_putRows _ _ _ _ h

/-! ## Threads -/

theorem canonical_raiseFault (w : ThreadRef) (h : Canonical s) : Canonical (raiseFault s w) := by
  cases w <;> exact canonical_setFlag _ _ h

theorem canonical_withdrawTake (w : ThreadRef) (h : Canonical s) : Canonical (withdrawTake s w) := by
  cases w with
  | core l c t => exact canonical_setCore _ _ _ h
  | deckhand l => exact h

theorem canonical_faultThread (w : ThreadRef) (code : FCode) (info : Dword) (d : Bool) (pc : BitVec 15) (h : Canonical s) :
    Canonical (faultThread s w code info d pc) := by
  unfold faultThread
  dsimp only
  split
  · split
    · exact h
    · exact canonical_setThr _ _ h
  · exact canonical_raiseFault _ (canonical_withdrawTake _ (canonical_setThr _ _ h))

theorem canonical_preciseFault (w : ThreadRef) (code : FCode) (info : Dword) (h : Canonical s) :
    Canonical (preciseFault s w code info) := canonical_faultThread _ _ _ _ _ h

theorem canonical_orphanFault (w : ThreadRef) (h : Canonical s) : Canonical (orphanFault s w) := by
  cases w with
  | core l c t => exact canonical_countCore _ _ _ _ _ _ _ h
  | deckhand l => exact h

theorem canonical_dst (w : ThreadRef) (r : BitVec 5) (v : Dword) (h : Canonical s) : Canonical (dst s w r v) :=
  canonical_setThr _ _ h

theorem canonical_pcEnd (w : ThreadRef) (h : Canonical s) : Canonical (pcEnd s w) :=
  canonical_preciseFault (s := { s with free := s.free + 1 }) _ _ _ h

theorem canonical_advance (w : ThreadRef) (n : Nat) (h : Canonical s) : Canonical (advance s w n) := by
  unfold advance
  dsimp only
  split
  · exact canonical_setThr _ _ h
  · exact canonical_pcEnd _ h

theorem canonical_correctWord (w : ThreadRef) (u : Nat) (h : Canonical s) : Canonical (correctWord s w u) := by
  unfold correctWord
  split
  · cases w with
    | core l c t => exact canonical_countCore _ _ _ _ _ _ _ (canonical_freshCheck _ h)
    | deckhand l => exact canonical_freshCheck _ h
  · exact h

theorem canonical_noteRun (w : ThreadRef) (h : Canonical s) : Canonical (noteRun s w) := by
  cases w with
  | core l c t => exact canonical_setCore _ _ _ h
  | deckhand l => exact h

/-- An issue keeps the form where the instruction's body does. -/
theorem canonical_issue (w : ThreadRef) (bad : Bool) (word : Word) {body : State → State}
    (hb : ∀ t, Canonical t → Canonical (body t)) (h : Canonical s) : Canonical (issue s w bad word body) := by
  unfold issue
  dsimp only
  split
  · split
    · exact canonical_preciseFault _ _ _ (canonical_noteRun _ h)
    · split
      · exact canonical_preciseFault _ _ _ (canonical_correctWord _ _ (canonical_noteRun _ h))
      · exact hb _ (canonical_correctWord _ _ (canonical_noteRun _ h))
  · exact h

/-! ## Stacks and words of the other memories -/

theorem canonical_readLine (l o : Nat) (h : Canonical s) : Canonical (readLine s l o) := by
  unfold readLine
  dsimp only
  split
  · exact canonical_wrPair _ _ (canonical_countUp _ _ _ _ _ (canonical_setPoison _ _ (canonical_freshCheck _ h)))
  · split
    · exact canonical_countUp _ _ _ _ _ (canonical_freshCheck _ h)
    · exact h

theorem canonical_readLines (l off n : Nat) (h : Canonical s) : Canonical (readLines s l off n) :=
  foldl_keeps (fun _ _ hb => canonical_readLine _ _ hb) _ h

theorem canonical_writeLine (l off n : Nat) (p : Bool) (o : Nat) (h : Canonical s) :
    Canonical (writeLine s l off n p o) := by
  unfold writeLine
  dsimp only
  split
  · exact canonical_setPoison _ _ (canonical_freshCheck _ h)
  · exact canonical_readLine _ _ h

theorem canonical_writeStack (l off : Nat) (bs : List Byte) (p : Bool) (h : Canonical s) :
    Canonical (writeStack s l off bs p) :=
  canonical_putBytes _ _ (foldl_keeps (fun _ _ hb => canonical_writeLine _ _ _ _ _ hb) _ h)

theorem canonical_poisonStack (l off n : Nat) (h : Canonical s) : Canonical (poisonStack s l off n) :=
  foldl_keeps (fun _ _ hb => canonical_setPoison _ _ hb) _ h

theorem canonical_startScrub (l st : Nat) (h : Canonical s) : Canonical (startScrub s l st) :=
  canonical_wrFld _ _ _ _ (canonical_setFlag _ _ ⟨memory_wf_filter _ h.1, h.2⟩)

theorem canonical_scrubLanding (l : Nat) (h : Canonical s) : Canonical (scrubLanding s l) :=
  canonical_startScrub _ _ (canonical_startScrub _ _ h)

theorem canonical_readWord (unit sp u : Nat) (h : Canonical s) : Canonical (readWord s unit sp u) := by
  unfold readWord
  split
  · split
    · exact canonical_setFlag _ _ h
    · exact h
  · split
    · dsimp only
      split
      · exact canonical_countCore _ _ _ _ _ _ _ (canonical_freshCheck _ h)
      · exact canonical_countUp _ _ _ _ _ (canonical_freshCheck _ h)
      · exact canonical_freshCheck _ h
    · exact h

theorem canonical_writtenWord (unit sp k n : Nat) (p : Bool) (u : Nat) (h : Canonical s) :
    Canonical (writtenWord s unit sp k n p u) := by
  unfold writtenWord
  dsimp only
  have h2 : Canonical (if k ≤ u ∧ u + 8 ≤ k + n then freshCheck s u else readWord s unit sp u) := by
    split
    · exact canonical_freshCheck _ h
    · exact canonical_readWord _ _ _ h
  cases p
  · exact h2
  · exact h2

theorem canonical_memRead (unit sp off n : Nat) (h : Canonical s) : Canonical (memRead s unit sp off n) := by
  unfold memRead
  split
  · exact canonical_readLines _ _ _ h
  · exact canonical_readRowMarks _ _ _ h
  · exact foldl_keeps (fun _ _ hb => canonical_readWord _ _ _ hb) _ h

theorem canonical_memWrite (unit sp off : Nat) (bs : List Byte) (p : Bool) (h : Canonical s) :
    Canonical (memWrite s unit sp off bs p) := by
  unfold memWrite
  dsimp only
  split
  · split
    · exact foldl_keeps (fun _ _ hb => canonical_setPoison _ _ hb) _ (canonical_writeStack _ _ _ _ h)
    · exact canonical_writeStack _ _ _ _ h
  · exact canonical_putRow _ _ _ _ _ h
  · exact canonical_putBytes _ _ (foldl_keeps (fun _ _ hb => canonical_writtenWord _ _ _ _ _ _ hb) _ h)

/-! ## Chainage counters -/

theorem canonical_setCtr (l c n : Nat) (x : Ctr) (h : Canonical s) : Canonical (setCtr s l c n x) := canonical_setCore _ _ _ h

theorem canonical_chEvent (l c b n : Nat) (h : Canonical s) : Canonical (chEvent s l c b n) := by
  unfold chEvent
  dsimp only
  refine canonical_raiseCore _ _ _ (canonical_setFlag _ _ ?_)
  split
  · exact canonical_wrFld _ _ _ _ h
  · exact h

theorem canonical_pairTest (l c : Nat) (xs : List Nat) (w : Word) (h : Canonical s) : Canonical (pairTest s l c xs w) := by
  unfold pairTest
  dsimp only
  split
  · split
    · exact canonical_chEvent _ _ _ _ h
    · split
      · exact canonical_chEvent _ _ _ _ (canonical_setCtr _ _ _ _ h)
      · exact h
  · exact h

theorem canonical_rawAdd (l c : Nat) (a : Add) (note : Bool) (h : Canonical s) : Canonical (rawAdd s l c a note) := by
  unfold rawAdd
  dsimp only
  split
  · split
    · exact canonical_chEvent _ _ _ _ (canonical_setCtr _ _ _ _ h)
    · exact canonical_setCtr _ _ _ _ h
  · exact h

theorem canonical_rawAdds (l c : Nat) (seen : List Nat) (xs : List Add) (h : Canonical s) :
    Canonical (rawAdds s l c seen xs) := by
  induction xs generalizing s seen with
  | nil => exact h
  | cons a r ih => exact ih _ (canonical_rawAdd _ _ _ _ h)

theorem canonical_moveCtrs (l c : Nat) (xs : List Add) (h : Canonical s) : Canonical (moveCtrs s l c xs) :=
  foldl_keeps (fun _ _ hb => canonical_pairTest _ _ _ _ hb) _ (canonical_rawAdds _ _ _ _ h)

theorem canonical_setCtrPart (l c : Nat) (x : Tab Ctr × Word × Word) (h : Canonical s) : Canonical (setCtrPart s l c x) :=
  canonical_wr _ _ (canonical_wr _ _ (canonical_setCore _ _ _ h))

theorem canonical_noteMet (l c : Nat) (h : Canonical s) : Canonical (noteMet s l c) := canonical_setCore _ _ _ h

theorem canonical_addMany (l c : Nat) (xs : List Add) (h : Canonical s) : Canonical (addMany s l c xs) := by
  unfold addMany
  split
  · exact h
  · exact canonical_noteMet _ _
      (canonical_setCore _ _ _ (canonical_moveCtrs _ _ _ (canonical_setCtrPart _ _ _ h)))

theorem canonical_addCtr (l c n inc : Nat) (a : AddSrc) (h : Canonical s) : Canonical (addCtr s l c n inc a) :=
  canonical_addMany _ _ _ h

theorem canonical_signalAfter (l c : Nat) (sctr : BitVec 6) (sinc : BitVec 8) (a : AddSrc) (h : Canonical s) :
    Canonical (signalAfter s l c sctr sinc a) := by
  unfold signalAfter
  split
  · exact h
  · exact canonical_addCtr _ _ _ _ _ h

end

end Sys2Proof.Laws
end

