-- ==== Sys2Proof/Laws/Ops.lean ====
section
/-! SUPPORT. What the shared operations of a scalar instruction do: counts and causes change registers alone, a fault
writes its thread's record and nothing else of a thread, an issue is idle, a fault or its body. -/

namespace Sys2Proof.Laws

open Sys2Proof Sys2Proof.Machine

/-- t differs from s in register words alone. -/
def RegsOnly (s t : State) : Prop := t = { s with regs := t.regs }

section
variable {s t u : State}

theorem RegsOnly.refl (s : State) : RegsOnly s s := rfl

theorem RegsOnly.trans (h : RegsOnly s t) (g : RegsOnly t u) : RegsOnly s u := by
  unfold RegsOnly at *
  rw [h] at g
  exact g

theorem regsOnly_wr (s : State) (o : Nat) (v : Word) : RegsOnly s (wr s o v) := rfl

theorem regsOnly_wrFld (s : State) (o hi lo v : Nat) : RegsOnly s (wrFld s o hi lo v) := rfl

theorem regsOnly_setFlag (s : State) (o i : Nat) : RegsOnly s (setFlag s o i) := rfl

theorem regsOnly_countUp (s : State) (o hi lo n : Nat) (c : Option (Nat × Nat)) : RegsOnly s (countUp s o hi lo n c) := by
  unfold countUp
  cases c with
  | none => rfl
  | some x =>
    dsimp only
    split <;> rfl

theorem regsOnly_countCore (s : State) (l c o hi lo n k : Nat) : RegsOnly s (countCore s l c o hi lo n k) :=
  regsOnly_countUp ..

theorem regsOnly_raiseFault (s : State) (w : ThreadRef) : RegsOnly s (raiseFault s w) := by
  cases w
  · exact regsOnly_setFlag ..
  · exact regsOnly_setFlag ..

theorem RegsOnly.mem_eq (h : RegsOnly s t) : t.mem = s.mem := by rw [h]
theorem RegsOnly.threads_eq (h : RegsOnly s t) : t.threads = s.threads := by rw [h]
theorem RegsOnly.cores_eq (h : RegsOnly s t) : t.cores = s.cores := by rw [h]
theorem RegsOnly.fuses_eq (h : RegsOnly s t) : t.fuses = s.fuses := by rw [h]
theorem RegsOnly.pending_eq (h : RegsOnly s t) : t.pending = s.pending := by rw [h]

theorem RegsOnly.lands_eq (h : RegsOnly s t) : t.lands = s.lands := by rw [h]
theorem RegsOnly.poison_eq (h : RegsOnly s t) : t.poison = s.poison := by rw [h]
theorem RegsOnly.time_eq (h : RegsOnly s t) : t.time = s.time := by rw [h]

theorem RegsOnly.getThr_eq (h : RegsOnly s t) (w : ThreadRef) : getThr t w = getThr s w := by
  unfold getThr; rw [h.threads_eq]

theorem RegsOnly.getByte_eq (h : RegsOnly s t) (k : Nat) : getByte t k = getByte s k := by
  unfold getByte; rw [h.mem_eq]

end

/-! ## What an issue does before its body -/

section
variable (s : State) (w : ThreadRef)

@[simp] theorem getThr_noteRun (v : ThreadRef) : getThr (noteRun s w) v = getThr s v := by cases w <;> rfl
@[simp] theorem noteRun_mem : (noteRun s w).mem = s.mem := by cases w <;> rfl
@[simp] theorem noteRun_regs : (noteRun s w).regs = s.regs := by cases w <;> rfl
@[simp] theorem noteRun_time : (noteRun s w).time = s.time := by cases w <;> rfl
@[simp] theorem noteRun_fuses : (noteRun s w).fuses = s.fuses := by cases w <;> rfl
@[simp] theorem noteRun_pending : (noteRun s w).pending = s.pending := by cases w <;> rfl

/-- A correction changes check bits, and the count of the core's memory. -/
theorem correctWord_spec (k : Nat) :
    (correctWord s w k).threads = s.threads ∧ (correctWord s w k).mem = s.mem ∧ (correctWord s w k).cores = s.cores ∧
      (correctWord s w k).lands = s.lands ∧ (correctWord s w k).poison = s.poison ∧
      (correctWord s w k).fuses = s.fuses ∧ (correctWord s w k).pending = s.pending ∧
      (correctWord s w k).time = s.time := by
  unfold correctWord
  split
  · cases w with
    | core l c t =>
      have h := regsOnly_countCore (freshCheck s k) l.val c.val 0x3c8 15 0 1 8
      exact ⟨h.threads_eq, h.mem_eq, h.cores_eq, h.lands_eq, h.poison_eq, h.fuses_eq, h.pending_eq, h.time_eq⟩
    | deckhand l => exact ⟨rfl, rfl, rfl, rfl, rfl, rfl, rfl, rfl⟩
  · exact ⟨rfl, rfl, rfl, rfl, rfl, rfl, rfl, rfl⟩

@[simp] theorem getThr_correctWord (k : Nat) (v : ThreadRef) : getThr (correctWord s w k) v = getThr s v := by
  unfold getThr; rw [(correctWord_spec s w k).1]

@[simp] theorem correctWord_mem (k : Nat) : (correctWord s w k).mem = s.mem := (correctWord_spec s w k).2.1

/-! ## Faults -/

@[simp] theorem getThr_withdrawTake (v : ThreadRef) : getThr (withdrawTake s w) v = getThr s v := by cases w <;> rfl
@[simp] theorem withdrawTake_mem : (withdrawTake s w).mem = s.mem := by cases w <;> rfl

@[simp] theorem getThr_raiseFault (v : ThreadRef) : getThr (raiseFault s w) v = getThr s v :=
  (regsOnly_raiseFault s w).getThr_eq v

@[simp] theorem raiseFault_mem : (raiseFault s w).mem = s.mem := (regsOnly_raiseFault s w).mem_eq

/-- A thread that is not in FAULT enters it with its record (R165). -/
theorem getThr_faultThread (code : FCode) (info : Dword) (d : Bool) (pc : BitVec 15) (h : (getThr s w).st ≠ .fault) :
    getThr (faultThread s w code info d pc) w =
      { getThr s w with
        st := .fault, wait := .none, hold := .none, yielding := false, fcode := code.num, deferred := d, more := false,
        fpc := pc, info := info } := by
  unfold faultThread
  simp [h]

/-- A fault changes no other thread. -/
theorem getThr_faultThread_ne (code : FCode) (info : Dword) (d : Bool) (pc : BitVec 15) {v : ThreadRef} (h : v ≠ w) :
    getThr (faultThread s w code info d pc) v = getThr s v := by
  unfold faultThread
  dsimp only
  split
  · split
    · rfl
    · exact getThr_setThr_ne s h _
  · rw [getThr_raiseFault, getThr_withdrawTake, getThr_setThr_ne s h]

/-- A fault changes no byte of memory. -/
@[simp] theorem faultThread_mem (code : FCode) (info : Dword) (d : Bool) (pc : BitVec 15) :
    (faultThread s w code info d pc).mem = s.mem := by
  unfold faultThread
  dsimp only
  split
  · split <;> rfl
  · simp

@[simp] theorem preciseFault_mem (code : FCode) (info : Dword) : (preciseFault s w code info).mem = s.mem :=
  faultThread_mem ..

/-- A precise fault leaves PC and registers as they were (R163). -/
theorem getThr_preciseFault (code : FCode) (info : Dword) (h : (getThr s w).st ≠ .fault) :
    (getThr (preciseFault s w code info) w).pc = (getThr s w).pc ∧
      (getThr (preciseFault s w code info) w).regs = (getThr s w).regs ∧
      (getThr (preciseFault s w code info) w).st = .fault ∧
      (getThr (preciseFault s w code info) w).fcode = code.num := by
  unfold preciseFault
  rw [getThr_faultThread s w code info false _ h]
  exact ⟨rfl, rfl, rfl, rfl⟩

/-! ## Registers and the program counter -/

@[simp] theorem setReg_zero (t : Thread) (v : Dword) : setReg t 0 v = t := by simp [setReg]
@[simp] theorem getReg_zero (t : Thread) : getReg t 0 = 0 := by simp [getReg]
@[simp] theorem setReg_pc (t : Thread) (r : BitVec 5) (v : Dword) : (setReg t r v).pc = t.pc := by
  unfold setReg; split <;> rfl
@[simp] theorem setReg_st (t : Thread) (r : BitVec 5) (v : Dword) : (setReg t r v).st = t.st := by
  unfold setReg; split <;> rfl

theorem getReg_setReg (t : Thread) {r : BitVec 5} (h : r ≠ 0) (v : Dword) : getReg (setReg t r v) r = v := by
  rw [getReg, if_neg h, setReg, if_neg h]
  exact tget_tput_same ..

theorem getReg_setReg_ne (t : Thread) {r q : BitVec 5} (h : q ≠ r) (v : Dword) :
    getReg (setReg t r v) q = getReg t q := by
  have hn : q.toNat ≠ r.toNat := fun e => h (BitVec.eq_of_toNat_eq e)
  unfold getReg setReg
  split
  · rfl
  · split
    · rfl
    · simp [tget_tput_ne _ hn]

/-- Inside scalar memory PC moves past the instruction. -/
theorem advance_ok (n : Nat) (h : (getThr s w).pc.toNat + n < 32768) :
    advance s w n = setThr s w { getThr s w with pc := BitVec.ofNat 15 ((getThr s w).pc.toNat + n) } := by
  unfold advance
  simp [h]

/-- Past word 32,767 the thread faults with PC_END (R147). -/
theorem advance_end (n : Nat) (h : ¬ (getThr s w).pc.toNat + n < 32768) : advance s w n = pcEnd s w := by
  unfold advance
  simp [h]

@[simp] theorem advance_mem (n : Nat) : (advance s w n).mem = s.mem := by
  unfold advance
  dsimp only
  split
  · rfl
  · exact faultThread_mem ..

theorem dst_spec (r : BitVec 5) (v : Dword) :
    getThr (dst s w r v) w = setReg (getThr s w) r v ∧ (dst s w r v).mem = s.mem ∧ (dst s w r v).regs = s.regs := by
  unfold dst
  simp

/-! ## Issue -/

/-- A thread that cannot issue does nothing. -/
theorem issue_idle (bad : Bool) (word : Word) (body : State → State) (h : mayIssue s w = false) :
    issue s w bad word body = s := by
  simp [issue, h]

/-- A thread that can issue a word which it can fetch and whose fields are right runs the instruction's body. -/
theorem issue_runs (word : Word) (body : State → State) (h : mayIssue s w = true) (hf : fetchBad s w 0 = false) :
    issue s w false word body =
      body (correctWord (noteRun s w) w (unitBase (localKey w (4 * (getThr s w).pc.toNat)))) := by
  have e : fetchBad (noteRun s w) w 0 = fetchBad s w 0 := by
    unfold fetchBad uncorrectable
    rw [getThr_noteRun]
    cases w <;> rfl
  simp [issue, h, e, hf]

/-- A word whose fields are wrong faults with ILLEGAL and the word as INFO (R136). -/
theorem issue_illegal (word : Word) (body : State → State) (h : mayIssue s w = true) (hf : fetchBad s w 0 = false) :
    issue s w true word body =
      preciseFault (correctWord (noteRun s w) w (unitBase (localKey w (4 * (getThr s w).pc.toNat)))) w .illegal
        (word.setWidth 64) := by
  have e : fetchBad (noteRun s w) w 0 = fetchBad s w 0 := by
    unfold fetchBad uncorrectable
    rw [getThr_noteRun]
    cases w <;> rfl
  simp [issue, h, e, hf]

/-- An issue whose body leaves memory alone leaves memory alone. -/
theorem issue_mem (bad : Bool) (word : Word) {body : State → State} (hb : ∀ t, (body t).mem = t.mem) :
    (issue s w bad word body).mem = s.mem := by
  unfold issue
  dsimp only
  split
  · split
    · simp
    · split
      · simp
      · rw [hb]; simp
  · rfl

end

end Sys2Proof.Laws
end

