-- ==== Sys2Proof/Laws/Resets.lean ====
section
/-! SUPPORT. The operations that change whole ranges of registers, threads and cores (resets, kills, grants, window
resets) keep the canonical form. -/

namespace Sys2Proof.Laws

open Sys2Proof Sys2Proof.Machine

/-! ## Reset words of window registers -/

/-- Words past a register's first that its array may take. -/
def extent (d : RegDef) : Nat := if d.n2 ≤ 1 then (if d.n ≤ 1 then 1 else d.n * d.step + 1) else d.n * d.step

theorem holds_extent {d : RegDef} {o : Nat} (hd2 : d.n2 ≤ 1 ∨ d.step ≠ 0) (h : d.holds o = true) : d.off ≤ o ∧ o < d.off + extent d := by
  unfold RegDef.holds at h
  unfold extent
  split at h
  · cases h
  · rename_i ho
    refine ⟨by omega, ?_⟩
    dsimp only at h
    have hd : ∀ x n : Nat, x / d.step < n → (d.step = 0 → x = 0) → x < n * d.step + 1 := by
      intro x n hx h0
      by_cases hs : d.step = 0
      · rw [h0 hs]; omega
      · exact Nat.lt_succ_of_lt ((Nat.div_lt_iff_lt_mul (Nat.pos_of_ne_zero hs)).mp hx)
    split at h
    · split at h
      · simp only [beq_iff_eq] at h
        simp only [*, if_true]
        omega
      · simp only [Bool.and_eq_true, beq_iff_eq, decide_eq_true_eq] at h
        simp only [*, if_true, if_false]
        have := hd _ _ h.2 (fun e => by have := h.1; rw [e, Nat.mod_zero] at this; exact this)
        omega
    · simp only [Bool.and_eq_true, beq_iff_eq, decide_eq_true_eq] at h
      simp only [*, if_false]
      have hs : d.step ≠ 0 := hd2.resolve_left ‹_›
      have := (Nat.div_lt_iff_lt_mul (Nat.pos_of_ne_zero hs)).mp h.1.1
      omega

/-- A register map whose words with a reset value other than 0 lie outside a range gives 0 inside it. -/
theorem reset_zero_of_outside {ds : List RegDef} {lo hi : Nat}
    (hds : ∀ d ∈ ds, (d.n2 ≤ 1 ∨ d.step ≠ 0) ∧ (d.reset = 0 ∨ d.off + extent d ≤ lo ∨ hi ≤ d.off)) {o : Nat}
    (h1 : lo ≤ o) (h2 : o < hi) {d : RegDef} (h : ds.find? (fun d => d.holds o) = some d) : d.reset = 0 := by
  have hm := List.mem_of_find?_eq_some h
  have hh : d.holds o = true := by simpa using List.find?_some h
  obtain ⟨ha, hb⟩ := hds d hm
  have := holds_extent ha hh
  omega

theorem regsLanding_windows :
    ∀ d ∈ regsLanding, (d.n2 ≤ 1 ∨ d.step ≠ 0) ∧ (d.reset = 0 ∨ d.off + extent d ≤ 0x30000 ∨ 0x34000 ≤ d.off) := by
  decide

theorem regsQuay_windows :
    ∀ d ∈ regsQuay, (d.n2 ≤ 1 ∨ d.step ≠ 0) ∧ (d.reset = 0 ∨ d.off + extent d ≤ 0xc0000 ∨ 0xc1000 ≤ d.off) := by
  decide

/-- Every register of a window is 0 at reset (R370). -/
theorem resetWord_window (u : Nat) {o : Nat} (h1 : winBase u 0 ≤ o) (h2 : o < winBase u 0 + 16 * winCount u) :
    resetWord o = 0 := by
  unfold resetWord
  cases h : regDef o with
  | none => rfl
  | some d =>
    have hz : d.reset = 0 := by
      unfold regDef at h
      simp only [winBase, winCount, lcBase, quayBase] at h1 h2
      by_cases hu : u < 32
      · simp only [hu, if_true] at h1 h2
        have a1 : ¬ o < 0x1000000 := by omega
        have a2 : o < 0x3000000 := by omega
        have e : (o - 0x1000000) % 0x100000 = o - (0x1000000 + u * 0x100000) := by
          have : o - 0x1000000 = (o - (0x1000000 + u * 0x100000)) + 0x100000 * u := by omega
          rw [this, Nat.add_mul_mod_self_left, Nat.mod_eq_of_lt (by omega)]
        rw [if_neg a1, if_pos a2] at h
        simp only [e] at h
        rw [if_pos (by omega)] at h
        exact reset_zero_of_outside regsLanding_windows (by omega) (by omega) h
      · simp only [hu, if_false] at h1 h2
        have a1 : ¬ o < 0x1000000 := by omega
        have a2 : ¬ o < 0x3000000 := by omega
        rw [if_neg a1, if_neg a2] at h
        by_cases a3 : o < 0x4400000
        · have e : (o - 0x4000000) % 0x100000 = o - (0x4000000 + (u - 32) * 0x100000) := by
            have : o - 0x4000000 = (o - (0x4000000 + (u - 32) * 0x100000)) + 0x100000 * (u - 32) := by omega
            rw [this, Nat.add_mul_mod_self_left, Nat.mod_eq_of_lt (by omega)]
          have a4 : 0x4000000 ≤ o := by omega
          simp only [a3, a4, decide_true, Bool.and_self, if_true] at h
          rw [e] at h
          exact reset_zero_of_outside regsQuay_windows (by omega) (by omega) h
        · simp only [a3, decide_false, Bool.and_false] at h
          cases h
    simp [hz]

/-! ## Ranges of tables -/

theorem tabOk_mapRange {α : Type} [DecidableEq α] {d : α} (lo n : Nat) (f : α → α) {t : Tab α}
    (ok : tabOk (fun _ => d) 0 t = true) : tabOk (fun _ => d) 0 (mapRange d t lo n f) = true := by
  refine tabOk_filterMap _ (fun e x hne h => ?_) ok
  split at h
  · split at h
    · cases h
    · cases h
      exact ⟨rfl, ‹_›⟩
  · cases h
    exact ⟨rfl, hne⟩

theorem tabOk_keptRegs (k : RKind) {t : Tab Word} (ok : tabOk resetWord 0 t = true) :
    tabOk resetWord 0 (keptRegs k t) = true := by
  refine tabOk_filterMap _ (fun e x hne h => ?_) ok
  dsimp only at h
  split at h
  · cases h
  · cases h
    exact ⟨rfl, ‹_›⟩

section
variable {s : State}

theorem canonical_dropRegs (lo n : Nat) (h : Canonical s) : Canonical (dropRegs s lo n) :=
  ⟨h.1, tabOk_tclear lo n h.2.1, h.2.2⟩

theorem canonical_grantRegs (l : Nat) (h : Canonical s) : Canonical (grantRegs s l) := by
  refine ⟨h.1, tabOk_filterMap _ (fun e x hne hx => ?_) h.2.1, h.2.2⟩
  dsimp only at hx
  split at hx
  · split at hx
    · split at hx
      · cases hx
      · cases hx
        exact ⟨rfl, ‹_›⟩
    · split at hx
      · cases hx
      · cases hx
        exact ⟨rfl, ‹_›⟩
  · cases hx
    exact ⟨rfl, hne⟩

theorem canonical_resetWins (u : Nat) (h : Canonical s) : Canonical (resetWins s u) := by
  refine ⟨h.1, tabOk_filterMap _ (fun e x hne hx => ?_) h.2.1, h.2.2⟩
  split at hx
  · rename_i hr
    split at hx
    · split at hx
      · cases hx
      · rename_i hw
        cases hx
        refine ⟨rfl, fun he => hw ?_⟩
        rw [resetWord_window u hr.1 hr.2] at he
        have ht : (e.2 &&& 0xff#32).toNat = 0 := congrArg BitVec.toNat he
        rw [BitVec.toNat_and] at ht
        have := Nat.and_two_pow_sub_one_eq_mod e.2.toNat 8
        simpa [wfld, bits, ← this] using ht
    · cases hx
  · cases hx
    exact ⟨rfl, hne⟩

theorem canonical_updForced (h : Canonical s) : Canonical (updForced s) :=
  foldl_keeps (fun _ _ hb => canonical_wrFld _ _ _ _ hb) _ h

theorem canonical_wipe (k : RKind) (h : Canonical s) : Canonical (wipe s k) := by
  unfold wipe
  refine canonical_updForced ?_
  have hk : ∀ t : State, t.mem = [] → t.regs = keptRegs k s.regs → t.threads = [] → t.cores = [] → t.lands = [] →
      Canonical t := by
    intro t h1 h2 h3 h4 h5
    refine ⟨by rw [h1]; rfl, by rw [h2]; exact tabOk_keptRegs k h.2.1, by rw [h3]; rfl, by rw [h4]; rfl, by rw [h5]; rfl⟩
  split
  · refine canonical_wrFld _ _ _ _ ?_
    split
    · exact hk _ rfl rfl rfl rfl rfl
    · exact canonical_wrFld _ _ _ _ (hk _ rfl rfl rfl rfl rfl)
  · refine canonical_setFlag _ _ (canonical_wrFld _ _ _ _ ?_)
    split
    · exact hk _ rfl rfl rfl rfl rfl
    · exact canonical_wrFld _ _ _ _ (hk _ rfl rfl rfl rfl rfl)

end

end Sys2Proof.Laws
end

