-- ==== Sys2Proof/Tests/Slice0.lean ====
section
/-! SUPPORT. Tests: what WellFormed refuses, the spec's worked examples, and for every statement a state and operands that
meet its hypotheses. -/

set_option Elab.async false

namespace Sys2Proof.Tests

open Sys2Proof Sys2Proof.Machine Sys2Proof.Claims

/-! ## Small states -/

/-- Every domain is ON, as after boarding. -/
def sOn : State := { regs := (upto 72).map fun d => (0x20100 + 4 * d, 0xa) }

/-- Thread 0 of core 0 of landing 0, and its core. -/
def w0 : ThreadRef := .core 0 0 0
def k0 : CoreRef := ⟨0, 0⟩

/-- That thread, READY or as given. -/
def withThread (t : Thread) (s : State) : State := setThr s w0 t
def sRun : State := withThread { st := .ready } sOn

/-- A register of a state, and several fields of one. -/
def withReg (o : Nat) (v : Word) (s : State) : State := wr s o v

/-- The module is READY. -/
def sReady : State := withReg 0x4c 0x17 sOn

/-- An engine command with no wait-before and no signal-after. -/
def e0 : EForm := ⟨0x3f, 0, 0, 0, 0, 0x3f, 0, 0⟩

/-- A core with a command at the head of a queue. -/
def withHead (e : Eng) (c : EngCmd) (run : Bool) (s : State) : State :=
  setCore s 0 0 (setQueue (getCore s 0 0) e { cmds := [c], running := run })

def cmd0 (op : BitVec 6) : EngCmd :=
  { op := op, thr := 0, pc := 0, wctr := 0x3f, mark := 0, sctr := 0x3f, sinc := 0, imm := 0, ra := 0, rb := 0, rc := 0 }

/-! ## WellFormed refuses what the rules do not allow -/

def t0 : Trans :=
  { addr := 0, score := 0, sunit := 0, smod := 0, shost := false, squay := false, tag := 0, nrows := 0, ssize := 3
    widx := 0, wgen := 0, wen := true, rcore := 0, rctr := 0x3f, rinc := 0, poison := 0, status := 0, hops :=
      0, data := 0 }

def lk0 : LinkPart := ⟨1, 0, 0, false, 0, 0, 0, true⟩

def h0 : FerryHdr :=
  { version := 1, layer := 0, seq := 0, home := 0, chain := 0, kind := 0, sub := 0, fmt := 0, dest := 0, shadow := false
    last := false, rows := 1, stripe := 0 }

def f0 : Ferry := ⟨h0, .cw, 0, 0, 0, 0, 0, 0, [List.replicate 512 0]⟩
def m0 : MsgHead := ⟨0, { lk0 with tc := 2 }, 1, 0⟩
def win0 : WinSpec := ⟨0, 0, 1, 64, true, true, true, true, true, true⟩

theorem test_wf_refuses_rows :
    Instr.wf (.write 0 lk0 { t0 with nrows := 1 } []) = false ∧ Instr.wf (.read 0 lk0 { t0 with nrows := 65 }) = false ∧
    Instr.wf (.resp 0 lk0 { t0 with nrows := 1 } [[0]]) = false ∧
    Instr.wf (.ferry 0 lk0 ⟨{ f0 with payload := [] }, 0⟩) = false ∧
    Instr.wf (.gradientWaveFetched 0 [⟨0, 0, 0, .gradient [[[(1, 0)]]]⟩]) = false ∧
      Instr.wf (.write 0 lk0 t0 []) = true := by decide

theorem test_wf_refuses_slots :
    Instr.wf (.ferryLaunch 0 .cw (2 ^ 16) h0 0) = false ∧ Instr.wf (.ferryLaunch 0 .cw 0 { h0 with rows := 65 } 0) =
      false ∧
    Instr.wf (.slotArrival 0 .cw (2 ^ 16) false false) = false ∧ Instr.wf (.lapStart 0 { slices := 65537 }) = false ∧
    Instr.wf (.lapStart 0 { slices := 1, layers := [⟨0, [], [], 0, 5⟩] }) = false ∧
    Instr.wf (.gradientSliceComplete 0 0 [0]) = false := by decide

theorem test_wf_refuses_frames :
    Instr.wf (.reservedFrame 0 lk0 1) = false ∧ Instr.wf (.loss 0 lk0 0 t0) = false ∧
      Instr.wf (.loss 0 lk0 8 t0) = false ∧
    Instr.wf (.reservedMsgtype m0 0x100) = false ∧ Instr.wf (.mctpPacket (.tc3 m0) (List.replicate 4097 0)) =
      false := by
  decide +kernel

theorem test_wf_refuses_host :
    Instr.wf (.registerWrite .hm 2 ⟨0, none⟩) = false ∧ Instr.wf (.registerWrite .hm (2 ^ 27) ⟨0, none⟩) = false ∧
    Instr.wf (.bar0Access 0 ⟨0, false, 0⟩ 2 true 0) = false ∧ Instr.wf (.apertureAccess 0 (.pf 0) 0 0 false []) =
      false ∧
    Instr.wf (.apertureAccess 0 (.vf 0) 0 2 true [0]) = false ∧ Instr.wf (.entryFetch 0 [[0]]) = false := by decide

theorem test_wf_refuses_windows :
    Instr.wf (.windowOpen .hm (.land 0) 1024 win0) = false ∧ Instr.wf (.windowClose .hm (.land 0) 1024) = false ∧
    Instr.wf (.windowCloseComplete (.land 0) 1024) = false ∧
    Instr.wf (.tenantAdd 0 64 (List.replicate 9 (0, 0, 0))) = false ∧ Instr.wf (.signCkpt 0 []) = false := by decide

/-! ## Worked examples of the spec -/

/-- The first two windows of the example of R509, whose inputs the spec gives to three digits. -/
theorem test_cap_example : nextCapLim 255 15000 19000 5200 = 180 ∧ nextCapLim 180 15000 16200 5200 = 160 := by decide

/-- R588: at stepping 0 the IDCODE reads 0x0932_076B. -/
theorem test_idcode : idcodeWord State.reset = 0x0932076b := by decide

/-- R466, R468: the cap of 18,000 W prevails over one of 20,000 W, and then over 24,000 W. -/
theorem test_cap_prevails :
    let s := (orderSafety sOn .bmc .cap 18000).1
    safeEff (orderSafety s (.pf 0) .cap 20000).1 .cap = 18000 ∧ (orderSafety s (.pf 0) .cap 20000).2 = true ∧
      (orderSafety (orderSafety s (.pf 0) .cap 20000).1 (.pf 0) .cap 24000).2 = true := by decide +kernel

/-- R40: the array of landing 9 requires its uncore, that its quay Q1. -/
theorem test_requires : requires 9 = [41] ∧ requires 41 = [65] ∧ requires 70 = [64, 65] := by decide

/-- FIPS 180-4: SHA-384 of the empty string. -/
theorem test_sha384 :
    sha384 [] = 0x38b060a751ac96384cd9327eb1b1e36a21fdb71114be07434c0cc7bf63f6e1da274edebfe76f65fbd51ad2f14898b95b := by
  decide +kernel

/-- One step of the queue with a command at its front. -/
def steps (s : State) (c : Instr) (p : State → Bool) : Bool :=
  match step { s with pending := [c] } with
  | .next t => p t
  | _ => false

/-- R144, R145: ADD on the thread's registers, and LIH replaces one quarter. -/
theorem test_step_add :
    steps (withThread { st := .ready, regs := [(2, 5), (3, 7)] } sOn) (.add w0 ⟨1, 2, 3, 0⟩)
      (fun t => getReg (getThr t w0) 1 == 12 && (getThr t w0).pc == 1 && t.pending == []) = true := by decide +kernel

theorem test_step_lih :
    steps (withThread { st := .ready, regs := [(2, 0x1111222233334444)] } sOn) (.lih w0 ⟨2, 1, 0xabcd⟩)
      (fun t => getReg (getThr t w0) 2 == 0x11112222abcd4444) = true := by decide +kernel

/-- R136, R166: an ADD whose sc is not zero is ILLEGAL, with its word in INFO. -/
theorem test_step_illegal :
    steps sRun (.add w0 ⟨1, 2, 3, 4⟩)
      (fun t => (getThr t w0).st == .fault && (getThr t w0).fcode == 1 && (getThr t w0).info == 0x221901) = true := by
  decide +kernel

end Sys2Proof.Tests

namespace Sys2Proof.Tests

open Sys2Proof Sys2Proof.Machine Sys2Proof.Claims

/-! ## Witnesses: the hypotheses of each statement can be met -/

theorem test_witness_ScalarArithmetic :
    (∃ v g, aluRow (.add w0 ⟨1, 2, 3, 0⟩) = some (w0, 1, true, v, g)) ∧
    (∃ v g, immRow (.li w0 ⟨1, 0, 5⟩) = some (w0, 1, true, v, g)) ∧
    (∃ v g, aluRow (.add w0 ⟨1, 2, 3, 1⟩) = some (w0, 1, false, v, g)) ∧
    (∃ v g, immRow (.lih w0 ⟨1, 4, 5⟩) = some (w0, 1, false, v, g)) ∧ issues sRun w0 ∧ fetches sRun w0 := by
  refine ⟨⟨_, _, rfl⟩, ⟨_, _, rfl⟩, ⟨_, _, rfl⟩, ⟨_, _, rfl⟩, ?_, ?_⟩ <;> simp only [issues, fetches] <;> decide +kernel

theorem test_witness_issues_last :
    issues (withThread { st := .ready, pc := 32766 } sOn) w0 ∧
    fetches (withThread { st := .ready, pc := 32767 } sOn) w0 := by
  simp only [issues, fetches]; decide +kernel

theorem test_witness_SpecialRegisters :
    readableSpr 0 ∧ readableSpr 4 ∧ readableSpr 9 ∧ readableSpr 0x12 ∧ ¬ readableSpr 0x20 ∧ ¬ readableSpr 0xfff ∧
    ¬ isDeckhand w0 = true := by
  simp only [readableSpr]; decide

/-- A word of local memory with an uncorrectable error. -/
def sBadWord : State := { sRun with uerr := [unitBase (localKey w0 0x1fff8)] }

theorem test_witness_LocalMemory :
    (∃ a e, loadRow (.ldD w0 ⟨1, 0, 8⟩) = some ((w0, 1, a, 8), e)) ∧
      (∃ a, storeRow (.stB w0 ⟨1, 0, 8⟩) = some (w0, 1, a, 1)) ∧
    localOk sRun w0 0x1fff8 8 false ∧ localOk sBadWord w0 0x1fff8 8 true ∧
    uncorrectable sBadWord (unitBase (localKey w0 0x1fff8)) = true ∧
    (addrOf ⟨1, 0, 0xffff⟩ {}).toNat = 2 ^ 64 - 1 := by
  refine ⟨⟨_, _, rfl⟩, ⟨_, rfl⟩, ?_⟩; simp only [localOk]; decide +kernel

theorem test_witness_ControlFlow :
    (∃ n, branchRow (.call w0 ⟨1, 0, 0xffff⟩) = some (w0, true, some 1, n) ∧ n {} = some 32767) ∧
    (∃ n, branchRow (.beq w0 ⟨1, 2, 4⟩) = some (w0, true, none, n) ∧ n {} = some 4) ∧
    (∃ n, branchRow (.bne w0 ⟨1, 2, 4⟩) = some (w0, true, none, n) ∧ n {} = none) := by
  refine ⟨⟨_, rfl, ?_⟩, ⟨_, rfl, ?_⟩, ⟨_, rfl, ?_⟩⟩ <;> decide

theorem test_witness_ThreadControl :
    (getThr (withThread { st := .ready, yielding := true } sOn) w0).yielding = true ∧
    engineBusy sRun w0 = false ∧ dirtySync sRun w0 = none ∧
    engineBusy (withHead .vec (cmd0 0x34) false sRun) w0 = true ∧
    dirtySync (withThread { st := .ready, syncset := 4 } (withHead .vec { cmd0 0x34 with wctr := 2, mark := 3 } false sOn)) w0 =
      some 2 := by
  decide +kernel

/-- A thread that waits for the response of a load, and one with a store in flight. -/
def load0 : Access :=
    ⟨7, .thread w0, .read 8, 0, none, none, 0, 1, false, some ⟨.ok, [1, 0, 0, 0, 0, 0, 0, 0], false⟩, none⟩
def sLoad : State := { withThread { st := .wait, wait := .response 7 } sOn with accs := [load0], nextId := 8 }
def sStore : State :=
  { withThread { st := .ready, posted := [7] } sOn with
    accs := [{ load0 with kind := .write [0, 0, 0, 0], res := some ⟨.windowClosed, [], false⟩ }] }

theorem test_witness_Global :
    gloadRow (.ldGD w0 ⟨1, 2, 8⟩) = some (w0, ⟨1, 2, 8⟩, 8) ∧ gstoreRow (.stGW w0 ⟨1, 2, 4⟩) = some (w0, ⟨1, 2, 4⟩, 4) ∧
    gamoRow (.amoaddW w0 ⟨1, 2, 3, 0⟩) = some (w0, ⟨1, 2, 3, 0⟩, 4, 1) ∧
    (getThr (withThread { st := .ready, posted := [1, 2, 3, 4, 5, 6, 7, 8] } sOn) w0).posted.length = 8 ∧
    answered sLoad 7 load0 w0 ⟨.ok, [1, 0, 0, 0, 0, 0, 0, 0], false⟩ ∧ (getThr sLoad w0).wait = .response 7 ∧
    failCode .ok = none ∧ failCode .amoSpace = some 0x0d ∧
    (findAccess sStore 7).isSome = true ∧ 7 ∈ (getThr sStore w0).posted ∧ (getThr sStore w0).hold = .none ∧
    findAccess { sLoad with accs := [{ load0 with res := none }] } 7 = some { load0 with res := none } := by
  simp only [answered]; decide +kernel

theorem test_witness_Posts :
    coreActive sOn 0 0 = true ∧ domState sOn 0 = 2 ∧ domState sOn 32 = 2 ∧ quarantined sOn 0 = false ∧
    postWhy sOn 0 0 0 false = 0 ∧ postWhy (withThread { st := .fault, fcode := 1 } sOn) 0 0 0 true = 0 ∧
    postWhy { sOn with fuses := { inactive := [0] } } 0 0 0 false = 2 ∧
      postWhy (withReg 0x20100 0 sOn) 0 0 0 false = 6 ∧
    domState (withReg 0x20100 0 sOn) 32 = 2 ∧ postWhy (withReg (lcBase 0 + 0xc) 0x800 sOn) 0 0 0 true = 3 ∧
    postWhy sRun 0 0 0 false = 1 ∧ postWhy sRun 0 0 0 true = 5 := by decide +kernel

theorem test_witness_EngineIssues_illegal :
    fetches (setThr sOn (.deckhand 0) { st := .ready }) (.deckhand 0) ∧ isDeckhand (.deckhand 0) = true ∧
    fetches sRun w0 ∧ fetchBad sRun w0 1 = false ∧ illegalE 0x33 { e0 with rc := 1 } = true := by
  simp only [fetches]; decide +kernel

def fullQueue : State := setCore sRun 0 0 { bank := { cmds := List.replicate 16 (cmd0 0x39) } }

theorem test_witness_EngineIssues_full :
    cmdFetches fullQueue w0 0x39 { e0 with ra := 1, rb := 2 } ∧
    16 ≤ (getQueue (getCore (cmdFetched fullQueue w0) 0 0) .bank).cmds.length := by
  simp only [cmdFetches]; decide +kernel

theorem test_witness_EngineIssues :
    engRow (.rowfill w0 { e0 with ra := 1, rb := 2 }) = some (w0, 0x39, { e0 with ra := 1, rb := 2 }, .bank) ∧
    (let s := withThread { st := .ready, regs := [(2, 1)] } sOn
     cmdFetches s w0 0x39 { e0 with ra := 1, rb := 2 } ∧
       firstReason (cmdChecks s w0 0 0x39 { e0 with ra := 1, rb := 2 }) = none ∧
     firstReason (cmdChecks s w0 0 0x39 { e0 with ra := 1, rb := 3 }) ≠ none) ∧
    engineOf 0x39 = some .bank ∧ (getThr (withThread { st := .wait, wait := .queue 0x39 e0 } sOn) w0).wait =
      .queue 0x39 e0 ∧
    reservedScalar 0xfc000000 = true ∧ reservedScalar 0xd0000000 = false ∧ reservedSubop 0xd0000000 0xff = true := by
  simp only [cmdFetches]; decide +kernel

def fill0 : EngCmd := { cmd0 0x39 with rb := 1 }
def sFill : State := withHead .bank fill0 true sOn

theorem test_witness_EngineRetire :
    headCmd sFill k0 .bank fill0 [] true ∧ coreRuns sFill 0 0 = true ∧ canRetire sFill 0 0 fill0 = true ∧
    headCmd (withHead .mtx (cmd0 0x33) true sOn) k0 .mtx (cmd0 0x33) [] true ∧
    canRetire (withHead .mtx (cmd0 0x33) true sOn) 0 0 (cmd0 0x33) = true ∧
    canRetire (withHead .mtx (cmd0 0x31) true sOn) 0 0 (cmd0 0x31) = true ∧
    canRetire (withHead .bank { fill0 with imm := 0x20000 } true sOn) 0 0 { fill0 with imm := 0x20000 } = true := by
  unfold headCmd; decide +kernel

def wait0 : EngCmd := { fill0 with wctr := 5, mark := 3 }
def sHeld : State := setCore sOn 0 0 { held := [⟨4, List.replicate 512 0, false, .plain⟩] }

theorem test_witness_EngineQueues :
    headCmd (withHead .bank fill0 false sOn) k0 .bank fill0 [] false ∧
    headCmd (withHead .bank wait0 false sOn) k0 .bank wait0 [] false ∧
      coreRuns (withHead .bank wait0 false sOn) 0 0 = true ∧
    ctrEff (getCtr (withHead .bank wait0 false sOn) 0 0 5) < 3 ∧ fill0.drains = false ∧
    firstFree (heldRows sHeld 0 0) [] (getCore sHeld 0 0).held ≠ none := by
  simp only [headCmd]; decide +kernel

/-- An MMA of core 0 runs, with a command behind it; a ROWFILL of a row that it reads waits. -/
def mma0 : EngCmd := { cmd0 0x30 with rb := 1 }
def twoHeads (b : EngCmd) : State :=
  setCore sOn 0 0 { mtx := { cmds := [mma0, b], running := true }, bank := { cmds := [{ wait0 with ra := 0 }] } }

theorem test_witness_EngineStart :
    gateOpen (withHead .mtx (cmd0 0x33) false sOn) 0 0 = true ∧
      mtxIdle (withHead .mtx (cmd0 0x33) false sOn) 0 0 = true ∧
    (let s := setLand (withHead .mtx (cmd0 0x33) false sOn) 0 { gate := List.replicate 16 0 }
     16 ≤ (gateUsed s 0).length ∧ mtxIdle s 0 0 = true) ∧
    headCmd (twoHeads { cmd0 0x33 with imm := 2 }) k0 .mtx mma0 [{ cmd0 0x33 with imm := 2 }] true ∧
    mayOverlap mma0 { cmd0 0x33 with imm := 2 } = true ∧ mayOverlap mma0 { cmd0 0x33 with imm := 1 } = false := by
  unfold headCmd; decide +kernel

theorem test_witness_CommandWatchdog :
    (let s := withHead .bank wait0 false sOn
     runEdges s 0 < (getQueue (getCore s 0 0) .bank).since + 5 ∧
       (getQueue (getCore s 0 0) .bank).since + 0 ≤ runEdges s 0) ∧
    (0 ∈ heldRows (twoHeads (cmd0 0x33)) 0 0 ∧ (0, 1) ∈ { wait0 with ra := 0 }.dstRanges) ∧
    headCmd (twoHeads (cmd0 0x33)) k0 .bank { wait0 with ra := 0 } [] false := by
  unfold headCmd; decide +kernel

/-- Group 0 of landing 0 closes over the landing itself, one arrival of core 0. -/
def sGroup : State :=
  withReg (cgBase 0 0) 1 (withReg (cgBase 0 0 + 32) 1 (withReg (cgBase 0 0 + 36) 0x201 sRun))

theorem test_witness_SyncCommands :
    syncRow (.sig w0 { e0 with sctr := 2, sinc := 1 }) = some (w0, 0x3c, { e0 with sctr := 2, sinc := 1 }, .sig) ∧
    syncIssues sRun 0 0 0 0x3c { e0 with sctr := 2, sinc := 1 } .sig ∧ markMet sRun w0 k0 e0 ∧
    (let f := { e0 with wctr := 2, wmr := 3 }
     let s := withThread { st := .ready, regs := [(3, 1)] } sOn
     syncIssues s 0 0 0 0x3d f .wait ∧ ¬ markMet s w0 k0 f) := by
  simp only [syncIssues, cmdFetches, markMet]; decide +kernel

end Sys2Proof.Tests

namespace Sys2Proof.Tests

open Sys2Proof Sys2Proof.Machine Sys2Proof.Claims

def sWaits (mark : BitVec 48) : State := withThread { st := .wait, wait := .ctr 47 mark .wait 0x3f 0 } sOn
def sClw : State := withThread { st := .wait, wait := .clw 15 0 0x3f 0 } sOn

theorem test_witness_Waiters :
    arrayOn sOn 0 = true ∧ quarantined sOn 0 = false ∧ (getThr (sWaits 0) w0).wait = .ctr 47 0 .wait 0x3f 0 ∧
    ctrEff (ctrOf (sWaits 1) k0 47) < 1 ∧ (getThr (sWaits 1) w0).wait = .ctr 47 1 .wait 0x3f 0 ∧
    timedWait (getThr (sWaits 1) w0) = some 47 ∧ waitOver (sWaits 1) 0 0 (getThr (sWaits 1) w0) = false ∧
    timedWait (getThr sClw w0) = some 63 ∧ waitOver sClw 0 0 (getThr sClw w0) = false ∧
    (getThr sClw w0).st = .wait ∧ arrayOn sClw 0 = true ∧
      (getThr sClw w0).since + (getThr sClw w0).limit ≤ runEdges sClw 0 ∧
    (let s := withThread { getThr sClw w0 with limit := 200 } sClw
     runEdges s 0 < (getThr s w0).since + (getThr s w0).limit) := by
  decide +kernel

theorem test_witness_CounterAdditions :
    (∀ a ∈ [(⟨47, 1, .thread 0⟩ : Add)], a.ctr = 47 ∧ 0 < a.inc) ∧ unpaired sOn k0 47 ∧
    (ctrOf sOn k0 47).sat = false := by
  simp only [unpaired]; decide +kernel

/-- A pair register with producer counter 46, consumer counter 47, depth 1, enabled. -/
def pair0 : Word := .ofNat 32 (46 + 47 * 2 ^ 6 + 2 ^ 12 + 2 ^ 14)

theorem test_witness_SyncSettings :
    (reachesModule .hm = true ∧ coreActive sOn 0 0 = true ∧ domState sOn 0 ≠ 0 ∧ domState sOn 32 ≠ 0 ∧
      absentLand sOn 0 = false) ∧
    ((∀ t : Fin 16, (getThr sOn (.core 0 0 t)).st = .idle) ∧ ∀ e, (getQueue (getCore sOn 0 0) e).cmds = []) ∧
    (pairEn pair0 = true ∧ pairP pair0 < 48 ∧ pairC pair0 < 48 ∧ pairP pair0 ≠ pairC pair0 ∧ pairD pair0 ≠ 0) ∧
    (∀ j < 16, pairEn (pairReg sOn 0 0 j) = false) ∧ (getThr sRun w0).st = .ready ∧
    ((getGroup sOn 0 0).now = [] ∧ (getGroup sOn 0 0).next = [] ∧
      (cgLmask (withReg (cgBase 0 0 + 32) 1 sOn) 0 0).getLsbD 0 = true) ∧
    (getGroup (setGroup sOn 0 0 { now := [(0, 1)] }) 0 0).now ≠ [] := by
  refine ⟨?_, ⟨?_, ?_⟩, ?_, ?_, ?_, ?_, ?_⟩
  case refine_3 => intro e; cases e <;> decide +kernel
  all_goals decide +kernel

/-- Core 0 has arrived in group 0, aperiodic; periodic with a period of 200. -/
def sArrived (ctl : Word) : State :=
  setGroup (withReg (cgBase 0 0 + 40) 200 (withReg (cgBase 0 0 + 36) ctl sGroup)) 0 0 { now := [(0, 1)] }

theorem test_witness_ClosureGenerations :
    (ownArrived (sArrived 1) 0 0 false = true ∧ (getGroup (sArrived 1) 0 0).sent = false ∧
      cgMasterMod (sArrived 1) 0 0 = (sArrived 1).modnum.toNat) ∧
    (isMaster (sArrived 1) 0 0 = true ∧ cgEn (sArrived 1) 0 0 = true ∧ cgPeriodic (sArrived 1) 0 0 = false ∧
      cgComplete (sArrived 1) 0 0 = true ∧ ∀ c < 256, heldClas (sArrived 1) 0 c 0 = []) ∧
    (isMaster (sArrived 3) 0 0 = true ∧ cgEn (sArrived 3) 0 0 = true ∧ cgPeriodic (sArrived 3) 0 0 = true ∧
      (sArrived 3).time.toNat % (cgPer (sArrived 3) 0 0).toNat = 0 ∧ cgComplete (sArrived 3) 0 0 = true ∧
      cgComplete (setGroup (sArrived 3) 0 0 {}) 0 0 = false ∧ cgComplete (setGroup (sArrived 1) 0 0 {}) 0 0 =
        false) := by
  decide +kernel

/-- A tile of token group 0, lane 0, offered on landing 0, and a take of thread 0. -/
def tile0 : Tile := ⟨0, 0, 0, 0, 5, false, false⟩
def sOffer : State :=
  let s := withThread { st := .wait, wait := .tile 1 } sOn
  let s := setCore s 0 0 { getCore s 0 0 with takeQ := [0] }
  setLand s 0 { getLand s 0 with tiles := [tile0] }

def sHolds : State :=
  let s := withThread { st := .ready, tile := some 5, regs := [(1, 5)] } sOn
  setLand s 0 { getLand s 0 with tiles := [{ tile0 with taken := true }] }

theorem test_witness_TileQueue :
    (fetches sRun w0 ∧ (getThr sRun w0).tile = none) ∧ (issues sHolds w0 ∧ (getThr sHolds w0).tile = some 5 ∧
      (getThr sHolds w0).tile = some (getReg (getThr sHolds w0) 1) ∧
      (getThr sHolds w0).tile ≠ some (getReg (getThr sHolds w0) 2)) ∧
    ((getCore sOffer 0 0).takeQ = [0] ∧ (getThr sOffer w0).wait = .tile 1 ∧ pickTile sOffer 0 0 = some tile0 ∧
      arrayOn sOffer 0 = true ∧ (getThr sOffer w0).pc.toNat + 1 < 32768) := by
  simp only [fetches, issues]; decide +kernel

def q0 : Queued := { f := f0, mask := 1, num := 0 }

/-- A ferry buffer of two slots at row 0, and a ferry that waits to be injected. -/
def sInject : State :=
  let s := withReg (lcBase 0 + 0x90) (.ofNat 32 (2 * 2 ^ 13)) sOn
  setLand s 0 { getLand s 0 with inject := [(0, [q0])] }

theorem test_witness_FerryBuffer :
    (injQueue (getLand sInject 0) 0 = [q0] ∧ freeSlot sInject 0 0 = some 0 ∧ arrayOn sInject 0 = true ∧
      absentLand sInject 0 = false ∧
      ∀ c < 256, (getCore sInject 0 c).mtx.running = false ∧ (getCore sInject 0 c).held = []) ∧
    (domState sOn 32 ≠ 0 ∧ (getLand sOn 0).fslots = [] ∧ (getLand sOn 0).tiles = [] ∧ (getLand sOffer 0).tiles ≠ []) ∧
    (let v : Word := .ofNat 32 (4096 + 32 * 2 ^ 13)
     1 ≤ wfld v 18 13 ∧ wfld v 18 13 ≤ 32 ∧ wfld v 12 0 + 64 * wfld v 18 13 ≤ 6144 ∧
       wfld v 12 0 ≠ rdFld sOn (lcBase 0 + 0x90) 12 0) ∧
    (let v : Word := .ofNat 32 (4097 + 32 * 2 ^ 13)
     ¬ wfld v 12 0 + 64 * wfld v 18 13 ≤ 6144) := by
  decide +kernel

end Sys2Proof.Tests

namespace Sys2Proof.Tests

open Sys2Proof Sys2Proof.Machine Sys2Proof.Claims

/-- One layer, in which slice 0 sends one weight ferry; and one with a gradient share of 1. -/
def lt0 : LaunchTable := { slices := 32, layers := [⟨0, [⟨0, 0, 1⟩], [], 0, 0⟩] }
def ltGrad : LaunchTable :=
  { slices := 32, training := true, shards := 2, layers := [⟨0, (upto 32).map fun k => ⟨2, k, 2⟩, [], 0, 1⟩] }

/-- READY, with version 1 live and a lap of it in progress on a crossing of 32 slices; landing 0 owns slot 0. -/
def sLap : State :=
  let s := withReg 0x40108 1 (withReg 0x30018 0xffff sReady)
  let s := { s with crs := { s.crs with nc := 32, inLap := true, lapVer := 1, lt := lt0 }, trainCw := [(0, { last := some 0 })] }
  setLand s 0 { getLand s 0 with credit := 256 }

theorem test_witness_FerryLaunches :
    mayLaunch sLap 0 .cw 0 false = true ∧ h0.version = sLap.crs.lapVer ∧ launchHome sLap 0 .cw 0 h0 = some 0 ∧
      ferryDue sLap 0 .cw 0 h0 = true ∧
    ferryDue sLap 0 .cw 0 { h0 with seq := 2 } = false ∧
    (launchPayload sLap 0 h0 0).isSome = true ∧ nextLive sLap .cw 0 = some 1 ∧
    (h0.kind = 0 ∧ h0.sub = 0 ∧ h0.fmt ≠ 0xf ∧ 1 ≤ h0.rows ∧ h0.rows ≤ 64) := by
  decide +kernel

/-- Landing 0 launches the gradients of home 31 clockwise in quarter 0, and has its own contribution for them. -/
def hGrad : FerryHdr := { h0 with kind := 2, home := 31, rows := 64 }
def sGradLap : State :=
  let s := withReg 0x40108 1 (withReg 0x30018 0xffff sReady)
  let s := { s with crs := { s.crs with nc := 32, inLap := true, lapVer := 1, lt := ltGrad }
                    trainCw := [(31, { last := some 0 }), (32, { last := some 0 })] }
  setLand s 0 { getLand s 0 with credit := 256, contrib := [⟨31, 0, 0, [List.replicate 512 0], [], []⟩], bounds := [⟨31, 0, 0, [[1]], [], []⟩] }

theorem test_witness_FerryLaunches_gradient :
    mayLaunch sGradLap 0 .cw 31 false = true ∧ launchHome sGradLap 0 .cw 31 hGrad = some 31 ∧
    ferryDue sGradLap 0 .cw 31 hGrad = true ∧ (launchPayload sGradLap 0 hGrad 0).isSome = true ∧
    circulating sGradLap 1 = true ∧ nextLive sGradLap .cw 0 = some 1 ∧
    (let f : Ferry := ⟨hGrad, .cw, 0, 0, 0, 0, 0, 0, []⟩
     homeId f = 31 ∧ nonfinite sGradLap 0 f 0 = false ∧
       ((findRows (getLand sGradLap 0).contrib 31 0 0).map fun r => (r.rows.getD 0 []).length) = some 512) := by
  decide +kernel

theorem test_witness_FerryLaunches_carry :
    (let h := { h0 with kind := 1, dest := 16 }
     mayLaunch sGradLap 0 .cw 32 true = true ∧ launchHome sGradLap 0 .cw 32 h = some 0 ∧
       (launchPayload sGradLap 0 h 0).isSome = true) ∧
    h0.kind ≠ 1 ∧ launchHome sLap 0 .cw 0 { h0 with seq := 2 } = some 0 := by
  decide +kernel

/-- A ferry that landing 31 sent on in slot 0. -/
def sPasses (f : Ferry) : State := { sLap with trainCw := [(0, ⟨some f, 0, some 31, 0⟩)] }

theorem test_witness_RingStops :
    stopAt (sPasses f0) 0 .cw 0 ∧ stopAt { sLap with trainCw := [(127, ⟨none, 1, some 31, 0⟩)] } 0 .cw 127 ∧
    (sPasses f0).crs.ext = false ∧ (nextLive (sPasses f0) .cw 0).isSome = true ∧
    slotOwner (sPasses f0) 0 = some 0 ∧ slotOwner (sPasses f0) 1 ≠ some 0 ∧
    damage sLap { f0 with hops := 31 } = none ∧ damage sLap { f0 with hops := 32 } = some .stray ∧
    damage sLap { f0 with hdr := { h0 with version := 2 } } = some .staleVer ∧
    damage sLap { f0 with hdr := { h0 with sub := 4 } } = some .badKind ∧
    emptyHdr { h0 with kind := 4 } = true ∧ emptyHdr h0 = false ∧ isDatum f0 = true := by
  simp only [stopAt]; decide +kernel

def seen0 : List Seen := [⟨0, 0, 0, 0, .cw, 1, true⟩]
def sEnds : State := setLand sLap 0 { getLand sLap 0 with seen := seen0 }
def sStarts : State := { sLap with crs := { sLap.crs with inLap := false } }

theorem test_witness_Laps :
    (let s : State := { sLap with crs := { sLap.crs with ext := true } }
     s.crs.ext = true ∧ liveLand s 0 = true ∧ uncoreOn s 0 = true ∧ arrayOn s 0 = true) ∧
    (sEnds.crs.inLap = true ∧ liveLand sEnds 0 = true ∧ (getLand sEnds 0).ended = false ∧ lapReceived sEnds 0 = true ∧
      rdPair sEnds 0x40018 ≤ sEnds.time.toNat ∧ (liveLands sEnds).any (fun k => k != 0 && !(getLand sEnds k).ended) =
        true) ∧
    (let s := { sEnds with lands := (upto 32).map fun k => (k, { getLand sEnds k with ended := k != 0 }) }
     lapReceived s 0 = true ∧ ∀ k ∈ liveLands s, k ≠ 0 → (getLand s k).ended = true) := by
  decide +kernel

theorem test_witness_Laps_start :
    sStarts.crs.inLap = false ∧ isReady sStarts = true ∧ fatal sStarts = false ∧
    (let b := boundary sStarts lt0
     (versionDue b 0).1 = 1 ∧ lapsRun b = true ∧ allLaunchers b 1 = true ∧
      allLaunchers (boundary (withReg 0x20100 0 sStarts) lt0) 1 = false) := by
  decide +kernel

/-- One slice sends two gradients, SEQ 0 and 1, whose scales landing 0 has recorded: one wave. -/
def ltGrad1 : LtLayer := ⟨0, [⟨2, 0, 2⟩], [], 0, 1⟩
def sWave : State :=
  let s := { sLap with crs := { sLap.crs with lt := { ltGrad with layers := [ltGrad1] } } }
  setLand s 0 { getLand s 0 with bounds := [⟨0, 0, 0, [[1]], [], []⟩] }
def wave0 : List WaveItem := [⟨0, 0, 0, .gradient []⟩, ⟨0, 0, 1, .gradient []⟩]

theorem test_witness_Laps_waves :
    (wave0.any waveGrad = true ∧ sWave.crs.inLap = true ∧
      (sWave.crs.lt.layers.find? fun y => wholeWave sWave 0 y wave0).isSome = true ∧ arrayOn sWave 0 = true ∧
      liveLand sWave 0 = true) ∧
    (wholeWave sWave 0 ltGrad1 (wave0.take 1) = false ∧ (wave0.take 1).any waveGrad = true) ∧
    [({ home := 0, layer := 0, seq := 0, rows := .bounds [] } : WaveItem)].any waveGrad = false ∧
    lapReceived sLap 0 = false ∧ sLap.crs.stalled = false := by decide +kernel

/-- Heat configuration with every divisor, so that the forecast is defined. -/
def sCool (s : State) : State :=
  let s := withReg 0x30008 0
    (withReg 0x30004 0x00000101 (withReg 0x30010 1 (withReg 0x3000c (.ofNat 32 (0x7ff * 2 ^ 15 + 5 * 2 ^ 10)) s)))
  { s with pwr := { s.pwr with pulses := List.replicate 10 0, hotDen := 1 } }

/-- A forecast without heat stays at an inlet temperature of 0 °C. -/
theorem fcLoop_cold (s : State) (n : Nat) (hg : ∀ q, inletGoal s q = 0) (hp : ∀ k, plannedHeat s n k = 0) :
    ∀ f k x, x.tin = 0 → x.peak = 0 → (fcLoop s n f k x).peak = 0 := by
  intro f
  induction f with
  | zero => intro k x _ h; exact h
  | succ f ih =>
    intro k x ht hk
    unfold fcLoop
    refine ih _ _ ?_ ?_ <;> simp [hg, hp, ht, hk, junction]

def sBound : State := boundary (sCool sStarts) lt0

theorem forecast_cold (s : State) (h0 : avgHeat s = 0 ∧ rdFld s 0x20014 31 16 = 0 ∧ wfld s.pwr.loop 24 15 = 0 ∧
    wfld s.pwr.base 9 0 = 0 ∧ s.pwr.inlet = 0) : (forecast s 1).peak = 0 := by
  unfold forecast
  refine fcLoop_cold _ _ (fun q => ?_) (fun k => ?_) _ _ _ ?_ ?_
  · simp [inletGoal, h0.2.2.1, h0.2.2.2.1]
  · simp [plannedHeat, h0.1, h0.2.1]
  all_goals simp [h0.2.2.2.2]

theorem test_witness_Laps_no_hold :
    (versionDue sBound 0).1 = 1 ∧ lapsRun sBound = true ∧ allLaunchers sBound 1 = true ∧
    bhold (lapForecast sBound) = false := by
  refine ⟨by decide +kernel, by decide +kernel, by decide +kernel, ?_⟩
  have hd : fcDefined (takeThm sBound) = true := by decide +kernel
  have hl : ¬ holdLimit (takeThm sBound) ≤ 0 := by decide +kernel
  have hc : (forecast (takeThm sBound) 1).peak = 0 := forecast_cold _ (by decide +kernel)
  have ht : tenths 0 = 0 := by decide
  simp only [lapForecast, peakOf, hd, if_true, hc, ht, hl, if_false]
  decide +kernel

def sBoundHeld : State := boundary { sCool sStarts with pwr := { (sCool sStarts).pwr with swHold := true } } lt0

theorem test_witness_Laps_hold :
    (versionDue sBoundHeld 0).1 = 1 ∧ lapsRun sBoundHeld = true ∧ allLaunchers sBoundHeld 1 = true ∧
    bhold (lapForecast sBoundHeld) = true := by
  refine ⟨by decide +kernel, by decide +kernel, by decide +kernel, ?_⟩
  have hd : fcDefined (takeThm sBoundHeld) = true := by decide +kernel
  have hl : ¬ holdLimit (takeThm sBoundHeld) ≤ 0 := by decide +kernel
  have hc : (forecast (takeThm sBoundHeld) 1).peak = 0 := forecast_cold _ (by decide +kernel)
  have ht : tenths 0 = 0 := by decide
  simp only [lapForecast, peakOf, hd, if_true, hc, ht, hl, if_false]
  decide +kernel

def withLstate (v n : Nat) : State := withReg 0x40104 (.ofNat 32 n) (withReg 0x40108 (.ofNat 32 v) sReady)

theorem test_witness_VersionOrders :
    reachesModule .hm = true ∧ (lstate (withLstate 1 0) = 0 ∧ retVer (withLstate 1 0) = 0 ∧
      liveVer (withLstate 1 0) = 1) ∧
    lstate (withLstate 1 3) = 3 ∧ lstate (withLstate 1 1) = 1 ∧ retVer (withLstate 0x20001 4) = 2 ∧
    lstate (withLstate 1 4) = 4 ∧
    rdFld (withLstate 1 3) 0x40100 17 17 = 0 ∧ rdFld (withReg 0x40100 0x20000 sReady) 0x40100 17 17 = 1 := by
  decide +kernel

def withCrs (f : Crs → Crs) (s : State) : State := { s with crs := f s.crs }
def reload0 : Reload := ⟨0, 1, 2, 1⟩
/-- Shadows on, landing 0 at home in area 0, landing 1 with a free area 2 of 4 KiB. -/
def sCopy : State :=
  let s := withReg 0x40108 1 sReady
  let s := withReg (rArea 0 0 + 4) (.ofNat 32 (2 ^ 28 + 1)) (withReg (rArea 1 2 + 4) 1 s)
  withCrs (fun c => { c with lapCtl := 0x10028 }) s

/-- Gradients of landing 0, whose area 0 is free, with every ferry of its slice or without one. -/
def sGrad (qs : List Nat) : State :=
  let s := withReg (rArea 0 0 + 4) 1 (withCrs (fun c => { c with nc := 32, lt := ltGrad }) sReady)
  setLand s 0 { getLand s 0 with gradArea := qs.map fun q => ⟨0, 0, q, [[0]], [], []⟩ }

theorem test_witness_LoadEvents :
    (lstate (withLstate 1 1) = 1 ∧ (withLstate 1 1).crs.viaLocal = false ∧ opBusy (withLstate 1 1) .load = false) ∧
    (let s := withCrs (fun c => { c with viaLocal := true }) (withLstate 1 1)
     lstate s = 1 ∧ s.crs.viaLocal = true ∧ localCopies s = []) ∧
    (let s := withLstate 1 2; lstate s = 2 ∧ s.crs.viaLocal = false ∧
      rootOf (s.sto.leaves.filterMap fun e => e.2) = vdig s ∧
        rootOf ([(0, some 5)].filterMap fun e : Nat × _ => e.2) ≠ vdig s) ∧
    (let s := withCrs (fun c => { c with viaLocal := true }) (withLstate 1 2)
     lstate s = 2 ∧ s.crs.viaLocal = true ∧ imageReach s s.sto.incMap = true) ∧
    (let s := { sOn with sto := { sOn.sto with reloads := [reload0] } }
     reload0 ∈ s.sto.reloads ∧ reload0.home = 0 ∧ opBusy s (.reload reload0.home reload0.ver) = false) := by
  decide +kernel

theorem test_witness_LoadEvents_copies :
    (shadowOn sCopy = true ∧ liveVer sCopy = 1 ∧ (homeSlices sCopy).head? = some (0, 0) ∧
      shadowHolder sCopy 0 = some 1 ∧
      areaWith sCopy 0 1 homeAreas = some 0 ∧ liveLand sCopy 0 = true ∧ hasShadow sCopy 1 0 1 = false ∧
      copyReach sCopy 0 (areaBase sCopy 0 0) 1 (areaBase sCopy 1 2) (sliceLen sCopy.sto.liveMap 0) = true ∧
      (shadowAreas.find? fun j => areaUse sCopy 1 j == 0 && sliceLen sCopy.sto.liveMap 0 ≤ areaSize sCopy 1 j) =
        some 2) ∧
    (let s := sGrad [0, 1]
     liveLand s 0 = true ∧ arrayOn s 0 = true ∧ (getLand s 0).gradArea ≠ [] ∧ gradsComplete s 0 = true ∧
      areaWith s 0 0 homeAreas = some 0 ∧ 4096 ≤ areaSize s 0 0 ∧ stackReach s 0 (areaBase s 0 0) 4096 = true) ∧
    gradsComplete (sGrad [0]) 0 = false := by
  decide +kernel

end Sys2Proof.Tests

namespace Sys2Proof.Tests

open Sys2Proof Sys2Proof.Machine Sys2Proof.Claims

/-- A stream of two rows, armed, that loads or stores. -/
def ctx0 (store : Bool) : Ctx :=
  { st := .armed, d := { store := store, ring := 4, blkrows := 2, count := 1, gctr := 0x3f, rctr := 0x3f } }
def sStream (store : Bool) : State := setCtx sOn 0 0 31 (ctx0 store)

theorem test_witness_StreamRequests :
    serves (sStream false) k0 31 .row ∧ serves (sStream true) k0 31 .row ∧
    (ctxOf (sStream false) k0 31).d.store = false ∧ (ctxOf (sStream true) k0 31).d.idx = false ∧
    (coreRuns sOn 0 0 = true ∧ ∀ j < 32, offer sOn k0 j = none) := by
  simp only [serves]; decide +kernel

def rowAcc (res : Option AResult) : Access := ⟨7, .row k0 31 0, .readRow, 0, none, none, 0, 0, false, res, none⟩
def sRow (res : Option AResult) : State := { sStream false with accs := [rowAcc res] }

theorem test_witness_StreamResponses_store :
    let a := { rowAcc none with kind := .writeRow [] false, away := true }
    findAccess { sOn with accs := [a] } 7 = some a ∧ a.src = .row k0 31 0 ∧ a.res = none ∧ a.away = true :=
      by decide +kernel

theorem test_witness_StreamResponses :
    (∀ r ∈ [(⟨.ok, [1], false⟩ : AResult), ⟨.lost, [], true⟩, ⟨.windowClosed, [], false⟩],
      rowEnds (sRow (some r)) (.streamResponse 7) 7 k0 31 0 r) ∧
    rowEnds (sRow none) (.tagTimeout 7) 7 k0 31 0 ⟨.lost, [], true⟩ ∧
    rowHeld (sRow none) 0 0 0 = false ∧ refusedStatus .windowClosed = true ∧ refusedStatus .ok = false := by
  refine ⟨?_, ⟨_, rfl, rfl, rfl, .inr ?_⟩, ?_⟩
  · intro r hr
    refine ⟨rowAcc (some r), ?_, rfl, rfl, .inl ?_⟩
    · simp [findAccess, sRow, rowAcc]
    · refine ⟨rfl, rfl, ?_, ?_⟩ <;> (simp at hr; obtain rfl | rfl | rfl := hr) <;> decide +kernel
  all_goals decide +kernel

/-- An arming of no rows, and one past its deadline. -/
def sEmpty : State := setCtx sOn 0 0 31 { ctx0 false with d := { (ctx0 false).d with count := 0 } }
def sDeadline : State := { setCtx sOn 0 0 31 { ctx0 false with d := { (ctx0 false).d with dl := 5 } } with edges := 5 }

/-- Window 1023 of landing 0 admits landing 0 bound to job 1, everywhere. -/
def sWin : State :=
  let w : WinSpec := { win0 with job := 0x40, pages := 0x1000 }
  let s := withReg (lcBase 0 + 0xc) 1 (withReg (lcBase 1 + 0xc) 1 sOn)
  openWin (writeWin s 0 1023 w) 0 1023
def sig0 : Trans := { t0 with widx := 1023, rctr := 47, rinc := 3 }

theorem test_witness_StreamEnds :
    (coreRuns sEmpty 0 0 = true ∧ armingOver (ctxOf sEmpty k0 31) = true) ∧
    (coreRuns sDeadline 0 0 = true ∧ (ctxOf sDeadline k0 31).st = .armed ∧ (ctxOf sDeadline k0 31).d.dl = 5 ∧
      (ctxOf sDeadline k0 31).missed = false ∧ (ctxOf sDeadline k0 31).fillTo ≤ (ctxOf sDeadline k0 31).pre ∧
      (ctxOf sDeadline k0 31).start + (ctxOf sDeadline k0 31).d.dl ≤ sDeadline.edges) ∧
    (gaMod sig0.addr = sWin.modnum.toNat ∧ landSpace (gaSpace sig0.addr) = true ∧ gaUnit sig0.addr = 0 ∧
      sig0.rctr.toNat < 48 ∧ sig0.wen = true ∧
      absentLand sWin 0 = false ∧ landFailed sWin 0 = false ∧ quarantined sWin 0 = false ∧
      winGen sWin 0 1023 = sig0.wgen ∧ admitsSignal sWin 0 1023 (winSrc sWin (.port 0 sig0) 0 0) = true ∧
      arrayOn sWin 0 = true ∧ coreActive sWin 0 0 = true ∧ unpaired sWin k0 47 ∧ (ctrOf sWin k0 47).sat = false) ∧
    winGen (withReg (rWctl 0 1023) 1 sWin) 0 1023 ≠ sig0.wgen := by
  simp only [unpaired]; decide +kernel

def sClosing : State := closeWin sWin 0 1023

theorem test_witness_WindowsAndStacks :
    (1023 < winCount (unitNum (.land 0)) ∧ unitOn sOn 0 = true ∧ 255 < winCount (unitNum (.quay 3)) ∧
      unitOn sOn 35 = true) ∧
    (winClosing sClosing 0 1023 = true ∧ winBusy sClosing 0 1023 = false ∧ winOpen sClosing 0 1023 = false ∧
      noKills sClosing ∧ sClosing.hm.closes = []) ∧
    (winBusy { sClosing with accs := [{ load0 with res := none, via := some (winKey 0 1023) }] } 0 1023 = true) ∧
    (let s := withReg (scBase 0 1) 0x1000000 sOn
     scrubbing s 0 1 = true ∧ noKills s ∧ scrubbing s 0 0 = false) ∧
    (let s := { withReg (scBase 0 1 + 4) 1 sOn with uerr := [stackKey 0 64] }
     uncoreOn s 0 = true ∧ absentLand s 0 = false ∧ rdFld s (scBase 0 1 + 4) 15 0 ≠ 0 ∧ scrubbing s 0 1 = false ∧
       selfRefresh s 0 1 = false ∧ inStack 0 0 (stackKey 0 64) = true ∧ uncorrectable s (stackKey 0 64) = true) := by
  simp only [noKills]; decide +kernel

/-- An access of thread 0 to an address of this module. -/
def access (k : AKind) (a : Dword) : Access := ⟨7, .thread w0, k, a, none, none, 0, 1, false, none, none⟩
def sOut (k : AKind) (a : Dword) (s : State) : State := { s with accs := [access k a] }

theorem test_witness_RemoteAccesses :
    (∀ k ∈ [AKind.read 8, .write [1, 2, 3, 4], .amo 8 5], ∀ u ∈ [0, 1],
      let a := BitVec.ofNat 64 (2 ^ 48 * u)
      let s := sOut k a sWin
      let s := if u = 1 then openWin (writeWin s 1 0 { win0 with job := 0x40 }) 1 0 else s
      outbound s 7 (access k a) ∧ gaMod a = s.modnum.toNat ∧ isScalar k = true ∧
      accAddrBad s (access k a) u 0 0 = false ∧
      (checkWindow s (access k a) (.land s.modnum.toNat 0 0) (.core 0 0) u 0 0 =
        .go (if u = 1 then some (winKey 1 0) else none)) ∧
      accOn s (access k a) u 0 0 = true ∧ partBad s u 0 0 4 = false) ∧
    (accAddrBad sOn (access (.read 8) 4) 0 0 4 = true) ∧
    checkWindow sOn (access (.read 8) (.ofNat 64 (2 ^ 48))) (.land 0 0 0) (.core 0 0) 1 0 0 = .denied ∧
    accOn (withReg 0x20100 0 (withReg 0x20180 0 sOn)) (access (.read 8) 0) 0 0 0 = false := by
  simp only [outbound]; decide +kernel

/-- A checkpoint plan of one block, in quay SRAM at 0. -/
def plan0 : List Byte :=
  leBytes 4 0x4e4c5059 ++ [2, 0, 0, 0] ++ leBytes 4 1 ++ List.replicate 52 0 ++
    leBytes 8 0 ++ leBytes 4 1 ++ leBytes 4 1 ++ leBytes 8 9 ++ [0, 0, 1, 0, 0, 0, 0, 0]
def sPlan : State := putBytes (withReg 0x8000c 0x4000 (withReg 0x80008 0 sOn)) (memKey 0 4 0) plan0

/-- A read of a load that has been sent to target 15, with its connection; and one that waits for the Connect. -/
def nv0 : NvCmd := { id := 5, use := .load 0, tgt := 15, op := 2, nsid := 1, slba := 0, blocks := 1, data := [], sent := true }
def nvC : NvCmd := { id := 4, use := .connect, tgt := 15, op := 3, nsid := 0, slba := 0, blocks := 0, data := [], sent := true }
def sNv (cs : List NvCmd) : State :=
  { sOn with sto := { sOn.sto with cmds := cs }, xpt := { sOn.xpt with qps := [{ port := 8, qp := 1, tgt := 15 }] } }

/-- The load's slice map puts its block into home area 0 of landing 0, whose uncore is OFF. -/
def sBarred : State :=
  let s := withReg 0x20180 0 (withReg (rArea 0 0 + 4) (.ofNat 32 (2 * 2 ^ 28 + 1)) (sNv [nv0]))
  { s with crs := { s.crs with nc := 32 }, sto := { s.sto with incMap := [⟨0, 4096, 0, 0⟩] } }

theorem queueRoom_two (t : Nat) : 2 ≤ queueRoom t := by
  unfold queueRoom
  exact Nat.le_trans (Nat.le_add_left 2 _) (Nat.le_mul_of_pos_left _ (Nat.succ_pos _))

theorem test_witness_StorageEvents :
    (reachesModule .hm = true ∧ sOn.sto.ck.step = .idle ∧ readPlan sOn 0x80008 2 0 = none) ∧
    ({ sOn with sto := { sOn.sto with ck := { step := .slots } } }).sto.ck.step ≠ .idle ∧
    (sPlan.sto.ck.step = .idle ∧ (readPlan sPlan 0x80008 2 0).isSome = true ∧
      ((readPlan sPlan 0x80008 2 0).map fun p => ckPlanOk sPlan p.2 && field p.1 20 1 ≤ 15) = some true ∧
      (let s := setLand sPlan 0 { out := true }
       (readPlan s 0x80008 2 0).map fun p => ckPlanOk s p.2) = some false) ∧
    (sentCmd (sNv [nv0]) 5 nv0 ∧ nv0.op = 2 ∧ cmdPlaces (sNv [nv0]) nv0.use 0 4096 = []) ∧
    (sentCmd sBarred 5 nv0 ∧
      ((cmdPlaces sBarred nv0.use 0 4096).any fun p => barred sBarred (quayOf 15) { wr := true } p) = true) := by
  simp only [sentCmd]; decide +kernel

theorem test_witness_StorageEvents_targets :
    (let s := sNv [nvC, { nv0 with sent := false }]
     sentCmd s 4 nvC ∧ loadWaits s 15 ∧ hasQp s 15 = true ∧
       (∀ d ∈ s.sto.cmds, d.tgt = 15 → d.use = .connect → d.id = 4) ∧
       (s.sto.cmds.filter fun d => d.tgt == 15).length = 2) ∧
    (let s := sNv [nv0]
     hasQp s 15 = true ∧ loadWaits s 15 ∧ .load ∉ s.sto.lost ∧ .load ∈ { s.sto with lost := [.load] }.lost) := by
  simp only [sentCmd, loadWaits]; decide +kernel

end Sys2Proof.Tests

namespace Sys2Proof.Tests

open Sys2Proof Sys2Proof.Machine Sys2Proof.Claims

/-- Port 5 of the group ALL is UP with module 1 behind it, and every route leads there. -/
def sPort : State := withReg 0x51000 0x55555555 (withReg (rPort 5) (.ofNat 32 (2 + 6 * 16 + 256)) sOn)
def withPort (x : Port) (s : State) : State := setPort s 5 x
def sent0 : Sent := ⟨0, 1, 0, .acc 3 t0 []⟩
def sent1 : Sent := { sent0 with lseq := 1 }
/-- Transactions for this module, of 8 bytes and of 64 rows, and one for module 1. -/
def tRows : Trans := { t0 with nrows := 64 }
def tAway : Trans := { t0 with addr := .ofNat 64 (2 ^ 53), hops := 15 }

theorem test_witness_RequestFrames :
    asks (.write 5 lk0 t0 []) 5 lk0 t0 0 (.write (leBytes 8 0)) ∧
    asks (.write 5 lk0 tRows []) 5 lk0 tRows 0 (.writeRow ((List.range 64).flatMap fun _ => fitTo 0 512 []) false) ∧
    asks (.read 5 lk0 tAway) 5 lk0 tAway 0 (.read 8) ∧ asks (.signal 5 lk0 t0) 5 lk0 t0 0 .signal ∧
    asks (.amo 5 lk0 { t0 with ssize := 2 }) 5 lk0 { t0 with ssize := 2 } 0 (.amo 4 0) := by
  refine ⟨.inl ⟨[], rfl, rfl, .inl ⟨?_, rfl⟩⟩, .inl ⟨[], rfl, rfl, .inr ⟨?_, rfl⟩⟩,
    .inr (.inl ⟨rfl, rfl, .inl ⟨?_, rfl⟩⟩),
    .inr (.inr (.inl ⟨rfl, rfl, rfl⟩)), .inr (.inr (.inr ⟨rfl, rfl, ?_, rfl⟩))⟩ <;>
    simp only [scalarTrans, rowsTrans] <;> decide

theorem test_witness_frames_come :
    comes sPort 5 lk0 ∧ gaMod t0.addr = sPort.modnum.toNat ∧ gaMod tAway.addr = 1 ∧ tAway.hops < 16 ∧
    groupDown sPort (roleTo sPort 1) = false := by
  simp only [comes]; decide +kernel

def rsp0 : Trans := { t0 with tag := 7 }
def sAway (k : AKind) (src : ASrc) : State :=
    { sPort with accs := [{ load0 with src := src, kind := k, res := none, away := true }] }

theorem test_witness_OtherFrames :
    (comes (sAway (.read 8) (.thread w0)) 5 lk0 ∧ gaMod rsp0.addr = sPort.modnum.toNat ∧ rsp0.poison = 0 ∧
      (awaiting (sAway (.read 8) (.thread w0)) rsp0.tag).isSome = true ∧ isScalar (.read 8) = true ∧
      (awaiting (sAway .readRow (.row k0 0 0)) rsp0.tag).isSome = true ∧ isScalar .readRow = false) ∧
    (sPort.crs.ext = false ∧
      (let s : State := withCrs (fun c => { c with ext := true, nc := 257 }) sPort
       s.crs.ext = true ∧ 1027 < slotCount s ∧ atEdge s .cw (getTSlot s .cw 1027) = true ∧
         (getTSlot s .cw 1027).ferry = none)) ∧
    (slipUp sPort 5 = true ∧ lk0.crcOk = true ∧ (getPort sPort 5).skip = false ∧ lk0.ackv = false ∧
      (getPort (withPort { sent := [sent0, sent1] } sPort) 5).sent = [] ++ sent0 :: [sent1] ∧
      sent0.lseq = { lk0 with ackv := true }.lack.toNat) := by
  simp only [comes]; decide +kernel

theorem test_witness_OtherFrames_loss :
    comes sPort 5 lk0 ∧ gaMod tRows.addr = sPort.modnum.toNat ∧ rowsTrans tRows ∧
    rowsTrans { tAway with nrows := 1 } ∧ gaMod tAway.addr ≠ sPort.modnum.toNat ∧ ({ tRows with status := 5 }).status =
      5 := by
  simp only [comes, rowsTrans]; decide +kernel

theorem test_witness_RequestFrames_whole : ¬ lostWrite (.write 5 lk0 t0 []) t0 ∧
    ¬ lostWrite (.read 5 lk0 tAway) tAway :=
  ⟨fun h => absurd h.2 (by decide), fun h => absurd h.2 (by decide)⟩

theorem test_witness_LinkErrors_ahead :
    linkOf (.read 5 { lk0 with lseq := 3 } t0) = some (5, { lk0 with lseq := 3 }) ∧
      inSeq (.read 5 { lk0 with lseq := 3 } t0) ∧
    (getPort sPort 5).skip = false ∧ seqAhead 3 (getPort sPort 5).exp = true := by
  refine ⟨rfl, ?_, ?_⟩
  · simp [inSeq]
  · decide +kernel

theorem test_witness_LinkErrors :
    (linkOf (.idle 5 { lk0 with crcOk := false }) = some (5, { lk0 with crcOk := false }) ∧ slipUp sPort 5 = true ∧
      (getPort sPort 5).skip = false) ∧
    (let s := withPort { sent := [sent0, sent1], tried := some (1, 3) } sPort
     slipUp s 5 = true ∧ (getPort s 5).sent = [sent0] ++ sent1 :: [] ∧ sent1.lseq = (1 : BitVec 16).toNat ∧
       (∀ y ∈ [sent0], y.lseq ≠ 1) ∧ (getPort s 5).tried = some (1, 3)) ∧
    (getPort (withPort { sent := [sent0] } sPort) 5).tried = none ∧
    (getPort (withPort { sent := [sent0], tried := some (0, 4) } sPort) 5).tried = some (0, 4) := by
  decide +kernel

def queued (tc : Nat) : State := pushFrame sPort 6 tc (.acc 3 t0 [])

theorem test_witness_FrameSends :
    slipUp sPort 5 = true ∧ (getPort (withPort { ctl := [⟨0, 0, 0, .nack 3⟩] } sPort) 5).ctl ≠ [] ∧
    (getPort (withPort { replay := [sent0] } sPort) 5).replay = sent0 :: [] ∧
    (canSend (queued 2) 5 2 = true ∧ queueOf (queued 2) (portRole (queued 2) 5) 2 = [.acc 3 t0 []]) ∧
    (canSend (queued 3) 5 3 = true ∧ canSend (queued 3) 5 2 = false ∧
      queueOf (queued 3) (portRole (queued 3) 5) 3 = [.acc 3 t0 []]) ∧
    (∀ tc < 4, canSend sPort 5 tc = false) := by
  decide +kernel

def msg0 : MsgHead := ⟨5, { lk0 with tc := 2 }, 1, 0⟩
def withTstat (v : Nat) (s : State) : State := withReg rTstat (.ofNat 32 v) s
/-- Module 1 is the CW neighbour, behind port 5. -/
def sRing : State := withPort { met := true } (withReg (rPort 5) (.ofNat 32 (2 + 2 * 16 + 256)) sOn)
/-- Group 0 closes over this module and module 1, periodic off; module 0 is the master. -/
def sSys : State :=
  withReg 0x51000 0x55555555
    (withReg (cgBase 0 0 + 32) 1 (withReg (cgBase 0 0 + 36) 0x5 (withReg (cgBase 0 0) 1 sPort)))

theorem test_witness_Messages :
    (msgRow (.heartbeat { msg0 with dst := 1 }) = some ({ msg0 with dst := 1 }, 2, [], []) ∧ comes sPort 5 msg0.link) ∧
    msgComes sPort msg0 ∧ (msgComes sRing msg0 ∧ msg0.src.toNat ≠ sRing.modnum.toNat ∧ 1 ∉ sRing.xpt.declared ∧
      isNeighbour sRing 1 = true ∧ isNeighbour sRing 2 = false) := by
  simp only [msgComes, comes]; decide +kernel

theorem test_witness_Messages_types :
    (msgTypeOf 2).isSome = true ∧ groupDown sPort (msgRole sPort 1) = false ∧ msgRouted sPort 1 ∧ routed sPort 1 ∧
    mctpType [] = none ∧ mctpType [0, 0, 0, 128, 4] = some 4 ∧ mctpType [0, 0, 0, 128, 1] = some 1 ∧
      hmRuns sPort = true ∧
    namedMessage 0x20 = false := by
  simp only [msgRouted, routed]; decide +kernel

theorem test_witness_Messages_time :
    (let s := withTstat (1 + 5 * 2 ^ 16) sPort
     msgComes s msg0 ∧ fromParent s msg0.port.val msg0.src.toNat = true ∧ inTime s .acquiring = true) ∧
    (timeMaster sPort = false ∧ fromParent sPort msg0.port.val msg0.src.toNat = false ∧ msgRouted sPort 1 ∧
      msg0.src = 1) ∧
    (msgComes sSys msg0 ∧ ((liveLands sSys).find? fun j => (1 : Word).getLsbD j) = some 0 ∧ cgLmask sSys 0 0 = 1) := by
  simp only [msgComes, comes, msgRouted]; decide +kernel

/-- Module 1 is the master of the group, and landing 0 has its generation. -/
def sSlave : State := { sSys with modnum := 2 }

theorem test_witness_Messages_sync :
    (msgComes sSlave { msg0 with dst := 2, src := 0 } ∧ liveLand sSlave 0 = true ∧ cgEn sSlave 0 0 = true ∧
      cgSys sSlave 0 0 = true ∧ (getGroup sSlave 0 0).gen = 0) ∧
    (let s := withReg 0x40100 0x20000 (withCrs (fun c => { c with ext := true }) sPort)
     msgComes s msg0 ∧ s.crs.ext = true ∧ turnArmed s = true) := by
  simp only [msgComes, comes]; decide +kernel

/-- A module number is a member where its route entry says so. -/
theorem mem_members {s : State} {m : Nat} (h : m < 2048) (e : isMember s m = true) : m ∈ members s := by
  simp [members, upto, h, e]

theorem foldl_min_zero (xs : List Nat) : ∀ a, 0 ∈ xs ∨ a = 0 → xs.foldl min a = 0 := by
  induction xs with
  | nil => intro a h; simpa using h
  | cons x xs ih =>
    intro a h
    refine ih _ ?_
    simp only [List.mem_cons] at h
    obtain (h | h) | h := h
    · right; omega
    · exact .inl h
    · right; omega

theorem test_witness_Messages_master : cgMasterMod sSlave 0 0 = 0 := by
  have h : cgMods sSlave 0 0 = members sSlave := if_pos (by decide +kernel)
  unfold cgMasterMod
  exact foldl_min_zero _ _ (.inl (h ▸ mem_members (by decide) (by decide +kernel)))

/-- An extended crossing over modules 0 and 1, with a turn armed. -/
def sTurn : State :=
  withReg 0x40100 0x20000 (withReg 0x51000 0xffffff5f (withCrs (fun c => { c with ext := true }) sPort))

theorem test_witness_MessageTimers :
    (fenced sPort = false ∧ fatal sPort = false ∧ fatal (withReg 0x58 0x40 sPort) = true) ∧
    (let c : Nat × Dword := (1, 0)
     c ∈ ({ sPort.xpt with cuts := [c] }).cuts ∧ sPort.time.toNat < c.2.toNat + 200000) ∧
    (let s := { sPort with xpt := { sPort.xpt with clRel := [⟨0, 0, 1⟩], wdogs := [⟨0, 0, 1⟩] } }
     ⟨0, 0, 1⟩ ∈ s.xpt.clRel ∧ ⟨0, 0, 1⟩ ∈ s.xpt.wdogs ∧ msgRouted s 1 ∧ fenced s = false) ∧ msgRouted sTurn 1 ∧
    (6 ∈ liveRoles sPort ∧ farEnd sPort 6 = some 1) ∧
    (sTurn.crs.ext = true ∧ turnArmed sTurn = true ∧ 1 ∉ sTurn.xpt.vturnGot ∧
      sTurn.time.toNat + 200000 ≤ (200000 : Dword).toNat ∧ sTurn.crs.turnT0.toNat < (200000 : Dword).toNat) ∧
    (let s := withTstat (2 + 5 * 2 ^ 16) sPort
     timeMaster s = false ∧ inTime s .holdover = false ∧ fenced s = false ∧ (bestPath (timePaths s)).isSome = true ∧
       portPeer s 5 ≠ 0x7ff ∧ inTime s .free = false) ∧
    (let s := withReg (rPort 5) (.ofNat 32 (1 + 6 * 16 + 256)) (withTstat (2 + 5 * 2 ^ 16) sOn)
     bestPath (timePaths s) = none ∧ inTime s .free = false ∧ groupDown s (portRole s (parentPort s)) = false ∧
       portPeer s (parentPort s) ≠ 0x7ff ∧ timeMaster s = false ∧ inTime s .holdover = false) ∧
    (bestPath (timePaths (withTstat 0 sOn)) = none ∧ inTime (withTstat 0 sOn) .free = true) := by
  simp only [msgRouted]; decide +kernel

theorem test_witness_MessageTimers_members :
    1 ∈ members sPort ∧ 1 ∈ members sTurn ∧ crossingMaster sTurn = true := by
  have h : sTurn.modnum = 0 := by decide +kernel
  exact ⟨mem_members (by decide) (by decide +kernel), mem_members (by decide) (by decide +kernel),
    by simp [crossingMaster, h]⟩

theorem test_witness_LinksAndRing :
    (slipUp sPort 5 = true ∧ portRole sPort 5 ≠ 0 ∧ ∀ q ∈ rolePorts sPort 6, q ≠ 5 → portState sPort q = 0) ∧
    portState (withReg (rPort 15) 1 sOn) 15 = 1 ∧
    (let s := withReg (rPort 15) (.ofNat 32 (1 + 6 * 16)) sOn
     bankOn s 15 = true ∧ portUp s 15 = false ∧ portRole s 15 ≠ 0 ∧ portEth s 15 = false) ∧
    (peerOf sRing 2 = some 1 ∧ 1 ∉ sRing.xpt.declared ∧ 1 ≠ sRing.modnum.toNat) ∧
    (reachesModule .hm = true ∧ sPort.crs.ext = false) := by
  decide +kernel

end Sys2Proof.Tests

namespace Sys2Proof.Tests

open Sys2Proof Sys2Proof.Machine Sys2Proof.Claims

/-- Port 0 is an Ethernet port that is UP, with a receive key, so that a frame passes MACsec where its check value
holds. -/
def sEth : State :=
  let s := withReg (rPort 0) 0xa sOn
  { s with hm := { s.hm with keys := [⟨0, true, 0, []⟩] }, xpt := { s.xpt with qps := [{ port := 0, qp := 1, tgt := 15, psn := 7 }] }
           boot := { s.boot with ran := [(1, 1)] } }

theorem test_witness_LinksAndRing_ethernet : portUp sEth 0 = true ∧ portEth sEth 0 = true := by decide +kernel

theorem test_witness_EthernetPorts :
    ethUp sEth 0 = true ∧ macKey sEth 0 = true ∧ macPasses sEth 0 true true false = true ∧
    macPasses sEth 0 true false false = false ∧ findQp sEth 0 2 = none ∧
    findQp sEth 0 1 = some { port := 0, qp := 1, tgt := 15, psn := 7 } ∧ ranCopy sEth 1 ≠ 0 ∧
      macPasses sEth 0 true true true = true := by
  decide +kernel

theorem test_witness_EthernetPorts_again :
    let q : Qp := { port := 0, qp := 1, tgt := 15, unacked := [(6, .avs 0 0 .voltageRead), (7, .avs 0 1 .voltageRead)] }
    let s := { sEth with xpt := { sEth.xpt with qps := [q] } }
    ethUp s 0 = true ∧ findQp s 0 1 = some q ∧ q.unacked = [(6, .avs 0 0 .voltageRead)] ++
      (7, .avs 0 1 .voltageRead) :: [] := by decide +kernel

/-- Port 0 of PCIe is up; aperture 63 reaches memory of landing 0 through window 1023. -/
def sPcie : State := { sOn with pcie := [(0, { up := true, low := false })] }
def sAper : State :=
  let s := openWin (writeWin sPcie 0 1023 { win0 with host := true, pages := 0x1000 }) 0 1023
  withReg (0x68000 + 8 * 63) (.ofNat 32 (1 + 1023 * 2 ^ 11)) s

/-- Functions of port 0: MSI-X and Bus Master Enable of the physical function and of virtual function 6. -/
def sFns : State :=
  { sOn with
    pcie := [(0, { up := true, low := false
                   cfg := [(4, 4), (oMsix, 0x80000000), (oSriov + 8, 1), (oSriov + 16, 32), (4096 * 6 + 4, 4),
                     (4096 * 6 + oMsix, 0x80000000)] })] }

theorem test_witness_HostRegisters :
    (0x10008, 0x7, 0) ∈ codedRegs ∧ pcieUp sPcie 0 = true ∧ bar0Refusal sPcie 0 0 0x10008 4 = none ∧
    (pairLow 0x10008 = false ∧ pairLow (0x10008 - 4) = false ∧ foreignChan (.pf 0) 0x10008 = false ∧
      answers sPcie (.pf 0) 0x10008 = true) ∧
    bar0Refusal sPcie 0 0 0x10008 2 = some 0 ∧ bar0Refusal sPcie 0 0 0x1000a 4 = some 1 ∧
      bar0Refusal sPcie 0 0 0x4000000 4 = some 2 ∧
    bar0Refusal (withReg 0x20180 0 sPcie) 0 0 (lcBase 0) 4 = some 3 ∧
    (inD3 sPcie 0 0 = false ∧ vfEnabled sPcie 0 32 = false ∧ vfEnabled sFns 0 32 = true ∧ inD3 sFns 0 32 = false ∧
      pcieUp sFns 0 = true ∧
        apCheck (withReg (0x68000 + 8 * 31) (.ofNat 32 (1 + 1023 * 2 ^ 11)) { sAper with pcie := sFns.pcie })
        31 0 512 false = .go (winKey 0 1023)) ∧
    (prevails (.pf 0) (.pf 1) = true ∧ prevails (.pf 1) .bmc = false ∧ moduleMaster .bmc ∧ moduleMaster (.pf 1)) ∧
    (pcieUp sAper 0 = true ∧ apCheck sAper 63 0 512 false = .go (winKey 0 1023) ∧
      apCheck sAper 63 4032 64 true = .go (winKey 0 1023) ∧
      apCheck sAper 63 0 513 true = .fail false ∧ apSpace sAper 63 = 0 ∧ partBad sAper 0 0 0 512 = false) := by
  simp only [moduleMaster]; decide +kernel

def sQueue : State := withReg (rQs 5 0x24) 1 (withReg (rQs 5 0) 0x0 sPcie)

/-- A request of queue set 5. -/
def req0 : Req :=
  { uid := 4, q := 5, tenant := 0x40, raw := 1 :: 0 :: List.replicate 62 0, input := [], st := .active }

theorem test_witness_QueueSets :
    qsAccess sQueue .bmc 5 ≠ .all ∧ qsAccess sQueue .hm 5 = .all ∧
    ((1 : Word) - rd sQueue (rQs 5 0x1c)).toNat ≤ 2 ^ rdFld sQueue (rQs 5 0) 11 8 ∧
    2 ^ rdFld sQueue (rQs 5 0) 11 8 < ((0xffffffff : Word) - rd sQueue (rQs 5 0x1c)).toNat ∧
    ((1 : Word) - rd sQueue (rQs 5 0x20)).toNat ≤ (rd sQueue (rQs 5 0x24) - rd sQueue (rQs 5 0x20)).toNat ∧
    (rd sQueue (rQs 5 0x24) - rd sQueue (rQs 5 0x20)).toNat < ((2 : Word) - rd sQueue (rQs 5 0x20)).toNat ∧
    (wfld 1 2 2 ≠ 1 ∧ wfld 1 0 0 ≠ 0 ∧ qsEn sQueue 5 = false ∧ qsEn (withReg (rQs 5 0) 1 sQueue) 5 = true) ∧
    (qsAccess sQueue .hm 5 ≠ .none ∧ wfld 4 2 2 = 1 ∧ sQueue.crs.inLap = false) ∧
    (let s : State := { withCrs (fun c => { c with inLap := true }) sQueue with reqs := [req0] }
     s.crs.inLap = true ∧ ∃ x ∈ s.reqs, x.q = 5 ∧ x.st = .active ∧ ∀ y ∈ s.reqs, y.q = 5 → y.st = .waiting →
       y.uid ≠ x.uid) := by
  decide +kernel

/-- An entry in queue set 5: opcode, flags, identification, then zeros. -/
def entry (opc flags : Nat) : List Byte := .ofNat 8 opc :: .ofNat 8 flags :: List.replicate 62 0
def sEntry (e : List Byte) (rs : List Req) : State :=
    { setQs (withReg (rQs 5 0) 1 sQueue) 5 { entries := [(9, e)] } with reqs := rs }

/-- A request that R446 allows: one token in, one out. -/
def entryOk : List Byte :=
  [1, 0, 0, 0, 0, 0, 0, 0] ++ leBytes 8 64 ++ leBytes 4 1 ++ leBytes 4 1 ++ List.replicate 8 0 ++ leBytes 4 0 ++
    leBytes 4 0x3f800000 ++ [1, 0, 0, 0, 0, 0, 0, 0] ++ leBytes 8 64 ++ leBytes 8 0

theorem test_witness_QueueEntries_entries :
    (let s := withReg (rQs 5 0x18) 3 (withReg (rQs 5 0) 1 sReady)
     let s : State := { s with pcie := [(0, { up := true, low := false, cfg := [(4, 4)] })] }
     fetchTurn s = some 5 ∧ dmaOk s 5 = true) ∧ fetchTurn sQueue ≠ some 5 ∧
    (entryNext (sEntry (entry 3 0) []) 5 9 (entry 3 0) [] ∧ boardOpen (sEntry (entry 3 0) []) 5) ∧
    (field (entry 0 0) 0 1 = 0 ∧ 3 ≤ field (entry 3 0) 0 1 ∧ 3 ≤ field (entry 255 0) 0 1 ∧ field (entry 1 0) 0 1 = 1) ∧
    qsJob (sEntry entryOk []) 5 = 0 ∧
    (let s := withReg 0x68404 2 (withReg (rQs 5 0x34) 0x40 (sEntry entryOk []))
     entryNext s 5 9 entryOk [] ∧ qsJob s 5 ≠ 0 ∧ field entryOk 0 1 = 1 ∧ reqOk s entryOk = true ∧
       reqOk (withReg 0x68404 1 s) entryOk = false ∧ dmaOk s 5 = false ∧
       dmaOk { s with pcie := [(0, { up := true, low := false, cfg := [(4, 4)] })] } 5 = true) ∧
    (field (entry 2 1) 0 1 = 2 ∧ field (entry 2 1) 1 3 ≠ 0 ∧ field (entry 2 0) 1 3 = 0 ∧ field (entry 2 0) 8 56 = 0) ∧
    (cancels 5 (entry 2 0) req0 ∧ req0.cancel = none ∧ req0.toks = [] ∧ reqFlag req0.raw 0 = false ∧
      entryNext (sEntry (entry 2 0) [req0]) 5 9 (entry 2 0) []) := by
  simp only [entryNext, boardOpen, cancels]; decide +kernel

theorem test_witness_QueueEntries_records :
    (let r := { req0 with st := .waiting }
     let s : State := { sEntry [] [r] with time := 12000000000 }
     boardOpen s 5 ∧ (s.reqs.find? fun x => x.q == 5 && x.st == .waiting) = some r ∧ liveVer s = 0 ∧
       r.copied.toNat + 60000 * 200000 ≤ s.time.toNat ∧
       (s.reqs.find? fun x => x.uid == r.uid && x.q == 5) = some r) ∧
    (let h : HeldRec := ⟨1, List.replicate 64 0, [], false, none⟩
     let s := setQs (withReg (rQs 5 0) 1 sQueue) 5 { held := [h] }
     let t := setQs s 5 { held := [h], closing := true }
     ((getQs t 5).held = [h] ∧ canPost t 5 h = true ∧ (getQs t 5).closing = true ∧ t.crs.inLap = false) ∧
     (getQs s 5).held = [h] ∧ canPost s 5 h = true ∧ (getQs s 5).closing = false ∧
       max 1 (rdFld s (rQs 5 0x38) 7 0) ≤ (getQs s 5).fresh + 1) ∧
    (let s := { withReg (rQs 5 0x38) 0x100 (setQs sQueue 5 { fresh := 1 }) with time := 200 }
     rdFld s (rQs 5 0x38) 23 8 = 1 ∧ 1 ≤ (getQs s 5).fresh ∧ (getQs s 5).first.toNat + 200 * 1 ≤ s.time.toNat) ∧
    (wfld 4 2 2 = 1 ∧ wfld 8 3 3 = 1 ∧ reachesModule .hm = true) ∧
    (let r := { req0 with lost := true }
     let s : State := { withReg (rQs 5 0) 1 sReady with reqs := [r] }
     isReady s = true ∧ (s.reqs.find? fun x => x.uid == 4 && x.lost) = some r ∧ liveLand s 31 = true ∧
       arrayOn s 31 = true) := by
  simp only [boardOpen]; decide +kernel

theorem test_witness_PciePorts :
    (sFns.crs.inLap = false ∧ vfEnabled sFns 0 32 = true ∧ vfEnabled sFns 0 6 = true) ∧
    (let s := withReg (rQs 5 0x3c) 0x15 sFns
     pcieUp s 0 = true ∧ qsBound s 5 = true ∧ rdFld s (rQs 5 0x3c) 4 4 = 1 ∧ qsReports s 5 = true ∧
       msixOn s 0 6 = true) ∧
    (inD3 sPcie 0 0 = false ∧ pcieUp sPcie 0 = true) ∧
    (quayOn sPcie 0 = true ∧ (getPcie sPcie 0).low = false ∧ (getPcie sOn 0).low = true ∧
      quayOn (withReg (0x20100 + 4 * 64) 0 sPcie) 0 = false ∧ vfEnabled sPcie 0 1 = false ∧
        msixOn sPcie 0 0 = false) := by
  decide +kernel

/-- No domain is ON, and GLB.CAUSE has a bit set that the tree passes on. -/
def sPends : State :=
  withReg 0x10004 0xffffffff (withReg 0x10008 3 (withReg 0x1000c 0xc (withReg 0x30 1 { sFns with regs := [] })))

theorem test_witness_PciePorts_pending :
    pcieUp sPends 0 = true ∧ armedPf sPends 0 = true ∧ rdFld sPends 0x10008 0 0 = 1 ∧ msixOn sPends 0 0 = true ∧
    intPending sPends = true := by decide +kernel

end Sys2Proof.Tests

namespace Sys2Proof.Tests

open Sys2Proof Sys2Proof.Machine Sys2Proof.Claims

/-- The state after boarding with the life-cycle state n. -/
def sLc (n : BitVec 3) : State := { sReady with fuses := { sReady.fuses with lcs := n } }

theorem test_witness_Management :
    pldmUp sOn (.smbus true) ∧ pldmUp sPcie (.vdm 0) ∧ spdmUp sPcie (.doe 0) ∧ spdmAt sOn .i3c = 0 ∧
    (sLc 2).fuses.lcs = 2 ∧ sOn.fuses.lcs ≠ 4 ∧ 16 ∈ blockNumbers ∧ 7 ∉ blockNumbers := by
  refine ⟨⟨?_, ?_, rfl, ?_⟩, ⟨?_, ?_, rfl, ?_⟩, ⟨?_, ?_, rfl⟩, ?_⟩
  case refine_3 => intro p; simp
  case refine_6 => intro p; simp
  all_goals decide +kernel

/-- Job 1 with landing 0, which is free; its program is measured. -/
def job0 : Job := { num := 1, lands := [0], prog := some 5 }
def sJobs : State :=
  let s := sLc 1
  { s with hm := { s.hm with jobs := [job0] } }

theorem test_witness_Jobs :
    (mbxFree sJobs 15 ∧ isReady sJobs = true ∧ sJobs.fuses.lcs ≠ 4 ∧ sJobs.hm.jobs.length < 256 ∧
      findJob sJobs 1023 = none ∧ liveJob sJobs 0x40 job0 ∧ job0.tenants = [] ∧ sJobs.fuses.lcs = 1) ∧
    (imageOk sJobs (.ofNat 64 0) 4096 = true) ∧
    (landFree (withReg (rBind 31) 0x400 sJobs) 31 = true ∧ landFree (withReg (rBind 31) 0 sJobs) 31 = false) ∧
    (arrayOn sJobs 0 = true ∧ job0.prog.isSome = true ∧ ∀ k ∈ activeCores sJobs 0, codeThere sJobs job0 0 k = true) ∧
    (let j := { job0 with code := [1] }
     ∀ k ∈ activeCores sJobs 0, codeThere { sJobs with hm := { sJobs.hm with jobs := [j] } } j 0 k = false) ∧
    (let j := { job0 with dying := true }
     let s := { sJobs with hm := { sJobs.hm with jobs := [j] } }
     mbxFree s 0 ∧ findJob s (idJob 0x40) = some j ∧ j.dying = true) ∧
    256 ≤ { sJobs.hm with jobs := List.replicate 256 job0 }.jobs.length := by
  simp only [mbxFree, liveJob]; decide +kernel

/-- A job runs in MANUFACTURED; in BLANK one without a program does not. -/
theorem test_witness_Jobs_runs :
    sJobs.fuses.lcs = 1 ∧
    (let j := { job0 with prog := none }
     let s : State := { sLc 0 with hm := { (sLc 0).hm with jobs := [j] } }
     s.fuses.lcs = 0 ∧ mbxFree s 15 ∧ isReady s = true ∧ liveJob s 0x40 j ∧
       ¬ (s.fuses.lcs = 1 ∨ s.fuses.lcs = 2 ∨
         (s.fuses.lcs = 0 ∨ s.fuses.lcs = 3) ∧ ∃ d, j.prog = some d ∧ Config.vendorTest d = true)) := by
  refine ⟨by decide +kernel, by decide +kernel, ?_, by decide +kernel, ?_, ?_⟩
  · simp only [mbxFree]; decide +kernel
  · simp only [liveJob]; decide +kernel
  · rintro (h | h | ⟨_, d, h, _⟩)
    · exact absurd h (by decide +kernel)
    · exact absurd h (by decide +kernel)
    · cases h

def held0 : HeldRec := ⟨3, List.replicate 64 0, [], true, some (0, List.replicate 416 1)⟩
def sSigns : State :=
    setQs { sJobs with hm := { sJobs.hm with signs := [⟨15, 5, 3⟩], jobs := [{ job0 with sealed := [0] }] } } 5
  { held := [held0] }

theorem test_witness_MailboxServices :
    (mbxFree sJobs 15 ∧ isReady sJobs = true ∧ liveJob sJobs { win0 with job := 0x40 }.job job0 ∧
      win0.space.toNat ≤ 6 ∧ unitOn sJobs 0 = true) ∧
    (let s := openWin (writeWin sJobs 0 1023 { win0 with job := 0x40 }) 0 1023
     mbxFree s 0 ∧ winGen s 0 1023 = 0 ∧ winOpen s 0 1023 = true) ∧
    (qsJob sJobs 63 = 0 ∧ qsJob (withReg (rQs 63 0x34) 0x80 sJobs) 63 = 0x80) ∧
    (mbxFree sSigns 15 ∧ unsignedRec sSigns 5 3 = some held0 ∧ sSigns.hm.signs = ⟨15, 5, 3⟩ :: [] ∧
      (unsignedRec sSigns 5 3).isSome = true ∧ (sLc 0).fuses.lcs ≠ 1 ∧ sSigns.hm.signs.length < 8192) := by
  simp only [mbxFree, liveJob]; decide +kernel

theorem test_witness_MailboxServices_sealed :
    notSealed held0 = false ∧
    (let r := { held0 with prov := some (0, List.replicate 416 0) }
     let s := setQs sSigns 5 { held := [r] }
     mbxFree s 15 ∧ s.fuses.lcs = 1 ∧ unsignedRec s 5 3 = some r ∧ notSealed r = true) := by
  simp only [mbxFree]; decide +kernel

theorem test_witness_MailboxSecurity :
    (mbxRow (.kill 48 0x40) = some (48, 0x06, [0x40, 0], fun c => c < 16 ∨ c = 48 ∨ c = 49)) ∧
    (domState sOn 69 = 2 ∧ rdFld (withReg (rMbx 48 + 4) 1 sOn) (rMbx 48 + 4) 2 0 = 1 ∧ 48 ∉ sOn.hm.posted) ∧
    (mbxFree sOn 20 ∧ mbxFree (sLc 1) 49 ∧ isReady (sLc 1) = true ∧ isReady sOn = false ∧ sOn.hm.wrapKey = none) ∧
    ((flashCopy sOn 0 0).sig = true ∧ (flashCopy (setCopy sOn 0 1 {}) 0 1).sig = false) ∧
    (rdFld sOn 0x10024 0 0 = 0 ∧ rdFld (withReg 0x10024 1 sOn) 0x10024 0 0 = 1) := by
  refine ⟨rfl, ?_⟩
  simp only [mbxFree]; decide +kernel

/-- KILL of job 1, submitted on channel 0 by register writes with a LEN. -/
def sPosts (len : Nat) : State :=
  let s := withReg (rMbx 0 + 0x100) 0x40 (withReg (rMbx 0) (.ofNat 32 (6 + len * 2 ^ 16)) sReady)
  { s with hm := { s.hm with posted := [0] } }

theorem test_witness_MailboxSecurity_posted :
    0 ∈ (sPosts 2).hm.posted ∧ posted (sPosts 2) 0 6 [0x40, 0] ∧ lenOk 6 (rdFld (sPosts 2) (rMbx 0) 24 16) = true ∧
    ¬ posted (sPosts 2) 0 6 [0x80, 0] ∧ rdFld (sPosts 2) (rMbx 0) 15 0 ≠ 7 ∧ inTurn (sPosts 2) 0 = true ∧
    isReady (sPosts 2) = true ∧ rdFld (sPosts 3) (rMbx 0) 15 0 = 6 ∧ lenOk 6 (rdFld (sPosts 3) (rMbx 0) 24 16) =
      false := by
  simp only [posted]; decide +kernel

theorem test_witness_MailboxSecurity_lengths :
    (let ok := fun n : Nat => 24 ≤ n ∧ n ≤ 253 ∧ n % 8 = 0
     ok 24 ∧ ok 40 ∧ ok 248 ∧ ¬ ok 25 ∧ ¬ ok 16 ∧ ¬ ok 256) ∧
    { sOn.hm with wrapKey := some (1 : BitVec 256) }.wrapKey = some 1 := by decide

def sDbg (n : Nat) : State := withReg 0x90000 (.ofNat 32 (4 * n)) (withReg (rBind 0) 0x400 sOn)

theorem test_witness_DebugPorts :
    reachesModule .hm = true ∧ rdFld (sDbg 0) 0x90004 1 0 ≠ 1 ∧ rdFld (withReg 0x90004 1 sOn) 0x90004 1 0 = 1 ∧
    (dbgTarget (sDbg 0) 8 0 ∧ dbgTarget (sDbg 2) 512 0) ∧ dbgStatus (sDbg 0) 8 0 0 ∧
    dbgStatus (withReg 0x90008 1 (sDbg 0)) 8 1 3 ∧
    { sOn with dbg := some ⟨0, 0, [1], false⟩ }.dbg = some ⟨0, 0, [1], false⟩ ∧
    ({ sOn with tap := { sOn.tap with held := false } }.tap.held = false ∧ sOn.tap.held = true ∧ sOn.fuses.lcs = 0 ∧
      (sLc 1).fuses.lcs = 1) ∧
    (0 ∈ { sOn with pwr := { sOn.pwr with bad := [0] } }.pwr.bad ∧ 0 ∉ sOn.pwr.bad ∧ sOn.tap.drive = false ∧
      { sOn with tap := { sOn.tap with drive := true } }.tap.drive = true) := by
  have h : sOn.modnum = 0 := by decide +kernel
  refine ⟨?_, ?_, ?_, ⟨⟨.inl ?_, ?_⟩, ⟨.inr (.inr ?_), ?_⟩⟩, .inr (.inr (.inr (.inr ⟨?_, .inl ?_, ?_, ?_, rfl⟩))),
    .inl ⟨?_, rfl⟩, ?_⟩ <;> decide +kernel

end Sys2Proof.Tests

namespace Sys2Proof.Tests

open Sys2Proof Sys2Proof.Machine Sys2Proof.Claims

theorem test_witness_Resets :
    regsListed sOn ∧ noPowerOn sOn ∧ ¬ noPowerOn { sOn with pwr := { sOn.pwr with bad := [0] } } ∧
    0 ∉ sOn.pwr.bad ∧ sOn.boot.pinLow = false ∧ sOn.boot.noClock = false ∧
    (wfld 0x15a 7 0 = 0x5a ∧ wfld 0x15a 8 8 = 1 ∧ wfld 0x5a 8 8 ≠ 1 ∧ reachesModule .hm = true ∧
      reachesModule (.vf 0 0) = false) ∧
    (let s := { sOn with boot := { sOn.boot with pinLow := true, noClock := true } }
     s.boot.pinLow = true ∧ s.boot.noClock = true) ∧
    (quayOn sOn 0 = true ∧ fatal sOn = false ∧
      (sOn.boot.served.toNat + sOn.boot.cfg.purwd * 2000000 ≤ (200000000 : Dword).toNat) ∧
      sOn.time.toNat < sOn.boot.served.toNat + sOn.boot.cfg.purwd * 2000000) := by
  simp only [regsListed, noPowerOn]; decide +kernel

/-- Every domain but one is ON, and it waits for its boarding time. -/
def sBoards (d : Nat) : State := withReg (rPd d) 2 sOn

/-- The boot chain has run and the deckhands are loaded, with time free. -/
def sBooted : State :=
  { sOn with boot := { sOn.boot with chained := true, ran := [(1, 1)], deckhands := upto 32, waited := [0, 1] } }

theorem test_witness_StartUp :
    (canBoard (sBoards 9) 9 ∧ domState (sBoards 9) 69 = 2 ∧ (sBoards 9).boot.romOnly = false ∧ pdReq (sBoards 9) 9 = 2 ∧
      domState (sBoards 9) 9 = 0 ∧ goalOf (sBoards 9) 9 = none) ∧
    (let s := { sOn with pwr := { sOn.pwr with goal := [(69, some (2, false))] } }
     goalOf s 69 = some (2, false) ∧ domState s 68 = 2 ∧ s.boot.romOnly = false ∧ s.boot.chained = false) ∧
    ((sOn.boot.chained = false ∨ sBooted.boot.chained = true ∧ sBooted.boot.released = false) ∧ domState sOn 69 = 2 ∧
      sOn.boot.noClock = false ∧ sOn.boot.pinLow = false) ∧
    (canBoard (sBoards 68) 68 ∧ sOn.boot.chained = false ∧ chosenCopy sOn 0 = some 0 ∧
      chosenCopy (setCopy sOn 0 0 {}) 0 = none ∧ chosenCopy sOn 1 = some 0) ∧
    (domState sOn 71 = 2 ∧
      (tget 0 sOn.boot.bankAt 1).toNat + sOn.boot.cfg.groupWait * 200000 ≤ (200000000 : Dword).toNat) ∧
    (isReady sBooted = false ∧ fatal sBooted = false ∧ rdFld sBooted 0x4c 3 0 ≠ 8 ∧
      sBooted.boot.quaysAt.toNat + 1000000000 ≤ (1000000000 : Dword).toNat ∧ ranCopy sBooted 1 = 1 ∧
      copyValid sBooted 1 0 = true ∧ copyValid sBooted 1 1 = false ∧ (flashCopy sBooted 1 0).tried = false ∧
      noPowerOn sBooted ∧ sBooted.boot.pinLow = false ∧ ∀ j < 2, (flashCopy sBooted 1 j).seq ≠ some 0xffffffff) := by
  simp only [canBoard, noPowerOn]; decide +kernel

theorem test_witness_StartUp_ready :
    (∀ d < 72, absentDom sBooted d = false → (d < 64 → landFailed sBooted (d % 32) = false) → pdReq sBooted d = 2 →
      domState sBooted d = 2) := by
  decide +kernel

theorem test_witness_StartUp_firmware :
    (∀ l ∈ presentLands sBooted, uncoreOn sBooted l = true → scrubbing sBooted l 0 = false ∧
      scrubbing sBooted l 1 = false) ∧
    (ranCopy sBooted 1 ≠ 0 ∧ ∀ l ∈ presentLands sBooted, uncoreOn sBooted l = true → l ∈ sBooted.boot.deckhands) ∧
    (∀ r < 7, r ≠ 0 → rolePorts sBooted r ≠ [] → ∀ p ∈ rolePorts sBooted r, p / 8 ∈ sBooted.boot.waited) ∧
    timeReady sBooted = true ∧ sBooted.boot.chained = true := by
  decide +kernel

theorem test_witness_FatalErrors :
    fatal sOn = false ∧ domState sOn 69 = 2 ∧ noPowerOn sOn ∧ sOn.boot.pinLow = false ∧
    (let s := { withReg 0x58 0x40 (withReg 0x5c 1 sOn) with time := 2000000 }
     fatal s = true ∧ rdFld s 0x5c 0 0 = 1 ∧ s.boot.fatalAt.toNat + max 1 (rdFld s 0x5c 15 8) * 2000000 ≤ s.time.toNat ∧
       s.boot.tripped = false) ∧
    (let s := { withReg 0x58 0x440 sOn with boot := { sOn.boot with tripped := true } }
     s.boot.tripped = true ∧ rdFld s 0x3001c 10 0 + 100 < 10 * safeEff s .tlim) := by
  simp only [noPowerOn]; decide +kernel

/-- A landing that has failed, with its neighbours live and its domains ON; with its rejoin ordered and a copy of its
slice. -/
def sFailed : State := withReg 0x50 1 (setLand sOn 0 { getLand sOn 0 with out := true })
def sRejoins : State :=
  let s := withReg (rArea 0 0 + 4) 1 (withReg 0x54 1 (withReg 0x40108 1 sFailed))
  withCrs (fun c => { c with shadows := [⟨1, 2, 0, 1, true, false⟩] }) s

theorem test_witness_LandingLoss :
    (absentLand sBooted 31 = false ∧ landFailed sBooted 31 = false ∧ 31 ∈ sBooted.boot.deckhands ∧
      uncoreOn sBooted 31 = true ∧ liveLand sBooted 31 = true ∧ canSpan sBooted 31 = true ∧ canSpan sFailed 1 = false ∧
      31 ∉ sOn.boot.deckhands) ∧
    (landFailed sFailed 0 = true ∧ rdFld sFailed 0x54 0 0 = 0 ∧ tget false sFailed.boot.rejoins 0 = false ∧
      liveLand sFailed 0 = false ∧ domState sFailed 0 ≠ 0 ∧ absentLand sFailed 0 = false ∧
      let s := withReg (rPd 0) 2 (withReg (rPd 32) 2 sFailed)
      landFailed s 0 = true ∧ domState s 0 = 0 ∧ domState s 32 = 0) ∧
    (liveVer sRejoins ≠ 0 ∧ (homeBack { sRejoins with crs := { sRejoins.crs with shadows := [] } } 0).isSome = false) ∧
    (¬ rejoinRefused sFailed 0 ∧ rejoinRefused sOn 0) ∧
    (rdFld sRejoins 0x54 0 0 = 1 ∧ tget false sRejoins.boot.rejoins 0 = false ∧ uncoreOn sRejoins 0 = true ∧
      arrayOn sRejoins 0 = true ∧ liveVer sRejoins ≠ 0 ∧ shadowOn sRejoins = false ∧
      sRejoins.crs.shadows.find? (fun x => x.home == 0 && x.ver == liveVer sRejoins && x.done) =
        some ⟨1, 2, 0, 1, true, false⟩ ∧
      (homeSlices sRejoins).find? (fun h => h.1 == 0) = some (0, 0) ∧
      homeAreas.find? (fun k => areaUse sRejoins 0 k == 0 && sliceLen sRejoins.sto.liveMap 0 ≤ areaSize sRejoins 0 k) =
        some 0) := by
  simp only [rejoinRefused]; decide +kernel

/-- Every domain has boarded; a transition of one runs. -/
def sPower : State := { sOn with pwr := { sOn.pwr with boarded := upto 72 } }
def sMoves (d v : Nat) (now : Word) : State :=
  let s := withReg (rPd d) now sPower
  { s with pwr := { s.pwr with goal := [(d, some (v, false))] } }

theorem test_witness_PowerDomains :
    (requests .hm ∧ ¬ requests .bmc ∧ absentDom sPower 31 = false ∧ 31 ∉ sOn.pwr.boarded ∧ 31 ∈ sPower.pwr.boarded ∧
      domState sPower 31 ≠ 0 ∧ goalOf sPower 31 = none ∧ rdFld sPower (rPd 31) 7 7 = 0 ∧ domState sPower 63 = 2 ∧
      liveLand sPower 31 = true ∧ canSpan sPower 31 = true) ∧
    (let s := setLand sPower 1 { getLand sPower 1 with out := true }
     canSpan s 0 = false ∧ domState s 32 = 2 ∧ liveLand s 0 = true) ∧
    (let s := withReg (rPd 31) 0x2 (setLand sPower 31 { getLand sPower 31 with out := true })
     liveLand s 31 = false ∧ arrayOn s 31 = false ∧ domState s 63 = 2 ∧ (getLand s 31).out = true ∧
       goalOf s 63 = none) ∧
    (let s := withReg (rPd 31) 0x2 (withReg (rPd 63) 0x2 sPower)
     domState s 31 ≠ 2 ∧ ∃ r ∈ requires 31, domState s r ≠ 2) ∧
    (let s := sMoves 31 0 0x8
     goalOf s 31 = some (0, false) ∧ (∀ k < 72, 31 ∈ requires k → domState s k ≤ 0) ∧ domState s 31 ≠ 0) ∧
    (let s := sMoves 31 2 0x2
     goalOf s 31 = some (2, false) ∧ (∀ r ∈ requires 31, domState s r = 2) ∧ domState s 31 ≠ 2 ∧ pdReq s 31 = 2 ∧
       rdFld s (rPd 31) 4 4 = 0 ∧ rdFld s (rPd 31) 7 7 = 0) ∧
    (let s := sMoves 32 1 0xa
     goalOf s 32 = some (1, false) ∧ ¬ ∀ k < 72, 32 ∈ requires k → domState s k ≤ 1) := by
  refine ⟨⟨.inl rfl, ?_, ?_⟩, ?_⟩
  · rintro (h | ⟨_, h⟩ | ⟨_, _, h⟩ | ⟨_, h⟩) <;> cases h
  all_goals decide +kernel

theorem test_witness_PowerSupply :
    5 ∉ sOn.pwr.bad ∧ 0 ∈ ({ sOn with pwr := { sOn.pwr with bad := [0] } } : State).pwr.bad ∧ fatal sOn = false ∧
    (let s := { sOn with pwr := { sOn.pwr with vcore := [(31, 895)] } }
     arrayOn s 31 = true ∧ (600 : Int) ≤ (tget 0 s.pwr.vcore 31 : Nat) + 5 ∧
       ((tget 0 s.pwr.vcore 31 : Nat) : Int) + 5 ≤ 900) ∧
    (sOn.pwr.thmLim ≤ 255 ∧ sOn.pwr.capLim = 255) ∧ (reachesModule .bmc = true ∨ reachesModule .hm = true) := by
  decide +kernel

theorem test_witness_SafetyOrders :
    safetyIdx (.remote 3) = some 5 ∧ safetyIdx (.core 0 0) = none ∧ rdFld sOn 0x68408 0 0 = 0 ∧
    (∀ k : BitVec 11, Master.remote 3 = .remote k → 24000 = safeVal sOn 5 .cap) ∧
    (∃ j < 6, safer .cap (safeVal (orderSafety sOn .bmc .cap 18000).1 j .cap) (clamped .cap 30000) = true) ∧
    (safetyIdx .bmc = some 1 ∧ safetyIdx (.pf 0) = some 2 ∧ moduleMaster .bmc ∧ moduleMaster (.pf 0) ∧
      prevails .bmc (.pf 0) = true ∧
      prevails (.pf 0) .bmc = false ∧ wfld 5000 14 0 < wfld 6000 14 0 ∧ ¬ wfld 6000 14 0 < wfld 5000 14 0) := by
  refine ⟨rfl, rfl, ?_, fun k _ => ?_, ⟨1, ?_, ?_⟩, ?_⟩
  case refine_5 => simp only [moduleMaster]; decide +kernel
  all_goals decide +kernel

/-- A physical function's cap of 20,000 W with the BMC at 18,000 W leaves the effective value, and is overruled. -/
theorem test_witness_SafetyOrders_overruled :
    let s := (orderSafety sOn .bmc .cap 18000).1
    let u := (orderSafety s (.pf 0) .cap 20000).1
    overruled s u (.pf 0) .cap 20000 ∧ ¬ overruled sOn s .bmc .cap 18000 := by
  simp only [overruled, orderTakes]; decide +kernel

theorem test_witness_Heat :
    fcDefined (heatNoted (sCool sOn) 0 1 1 1) = true ∧
    (let tl : Int := 10 * ((safeEff sOn .tlim : Nat) : Int); 0 ≤ tl ∧ tl < 1050 ∧ 0 ≤ tl - 20) ∧
    (let s := { sOn with edges := 400000000 }
     (s.pwr.pulses.filter fun t => s.edges ≤ t + 400000000).length = 0 ∧ 400000000 ≤ s.edges ∧
       wfld s.pwr.flow 11 0 ≠ 0) ∧
    (let s := { sOn with edges := 400000000, pwr := { sOn.pwr with lowAt := some 0 } }
     wfld s.pwr.flow 11 0 ≠ 0 ∧
       (s.pwr.pulses.filter fun t => s.edges ≤ t + 200000000).length * 60 <
         wfld s.pwr.flow 19 12 * wfld s.pwr.flow 11 0 ∧
       s.pwr.lowAt.getD s.edges + 400000000 ≤ s.edges) ∧
    (let s := { sOn with pwr := { sOn.pwr with flowLow := true, flow := 0x1, pulses := [0] } }
     wfld s.pwr.flow 11 0 ≠ 0 ∧ ¬ (s.pwr.pulses.filter fun t => s.edges ≤ t + 200000000).length * 60 <
       wfld s.pwr.flow 19 12 * wfld s.pwr.flow 11 0) ∧
    (let s := { sOn with pwr := { sOn.pwr with points := [(10, 0)] } }
     s.pwr.points ≠ [] ∧ s.pwr.evEdge = none) := by
  decide +kernel

/-- The forecast of a module without heat at an inlet of 0 °C lies at 0 °C, within its field. -/
theorem test_witness_Heat_peak :
    let v := heatNoted (withReg 0x20014 0 (sCool sOn)) 0 0 1 1
    tenths (forecast v 1).peak = 0 := by
  have h : (forecast (heatNoted (withReg 0x20014 0 (sCool sOn)) 0 0 1 1) 1).peak = 0 :=
    forecast_cold _ (by decide +kernel)
  simp only [h]; decide

theorem test_witness_StepRunsFront : State.reset.pending = [] ∧ State.reset.xpt.slew = 0 := by decide

/-- CLA and CLW in group 0: nothing counted, GEN's arrivals in, both in; the generation open and released. -/
theorem test_witness_SyncCommands_closure :
    (syncIssues (sArrived 1) 0 0 0 0x3e (imm e0 17 17 0) (.cla 0) ∧ markMet (sArrived 1) w0 k0 e0 ∧
      arrivals (sArrived 1) 0 0 0 = (1, 0) ∧ cgNeed (sArrived 1) 0 0 = 1 ∧ arrivals sGroup 0 0 0 = (0, 0) ∧
      arrivals (setGroup (sArrived 1) 0 0 { now := [(0, 1)], next := [(0, 1)] }) 0 0 0 = (1, 1)) ∧
    (let s := withThread { st := .ready, arrived := [(0, some 0)] } (sArrived 1)
     syncIssues s 0 0 0 0x3e (imm e0 17 17 1) (.clw 0) ∧ tget none (getThr s w0).arrived 0 = some 0 ∧
       openArrival s 0 0 0 = true ∧ openArrival (setGroup s 0 0 { gen := 1 }) 0 0 0 = false) := by
  simp only [syncIssues, cmdFetches, markMet]; decide +kernel

/-- The reset state meets the invariant, and so does one with a byte, a register word, a thread and a core of its own.
-/
theorem test_witness_CanonicalKept :
    Canonical State.reset ∧
    Canonical (putBytes (withReg 0x4c 1 (withThread { st := .ready } (setCore State.reset 0 0 { takeQ := [1] }))) 5 [1]) := by
  simp only [Canonical]; decide +kernel

theorem test_witness_IdentityKept : ∃ t, exec (.trst true) State.reset = .next t := ⟨_, rfl⟩

end Sys2Proof.Tests

namespace Sys2Proof.Tests

open Sys2Proof Sys2Proof.Machine Sys2Proof.Claims

/-! ## Words -/

/-- The words of the worked examples of files 04 and 05. -/
theorem test_words_scalar :
    decodeWords w0 0x40800000 0 = .li w0 ⟨4, 0, 0⟩ ∧ decodeWords w0 0x44810040 0 = .lih w0 ⟨4, 1, 0x0040⟩ ∧
    decodeWords w0 0x448300b3 0 = .lih w0 ⟨4, 3, 0x00b3⟩ ∧ decodeWords w0 0x80a40000 0 = .ldGD w0 ⟨5, 4, 0⟩ ∧
    decodeWords w0 0x00c53801 0 = .add w0 ⟨6, 5, 7, 0⟩ := by decide +kernel

theorem test_words_engine :
    decodeWords w0 0xc7f03c00 0xfc000000 = .mld w0 ⟨0x3f, 0, 15, 0, 0, 0x3f, 0, 0⟩ ∧
    decodeWords w0 0xc034254b 0xfc000212 = .mma w0 ⟨3, 8, 9, 10, 11, 0x3f, 0, 0x00212⟩ ∧
    decodeWords w0 0xcbf03000 0x14040002 = .mdr w0 ⟨0x3f, 0, 12, 0, 0, 5, 1, 0x00002⟩ ∧
    decodeWords w0 0xe856b800 0x180401c0 = .strm w0 ⟨5, 13, 14, 0, 0, 6, 1, 0x001c0⟩ := by decide +kernel

/-- One word of each other family, written out by the tables of files 04 and 05: an ALU immediate, a local store, a
branch, SYS, TQTAKE, TPRIO, AMOADD.W, a VOP, a RED, and the second command of OP 0x38, 0x39 and 0x3E. -/
theorem test_words_families :
    decodeWords w0 0b00000100011000100000000000000101 0 = .addImmediate w0 ⟨3, 2, 5⟩ ∧
    decodeWords w0 0b01101000001000101111111111111100 0 = .stW w0 ⟨1, 2, 0xfffc⟩ ∧
    decodeWords w0 0b10100000001000100000000000000011 0 = .beq w0 ⟨1, 2, 3⟩ ∧
    decodeWords w0 0b10111100010000000000000000000111 0 = .trap w0 0 7 ∧
    decodeWords w0 0b01001000001000000000000000100000 0 = .tqtake w0 1 ∧
    decodeWords w0 0b01001100000000010000000000010000 0 = .tprio w0 1 ∧
    decodeWords w0 0b10010000001000100001100000000001 0 = .amoaddW w0 ⟨1, 2, 3, 0⟩ ∧
    decodeWords w0 0b11010011111100000000010001000011 0b11111100000000000000000000000010 =
      .vopAdd w0 ⟨0x3f, 0, 1, 2, 3, 0x3f, 0, 2⟩ ∧
    decodeWords w0 0b11011111111100000000010001000000 0b11111100000000000000000000000011 =
      .redMaxi w0 ⟨0x3f, 0, 1, 2, 0, 0x3f, 0, 3⟩ ∧
    decodeWords w0 0b11100011111100000000010001000000 0b11111100000000100000000000000000 =
      .unpk w0 ⟨0x3f, 0, 1, 2, 0, 0x3f, 0, 0x20000⟩ ∧
    decodeWords w0 0b11100111111100000000010001000011 0b11111100000000000000000000000000 =
      .rowfill w0 ⟨0x3f, 0, 1, 2, 3, 0x3f, 0, 0⟩ ∧
    decodeWords w0 0b11111011111100000000000000000000 0b11111100000000100000000000000001 =
      .clw w0 ⟨0x3f, 0, 0, 0, 0, 0x3f, 0, 0x20001⟩ := by decide +kernel

/-- A reserved OP, FN, SYS operation, VOPC and ROP. -/
theorem test_words_reserved :
    decodeWords w0 0x3c000000 0 = .reservedInstruction w0 0x3c000000 0 ∧
    decodeWords w0 0x00000013 0 = .reservedInstruction w0 0x00000013 0 ∧
    decodeWords w0 0xbc800000 0 = .reservedInstruction w0 0xbc800000 0 ∧
    decodeWords w0 0xd3f00000 0xfc000010 = .reservedInstruction w0 0xd3f00000 0xfc000010 ∧
    decodeWords w0 0xdff00000 0xfc000005 = .reservedInstruction w0 0xdff00000 0xfc000005 := by decide +kernel

theorem test_witness_WordsDecode :
    scalarWord (.add w0 ⟨6, 5, 7, 0⟩) = some (w0, 0x00c53801) ∧ scalarWord (.tqtake w0 1) = some (w0, 0x48200020) ∧
    scalarWord (.li w0 ⟨4, 0, 0⟩) = some (w0, 0x40800000) ∧
    commandWords (.mma w0 ⟨3, 8, 9, 10, 11, 0x3f, 0, 0x00212⟩) = some (w0, 0x30, ⟨3, 8, 9, 10, 11, 0x3f, 0, 0x00212⟩) ∧
    commandWords (.sig w0 e0) = some (w0, 0x3c, e0) := by decide +kernel

/-! ## Further witnesses -/

theorem test_witness_FerryBuffer_stalls :
    let s := setCore sInject 0 0 { held := (upto 17).map fun i => ⟨i, [], false, .chain⟩ }
    coreActive s 0 0 = true ∧ chainTakes s 0 0 (rdFld s (lcBase 0 + 0x90) 12 0) (min 64 q0.f.hdr.rows) = false := by
  decide +kernel

theorem test_witness_HostRegisters_functions :
    moduleMaster .hm ∧ prevails .hm .bmc = true ∧ prevails .bmc .hm = false ∧
    vfEnabled sPcie 0 1 = false ∧ bar0Refusal sPcie 0 0 0x40000 4 = none ∧ bar0Reg 0 0 0x40000 = some 0x40000 ∧
    vfEnabled sFns 0 6 = true ∧ bar0Refusal sFns 0 6 0x18 4 = none ∧ bar0Reg 0 6 0x18 = some (rQs 5 0x18) ∧
    bar0Refusal sFns 0 6 0x200 4 = some 2 := by
  refine ⟨.inl rfl, ?_⟩; decide +kernel

/-- Channel 3 has a request that waits, and its turn comes before that of channel 48. -/
def sTurns : State := { sOn with hm := { sOn.hm with posted := [3], lastCh := 2 } }

theorem test_witness_MailboxSecurity_turns :
    domState sTurns 69 = 2 ∧ rdFld sTurns (rMbx 48 + 4) 2 0 ≠ 1 ∧ 48 ∉ sTurns.hm.posted ∧ inTurn sTurns 48 = false ∧
    3 ∈ sTurns.hm.posted ∧ rdFld sTurns (rMbx 3) 15 0 ≠ 6 := by decide +kernel

theorem test_witness_Management_remote : hearsMaster sOn (.remote 3) (.smbus true) := by
  simp only [hearsMaster]; decide +kernel

theorem test_witness_LandingLoss_reach :
    (∀ c ∈ rejoinCopies sRejoins 0, copyReach sRejoins c.land c.off c.dest c.at' c.len = true) ∧
    (let s := withReg (scBase 1 0) 0x1000000 (withReg (scBase 1 1) 0x1000000 sRejoins)
     let s := { s with sto := { s.sto with liveMap := [⟨0, 4096, 0, 0⟩] } }
     (rejoinCopies s 0).any fun c => !copyReach s c.land c.off c.dest c.at' c.len) = true := by
  decide +kernel

theorem test_witness_PowerDomains_boarding :
    (31 ∉ sOn.pwr.boarded ∧ ∀ r ∈ requires 31, domState sOn r = 2) ∧
    (let s := withReg (rPd 63) 0x2 sOn
     31 ∉ s.pwr.boarded ∧ domState (withReg (rPd 31) 0x2 s) 31 ≠ 2 ∧ ∃ r ∈ requires 31, domState s r ≠ 2) ∧
    (rdFld sPower (rPd 63) 5 5 = 0 ∧ (getLand sPower 31).out = false) ∧
    (let s := sMoves 63 2 0x22
     goalOf s 63 = some (2, false) ∧ domState s 63 ≠ 2 ∧ rdFld s (rPd 63) 5 5 = 1 ∧
       (∀ r ∈ requires 63, domState s r = 2)) := by
  decide +kernel

theorem test_witness_PowerSupply_rate :
    let s := { sOn with pwr := { sOn.pwr with vcoreAt := [(31, 5)] } }
    arrayOn s 31 = true ∧ s.edges < tget 0 s.pwr.vcoreAt 31 := by decide +kernel

theorem test_witness_Heat_stall :
    (let s := { sOn with edges := 200000000 }
     s.pwr.fcEdge + 200000000 ≤ s.edges) ∧ sOn.edges < sOn.pwr.fcEdge + 200000000 := by
  decide +kernel

theorem test_witness_StepRunsFront_time : inTime State.reset .holdover = false := by decide

end Sys2Proof.Tests
end

section
/-! The fuses and the queue of commands: READY and LC_REQUEST aside, nothing that a command runs changes either of them
(R3, R4, R472, R487 to R489, R537). One frame lemma for each function of the model, in the model's order. -/

namespace Sys2Proof.Laws

open Sys2Proof Sys2Proof.Machine

/-! ## The fuses and the queue of a state -/

/-- What identifies the module, with the commands that wait: the fuses and the queue. It is irreducible so that `simp`
rewrites by the frame lemmas below and the kernel does not compare whole states. -/
@[irreducible] def ident (s : State) : Fuses × List Instr := (s.fuses, s.pending)

theorem ident_def (s : State) : ident s = (s.fuses, s.pending) := by rw [ident]

/-- A record update of other fields: its left side is the state with its fields written out. -/
@[simp] theorem ident_mk {pending time edges mem poison uerr cerr regs latch heldLow threads cores lands trainCw trainCcw
    crs accs nextId sto xpt reqs qsets pcie hm pwr boot tap mgmt dbg served fetched nextReq fuses modnum free outs} :
    ident ⟨pending, time, edges, mem, poison, uerr, cerr, regs, latch, heldLow, threads, cores, lands, trainCw, trainCcw,
      crs, accs, nextId, sto, xpt, reqs, qsets, pcie, hm, pwr, boot, tap, mgmt, dbg, served, fetched, nextReq, fuses,
      modnum, free, outs⟩ = (fuses, pending) := ident_def _

@[simp] theorem ident_eta (s : State) : (s.fuses, s.pending) = ident s := (ident_def s).symm

@[simp] theorem ident_ite (c : Prop) [Decidable c] (a b : State) :
    ident (if c then a else b) = if c then ident a else ident b := apply_ite ident c a b

@[simp] theorem ident_ite_fst {β : Type} (c : Prop) [Decidable c] (a b : State × β) :
    ident (if c then a else b).1 = if c then ident a.1 else ident b.1 := by split <;> rfl

@[simp] theorem ident_foldl {α : Type} {f : State → α → State} (hf : ∀ s a, ident (f s a) = ident s) (xs : List α)
    (s : State) : ident (xs.foldl f s) = ident s :=
  foldl_keeps (P := fun t => ident t = ident s) (fun t a h => (hf t a).trans h) xs rfl

/-- A command's outcome that leaves the fuses and the queue as they are in `s`. -/
def Same (s : State) (r : Res) : Prop := ∀ t, r = .next t → ident t = ident s

@[simp] theorem same_next {s t : State} : Same s (.next t) ↔ ident t = ident s := by
  constructor
  · exact fun h => h t rfl
  · rintro h _ ⟨⟩
    exact h

@[simp] theorem same_ite {s : State} (c : Prop) [Decidable c] (a b : Res) :
    Same s (if c then a else b) ↔ if c then Same s a else Same s b := by
  split <;> rfl

/-! ## What the functions of the model leave alone -/

/-! ### Ops -/

@[simp] theorem ident_setThr (s : State) (w : ThreadRef) (t : Thread) : ident (setThr s w t) = ident s := by
  simp [setThr]

@[simp] theorem ident_setCore (s : State) (l c : Nat) (x : Core) : ident (setCore s l c x) = ident s := by
  simp [setCore]

@[simp] theorem ident_setLand (s : State) (l : Nat) (x : Landing) : ident (setLand s l x) = ident s := by simp [setLand]
@[simp] theorem ident_wr (s : State) (o : Nat) (v : Word) : ident (wr s o v) = ident s := by simp [wr]
@[simp] theorem ident_wrFld (s : State) (o hi lo v : Nat) : ident (wrFld s o hi lo v) = ident s := by simp [wrFld]
@[simp] theorem ident_wrPair (s : State) (o v : Nat) : ident (wrPair s o v) = ident s := by simp [wrPair]
@[simp] theorem ident_setFlag (s : State) (o i : Nat) : ident (setFlag s o i) = ident s := by simp [setFlag]

@[simp] theorem ident_countUp (s : State) (o hi lo n : Nat) (cause : Option (Nat × Nat)) :
    ident (countUp s o hi lo n cause) = ident s := by
  unfold countUp
  split <;> simp

@[simp] theorem ident_raiseCore (s : State) (l c b : Nat) : ident (raiseCore s l c b) = ident s := by simp [raiseCore]
@[simp] theorem ident_raiseLand (s : State) (l b : Nat) : ident (raiseLand s l b) = ident s := by simp [raiseLand]

@[simp] theorem ident_countCore (s : State) (l c o hi lo n cause : Nat) :
    ident (countCore s l c o hi lo n cause) = ident s := by
  simp [countCore]

@[simp] theorem ident_putBytes (s : State) (k : Nat) (bs : List Byte) : ident (putBytes s k bs) = ident s := by
  simp [putBytes]

@[simp] theorem ident_setPoison (s : State) (u : Nat) (b : Bool) : ident (setPoison s u b) = ident s := by
  simp [setPoison]

@[simp] theorem ident_freshCheck (s : State) (u : Nat) : ident (freshCheck s u) = ident s := by simp [freshCheck]
@[simp] theorem ident_scrubRange (s : State) (k n : Nat) : ident (scrubRange s k n) = ident s := by simp [scrubRange]
@[simp] theorem ident_freshRow (s : State) (k : Nat) : ident (freshRow s k) = ident s := by simp [freshRow]

@[simp] theorem ident_readRowMarks (s : State) (l c r : Nat) : ident (readRowMarks s l c r) = ident s := by
  simp [readRowMarks]

@[simp] theorem ident_dropCached (s : State) (l c r : Nat) : ident (dropCached s l c r) = ident s := by
  unfold dropCached
  dsimp only
  split <;> simp

@[simp] theorem ident_putRow (s : State) (l c r : Nat) (bs : List Byte) (psn : Bool) :
    ident (putRow s l c r bs psn) = ident s := by
  simp [putRow]

@[simp] theorem ident_putRows (s : State) (l c r : Nat) (xs : List (List Byte × Bool)) :
    ident (putRows s l c r xs) = ident s := by
  induction xs generalizing s r with
  | nil => rfl
  | cons x xs ih => rw [putRows, ih, ident_putRow]

@[simp] theorem ident_readRowsMarks (s : State) (l c r n : Nat) : ident (readRowsMarks s l c r n) = ident s := by
  induction n generalizing s r with
  | zero => rfl
  | succ n ih => rw [readRowsMarks, ih, ident_readRowMarks]

@[simp] theorem ident_poisonRows (s : State) (l c r n : Nat) : ident (poisonRows s l c r n) = ident s := by
  simp [poisonRows]

@[simp] theorem ident_raiseFault (s : State) (w : ThreadRef) : ident (raiseFault s w) = ident s := by
  unfold raiseFault
  split <;> simp

@[simp] theorem ident_withdrawTake (s : State) (w : ThreadRef) : ident (withdrawTake s w) = ident s := by
  unfold withdrawTake
  split <;> simp

@[simp] theorem ident_faultThread (s : State) (w : ThreadRef) (code : FCode) (info : Dword) (deferred : Bool)
    (pc : BitVec 15) :
    ident (faultThread s w code info deferred pc) = ident s := by
  simp [faultThread]

@[simp] theorem ident_preciseFault (s : State) (w : ThreadRef) (code : FCode) (info : Dword) :
    ident (preciseFault s w code info) = ident s := by
  simp [preciseFault]

@[simp] theorem ident_orphanFault (s : State) (w : ThreadRef) : ident (orphanFault s w) = ident s := by
  unfold orphanFault
  split <;> simp

@[simp] theorem ident_dst (s : State) (w : ThreadRef) (r : BitVec 5) (v : Dword) : ident (dst s w r v) = ident s := by
  simp [dst]

@[simp] theorem ident_pcEnd (s : State) (w : ThreadRef) : ident (pcEnd s w) = ident s := by simp [pcEnd]

@[simp] theorem ident_advance (s : State) (w : ThreadRef) (n : Nat) : ident (advance s w n) = ident s := by
  simp [advance]

@[simp] theorem ident_correctWord (s : State) (w : ThreadRef) (u : Nat) : ident (correctWord s w u) = ident s := by
  cases w <;> simp [correctWord]

@[simp] theorem ident_noteRun (s : State) (w : ThreadRef) : ident (noteRun s w) = ident s := by
  unfold noteRun
  split <;> simp

@[simp] theorem ident_issue (s : State) (w : ThreadRef) (bad : Bool) (word : Word) {body : State → State}
    (hb : ∀ t, ident (body t) = ident t) : ident (issue s w bad word body) = ident s := by
  simp [issue, hb]

@[simp] theorem ident_emit (s : State) (o : Out) : ident (emit s o) = ident s := by simp [emit]

/-! ### Flags -/

@[simp] theorem ident_setCtr (s : State) (l c n : Nat) (x : Ctr) : ident (setCtr s l c n x) = ident s := by
  simp [setCtr]

@[simp] theorem ident_chEvent (s : State) (l c b ctr : Nat) : ident (chEvent s l c b ctr) = ident s := by simp [chEvent]

@[simp] theorem ident_pairTest (s : State) (l c : Nat) (moved : List Nat) (w : Word) :
    ident (pairTest s l c moved w) = ident s := by
  simp [pairTest]

@[simp] theorem ident_pairTests (s : State) (l c : Nat) (moved : List Nat) :
    ident (pairTests s l c moved) = ident s := by
  simp [pairTests]

@[simp] theorem ident_rawAdd (s : State) (l c : Nat) (a : Machine.Add) (note : Bool) :
    ident (rawAdd s l c a note) = ident s := by
  simp [rawAdd]

@[simp] theorem ident_rawAdds (s : State) (l c : Nat) (seen : List Nat) (xs : List Machine.Add) :
    ident (rawAdds s l c seen xs) = ident s := by
  induction xs generalizing s seen with
  | nil => rfl
  | cons x xs ih => rw [rawAdds, ih, ident_rawAdd]

@[simp] theorem ident_moveCtrs (s : State) (l c : Nat) (xs : List Machine.Add) :
    ident (moveCtrs s l c xs) = ident s := by
  simp [moveCtrs]

@[simp] theorem ident_setCtrPart (s : State) (l c : Nat) (x : Tab Ctr × Word × Word) :
    ident (setCtrPart s l c x) = ident s := by
  simp [setCtrPart]

@[simp] theorem ident_noteMet (s : State) (l c : Nat) : ident (noteMet s l c) = ident s := by simp [noteMet]

@[simp] theorem ident_addMany (s : State) (l c : Nat) (xs : List Machine.Add) : ident (addMany s l c xs) = ident s := by
  simp [addMany]

@[simp] theorem ident_addCtr (s : State) (l c n inc : Nat) (a : AddSrc) : ident (addCtr s l c n inc a) = ident s := by
  simp [addCtr]

@[simp] theorem ident_signalAfter (s : State) (l c : Nat) (sctr : BitVec 6) (sinc : BitVec 8) (a : AddSrc) :
    ident (signalAfter s l c sctr sinc a) = ident s := by
  simp [signalAfter]

@[simp] theorem ident_watchdogFired (s : State) (l c : Nat) : ident (watchdogFired s l c) = ident s := by
  simp [watchdogFired]

@[simp] theorem ident_engineError (s : State) (l c e code : Nat) (cmd : EngCmd) :
    ident (engineError s l c e code cmd) = ident s := by
  simp [engineError]

/-! ### Links -/

@[simp] theorem ident_groupFalls (s : State) (r : Nat) (wasDown : Bool) : ident (groupFalls s r wasDown) = ident s := by
  simp [groupFalls]

@[simp] theorem ident_becomeMaster (s : State) : ident (becomeMaster s) = ident s := by simp [becomeMaster]
@[simp] theorem ident_setPort (s : State) (p : Nat) (x : Port) : ident (setPort s p x) = ident s := by simp [setPort]

@[simp] theorem ident_pushFrame (s : State) (role tc : Nat) (f : Frame) : ident (pushFrame s role tc f) = ident s := by
  simp [pushFrame]

theorem ident_of_routeFrame {s t : State} {dst tc : Nat} {f : Frame} (h : routeFrame s dst tc f = some t) :
    ident t = ident s := by
  unfold routeFrame at h
  dsimp only at h
  split at h
  · cases h
  · cases h; simp

theorem ident_of_routeMsg {s t : State} {dst tc : Nat} {f : Frame} (h : routeMsg s dst tc f = some t) :
    ident t = ident s := by
  unfold routeMsg at h
  split at h
  · exact ident_of_routeFrame h
  · dsimp only at h
    split at h
    · cases h
    · cases h; simp

@[simp] theorem ident_sendMsg (s : State) (ty dst : Nat) (args : List Int) :
    ident (sendMsg s ty dst args) = ident s := by
  unfold sendMsg
  split
  · next h => exact ident_of_routeMsg h
  · simp

@[simp] theorem ident_sendAll (s : State) (ty : Nat) (args : List Int) : ident (sendAll s ty args) = ident s := by
  unfold sendAll
  split
  · rfl
  · refine ident_foldl (fun s r => ?_) _ s
    split <;> simp

/-! ### Holds -/

@[simp] theorem ident_sendHold (s : State) : ident (sendHold s) = ident s := by simp [sendHold]
@[simp] theorem ident_noticeHold (s : State) : ident (noticeHold s) = ident s := by simp [noticeHold]

/-! ### Scalar -/

@[simp] theorem ident_aluR (s : State) (w : ThreadRef) (f : RForm) (fn : BitVec 6) (g : Dword → Dword → Dword) :
    ident (aluR s w f fn g) = ident s := by
  simp [aluR]

@[simp] theorem ident_aluI (s : State) (w : ThreadRef) (f : IForm) (op : BitVec 6) (bad : Bool)
    (g : Dword → Dword → Dword) (imm : Dword) :
    ident (aluI s w f op bad g imm) = ident s := by
  simp [aluI]

@[simp] theorem same_execSel (w : ThreadRef) (f : RForm) (s : State) : Same s (execSel w f s) := by simp [execSel]
@[simp] theorem same_execLi (w : ThreadRef) (f : IForm) (s : State) : Same s (execLi w f s) := by simp [execLi]
@[simp] theorem same_execLih (w : ThreadRef) (f : IForm) (s : State) : Same s (execLih w f s) := by simp [execLih]

@[simp] theorem ident_takeTile (s : State) (w : ThreadRef) (sd : BitVec 5) (word : Word) :
    ident (takeTile s w sd word) = ident s := by
  unfold takeTile
  split
  · simp
  · split <;> simp

@[simp] theorem ident_stepFree (s : State) : ident (stepFree s) = ident s := by simp [stepFree]

@[simp] theorem same_execMfs (w : ThreadRef) (f : IForm) (s : State) : Same s (execMfs w f s) := by
  refine same_next.mpr (ident_issue s w _ _ fun s => ?_)
  dsimp only
  split
  · simp
  · split
    · simp
    · split <;> simp

/-! ### Tiles -/

@[simp] theorem ident_updHold (s : State) (l : Nat) : ident (updHold s l) = ident s := by simp [updHold]
@[simp] theorem ident_updHolds (s : State) : ident (updHolds s) = ident s := by simp [updHolds]
@[simp] theorem ident_releaseSlots (s : State) (l : Nat) : ident (releaseSlots s l) = ident s := by simp [releaseSlots]

@[simp] theorem ident_grantTile (l : Nat) (s : State) (c : Nat) : ident (grantTile l s c) = ident s := by
  unfold grantTile
  split
  · simp
  · split
    · dsimp only
      split <;> simp
    · dsimp only
      split <;> simp

@[simp] theorem same_execTileGrant (k : CoreRef) (s : State) : Same s (execTileGrant k s) := by simp [execTileGrant]

@[simp] theorem same_execStealDelayExpiry (l : Fin 32) (tile : Nat) (s : State) :
    Same s (execStealDelayExpiry l tile s) := by
  simp [execStealDelayExpiry]

@[simp] theorem ident_doneTile (s : State) (w : ThreadRef) (v : Dword) (word : Word) :
    ident (doneTile s w v word) = ident s := by
  unfold doneTile
  split <;> simp

@[simp] theorem ident_writePrio (s : State) (w : ThreadRef) (v : Dword) : ident (writePrio s w v) = ident s := by
  simp [writePrio]

@[simp] theorem same_execMts (w : ThreadRef) (f : IForm) (s : State) : Same s (execMts w f s) := by simp [execMts]

@[simp] theorem same_execTqtake (w : ThreadRef) (sd : BitVec 5) (s : State) : Same s (execTqtake w sd s) := by
  simp [execTqtake]

@[simp] theorem same_execTqdone (w : ThreadRef) (sa : BitVec 5) (s : State) : Same s (execTqdone w sa s) := by
  simp [execTqdone]

@[simp] theorem same_execTprio (w : ThreadRef) (sa : BitVec 5) (s : State) : Same s (execTprio w sa s) := by
  simp [execTprio]

/-! ### Local -/

@[simp] theorem ident_localLoad (s : State) (w : ThreadRef) (f : IForm) (op : BitVec 6) (n : Nat) (ext : Nat → Dword) :
    ident (localLoad s w f op n ext) = ident s := by
  simp [localLoad]

@[simp] theorem ident_localStore (s : State) (w : ThreadRef) (f : IForm) (op : BitVec 6) (n : Nat) :
    ident (localStore s w f op n) = ident s := by
  simp [localStore]

@[simp] theorem ident_jump (s : State) (w : ThreadRef) (pc : BitVec 15) : ident (jump s w pc) = ident s := by
  simp [jump]

@[simp] theorem ident_branch (s : State) (w : ThreadRef) (f : IForm) (op : BitVec 6) (cond : Dword → Dword → Bool) :
    ident (branch s w f op cond) = ident s := by
  simp [branch]

@[simp] theorem same_execBr (w : ThreadRef) (f : IForm) (s : State) : Same s (execBr w f s) := by simp [execBr]
@[simp] theorem same_execCall (w : ThreadRef) (f : IForm) (s : State) : Same s (execCall w f s) := by simp [execCall]
@[simp] theorem same_execRet (w : ThreadRef) (f : RForm) (s : State) : Same s (execRet w f s) := by simp [execRet]

@[simp] theorem same_execYield (w : ThreadRef) (sa : BitVec 5) (imm : BitVec 16) (s : State) :
    Same s (execYield w sa imm s) := by
  simp [execYield]

@[simp] theorem same_execYieldExpiry (w : ThreadRef) (s : State) : Same s (execYieldExpiry w s) := by
  simp [execYieldExpiry]

@[simp] theorem same_execTrap (w : ThreadRef) (sa : BitVec 5) (imm : BitVec 16) (s : State) :
    Same s (execTrap w sa imm s) := by
  simp [execTrap]

/-! ### Global -/

@[simp] theorem ident_newAccess (s : State) (src : ASrc) (kind : AKind) (addr : Dword) (win : Option
    (BitVec 10 × BitVec 8)) (inc : Option (BitVec 8 × BitVec 6 × BitVec 8)) (pc : BitVec 15) (sd : BitVec 5) :
    ident (newAccess s src kind addr win inc pc sd) = ident s := by
  simp [newAccess]

@[simp] theorem ident_dropAccess (s : State) (id : Nat) : ident (dropAccess s id) = ident s := by simp [dropAccess]
@[simp] theorem ident_answer (s : State) (id : Nat) (r : AResult) : ident (answer s id r) = ident s := by simp [answer]

@[simp] theorem ident_globalLoad (s : State) (w : ThreadRef) (f : IForm) (op : BitVec 6) (n : Nat) :
    ident (globalLoad s w f op n) = ident s := by
  simp [globalLoad]

@[simp] theorem ident_globalStore (s : State) (w : ThreadRef) (f : IForm) (op : BitVec 6) (n : Nat) :
    ident (globalStore s w f op n) = ident s := by
  simp [globalStore]

@[simp] theorem ident_globalAmo (s : State) (w : ThreadRef) (f : RForm) (fn : BitVec 6) (n : Nat) :
    ident (globalAmo s w f fn n) = ident s := by
  simp [globalAmo]

@[simp] theorem ident_finishTask (s : State) (w : ThreadRef) : ident (finishTask s w) = ident s := by
  unfold finishTask
  split
  · dsimp only
    split <;> simp
  · dsimp only
    split <;> simp

@[simp] theorem ident_checkHold (s : State) (w : ThreadRef) : ident (checkHold s w) = ident s := by
  unfold checkHold
  dsimp only
  split
  · split <;> simp
  · simp

@[simp] theorem same_execFence (w : ThreadRef) (sa : BitVec 5) (imm : BitVec 16) (s : State) :
    Same s (execFence w sa imm s) := by
  simp [execFence]

@[simp] theorem same_execTaskEnd (w : ThreadRef) (sa : BitVec 5) (imm : BitVec 16) (s : State) :
    Same s (execTaskEnd w sa imm s) := by
  simp [execTaskEnd]

@[simp] theorem ident_respond (s : State) (a : Access) (w : ThreadRef) (fault : Option FCode) (v : Nat) :
    ident (respond s a w fault v) = ident s := by
  unfold respond
  split <;> simp

@[simp] theorem ident_completePosted (s : State) (a : Access) (w : ThreadRef) (fault : Option FCode) :
    ident (completePosted s a w fault) = ident s := by
  unfold completePosted
  split <;> simp

@[simp] theorem same_execGlobalResponse (id : Nat) (s : State) : Same s (execGlobalResponse id s) := by
  unfold execGlobalResponse
  split
  · simp
  · split
    · split <;> simp
    · simp

@[simp] theorem same_execGlobalStoreCompletion (id : Nat) (s : State) :
    Same s (execGlobalStoreCompletion id s) := by
  unfold execGlobalStoreCompletion
  split
  · simp
  · split
    · split
      · simp
      · split <;> simp
    · simp

@[simp] theorem same_execGtimeout (id : Nat) (s : State) : Same s (execGtimeout id s) := by
  unfold execGtimeout
  split
  · simp
  · split
    · split
      · simp
      · split
        · simp
        · split <;> simp
    · simp

@[simp] theorem ident_refusePost (s : State) (l why : Nat) : ident (refusePost s l why) = ident s := by
  simp [refusePost]

@[simp] theorem ident_post (s : State) (m : Master) (l c t : Nat) (kill : Bool) (new : Thread → Thread) (met : Bool) :
    ident (post s m l c t kill new met) = ident s := by
  unfold post
  split
  · simp
  · split
    · simp
    · split
      · simp
      · dsimp only
        split <;> simp

@[simp] theorem same_execTaskPost (m : Master) (l : Fin 32) (core : Fin 256) (thr : Fin 16) (prio : BitVec 2)
    (entry : BitVec 15) (arg : Word) (met : Bool) (s : State) :
    Same s (execTaskPost m l core thr prio entry arg met s) := by
  simp [execTaskPost]

@[simp] theorem same_execKillPost (m : Master) (l : Fin 32) (core : Fin 256) (thr : Fin 16) (prio : BitVec 2)
    (entry : BitVec 15) (arg : Word) (met : Bool) (s : State) :
    Same s (execKillPost m l core thr prio entry arg met s) := by
  simp [execKillPost]

/-! ### Stacks -/

@[simp] theorem ident_readLine (s : State) (l o : Nat) : ident (readLine s l o) = ident s := by simp [readLine]

@[simp] theorem ident_readLines (s : State) (l off n : Nat) : ident (readLines s l off n) = ident s := by
  simp [readLines]

@[simp] theorem ident_writeLine (s : State) (l off n : Nat) (psn : Bool) (o : Nat) :
    ident (writeLine s l off n psn o) = ident s := by
  simp [writeLine]

@[simp] theorem ident_writeStack (s : State) (l off : Nat) (bs : List Byte) (psn : Bool) :
    ident (writeStack s l off bs psn) = ident s := by
  simp [writeStack]

@[simp] theorem ident_poisonStack (s : State) (l off n : Nat) : ident (poisonStack s l off n) = ident s := by
  simp [poisonStack]

@[simp] theorem ident_startScrub (s : State) (l st : Nat) : ident (startScrub s l st) = ident s := by simp [startScrub]
@[simp] theorem ident_scrubLanding (s : State) (l : Nat) : ident (scrubLanding s l) = ident s := by simp [scrubLanding]

@[simp] theorem same_execPatrolScrub (l : Fin 32) (stack : Fin 2) (s : State) : Same s (execPatrolScrub l stack s) := by
  simp [execPatrolScrub]

/-! ### Cb16 -/

@[simp] theorem ident_cb16Count (s : State) (l c o lo n : Nat) : ident (cb16Count s l c o lo n) = ident s := by
  simp [cb16Count]

@[simp] theorem ident_putTab (s : State) (l c table r : Nat) (t : List Byte) (psn : Option Bool) :
    ident (putTab s l c table r t psn) = ident s := by
  simp [putTab]

@[simp] theorem ident_packRegion (l c : Nat) (e : EngCmd) (a : PackAcc) (r : Nat) :
    ident (packRegion l c e a r).st = ident a.st := by
  simp [packRegion]

theorem ident_foldl_packRegion (l c : Nat) (e : EngCmd) (rs : List Nat) (a : PackAcc) :
    ident (rs.foldl (packRegion l c e) a).st = ident a.st := by
  induction rs generalizing a with
  | nil => rfl
  | cons r rs ih => rw [List.foldl_cons, ih, ident_packRegion]

@[simp] theorem ident_runPack (s : State) (l c : Nat) (e : EngCmd) : ident (runPack s l c e).1 = ident s := by
  unfold runPack
  dsimp only
  split
  · rw [ident_putRows, ident_foldl_packRegion]
  · rw [ident_foldl_packRegion]

@[simp] theorem ident_supScan (s : State) (l c nreg n r : Nat) (a : SupScan) :
    ident (supScan s l c nreg n r a).1 = ident s := by
  induction n generalizing s r a with
  | zero => rfl
  | succ n ih =>
    unfold supScan
    split
    · rfl
    · exact (ih ..).trans (ident_readRowMarks ..)

@[simp] theorem ident_countLossy (s : State) : ident (countLossy s) = ident s := by simp [countLossy]

@[simp] theorem ident_unpkRegion (l c : Nat) (e : EngCmd) (sc : SupScan) (s : State) (r : Nat) :
    ident (unpkRegion l c e sc s r) = ident s := by
  simp [unpkRegion]

@[simp] theorem ident_runUnpk (s : State) (l c : Nat) (e : EngCmd) : ident (runUnpk s l c e) = ident s := by
  simp [runUnpk]

/-! ### Matrix -/

@[simp] theorem ident_putStat (s : State) (l c r : Nat) (rows : PRows) : ident (putStat s l c r rows) = ident s := by
  induction rows generalizing s r with
  | nil => rfl
  | cons x xs ih => exact (ih ..).trans (ident_setCore ..)

@[simp] theorem ident_mflag (s : State) (l c b : Nat) : ident (mflag s l c b) = ident s := by simp [mflag]

@[simp] theorem ident_setSlot (s : State) (l c n : Nat) (x : Slot) : ident (setSlot s l c n x) = ident s := by
  simp [setSlot]

@[simp] theorem ident_poisonSlot (s : State) (l c n : Nat) : ident (poisonSlot s l c n) = ident s := by
  simp [poisonSlot]

@[simp] theorem ident_countWalk (s : State) (l c : Nat) (e : EngCmd) (fails : List Nat) (ahead : List EngCmd) :
    ident (countWalk s l c e fails ahead) = ident s := by
  simp [countWalk]

@[simp] theorem ident_runMma (s : State) (l c : Nat) (e : EngCmd) (ahead : List EngCmd) :
    ident (runMma s l c e ahead).1 = ident s := by
  simp [runMma]

@[simp] theorem ident_runMld (s : State) (l c : Nat) (e : EngCmd) : ident (runMld s l c e) = ident s := by simp [runMld]
@[simp] theorem ident_runMz (s : State) (l c : Nat) (e : EngCmd) : ident (runMz s l c e) = ident s := by simp [runMz]

@[simp] theorem ident_runMdr (s : State) (l c : Nat) (e : EngCmd) : ident (runMdr s l c e).1 = ident s := by
  simp [runMdr]

/-! ### Streams -/

@[simp] theorem ident_setCtx (s : State) (l c sid : Nat) (x : Ctx) : ident (setCtx s l c sid x) = ident s := by
  simp [setCtx]

@[simp] theorem ident_countSe (s : State) (l c lo : Nat) (cause : Bool) : ident (countSe s l c lo cause) = ident s := by
  simp [countSe]

@[simp] theorem ident_countPsnRow (s : State) (l c : Nat) : ident (countPsnRow s l c) = ident s := by simp [countPsnRow]

@[simp] theorem ident_streamAccess (s : State) (l c : Nat) (src : ASrc) (kind : AKind) (addr : Dword) (win : Option
    (BitVec 10 × BitVec 8)) (inc : Option (BitVec 8 × BitVec 6 × BitVec 8)) :
    ident (streamAccess s l c src kind addr win inc) = ident s := by
  simp [streamAccess]

@[simp] theorem ident_holdWrite (s : State) (l c : Nat) (h : HeldWrite) : ident (holdWrite s l c h) = ident s := by
  simp [holdWrite]

@[simp] theorem ident_chainFull (s : State) (l c : Nat) : ident (chainFull s l c) = ident s := by simp [chainFull]

@[simp] theorem ident_writeRowsHeld (s : State) (l c r : Nat) (goal : HeldFor) (xs : List (List Byte × Bool)) :
    ident (writeRowsHeld s l c r goal xs) = ident s := by
  induction xs generalizing s r with
  | nil => rfl
  | cons x xs ih => exact (ih ..).trans (by simp)

@[simp] theorem ident_applyProg (s : State) (l c sid : Nat) : ident (applyProg s l c sid) = ident s := by
  simp [applyProg]

@[simp] theorem ident_completeRow (s : State) (l c sid p : Nat) : ident (completeRow s l c sid p) = ident s := by
  simp [completeRow]

@[simp] theorem ident_streamWrite (s : State) (l c sid p : Nat) (data : List Byte) (psn : Bool) (tag : Option Nat) :
    ident (streamWrite s l c sid p data psn tag) = ident s := by
  unfold streamWrite
  split <;> simp

@[simp] theorem ident_jobDone (s : State) (l c sid : Nat) (failed : Bool) :
    ident (jobDone s l c sid failed) = ident s := by
  simp [jobDone]

@[simp] theorem ident_staleCtx (s : State) (l c sid : Nat) : ident (staleCtx s l c sid) = ident s := by simp [staleCtx]
@[simp] theorem ident_dropHeld (s : State) (l c sid : Nat) : ident (dropHeld s l c sid) = ident s := by simp [dropHeld]

@[simp] theorem ident_failArming (s : State) (l c sid : Nat) (st : AStatus) :
    ident (failArming s l c sid st) = ident s := by
  simp [failArming]

@[simp] theorem ident_loadCtx (s : State) (l c sid : Nat) (d : Desc) : ident (loadCtx s l c sid d) = ident s := by
  simp [loadCtx]

@[simp] theorem ident_rearmCtx (s : State) (l c sid : Nat) (x : Ctx) (d : Desc) :
    ident (rearmCtx s l c sid x d) = ident s := by
  simp [rearmCtx]

@[simp] theorem ident_indexRow (s : State) (l c sid r : Nat) (row : List Byte × Bool) :
    ident (indexRow s l c sid r row) = ident s := by
  simp [indexRow]

@[simp] theorem ident_requestIndex (s : State) (l c sid : Nat) : ident (requestIndex s l c sid) = ident s := by
  simp [requestIndex]

@[simp] theorem ident_requestRow (s : State) (l c sid : Nat) : ident (requestRow s l c sid) = ident s := by
  unfold requestRow
  dsimp only
  split <;> simp

@[simp] theorem ident_requestSignal (s : State) (l c sid : Nat) : ident (requestSignal s l c sid) = ident s := by
  simp [requestSignal]

@[simp] theorem ident_fillMissing (s : State) (l c sid p : Nat) : ident (fillMissing s l c sid p) = ident s := by
  simp [fillMissing]

@[simp] theorem same_execStreamRequest (k : CoreRef) (s : State) : Same s (execStreamRequest k s) := by
  unfold execStreamRequest
  dsimp only
  split
  · simp
  · split <;> simp

@[simp] theorem ident_streamResponse (s : State) (a : Access) (r : AResult) :
    ident (streamResponse s a r) = ident s := by
  unfold streamResponse
  split
  · split
    · simp
    · split <;> simp
  · simp
  · simp
  · simp
  · simp

@[simp] theorem same_execStreamResponse (id : Nat) (s : State) : Same s (execStreamResponse id s) := by
  unfold execStreamResponse
  split
  · simp
  · split <;> simp

@[simp] theorem same_execArmingEnd (k : CoreRef) (sid : Fin 32) (s : State) : Same s (execArmingEnd k sid s) := by
  simp [execArmingEnd]

@[simp] theorem same_execDeadlineMiss (k : CoreRef) (sid : Fin 32) (s : State) : Same s (execDeadlineMiss k sid s) := by
  simp [execDeadlineMiss]

@[simp] theorem same_execFbufWrite (m : Master) (l : Fin 32) (v : Word) (s : State) :
    Same s (execFbufWrite m l v s) := by
  simp [execFbufWrite]

/-! ### Crossing -/

@[simp] theorem ident_setTSlot (s : State) (d : Dir) (k : Nat) (x : TSlot) :
    ident (setTSlot s d k x) = ident s := by
  unfold setTSlot
  split <;> simp

@[simp] theorem ident_noteSlot (s : State) (l : Nat) (d : Dir) (k : Nat) : ident (noteSlot s l d k) = ident s := by
  simp [noteSlot]

@[simp] theorem ident_countRs (s : State) (l : Nat) (e : RsEvent) : ident (countRs s l e) = ident s := by simp [countRs]

@[simp] theorem ident_countRsN (s : State) (l : Nat) (e : RsEvent) (n : Nat) : ident (countRsN s l e n) = ident s := by
  simp [countRsN]

@[simp] theorem ident_noteSeen (s : State) (l : Nat) (f : Ferry) : ident (noteSeen s l f) = ident s := by
  simp [noteSeen]

@[simp] theorem ident_deliver (s : State) (l : Nat) (f : Ferry) : ident (deliver s l f) = ident s := by simp [deliver]

@[simp] theorem ident_setWaves (s : State) (l : Nat) (w : Waves) : ident (setWaves s l w) = ident s := by
  simp [setWaves]

@[simp] theorem ident_enterLayer (s : State) (l : Nat) : ident (enterLayer s l) = ident s := by
  unfold enterLayer
  split <;> simp

@[simp] theorem ident_passLayers (l n : Nat) (s : State) : ident (passLayers l n s) = ident s := by
  induction n generalizing s with
  | zero => rfl
  | succ n ih =>
    unfold passLayers
    split
    · split
      · rw [ih]; simp
      · rfl
    · rfl

@[simp] theorem ident_afterFerry (s : State) (l : Nat) (f : Ferry) : ident (afterFerry s l f) = ident s := by
  simp [afterFerry]

@[simp] theorem ident_takeContrib (s : State) (l : Nat) (f : Ferry) : ident (takeContrib s l f).2 = ident s := by
  simp [takeContrib]

@[simp] theorem ident_takeBounds (s : State) (l : Nat) (f : Ferry) : ident (takeBounds s l f).2 = ident s := by
  simp [takeBounds]

@[simp] theorem ident_addGradient (s : State) (l : Nat) (f : Ferry) : ident (addGradient s l f).2 = ident s :=
  (ident_countRsN ..).trans (ident_takeContrib ..)

@[simp] theorem ident_mergeBounds (s : State) (l : Nat) (f : Ferry) : ident (mergeBounds s l f).2 = ident s := by
  simp [mergeBounds]

@[simp] theorem ident_recordBounds (s : State) (l : Nat) (f : Ferry) : ident (recordBounds s l f) = ident s := by
  simp [recordBounds]

@[simp] theorem ident_storeGradient (s : State) (l : Nat) (f : Ferry) : ident (storeGradient s l f) = ident s := by
  simp [storeGradient]

@[simp] theorem ident_storeOffset (s : State) (l : Nat) (f : Ferry) : ident (storeOffset s l f) = ident s := by
  simp [storeOffset]

@[simp] theorem ident_actOn (s : State) (l : Nat) (f : Ferry) : ident (actOn s l f).2 = ident s := by
  unfold actOn
  split
  · split <;> simp
  · split
    · simp
    · split
      · simp
      · split
        · simp
        · split <;> simp

@[simp] theorem ident_retire (s : State) (l : Nat) (f : Ferry) : ident (retire s l f) = ident s := by simp [retire]

@[simp] theorem ident_forward (s : State) (l : Nat) (d : Dir) (k : Nat) (f : Option Ferry) :
    ident (forward s l d k f) = ident s := by
  unfold forward
  split
  · split
    · dsimp only
      split <;> simp
    · dsimp only
      split <;> simp
  · split
    · dsimp only
      split <;> simp
    · dsimp only
      split <;> simp

@[simp] theorem ident_passFerry (s : State) (l : Nat) (d : Dir) (k : Nat) (f : Ferry) :
    ident (passFerry s l d k f) = ident s := by
  simp [passFerry]

@[simp] theorem ident_addCredit (s : State) (l : Nat) : ident (addCredit s l) = ident s := by simp [addCredit]

@[simp] theorem same_execSlotArrival (l : Fin 32) (d : Dir) (slot : Nat) (hdrBad crcBad : Bool) (s : State) :
    Same s (execSlotArrival l d slot hdrBad crcBad s) := by
  unfold execSlotArrival
  dsimp only
  split
  · simp
  · split
    · simp
    · split
      · simp
      · split
        · simp
        · split <;> simp

@[simp] theorem ident_noteLaunch (s : State) (l : Nat) (d : Dir) (home : Nat) (h : FerryHdr) :
    ident (noteLaunch s l d home h) = ident s := by
  simp [noteLaunch]

theorem ident_of_launchPayload {s t : State} {l : Nat} {h : FerryHdr} {off : Nat} {rows : List (List Byte)}
    {psn : BitVec 64} (e : launchPayload s l h off = some (rows, psn, t)) : ident t = ident s := by
  unfold launchPayload at e
  dsimp only at e
  split at e
  · cases e; rfl
  · cases e; rfl
  · obtain ⟨r, -, hr⟩ := Option.map_eq_some_iff.mp e
    cases hr; rfl
  · split at e
    · cases e
    · cases e; simp

@[simp] theorem same_execFerryLaunch (l : Fin 32) (d : Dir) (slot : Nat) (h : FerryHdr) (off : Nat) (s : State) :
    Same s (execFerryLaunch l d slot h off s) := by
  unfold execFerryLaunch
  dsimp only
  split
  · simp
  · split
    · simp
    · split
      · simp
      · split
        · simp
        · next e =>
          have hs := ident_of_launchPayload e
          split
          · simp [hs]
          · split
            · simp [hs]
            · split <;> simp [hs]

@[simp] theorem ident_enterFerry (s : State) (f : Ferry) (hold : Word) : ident (enterFerry s f hold) = ident s := by
  unfold enterFerry
  dsimp only
  split <;> simp

@[simp] theorem same_execPaceCreditTick (l : Fin 32) (s : State) : Same s (execPaceCreditTick l s) := by
  simp [execPaceCreditTick]

@[simp] theorem ident_postTiles (s : State) (l : Nat) (q : Queued) (slot : Nat) :
    ident (postTiles s l q slot) = ident s := by
  simp [postTiles]

@[simp] theorem same_execChainInjection (l : Fin 32) (k : Fin 16) (s : State) :
    Same s (execChainInjection l k s) := by
  unfold execChainInjection
  dsimp only
  split
  · simp
  · split <;> simp

@[simp] theorem ident_fetchItem (s : State) (l : Nat) (w : WaveItem) : ident (fetchItem s l w) = ident s := by
  simp [fetchItem]

@[simp] theorem ident_waveFetched (s : State) (l : Nat) (y : LtLayer) : ident (waveFetched s l y) = ident s := by
  simp [waveFetched]

@[simp] theorem same_execGradientWaveFetched (l : Fin 32) (wave : List WaveItem) (s : State) :
    Same s (execGradientWaveFetched l wave s) := by
  unfold execGradientWaveFetched
  split
  · simp
  · split
    · split <;> simp
    · simp

@[simp] theorem ident_emptyTrains (s : State) : ident (emptyTrains s) = ident s := by simp [emptyTrains]
@[simp] theorem ident_abandonLap (s : State) : ident (abandonLap s) = ident s := by simp [abandonLap]
@[simp] theorem ident_endStep (s : State) : ident (endStep s) = ident s := by simp [endStep]
@[simp] theorem ident_clearCredit (s : State) : ident (clearCredit s) = ident s := by simp [clearCredit]
@[simp] theorem ident_updExt (s : State) : ident (updExt s) = ident s := by simp [updExt]

@[simp] theorem ident_setStandIn (s : State) (home : Nat) : ident (setStandIn s home) = ident s := by
  unfold setStandIn
  split <;> simp

@[simp] theorem ident_takeBack (s : State) (home : Nat) : ident (takeBack s home) = ident s := by
  unfold takeBack
  split <;> simp

@[simp] theorem ident_boundaryStandIns (s : State) : ident (boundaryStandIns s) = ident s := by simp [boundaryStandIns]

/-! ### Windows -/

@[simp] theorem ident_writeWin (s : State) (u i : Nat) (w : WinSpec) : ident (writeWin s u i w) = ident s := by
  simp [writeWin]

@[simp] theorem ident_openWin (s : State) (u i : Nat) : ident (openWin s u i) = ident s := by simp [openWin]
@[simp] theorem ident_closeWin (s : State) (u i : Nat) : ident (closeWin s u i) = ident s := by simp [closeWin]
@[simp] theorem ident_finishClose (s : State) (u i : Nat) : ident (finishClose s u i) = ident s := by simp [finishClose]
@[simp] theorem ident_resetWins (s : State) (u : Nat) : ident (resetWins s u) = ident s := by simp [resetWins]

@[simp] theorem ident_closeWins (s : State) (p : Nat → Nat → Bool) : ident (closeWins s p) = ident s := by
  simp [closeWins]

@[simp] theorem ident_hmWrite (s : State) : ident (hmWrite s) = ident s := by simp [hmWrite]

@[simp] theorem ident_mbxDone (s : State) (c : Nat) (code : MCode) (out : List Byte) :
    ident (mbxDone s c code out) = ident s := by
  simp [mbxDone]

@[simp] theorem same_execWindowOpen (m : Master) (u : Unit') (i : Nat) (w : WinSpec) (s : State) :
    Same s (execWindowOpen m u i w s) := by
  simp [execWindowOpen]

@[simp] theorem same_execWindowClose (m : Master) (u : Unit') (i : Nat) (s : State) :
    Same s (execWindowClose m u i s) := by
  simp [execWindowClose]

@[simp] theorem ident_countRefusal (s : State) (u : Nat) (stale : Bool) (a : WSrc) :
    ident (countRefusal s u stale a) = ident s := by
  simp [countRefusal]

/-! ### Plans -/

@[simp] theorem ident_ownBytes (s : State) (a : Dword) (n : Nat) : ident (ownBytes s a n).2 = ident s := by
  unfold ownBytes
  split
  · simp
  · dsimp only
    split
    · simp
    · split <;> simp

@[simp] theorem ident_setUse (s : State) (l k u : Nat) : ident (setUse s l k u) = ident s := by simp [setUse]
@[simp] theorem ident_changeUse (s : State) (u v : Nat) : ident (changeUse s u v) = ident s := by simp [changeUse]

@[simp] theorem ident_readSmap (s : State) : ident (readSmap s).2 = ident s := by
  have h1 := ident_ownBytes s (BitVec.ofNat 64 (rdPair s 0x40020)) 16
  unfold readSmap
  dsimp only
  split
  · next h => rwa [h] at h1
  · next b u h =>
    rw [h] at h1
    split
    · exact h1
    · have h2 := ident_ownBytes u (BitVec.ofNat 64 (rdPair s 0x40020) + 16) (16 * field b 4 4)
      split
      · next e => rw [e] at h2; exact h2.trans h1
      · next e => rw [e] at h2; exact h2.trans h1

theorem ident_of_takeHomeArea {s t : State} {home n : Nat} (h : takeHomeArea s home n = some t) :
    ident t = ident s := by
  unfold takeHomeArea at h
  split at h
  · split at h
    · cases h; simp
    · cases h
  · cases h

theorem ident_of_takeShadowArea {s t : State} {home ver n : Nat} (h : takeShadowArea s home ver n = some t) :
    ident t = ident s := by
  unfold takeShadowArea at h
  split at h
  · split at h
    · split at h
      · cases h; simp
      · cases h
    · cases h
  · cases h

theorem ident_of_takeAreas {s t : State} {m : List SExt} {ver : Nat} (h : takeAreas s m ver = some t) :
    ident t = ident s := by
  revert t
  refine List.foldlRecOn (homeSlices s) _ (motive := fun a => ∀ {t}, a = some t → ident t = ident s) ?_ ?_
  · rintro _ ⟨⟩; rfl
  · intro a ha hs _ t h
    obtain ⟨u, rfl, hu⟩ := Option.bind_eq_some_iff.mp h
    refine Eq.trans ?_ (ha rfl)
    split at hu
    · exact ident_of_takeShadowArea hu
    · obtain ⟨v, hv, ht⟩ := Option.bind_eq_some_iff.mp hu
      refine Eq.trans ?_ (ident_of_takeHomeArea hv)
      split at ht
      · exact ident_of_takeShadowArea ht
      · cases ht; rfl

@[simp] theorem ident_putPlaces (s : State) (ps : List Place) (data : List Byte) :
    ident (putPlaces s ps data) = ident s := by
  simp [putPlaces]

@[simp] theorem ident_imageRead (s : State) (m : List SExt) (ver : BitVec 16) :
    ident (imageRead s m ver).2 = ident s := by
  refine List.foldlRecOn m _ (motive := fun (a : List Byte × State) => ident a.2 = ident s) rfl fun a ha e _ => ?_
  dsimp only
  split
  · split
    · simpa using ha
    · exact ha
  · exact ha

@[simp] theorem ident_copyStack (s : State) (l off k dest n : Nat) : ident (copyStack s l off k dest n) = ident s := by
  simp [copyStack]

@[simp] theorem ident_sendPacket (s : State) (t : Nat) (o : Nat → Out) : ident (sendPacket s t o) = ident s := by
  simp [sendPacket]

@[simp] theorem ident_sendNvme (s : State) (c : NvCmd) : ident (sendNvme s c) = ident s := by simp [sendNvme]
@[simp] theorem ident_pump (s : State) (t : Nat) : ident (pump s t) = ident s := by simp [pump]
@[simp] theorem ident_addNvme (s : State) (c : NvCmd) : ident (addNvme s c) = ident s := by simp [addNvme]

@[simp] theorem ident_issueNvme (s : State) (use : NvUse) (tgt op nsid slba blocks : Nat) (fua : Bool)
    (data : List Byte) :
    ident (issueNvme s use tgt op nsid slba blocks fua data) = ident s := by
  simp [issueNvme]

@[simp] theorem ident_readExtent (s : State) (e : PlanEntry) (use : Nat → NvUse) :
    ident (readExtent s e use) = ident s := by
  simp [readExtent]

@[simp] theorem ident_connect (s : State) (t : Nat) : ident (connect s t) = ident s := by simp [connect]
@[simp] theorem ident_connectAll (s : State) (ts : List Nat) : ident (connectAll s ts) = ident s := by simp [connectAll]
@[simp] theorem ident_dropQp (s : State) (t : Nat) : ident (dropQp s t) = ident s := by simp [dropQp]
@[simp] theorem ident_endOp (s : State) (o : NvOp) : ident (endOp s o) = ident s := by simp [endOp]
@[simp] theorem ident_dropCmds (s : State) (o : NvOp) : ident (dropCmds s o) = ident s := by simp [dropCmds]

@[simp] theorem ident_storeErr (s : State) (reg code tgt status : Nat) :
    ident (storeErr s reg code tgt status) = ident s := by
  simp [storeErr]

/-! ### Versions -/

@[simp] theorem ident_setLstate (s : State) (x : LState) : ident (setLstate s x) = ident s := by simp [setLstate]

@[simp] theorem ident_refuseVersion (s : State) (r : VRefusal) : ident (refuseVersion s r) = ident s := by
  simp [refuseVersion]

@[simp] theorem ident_versionOrder (s : State) (m : Master) (incoming : BitVec 16) {f : State → State}
    (hf : ∀ t, ident (f t) = ident t) : ident (versionOrder s m incoming f) = ident s := by
  simp [versionOrder, hf]

@[simp] theorem ident_freeIncoming (s : State) : ident (freeIncoming s) = ident s := by simp [freeIncoming]
@[simp] theorem ident_endLoadOrder (s : State) : ident (endLoadOrder s) = ident s := by simp [endLoadOrder]

@[simp] theorem ident_failLoad (s : State) (code : StoErr) (tgt status : Nat) :
    ident (failLoad s code tgt status) = ident s := by
  simp [failLoad]

@[simp] theorem ident_startLoad (s : State) (v : BitVec 16) : ident (startLoad s v) = ident s := by
  unfold startLoad
  dsimp only
  split
  · split
    · next h =>
      split
      · simp
      · simp [ident_of_takeAreas h]
    · simp
  · simp

@[simp] theorem same_execLoad (m : Master) (incoming : BitVec 16) (s : State) : Same s (execLoad m incoming s) := by
  refine same_next.mpr (ident_versionOrder s m incoming fun s => ?_)
  split <;> simp

@[simp] theorem ident_startLocal (s : State) (v : BitVec 16) : ident (startLocal s v) = ident s := by
  have h1 := ident_readSmap { setFlag (setLstate s .loading) rVctl 19 with
    crs := { (setFlag (setLstate s .loading) rVctl 19).crs with incoming := v, viaLocal := true } }
  simp only [ident_mk, ident_eta, ident_setFlag, ident_setLstate] at h1
  unfold startLocal
  dsimp only
  split
  · next h =>
    rw [h] at h1
    split
    · simpa using h1
    · split
      · simpa using h1
      · next e => simpa [ident_of_takeAreas e] using h1
  · next h =>
    rw [h] at h1
    simpa using h1

@[simp] theorem same_execLocalVersion (m : Master) (incoming : BitVec 16) (s : State) :
    Same s (execLocalVersion m incoming s) := by
  refine same_next.mpr (ident_versionOrder s m incoming fun s => ?_)
  split <;> simp

@[simp] theorem ident_sendVturn (s : State) (t0 : Dword) : ident (sendVturn s t0) = ident s := by simp [sendVturn]

@[simp] theorem same_execTurn (m : Master) (incoming : BitVec 16) (s : State) : Same s (execTurn m incoming s) := by
  refine same_next.mpr (ident_versionOrder s m incoming fun s => ?_)
  split
  · simp
  · split
    · rfl
    · dsimp only
      split <;> simp

@[simp] theorem same_execAbandon (m : Master) (incoming : BitVec 16) (s : State) :
    Same s (execAbandon m incoming s) := by
  simp [execAbandon]

@[simp] theorem same_execLastSliceWritten (s : State) : Same s (execLastSliceWritten s) := by
  simp [execLastSliceWritten]

@[simp] theorem ident_shadowsDone (s : State) (v : Nat) : ident (shadowsDone s v) = ident s := by simp [shadowsDone]

@[simp] theorem same_execLocalCopyComplete (s : State) : Same s (execLocalCopyComplete s) := by
  simp [execLocalCopyComplete]

@[simp] theorem ident_setVdig (s : State) (d : BitVec 384) : ident (setVdig s d) = ident s := by simp [setVdig]

@[simp] theorem ident_versionReady (s : State) (d : BitVec 384) : ident (versionReady s d) = ident s := by
  simp [versionReady]

@[simp] theorem same_execDigestComplete (s : State) : Same s (execDigestComplete s) := by simp [execDigestComplete]

@[simp] theorem ident_turnPoint (s : State) : ident (turnPoint s) = ident s := by
  simp only [turnPoint, ident_setFlag, ident_mk, ident_eta, ident_wrFld, ident_setLstate, ident_wr, ident_changeUse]

@[simp] theorem ident_retireVersion (s : State) : ident (retireVersion s) = ident s := by simp [retireVersion]

@[simp] theorem ident_copyShadow (s : State) (h slice : Nat) : ident (copyShadow s h slice) = ident s := by
  unfold copyShadow
  split
  · dsimp only
    split <;> simp
  · simp

@[simp] theorem same_execShadowCopyComplete (s : State) : Same s (execShadowCopyComplete s) := by
  simp [execShadowCopyComplete]

@[simp] theorem ident_readSlice (s : State) (es : List PlanEntry) (slice home v : Nat) :
    ident (readSlice s es slice home v) = ident s := by
  simp [readSlice]

@[simp] theorem ident_startReload (s : State) (home v : Nat) : ident (startReload s home v) = ident s := by
  unfold startReload
  split
  · simp
  · split
    · split <;> simp
    · simp

@[simp] theorem ident_freeShadows (s : State) (p : Shadow → Bool) : ident (freeShadows s p) = ident s := by
  simp [freeShadows]

@[simp] theorem ident_dropReloads (s : State) (p : Reload → Bool) : ident (dropReloads s p) = ident s := by
  simp [dropReloads]

@[simp] theorem ident_failReload (s : State) (home ver : Nat) (code : StoErr) (tgt status : Nat) :
    ident (failReload s home ver code tgt status) = ident s := by
  simp [failReload]

@[simp] theorem same_execSliceReloadComplete (l : Fin 32) (s : State) : Same s (execSliceReloadComplete l s) := by
  simp [execSliceReloadComplete]

@[simp] theorem ident_giveLauncher (s : State) (home : Nat) (failed : Bool) :
    ident (giveLauncher s home failed) = ident s := by
  unfold giveLauncher
  split
  · simp
  · split <;> simp

@[simp] theorem ident_cutLanding (s : State) (l : Nat) (failed : Bool) :
    ident (cutLanding s l failed) = ident s := by
  unfold cutLanding
  dsimp only
  split
  · split
    · simp
    · split <;> simp
  · split
    · simp
    · split <;> simp

@[simp] theorem ident_lateLaunchers (s : State) : ident (lateLaunchers s) = ident s := by simp [lateLaunchers]

/-! ### Storage -/

@[simp] theorem ident_setCkState (s : State) (x : CkState) : ident (setCkState s x) = ident s := by simp [setCkState]
@[simp] theorem ident_refuseCk (s : State) (r : CkRefusal) : ident (refuseCk s r) = ident s := by simp [refuseCk]
@[simp] theorem ident_setCk (s : State) (c : Ckpt) : ident (setCk s c) = ident s := by simp [setCk]
@[simp] theorem ident_clearCkOrder (s : State) : ident (clearCkOrder s) = ident s := by simp [clearCkOrder]

@[simp] theorem ident_lateRefusal (s : State) (r : CkRefusal) : ident (lateRefusal s r) = ident s := by
  simp [lateRefusal]

@[simp] theorem ident_endCk (s : State) (x : CkState) : ident (endCk s x) = ident s := by simp [endCk]

@[simp] theorem ident_failCk (s : State) (code : StoErr) (tgt status : Nat) :
    ident (failCk s code tgt status) = ident s := by
  simp [failCk]

@[simp] theorem ident_failOp (s : State) (o : NvOp) (code : StoErr) (tgt status : Nat) :
    ident (failOp s o code tgt status) = ident s := by
  unfold failOp
  split <;> simp

@[simp] theorem ident_usePlaces (s : State) (o : NvOp) (tgt : Nat) (k : Need) (ps : List Place) {f : State → State}
    (hf : ∀ t, ident (f t) = ident t) : ident (usePlaces s o tgt k ps f) = ident s := by
  unfold usePlaces
  dsimp only
  split
  · exact hf s
  · simp

@[simp] theorem ident_startCk (s : State) (restore : Bool) : ident (startCk s restore) = ident s := by
  unfold startCk
  split
  · simp
  · split <;> simp

@[simp] theorem same_execCheckpointWrite (m : Master) (s : State) : Same s (execCheckpointWrite m s) := by
  simp [execCheckpointWrite]

@[simp] theorem same_execRestore (m : Master) (s : State) : Same s (execRestore m s) := by simp [execRestore]

@[simp] theorem same_execCheckpointAbort (m : Master) (s : State) : Same s (execCheckpointAbort m s) := by
  simp [execCheckpointAbort]

@[simp] theorem ident_writeObject (s : State) (e : PlanEntry) : ident (writeObject s e) = ident s := by
  simp [writeObject]

@[simp] theorem ident_writeObjects (s : State) : ident (writeObjects s) = ident s := by simp [writeObjects]

@[simp] theorem ident_flushAll (s : State) (ns : List (Nat × Nat)) (step : CkStep) :
    ident (flushAll s ns step) = ident s := by
  simp [flushAll]

@[simp] theorem ident_writeTable (s : State) : ident (writeTable s) = ident s := by simp [writeTable]
@[simp] theorem ident_writeRecord (s : State) : ident (writeRecord s) = ident s := by simp [writeRecord]
@[simp] theorem ident_readTable (s : State) (r : List Byte) : ident (readTable s r) = ident s := by simp [readTable]

@[simp] theorem ident_afterOldTable (s : State) (old : List PlanEntry) : ident (afterOldTable s old) = ident s := by
  simp [afterOldTable]

@[simp] theorem ident_startObjects (s : State) (r : List Byte) : ident (startObjects s r) = ident s := by
  simp [startObjects]

@[simp] theorem ident_checkObject (s : State) (i : Nat) (e : PlanEntry) (d : BitVec 384) :
    ident (checkObject s i e d) = ident s := by
  simp [checkObject]

@[simp] theorem ident_finishRestore (s : State) (r : List Byte) : ident (finishRestore s r) = ident s := by
  simp [finishRestore]

@[simp] theorem ident_nextCkStep (s : State) : ident (nextCkStep s) = ident s := by
  unfold nextCkStep
  split
  · split
    · dsimp only
      split <;> simp
    · dsimp only
      split <;> simp
  · split
    · dsimp only
      split <;> simp
    · dsimp only
      split <;> simp

@[simp] theorem ident_runCk (n : Nat) (s : State) : ident (runCk n s) = ident s := by
  induction n generalizing s with
  | zero => rfl
  | succ n ih => simp [runCk, ih]

@[simp] theorem ident_storeData (s : State) (c : NvCmd) (off : Nat) (data : List Byte) :
    ident (storeData s c off data) = ident s := by
  unfold storeData
  split <;> simp

@[simp] theorem ident_keepData (s : State) (c : NvCmd) (bs : List Byte) : ident (keepData s c bs) = ident s := by
  unfold keepData
  split <;> simp

@[simp] theorem ident_rdmaError (s : State) (t : Nat) : ident (rdmaError s t) = ident s := by simp [rdmaError]
@[simp] theorem ident_targetLost (s : State) (t : Nat) : ident (targetLost s t) = ident s := by simp [targetLost]

@[simp] theorem ident_commandDone (s : State) (c : NvCmd) (data : List Byte) :
    ident (commandDone s c data) = ident s := by
  simp [commandDone]

@[simp] theorem same_execNvmeCompletion (cmd : Nat) (status : BitVec 15) (data : List Byte) (s : State) :
    Same s (execNvmeCompletion cmd status data s) := by
  unfold execNvmeCompletion
  split
  · simp
  · split <;> simp

@[simp] theorem ident_loseOp (s : State) (t : Nat) (o : NvOp) : ident (loseOp s t o) = ident s := by simp [loseOp]

@[simp] theorem ident_loseConnection (s : State) (t : Nat) : ident (loseConnection s t) = ident s := by
  simp [loseConnection]

@[simp] theorem same_execConnectionLoss (tgt : Fin 16) (reconnected : Bool) (s : State) :
    Same s (execConnectionLoss tgt reconnected s) := by
  simp [execConnectionLoss]

@[simp] theorem same_execNvmeTimeout (cmd : Nat) (s : State) : Same s (execNvmeTimeout cmd s) := by
  unfold execNvmeTimeout
  split
  · simp
  · split <;> simp

/-! ### Service -/

@[simp] theorem ident_setPcie (s : State) (p : Nat) (x : PciePort) : ident (setPcie s p x) = ident s := by
  simp [setPcie]

@[simp] theorem ident_setQs (s : State) (q : Nat) (x : QSet) : ident (setQs s q x) = ident s := by simp [setQs]

@[simp] theorem ident_hostWrite (s : State) (q : Nat) (w : Dword × List Byte) : ident (hostWrite s q w) = ident s := by
  simp [hostWrite]

@[simp] theorem ident_hostRead (s : State) (q : Nat) (addr : Dword) (len : Nat) :
    ident (hostRead s q addr len) = ident s := by
  simp [hostRead]

@[simp] theorem ident_coalesce (s : State) (q : Nat) : ident (coalesce s q) = ident s := by simp [coalesce]
@[simp] theorem ident_clearPend (s : State) (q : Nat) : ident (clearPend s q) = ident s := by simp [clearPend]
@[simp] theorem ident_postNow (s : State) (q : Nat) (r : HeldRec) : ident (postNow s q r) = ident s := by simp [postNow]
@[simp] theorem ident_addRec (s : State) (q : Nat) (r : HeldRec) : ident (addRec s q r) = ident s := by simp [addRec]
@[simp] theorem ident_mapReqs (s : State) (f : Req → Req) : ident (mapReqs s f) = ident s := by simp [mapReqs]

@[simp] theorem ident_updMask (s : State) (l : Nat) (v : BitVec 16) (g : Nat) : ident (updMask s l v g) = ident s := by
  simp [updMask]

@[simp] theorem ident_dropReq (s : State) (r : Req) : ident (dropReq s r) = ident s := by simp [dropReq]

@[simp] theorem ident_closeReq (s : State) (r : Req) (state err flags : Nat) :
    ident (closeReq s r state err flags) = ident s := by
  simp [closeReq]

@[simp] theorem ident_failEntry (s : State) (q : Nat) (raw : List Byte) (err : Nat) :
    ident (failEntry s q raw err) = ident s := by
  simp [failEntry]

@[simp] theorem ident_finishQsReset (s : State) (q : Nat) : ident (finishQsReset s q) = ident s := by
  simp [finishQsReset]

@[simp] theorem ident_endRequests (s : State) (q : Nat) : ident (endRequests s q) = ident s := by simp [endRequests]
@[simp] theorem ident_resetQs (s : State) (q : Nat) : ident (resetQs s q) = ident s := by simp [resetQs]

@[simp] theorem same_execHeldRecordPost (q : Fin 64) (s : State) : Same s (execHeldRecordPost q s) := by
  unfold execHeldRecordPost
  split <;> simp

@[simp] theorem ident_lapResets (s : State) : ident (lapResets s) = ident s := by simp [lapResets]

@[simp] theorem ident_writeQsCtl (s : State) (m : Master) (q : Nat) (v : Word) :
    ident (writeQsCtl s m q v) = ident s := by
  unfold writeQsCtl
  split <;> simp

@[simp] theorem same_execQueueSetEnable (m : Master) (q : Fin 64) (v : Word) (s : State) :
    Same s (execQueueSetEnable m q v s) := by
  simp [execQueueSetEnable]

@[simp] theorem same_execQueueSetReset (m : Master) (q : Fin 64) (v : Word) (s : State) :
    Same s (execQueueSetReset m q v s) := by
  simp [execQueueSetReset]

@[simp] theorem same_execRequestDoorbell (m : Master) (q : Fin 64) (t : Word) (s : State) :
    Same s (execRequestDoorbell m q t s) := by
  simp [execRequestDoorbell]

@[simp] theorem ident_releaseRecs (s : State) (q : Nat) (h : Word) : ident (releaseRecs s q h) = ident s := by
  simp [releaseRecs]

@[simp] theorem same_execResultDoorbell (m : Master) (q : Fin 64) (h : Word) (s : State) :
    Same s (execResultDoorbell m q h s) := by
  simp [execResultDoorbell]

@[simp] theorem same_execCoalesceTimer (q : Fin 64) (s : State) : Same s (execCoalesceTimer q s) := by
  simp [execCoalesceTimer]

@[simp] theorem ident_writeQsIrq (s : State) (m : Master) (q : Nat) (v : Word) :
    ident (writeQsIrq s m q v) = ident s := by
  simp [writeQsIrq]

@[simp] theorem same_execPendClear (m : Master) (q : Fin 64) (v : Word) (s : State) :
    Same s (execPendClear m q v s) := by
  simp [execPendClear]

@[simp] theorem same_execQsEoi (m : Master) (q : Fin 64) (v : Word) (s : State) : Same s (execQsEoi m q v s) := by
  simp [execQsEoi]

@[simp] theorem same_execEntryFetch (q : Fin 64) (entries : List (List Byte)) (s : State) :
    Same s (execEntryFetch q entries s) := by
  simp [execEntryFetch]

theorem ident_of_takeEntry {s t : State} {q : Nat} {p : Nat → Bool} {d : Dword} {e : List Byte}
    (h : takeEntry s q p = some (d, e, t)) : ident t = ident s := by
  unfold takeEntry at h
  dsimp only at h
  split at h
  · cases h
  · split at h
    · cases h
    · cases h; simp

@[simp] theorem same_execNop (q : Fin 64) (s : State) : Same s (execNop q s) := by
  unfold execNop
  split
  · next h => exact same_next.mpr (ident_of_takeEntry h)
  · simp

@[simp] theorem same_execReservedRequestOpcode (q : Fin 64) (s : State) : Same s (execReservedRequestOpcode q s) := by
  unfold execReservedRequestOpcode
  split
  · next h => simp [ident_of_takeEntry h]
  · simp

@[simp] theorem same_execGenerate (q : Fin 64) (input : List Word) (s : State) : Same s (execGenerate q input s) := by
  unfold execGenerate
  split
  · simp
  · next h => simp [ident_of_takeEntry h]

@[simp] theorem same_execCancel (q : Fin 64) (s : State) : Same s (execCancel q s) := by
  unfold execCancel
  split
  · simp
  · next h => simp [ident_of_takeEntry h]

@[simp] theorem same_execNoVersionTimeout (q : Fin 64) (s : State) : Same s (execNoVersionTimeout q s) := by
  unfold execNoVersionTimeout
  split <;> simp

@[simp] theorem same_execHostDmaCompletion (q : Fin 64) (uid : Option Nat) (error : Bool) (s : State) :
    Same s (execHostDmaCompletion q uid error s) := by
  unfold execHostDmaCompletion
  split
  · simp
  · split <;> simp

@[simp] theorem ident_placeReq (s : State) (r : Req) (v : BitVec 16) (l g : Nat) :
    ident (placeReq s r v l g) = ident s := by
  simp [placeReq]

@[simp] theorem ident_admitLoop (v : BitVec 16) (n : Nat) (blocked : List Nat) (s : State) :
    ident (admitLoop v n blocked s) = ident s := by
  induction n generalizing blocked s with
  | zero => rfl
  | succ n ih =>
    unfold admitLoop
    split
    · rfl
    · split
      · rw [ih]; simp
      · split
        · exact ih ..
        · rw [ih]; simp

@[simp] theorem ident_admitRequests (s : State) : ident (admitRequests s) = ident s := by simp [admitRequests]
@[simp] theorem ident_pauseReqs (s : State) : ident (pauseReqs s) = ident s := by simp [pauseReqs]

@[simp] theorem same_execReadmission (uid : Nat) (land : Fin 32) (tg : Fin 16) (keepsBits : Bool) (s : State) :
    Same s (execReadmission uid land tg keepsBits s) := by
  unfold execReadmission
  split <;> simp

@[simp] theorem ident_reportReq (s : State) (r : Req) : ident (reportReq s r) = ident s := by simp [reportReq]

@[simp] theorem ident_lapReq (s : State) (t0 : Nat) (toks : List LapTok) (r : Req) :
    ident (lapReq s t0 toks r) = ident s := by
  unfold lapReq
  dsimp only
  split
  · rfl
  · split
    · split <;> simp
    · split
      · split <;> simp
      · simp

/-! ### Jobs -/

@[simp] theorem ident_updFree (s : State) (l : Nat) : ident (updFree s l) = ident s := by simp [updFree]
@[simp] theorem ident_orphanAccs (s : State) (l : Nat) : ident (orphanAccs s l) = ident s := by simp [orphanAccs]

@[simp] theorem ident_quarantineLand (s : State) (l : Nat) : ident (quarantineLand s l) = ident s := by
  simp [quarantineLand]

@[simp] theorem ident_clearLandMem (s : State) (l : Nat) : ident (clearLandMem s l) = ident s := by simp [clearLandMem]

@[simp] theorem ident_dropIncoming (s : State) (ls : List Nat) : ident (dropIncoming s ls) = ident s := by
  simp [dropIncoming]

@[simp] theorem ident_freeVersions (s : State) (ls : List Nat) : ident (freeVersions s ls) = ident s := by
  simp [freeVersions]

@[simp] theorem ident_abortCkpt (s : State) (ls : List Nat) : ident (abortCkpt s ls) = ident s := by simp [abortCkpt]
@[simp] theorem ident_storageReset (s : State) (l : Nat) : ident (storageReset s l) = ident s := by simp [storageReset]
@[simp] theorem ident_setJobs (s : State) (f : List Job → List Job) : ident (setJobs s f) = ident s := by simp [setJobs]
@[simp] theorem ident_mapJob (s : State) (n : Nat) (f : Job → Job) : ident (mapJob s n f) = ident s := by simp [mapJob]
@[simp] theorem ident_discardHeld (s : State) (q : Nat) : ident (discardHeld s q) = ident s := by simp [discardHeld]
@[simp] theorem ident_failCopied (s : State) (q : Nat) : ident (failCopied s q) = ident s := by simp [failCopied]

@[simp] theorem ident_resetAfterKill (s : State) (q : Nat) : ident (resetAfterKill s q) = ident s := by
  simp [resetAfterKill]

@[simp] theorem ident_endTenancy (s : State) (p : BitVec 16 → Bool) (records : Bool) :
    ident (endTenancy s p records) = ident s := by
  simp [endTenancy]

@[simp] theorem ident_scrubJob (s : State) (j : Job) : ident (scrubJob s j) = ident s := by simp [scrubJob]
@[simp] theorem ident_noteRegistry (s : State) : ident (noteRegistry s) = ident s := by simp [noteRegistry]
@[simp] theorem ident_endJob (s : State) (j : Job) : ident (endJob s j) = ident s := by simp [endJob]

@[simp] theorem ident_continueKill (s : State) (n : Nat) : ident (continueKill s n) = ident s := by
  unfold continueKill
  split
  · simp
  · split
    · simp
    · split
      · dsimp only
        split <;> simp
      · dsimp only
        split <;> simp

@[simp] theorem ident_continueKills (s : State) : ident (continueKills s) = ident s := by simp [continueKills]

@[simp] theorem ident_killJob (s : State) (j : Job) (records : Bool) : ident (killJob s j records) = ident s := by
  simp [killJob]

@[simp] theorem ident_killTenant (s : State) (j : Job) (t : Tenant) : ident (killTenant s j t) = ident s := by
  simp [killTenant]

@[simp] theorem ident_killForReset (s : State) (l : Nat) : ident (killForReset s l) = ident s := by
  unfold killForReset
  split <;> simp

@[simp] theorem ident_releaseLand (s : State) (l : Nat) : ident (releaseLand s l) = ident s := by simp [releaseLand]

@[simp] theorem ident_mapCoreRegs (s : State) (l : Nat) (f : Nat → Word → Word) :
    ident (mapCoreRegs s l f) = ident s := by
  simp [mapCoreRegs]

@[simp] theorem ident_loseLeaves (s : State) (l : Nat) : ident (loseLeaves s l) = ident s := by simp [loseLeaves]
@[simp] theorem ident_grantRegs (s : State) (l : Nat) : ident (grantRegs s l) = ident s := by simp [grantRegs]
@[simp] theorem ident_dropArrivals (s : State) (l : Nat) : ident (dropArrivals s l) = ident s := by simp [dropArrivals]
@[simp] theorem ident_grantGroups (s : State) (l : Nat) : ident (grantGroups s l) = ident s := by simp [grantGroups]
@[simp] theorem ident_grantLand (s : State) (n l : Nat) : ident (grantLand s n l) = ident s := by simp [grantLand]

@[simp] theorem same_execScrubComplete (l : Fin 32) (stack : Fin 2) (s : State) :
    Same s (execScrubComplete l stack s) := by
  simp [execScrubComplete]

@[simp] theorem same_execWindowCloseComplete (u : Unit') (i : Nat) (s : State) :
    Same s (execWindowCloseComplete u i s) := by
  simp [execWindowCloseComplete]

/-! ### Power -/

@[simp] theorem ident_setPwr (s : State) (p : Pwr) : ident (setPwr s p) = ident s := by simp [setPwr]
@[simp] theorem ident_setStage (s : State) (n : Nat) : ident (setStage s n) = ident s := by simp [setStage]
@[simp] theorem ident_sendFault (s : State) : ident (sendFault s) = ident s := by simp [sendFault]

@[simp] theorem ident_moduleFatal (s : State) (code unit : Nat) : ident (moduleFatal s code unit) = ident s := by
  simp only [moduleFatal, ident_sendFault, ident_mk, ident_eta, ident_ite, ident_setFlag, ident_setStage, ident_wr,
    ite_self]

@[simp] theorem ident_dropRegs (s : State) (lo n : Nat) : ident (dropRegs s lo n) = ident s := by simp [dropRegs]
@[simp] theorem ident_loseReqs (s : State) (l : Nat) : ident (loseReqs s l) = ident s := by simp [loseReqs]
@[simp] theorem ident_arrayLeaves (s : State) (l : Nat) : ident (arrayLeaves s l) = ident s := by simp [arrayLeaves]
@[simp] theorem ident_arrayOff (s : State) (l : Nat) : ident (arrayOff s l) = ident s := by simp [arrayOff]
@[simp] theorem ident_arrayEnters (s : State) (l : Nat) : ident (arrayEnters s l) = ident s := by simp [arrayEnters]

@[simp] theorem ident_avs (s : State) (l : Nat) (op : AvsOp) (a b : Bool) : ident (avs s l op a b).1 = ident s := by
  simp [avs]

@[simp] theorem ident_writeVcore (s : State) (l mv : Nat) (a b : Bool) : ident (writeVcore s l mv a b) = ident s := by
  simp [writeVcore]

@[simp] theorem ident_setVcore (s : State) (l : Nat) : ident (setVcore s l) = ident s := by simp [setVcore]
@[simp] theorem ident_loseStacks (s : State) (l : Nat) : ident (loseStacks s l) = ident s := by simp [loseStacks]

@[simp] theorem ident_uncoreLeaves (s : State) (l : Nat) (sref : Bool) : ident (uncoreLeaves s l sref) = ident s := by
  simp [uncoreLeaves]

@[simp] theorem ident_uncoreEnters (s : State) (l : Nat) (sref : Bool) : ident (uncoreEnters s l sref) = ident s := by
  simp [uncoreEnters]

@[simp] theorem ident_quayLeaves (s : State) (q : Nat) : ident (quayLeaves s q) = ident s := by simp [quayLeaves]
@[simp] theorem ident_portOff (s : State) (p : Nat) : ident (portOff s p) = ident s := by simp [portOff]
@[simp] theorem ident_bankLeaves (s : State) (b : Nat) : ident (bankLeaves s b) = ident s := by simp [bankLeaves]
@[simp] theorem ident_bankEnters (s : State) (b : Nat) : ident (bankEnters s b) = ident s := by simp [bankEnters]
@[simp] theorem ident_setDom (s : State) (d v : Nat) : ident (setDom s d v) = ident s := by simp [setDom]
@[simp] theorem ident_forceDom (s : State) (d v : Nat) : ident (forceDom s d v) = ident s := by simp [forceDom]

@[simp] theorem ident_setSref (s : State) (d : Nat) (sref : Bool) : ident (setSref s d sref) = ident s := by
  simp [setSref]

@[simp] theorem ident_forceLandOff (s : State) (l : Nat) : ident (forceLandOff s l) = ident s := by simp [forceLandOff]

@[simp] theorem ident_landingFatal (s : State) (l code : Nat) : ident (landingFatal s l code) = ident s := by
  unfold landingFatal
  split
  · simp
  · dsimp only
    split <;> split <;> simp

@[simp] theorem ident_pdRefused (s : State) : ident (pdRefused s) = ident s := by simp [pdRefused]
@[simp] theorem ident_startMove (s : State) (d : Nat) : ident (startMove s d) = ident s := by simp [startMove]

@[simp] theorem ident_takeRequest (s : State) (d req : Nat) (sref : Bool) :
    ident (takeRequest s d req sref) = ident s := by
  simp [takeRequest]

@[simp] theorem ident_requestDom (s : State) (d req : Nat) (sref : Bool) :
    ident (requestDom s d req sref) = ident s := by
  simp [requestDom]

@[simp] theorem same_execDomainRequest (m : Master) (d : Fin 72) (v : Word) (s : State) :
    Same s (execDomainRequest m d v s) := by
  simp [execDomainRequest]

@[simp] theorem ident_boardDom (s : State) (d : Nat) : ident (boardDom s d) = ident s := by simp [boardDom]

@[simp] theorem same_execVcoreAdjust (l : Fin 32) (stepMv : Int) (acks : Bool × Bool) (s : State) :
    Same s (execVcoreAdjust l stepMv acks s) := by
  simp [execVcoreAdjust]

@[simp] theorem ident_orderSafety (s : State) (m : Master) (q : Qty) (v : Nat) :
    ident (orderSafety s m q v).1 = ident s := by
  unfold orderSafety
  split
  · simp
  · split <;> simp

@[simp] theorem ident_notePfovr (s : State) (p off : Nat) : ident (notePfovr s p off) = ident s := by simp [notePfovr]

@[simp] theorem ident_noteOverruled (s : State) (m : Master) (off : Nat) :
    ident (noteOverruled s m off) = ident s := by
  unfold noteOverruled
  split <;> simp

@[simp] theorem ident_writeSafety (s : State) (m : Master) (q : Qty) (off v : Nat) :
    ident (writeSafety s m q off v) = ident s := by
  simp [writeSafety]

@[simp] theorem ident_setSafety (s : State) (m : Master) (q : Qty) (v : Word) :
    ident (setSafety s m q v) = ident s := by
  simp [setSafety]

@[simp] theorem same_execSetcap (m : Master) (v : Word) (s : State) : Same s (execSetcap m v s) := by simp [execSetcap]

@[simp] theorem same_execSettlim (m : Master) (v : Word) (s : State) : Same s (execSettlim m v s) := by
  simp [execSettlim]

@[simp] theorem same_execSetrun (m : Master) (v : Word) (s : State) : Same s (execSetrun m v s) := by simp [execSetrun]
@[simp] theorem ident_updLim (s : State) : ident (updLim s) = ident s := by simp [updLim]
@[simp] theorem ident_setGhold (s : State) : ident (setGhold s) = ident s := by simp [setGhold]

@[simp] theorem same_execPaceWrite (m : Master) (v : Word) (s : State) : Same s (execPaceWrite m v s) := by
  simp [execPaceWrite]

@[simp] theorem ident_readCurrents (s : State) : ident (readCurrents s) = ident s := by simp [readCurrents]

@[simp] theorem same_execCapWindow (meas base : Nat) (s : State) : Same s (execCapWindow meas base s) := by
  simp only [execCapWindow, same_next, ident_ite, ident_setGhold, ident_setFlag, ident_updLim, ident_setPwr, ident_wr,
    ident_readCurrents, ite_self]

/-! ### Heat -/

@[simp] theorem ident_takeThm (s : State) : ident (takeThm s) = ident s := by simp [takeThm]

@[simp] theorem ident_fieldOr (s : State) (n : Nat) (x : Int) : ident (fieldOr s n x).2 = ident s := by
  unfold fieldOr
  split <;> simp

@[simp] theorem ident_peakOf (s : State) (n : Nat) : ident (peakOf s n).2.2 = ident s := by
  unfold peakOf
  split <;> simp

@[simp] theorem ident_endGhold (s : State) (peak : Int) : ident (endGhold s peak) = ident s := by simp [endGhold]
@[simp] theorem ident_lapForecast (s : State) : ident (lapForecast s) = ident s := by simp [lapForecast]

@[simp] theorem ident_noteHeat (s : State) (heat lapLen hotNum hotDen : Nat) :
    ident (noteHeat s heat lapLen hotNum hotDen) = ident s := by
  simp [noteHeat]

@[simp] theorem same_execForecastTick (heat lapTenths hotNum hotDen : Nat) (s : State) :
    Same s (execForecastTick heat lapTenths hotNum hotDen s) := by
  simp [execForecastTick]

@[simp] theorem same_execForecastStall (s : State) : Same s (execForecastStall s) := by simp [execForecastStall]
@[simp] theorem ident_setSensor (s : State) : ident (setSensor s) = ident s := by simp [setSensor]
@[simp] theorem ident_trip (s : State) (unit : Nat) : ident (trip s unit) = ident s := by simp [trip]
@[simp] theorem ident_nextThmLim (s : State) (j tl : Int) : ident (nextThmLim s j tl) = ident s := by simp [nextThmLim]

@[simp] theorem same_execThermalCheck (hottest : Int) (unit : Fin 36) (s : State) :
    Same s (execThermalCheck hottest unit s) := by
  simp [execThermalCheck]

@[simp] theorem same_execCoolFlowPulse (us : Nat) (s : State) : Same s (execCoolFlowPulse us s) := by
  simp [execCoolFlowPulse]

@[simp] theorem ident_nextFlowLim (s : State) (below above : Bool) : ident (nextFlowLim s below above) = ident s := by
  simp [nextFlowLim]

@[simp] theorem ident_flowShown (s : State) : ident (flowShown s).2 = ident s := by simp [flowShown]

@[simp] theorem same_execFlowCheck (inlet outlet : Int) (s : State) : Same s (execFlowCheck inlet outlet s) := by
  simp [execFlowCheck]

@[simp] theorem same_execHeatForecast (s : State) : Same s (execHeatForecast s) := by
  unfold execHeatForecast
  split
  · simp
  · dsimp only
    split <;> simp

/-! ### Laps -/

@[simp] theorem ident_takeTable (s : State) (t : LaunchTable) : ident (takeTable s t) = ident s := by simp [takeTable]
@[simp] theorem ident_takeLapRegs (s : State) : ident (takeLapRegs s) = ident s := by simp [takeLapRegs]
@[simp] theorem ident_rejoinLand (s : State) (l : Nat) : ident (rejoinLand s l) = ident s := by simp [rejoinLand]
@[simp] theorem ident_boundaryRejoins (s : State) : ident (boundaryRejoins s) = ident s := by simp [boundaryRejoins]
@[simp] theorem ident_turnLap (s : State) : ident (turnLap s) = ident s := by simp [turnLap]

@[simp] theorem ident_lapLand (s : State) (v : Nat) (t0 : Dword) (l : Nat) : ident (lapLand s v t0 l) = ident s := by
  simp [lapLand]

@[simp] theorem ident_enterLap (s : State) (l : Nat) : ident (enterLap s l) = ident s := by simp [enterLap]

@[simp] theorem ident_beginLap (s : State) (v : Nat) (t0 : Dword) : ident (beginLap s v t0) = ident s := by
  simp [beginLap]

@[simp] theorem ident_boundary (s : State) (t : LaunchTable) : ident (boundary s t) = ident s := by simp [boundary]
@[simp] theorem ident_dropStalled (s : State) : ident (dropStalled s) = ident s := by simp [dropStalled]

@[simp] theorem same_execLapStart (t0 : Dword) (lt : LaunchTable) (s : State) : Same s (execLapStart t0 lt s) := by
  simp [execLapStart]

@[simp] theorem ident_lapReqs (s : State) (l : Nat) (toks : List LapTok) : ident (lapReqs s l toks) = ident s := by
  simp [lapReqs]

@[simp] theorem ident_finishLap (s : State) : ident (finishLap s) = ident s := by simp [finishLap]

@[simp] theorem same_execLapEnd (l : Fin 32) (toks : List LapTok) (s : State) : Same s (execLapEnd l toks s) := by
  simp [execLapEnd]

@[simp] theorem same_execNoHeaderTimeout (l : Fin 32) (s : State) : Same s (execNoHeaderTimeout l s) := by
  simp [execNoHeaderTimeout]

@[simp] theorem same_execGradientSliceComplete (l : Fin 32) (off : Nat) (data : List Byte) (s : State) :
    Same s (execGradientSliceComplete l off data s) := by
  unfold execGradientSliceComplete
  dsimp only
  split
  · simp
  · split <;> simp

/-! ### Reset -/

@[simp] theorem ident_updForced (s : State) : ident (updForced s) = ident s := by simp [updForced]
@[simp] theorem ident_wipe (s : State) (k : RKind) : ident (wipe s k) = ident s := by simp [wipe]
@[simp] theorem ident_doReset (s : State) (k : RKind) : ident (doReset s k) = ident s := by simp [doReset]

@[simp] theorem ident_moduleResetWith (s : State) (flag : Nat) : ident (moduleResetWith s flag) = ident s := by
  simp [moduleResetWith]

@[simp] theorem ident_sampleStraps (s : State) (straps : BitVec 3) (stable : Bool) :
    ident (sampleStraps s straps stable) = ident s := by
  simp [sampleStraps]

@[simp] theorem ident_powerUp (s : State) (straps : BitVec 3) (stable : Bool) :
    ident (powerUp s straps stable) = ident s := by
  simp [powerUp]

@[simp] theorem same_execPowerOnReset (straps : BitVec 3) (strapsStable : Bool) (s : State) :
    Same s (execPowerOnReset straps strapsStable s) := by
  simp [execPowerOnReset]

@[simp] theorem ident_pulseActs (s : State) (lowNs : Nat) : ident (pulseActs s lowNs).2 = ident s := by simp [pulseActs]

@[simp] theorem same_execPinReset (lowNs : Nat) (straps : BitVec 3) (strapsStable : Bool) (s : State) :
    Same s (execPinReset lowNs straps strapsStable s) := by
  simp [execPinReset]

@[simp] theorem same_execSysRstRelease (s : State) : Same s (execSysRstRelease s) := by simp [execSysRstRelease]

@[simp] theorem same_execClockLoss (absentNs : Nat) (s : State) : Same s (execClockLoss absentNs s) := by
  simp [execClockLoss]

@[simp] theorem same_execClockReturn (s : State) : Same s (execClockReturn s) := by simp [execClockReturn]

@[simp] theorem same_execModuleReset (m : Master) (v : Word) (s : State) : Same s (execModuleReset m v s) := by
  simp [execModuleReset]

@[simp] theorem ident_dropStorage (s : State) : ident (dropStorage s) = ident s := by simp [dropStorage]

@[simp] theorem ident_purserReset (s : State) (flag : Nat) : ident (purserReset s flag) = ident s := by
  simp [purserReset]

@[simp] theorem same_execPurserReset (m : Master) (v : Word) (s : State) : Same s (execPurserReset m v s) := by
  simp [execPurserReset]

@[simp] theorem same_execPurserWatchdog (s : State) : Same s (execPurserWatchdog s) := by simp [execPurserWatchdog]

@[simp] theorem ident_setCopy (s : State) (c k : Nat) (f : FlashCopy) : ident (setCopy s c k f) = ident s := by
  simp [setCopy]

@[simp] theorem ident_markActive (s : State) (comp k : Nat) : ident (markActive s comp k) = ident s := by
  simp [markActive]

@[simp] theorem ident_runCopy (s : State) (c : Nat) : ident (runCopy s c) = ident s := by
  unfold runCopy
  split <;> simp

@[simp] theorem ident_setPorts (s : State) (mask split : Nat) : ident (setPorts s mask split) = ident s := by
  simp [setPorts]

@[simp] theorem ident_setSplit (s : State) (rec : Option Nat) : ident (setSplit s rec) = ident s := by
  cases rec <;> simp [setSplit]

@[simp] theorem ident_applyRecord (s : State) : ident (applyRecord s) = ident s := by simp [applyRecord]
@[simp] theorem ident_raiseStage (s : State) (n : Nat) : ident (raiseStage s n) = ident s := by simp [raiseStage]
@[simp] theorem ident_bootChain (s : State) : ident (bootChain s) = ident s := by simp [bootChain]
@[simp] theorem ident_releaseQuays (s : State) : ident (releaseQuays s) = ident s := by simp [releaseQuays]
@[simp] theorem same_execBoarding (d : Fin 72) (s : State) : Same s (execBoarding d s) := by simp [execBoarding]

@[simp] theorem same_execDomainTransitionComplete (d : Fin 72) (s : State) :
    Same s (execDomainTransitionComplete d s) := by
  unfold execDomainTransitionComplete
  dsimp only
  split <;> simp

@[simp] theorem same_execGroupwaitExpiry (bank : Fin 2) (s : State) : Same s (execGroupwaitExpiry bank s) := by
  simp [execGroupwaitExpiry]

@[simp] theorem same_execBootWatchdog (s : State) : Same s (execBootWatchdog s) := by simp [execBootWatchdog]

@[simp] theorem same_execLandingFatal (l : Fin 32) (code : BitVec 8) (s : State) :
    Same s (execLandingFatal l code s) := by
  simp [execLandingFatal]

@[simp] theorem same_execDeckhandHeartbeatTimeout (l : Fin 32) (s : State) :
    Same s (execDeckhandHeartbeatTimeout l s) := by
  simp [execDeckhandHeartbeatTimeout]

@[simp] theorem ident_fatalError (s : State) (code unit : Nat) : ident (fatalError s code unit) = ident s := by
  simp [fatalError]

@[simp] theorem same_execModuleFatal (code : BitVec 8) (unit : BitVec 6) (s : State) :
    Same s (execModuleFatal code unit s) := by
  simp [execModuleFatal]

@[simp] theorem same_execHmWatchdog (s : State) : Same s (execHmWatchdog s) := by simp [execHmWatchdog]
@[simp] theorem same_execFatalAutoreset (s : State) : Same s (execFatalAutoreset s) := by simp [execFatalAutoreset]
@[simp] theorem same_execRejoin (m : Master) (v : Word) (s : State) : Same s (execRejoin m v s) := by simp [execRejoin]

@[simp] theorem ident_takeHome (s : State) (l : Nat) : ident (takeHome s l) = ident s := by
  unfold takeHome
  split <;> simp

@[simp] theorem ident_takeShadow (s : State) (l : Nat) : ident (takeShadow s l) = ident s := by
  unfold takeShadow
  split <;> simp

@[simp] theorem same_execRejoinCopyComplete (l : Fin 32) (s : State) : Same s (execRejoinCopyComplete l s) := by
  simp [execRejoinCopyComplete]

@[simp] theorem ident_loseRow (s : State) (r : Nat) : ident (loseRow s r) = ident s := by simp [loseRow]
@[simp] theorem ident_stampFail (s : State) (n : Nat) : ident (stampFail s n) = ident s := by simp [stampFail]

@[simp] theorem same_execPwrOkDeassert (n : Fin 6) (lowNs : Nat) (s : State) :
    Same s (execPwrOkDeassert n lowNs s) := by
  simp [execPwrOkDeassert]

@[simp] theorem same_execPwrOkAssert (n : Fin 6) (s : State) : Same s (execPwrOkAssert n s) := by simp [execPwrOkAssert]

/-! ### Targets -/

@[simp] theorem ident_readWord (s : State) (unit sp u : Nat) : ident (readWord s unit sp u) = ident s := by
  unfold readWord
  split
  · simp
  · split
    · split <;> simp
    · simp

@[simp] theorem ident_markWord (s : State) (u : Nat) : ident (markWord s u) = ident s := by simp [markWord]

@[simp] theorem ident_writtenWord (s : State) (unit sp k n : Nat) (psn : Bool) (u : Nat) :
    ident (writtenWord s unit sp k n psn u) = ident s := by
  simp [writtenWord]

@[simp] theorem ident_memRead (s : State) (unit sp off n : Nat) : ident (memRead s unit sp off n) = ident s := by
  unfold memRead
  split <;> simp

@[simp] theorem ident_memWrite (s : State) (unit sp off : Nat) (bs : List Byte) (psn : Bool) :
    ident (memWrite s unit sp off bs psn) = ident s := by
  unfold memWrite
  split <;> simp

/-! ### Mailbox -/

@[simp] theorem ident_busyWrite (s : State) : ident (busyWrite s) = ident s := by simp [busyWrite]

@[simp] theorem ident_submit (s : State) (c : Nat) : ident (submit s c) = ident s := by
  unfold submit
  dsimp only
  split <;> simp only [ident_mk, ident_eta, ident_wrFld]

@[simp] theorem ident_accept (s : State) (c : Nat) : ident (accept s c) = ident s := by simp [accept]

@[simp] theorem ident_writeReq (s : State) (c op : Nat) (pay : List Byte) : ident (writeReq s c op pay) = ident s := by
  simp [writeReq]

/-- A request ends before its operation runs, or the operation runs on a state with the same fuses and queue. -/
theorem request_cases (s : State) (c : Nat) (op : Option Nat) (pay : List Byte) (chans : Nat → Bool) (early : Bool)
    (body : State → State) :
    ident (request s c op pay chans early body) = ident s ∨
      ∃ t, ident t = ident s ∧ request s c op pay chans early body = body t := by
  unfold request
  dsimp only
  have hw : ident (if s.hm.posted.contains c then s else writeReq s c (op.getD 0xffff) pay) = ident s := by
    rw [ident_ite, ident_writeReq, ite_self]
  generalize (if s.hm.posted.contains c then s else writeReq s c (op.getD 0xffff) pay) = u at hw ⊢
  have ha : ident (accept u c) = ident s := (ident_accept u c).trans hw
  split
  · exact .inl rfl
  · split
    · exact .inl (ident_busyWrite s)
    · split
      · exact .inl hw
      · split
        · exact .inl ((ident_mbxDone ..).trans ha)
        · split <;> split
          · exact .inl ((ident_mbxDone ..).trans ha)
          · exact .inr ⟨_, ha, rfl⟩
          · exact .inl ((ident_mbxDone ..).trans ha)
          · exact .inr ⟨_, ha, rfl⟩

@[simp] theorem ident_request (s : State) (c : Nat) (op : Option Nat) (pay : List Byte) (chans : Nat → Bool)
    (early : Bool) {body : State → State} (hb : ∀ t, ident (body t) = ident t) :
    ident (request s c op pay chans early body) = ident s := by
  obtain h | ⟨t, ht, e⟩ := request_cases s c op pay chans early body
  · exact h
  · rw [e, hb, ht]

@[simp] theorem same_execMailboxNop (ch : Fin 50) (s : State) : Same s (execMailboxNop ch s) := by simp [execMailboxNop]

@[simp] theorem same_execMailboxReservedOp (ch : Fin 50) (s : State) : Same s (execMailboxReservedOp ch s) := by
  simp [execMailboxReservedOp]

@[simp] theorem ident_createJob (s : State) (c : Nat) (debug : Bool) : ident (createJob s c debug) = ident s := by
  unfold createJob
  split
  · simp
  · split <;> simp

@[simp] theorem same_execJobCreate (ch : Fin 50) (debug : Bool) (s : State) : Same s (execJobCreate ch debug s) := by
  simp [execJobCreate]

@[simp] theorem ident_addTenant (s : State) (c : Nat) (id : BitVec 16) (es : List Extent) :
    ident (addTenant s c id es) = ident s := by
  unfold addTenant
  split
  · simp
  · split
    · simp
    · split
      · simp
      · split <;> simp

@[simp] theorem same_execTenantAdd (ch : Fin 50) (job : BitVec 16) (extents : List (Fin 32 × Nat × Nat)) (s : State) :
    Same s (execTenantAdd ch job extents s) := by
  simp [execTenantAdd]

@[simp] theorem ident_hashError (s : State) (quay : Nat) (bad : Bool) : ident (hashError s quay bad) = ident s := by
  simp [hashError]

@[simp] theorem ident_measureJob (s : State) (c : Nat) (id : BitVec 16) (a : Dword) (n quay : Nat)
    (engineError : Bool) :
    ident (measureJob s c id a n quay engineError) = ident s := by
  unfold measureJob
  split <;> simp

@[simp] theorem same_execMeasure (ch : Fin 50) (job : BitVec 16) (addr : Dword) (len : Nat) (quay : Fin 4)
    (engineError : Bool) (s : State) :
    Same s (execMeasure ch job addr len quay engineError s) := by
  simp [execMeasure]

@[simp] theorem ident_grantJob (s : State) (c : Nat) (id : BitVec 16) (mask : Word) :
    ident (grantJob s c id mask) = ident s := by
  unfold grantJob
  split <;> simp

@[simp] theorem same_execGrant (ch : Fin 50) (job : BitVec 16) (mask : Word) (s : State) :
    Same s (execGrant ch job mask s) := by
  simp [execGrant]

@[simp] theorem ident_sealLand (s : State) (c : Nat) (id : BitVec 16) (l : Nat) :
    ident (sealLand s c id l) = ident s := by
  unfold sealLand
  split <;> simp

@[simp] theorem same_execSeal (ch : Fin 50) (job : BitVec 16) (l : Fin 32) (s : State) :
    Same s (execSeal ch job l s) := by
  simp [execSeal]

@[simp] theorem ident_endJobOn (s : State) (c : Nat) (j : Job) (records : Bool) :
    ident (endJobOn s c j records) = ident s := by
  simp [endJobOn]

@[simp] theorem ident_killId (s : State) (c : Nat) (id : BitVec 16) : ident (killId s c id) = ident s := by
  unfold killId
  split
  · simp
  · split
    · simp
    · split <;> simp

@[simp] theorem same_execKill (ch : Fin 50) (id : BitVec 16) (s : State) : Same s (execKill ch id s) := by
  simp [execKill]

@[simp] theorem ident_releaseJob (s : State) (c : Nat) (id : BitVec 16) : ident (releaseJob s c id) = ident s := by
  unfold releaseJob
  split <;> simp

@[simp] theorem same_execRelease (ch : Fin 50) (job : BitVec 16) (s : State) : Same s (execRelease ch job s) := by
  simp [execRelease]

@[simp] theorem ident_openFor (s : State) (c u : Nat) (w : WinSpec) : ident (openFor s c u w) = ident s := by
  unfold openFor
  split
  · simp
  · split
    · simp
    · split
      · simp
      · split <;> simp

@[simp] theorem same_execWinOpen (ch : Fin 50) (u : Unit') (w : WinSpec) (s : State) :
    Same s (execWinOpen ch u w s) := by
  simp [execWinOpen]

@[simp] theorem ident_closeFor (s : State) (c u i : Nat) (gen : BitVec 8) : ident (closeFor s c u i gen) = ident s := by
  simp [closeFor]

@[simp] theorem same_execWinClose (ch : Fin 50) (u : Unit') (idx : BitVec 10) (gen : BitVec 8) (s : State) :
    Same s (execWinClose ch u idx gen s) := by
  simp [execWinClose]

@[simp] theorem ident_bindQs (s : State) (c q : Nat) (id : BitVec 16) : ident (bindQs s c q id) = ident s := by
  simp [bindQs]

@[simp] theorem same_execQsBind (ch : Fin 50) (q : Fin 64) (id : BitVec 16) (s : State) :
    Same s (execQsBind ch q id s) := by
  simp [execQsBind]

@[simp] theorem ident_mapUnsigned (s : State) (q rseq : Nat) (f : List Byte → List Byte) :
    ident (mapUnsigned s q rseq f) = ident s := by
  simp [mapUnsigned]

@[simp] theorem ident_queueSign (s : State) (c q rseq : Nat) : ident (queueSign s c q rseq) = ident s := by
  unfold queueSign
  split
  · simp
  · split <;> simp

@[simp] theorem same_execSignProv (ch : Fin 50) (q : Fin 64) (rseq : Nat) (s : State) :
    Same s (execSignProv ch q rseq s) := by
  simp [execSignProv]

@[simp] theorem ident_signRec (s : State) (q rseq : Nat) : ident (signRec s q rseq) = ident s := by simp [signRec]

@[simp] theorem same_execProvenanceSignatureDone (s : State) : Same s (execProvenanceSignatureDone s) := by
  unfold execProvenanceSignatureDone
  split
  · simp
  · split
    · simp
    · dsimp only
      split <;> simp

@[simp] theorem ident_signCkpt (s : State) (c : Nat) (bs : List Byte) : ident (signCkpt s c bs) = ident s := by
  simp [signCkpt]

@[simp] theorem same_execSignCkpt (ch : Fin 50) (bytes : List Byte) (s : State) : Same s (execSignCkpt ch bytes s) := by
  simp [execSignCkpt]

@[simp] theorem ident_installKey (s : State) (c port : Nat) (rx : Bool) (an : Nat) (wrapped : List Byte) :
    ident (installKey s c port rx an wrapped) = ident s := by
  unfold installKey
  split
  · simp
  · split <;> simp

@[simp] theorem same_execMacsecKey (ch : Fin 50) (port : Fin 16) (rx : Bool) (an : BitVec 2) (wrapped : List Byte)
    (s : State) :
    Same s (execMacsecKey ch port rx an wrapped s) := by
  simp [execMacsecKey]

@[simp] theorem ident_verifyCopy (s : State) (c comp k : Nat) : ident (verifyCopy s c comp k) = ident s := by
  simp [verifyCopy]

@[simp] theorem same_execFwVerify (ch : Fin 50) (component : Fin 3) (copyB : Bool) (s : State) :
    Same s (execFwVerify ch component copyB s) := by
  simp [execFwVerify]

@[simp] theorem ident_debugUnlock (s : State) (c : Nat) (token : BitVec 768) :
    ident (debugUnlock s c token) = ident s := by
  simp [debugUnlock]

@[simp] theorem same_execDebugUnlock (ch : Fin 50) (token : BitVec 768) (s : State) :
    Same s (execDebugUnlock ch token s) := by
  simp [execDebugUnlock]

@[simp] theorem ident_noteReport (s : State) (c code unit : Nat) : ident (noteReport s c code unit) = ident s := by
  simp [noteReport]

@[simp] theorem same_execFaultReport (ch : Fin 50) (code : BitVec 8) (unit : BitVec 6) (s : State) :
    Same s (execFaultReport ch code unit s) := by
  simp [execFaultReport]

/-! ### Mgmt -/

@[simp] theorem ident_pldm (s : State) (t : Transport) {f : State → State × Nat × List Byte}
    (hf : ∀ u, ident (f u).1 = ident u) : ident (pldm s t f) = ident s := by
  simp [pldm, hf]

@[simp] theorem ident_answerTo (s : State) (m : Master) (t : Transport) (code : Nat) (data : List Byte) :
    ident (answerTo s m t code data) = ident s := by
  unfold answerTo
  split
  · split
    · next h => exact ident_of_routeFrame h
    · simp
  · simp

@[simp] theorem ident_pldmFor (s : State) (m : Master) (t : Transport) {f : State → State × Nat × List Byte}
    (hf : ∀ u, ident (f u).1 = ident u) : ident (pldmFor s m t f) = ident s := by
  simp [pldmFor, hf]

@[simp] theorem same_execSetEndpointId (t : Transport) (eid : Byte) (s : State) :
    Same s (execSetEndpointId t eid s) := by
  simp [execSetEndpointId]

@[simp] theorem same_execGetPdr (t : Transport) (handle : Nat) (s : State) : Same s (execGetPdr t handle s) := by
  unfold execGetPdr
  split <;> simp

@[simp] theorem same_execGetPdrRepositoryInfo (t : Transport) (s : State) : Same s (execGetPdrRepositoryInfo t s) := by
  simp [execGetPdrRepositoryInfo]

@[simp] theorem ident_freeReading (s : State) : ident (freeReading s).2 = ident s := by simp [freeReading]

@[simp] theorem ident_unitJunction (s : State) (u : Nat) : ident (unitJunction s u).2 = ident s := by
  unfold unitJunction
  split <;> simp

theorem ident_of_sensorValue {s t : State} {n v : Nat} (h : sensorValue s n = some (v, t)) : ident t = ident s := by
  unfold sensorValue at h
  split at h
  iterate 5 (cases h; rfl)
  split at h
  · have hu := ident_unitJunction s (n - 5)
    rw [Option.some.inj h] at hu
    exact hu
  · cases h

@[simp] theorem same_execGetSensorReading (t : Transport) (sensor : Nat) (s : State) :
    Same s (execGetSensorReading t sensor s) := by
  refine same_next.mpr (ident_pldm s t fun s => ?_)
  split
  · next h => exact ident_of_sensorValue h
  · rfl

@[simp] theorem same_execGetStateSensorReadings (t : Transport) (sensor : Nat) (s : State) :
    Same s (execGetStateSensorReadings t sensor s) := by
  simp [execGetStateSensorReadings]

@[simp] theorem ident_pldmOrder (s : State) (m : Master) (t : Transport) (q : Qty) (v : Nat) :
    ident (pldmOrder s m t q v) = ident s := by
  simp [pldmOrder]

@[simp] theorem ident_masterOrder (s : State) (m : Master) (t : Transport) (q : Qty) (v : Nat) :
    ident (masterOrder s m t q v) = ident s := by
  unfold masterOrder
  split <;> simp

@[simp] theorem ident_orderLost (s : State) (m : Master) (t : Transport) (q : Qty) :
    ident (orderLost s m t q) = ident s := by
  cases m <;> simp [orderLost]

@[simp] theorem ident_meetOrders (s : State) (m : Master) (t : Transport) (q : Qty) (v : Nat) (met : Option
    (Master × Nat)) :
    ident (meetOrders s m t q v met) = ident s := by
  unfold meetOrders
  split <;> simp

@[simp] theorem same_execSetNumericEffecterValue (m : Master) (t : Transport) (o : SafetyOrder) (s : State) :
    Same s (execSetNumericEffecterValue m t o s) := by
  unfold execSetNumericEffecterValue
  split <;> simp

@[simp] theorem same_execSetStateEffecterStates (m : Master) (t : Transport) (o : RunOrder) (s : State) :
    Same s (execSetStateEffecterStates m t o s) := by
  simp [execSetStateEffecterStates]

@[simp] theorem same_execGetNumericEffecterValue (m : Master) (t : Transport) (effecter : Fin 2) (s : State) :
    Same s (execGetNumericEffecterValue m t effecter s) := by
  simp [execGetNumericEffecterValue]

@[simp] theorem same_execGetStateEffecterStates (m : Master) (t : Transport) (s : State) :
    Same s (execGetStateEffecterStates m t s) := by
  simp [execGetStateEffecterStates]

@[simp] theorem same_execSetEventReceiver (t : Transport) (eid : Byte) (s : State) :
    Same s (execSetEventReceiver t eid s) := by
  simp [execSetEventReceiver]

@[simp] theorem same_execPollForPlatformEventMessage (t : Transport) (s : State) :
    Same s (execPollForPlatformEventMessage t s) := by
  refine same_next.mpr (ident_pldm s t fun s => ?_)
  dsimp only
  split <;> simp

@[simp] theorem same_execFirmwareUpdate (component : Fin 3) (image : List Byte) (svn : BitVec 16)
    (digest : BitVec 384) (sig : BitVec 768) (s : State) :
    Same s (execFirmwareUpdate component image svn digest sig s) := by
  simp [execFirmwareUpdate]

@[simp] theorem same_execActivateFirmware (component : Fin 3) (s : State) :
    Same s (execActivateFirmware component s) := by
  simp [execActivateFirmware]

@[simp] theorem ident_setSpdm (s : State) (t : Transport) (n : Nat) : ident (setSpdm s t n) = ident s := by
  simp [setSpdm]

@[simp] theorem ident_spdm (s : State) (t : Transport) (n : Nat) (rom : Bool) {f : State → State × Nat × List Byte}
    (hf : ∀ u, ident (f u).1 = ident u) : ident (spdm s t n rom f) = ident s := by
  unfold spdm
  dsimp only
  split
  · rfl
  · split
    · simp
    · split <;> simp [hf]

@[simp] theorem same_execGetVersion (t : Transport) (s : State) : Same s (execGetVersion t s) := by
  simp [execGetVersion]

@[simp] theorem same_execGetCapabilities (t : Transport) (s : State) : Same s (execGetCapabilities t s) := by
  simp [execGetCapabilities]

@[simp] theorem same_execNegotiateAlgorithms (t : Transport) (s : State) : Same s (execNegotiateAlgorithms t s) := by
  simp [execNegotiateAlgorithms]

@[simp] theorem same_execGetDigests (t : Transport) (s : State) : Same s (execGetDigests t s) := by
  simp [execGetDigests]

@[simp] theorem same_execGetCertificate (t : Transport) (slot off len : Nat) (s : State) :
    Same s (execGetCertificate t slot off len s) := by
  simp [execGetCertificate]

@[simp] theorem same_execChallenge (t : Transport) (slot : Nat) (nonce : BitVec 256) (s : State) :
    Same s (execChallenge t slot nonce s) := by
  simp [execChallenge]

@[simp] theorem same_execGetMeasurements (t : Transport) (index : Nat) (signed : Bool) (nonce : BitVec 256)
    (s : State) :
    Same s (execGetMeasurements t index signed nonce s) := by
  refine same_next.mpr (ident_spdm s t 3 false fun s => ?_)
  split <;> simp

/-! ### Debug -/

@[simp] theorem ident_setDbgData (s : State) (bs : List Byte) : ident (setDbgData s bs) = ident s := by
  simp [setDbgData]

@[simp] theorem ident_dbgDone (s : State) (x : DStatus) : ident (dbgDone s x) = ident s := by simp [dbgDone]

@[simp] theorem ident_dbgReadFails (s : State) (x : DStatus) : ident (dbgReadFails s x) = ident s :=
  (ident_dbgDone ..).trans (ident_setDbgData ..)

@[simp] theorem ident_dbgRead (s : State) : ident (dbgRead s) = ident s := by
  unfold dbgRead
  dsimp only
  split
  · simp
  · split <;> simp

@[simp] theorem ident_dbgWrite (s : State) : ident (dbgWrite s) = ident s := by
  unfold dbgWrite
  dsimp only
  split
  · simp
  · split <;> simp

@[simp] theorem same_execDbgRead (m : Master) (s : State) : Same s (execDbgRead m s) := by simp [execDbgRead]
@[simp] theorem same_execDbgWrite (m : Master) (s : State) : Same s (execDbgWrite m s) := by simp [execDbgWrite]

@[simp] theorem same_execDbgAccessComplete (s : State) : Same s (execDbgAccessComplete s) := by
  unfold execDbgAccessComplete
  split <;> simp

/-! ### Issue -/

@[simp] theorem ident_issueE (s : State) (w : ThreadRef) (op : BitVec 6) (f : EForm)
    {body : State → Nat → Nat → Nat → State} (hb : ∀ t l c n, ident (body t l c n) = ident t) :
    ident (issueE s w op f body) = ident s := by
  cases w <;> simp [issueE, hb]

@[simp] theorem ident_enter (s : State) (w : ThreadRef) (l c t : Nat) (op : BitVec 6) (f : EForm) (e : Eng) :
    ident (enter s w l c t op f e) = ident s := by
  unfold enter
  dsimp only
  split <;> simp

@[simp] theorem ident_issueQueued (s : State) (w : ThreadRef) (op : BitVec 6) (f : EForm) (e : Eng) :
    ident (issueQueued s w op f e) = ident s := by
  simp [issueQueued]

@[simp] theorem same_execQueueFullIssue (w : ThreadRef) (s : State) : Same s (execQueueFullIssue w s) := by
  unfold execQueueFullIssue
  split
  · split <;> simp
  · simp

@[simp] theorem ident_issueVop (s : State) (w : ThreadRef) (f : EForm) (op : Nat) :
    ident (issueVop s w f op) = ident s := by
  simp [issueVop]

@[simp] theorem ident_issueRed (s : State) (w : ThreadRef) (f : EForm) (op : Nat) :
    ident (issueRed s w f op) = ident s := by
  simp [issueRed]

@[simp] theorem same_execReservedInstruction (w : ThreadRef) (w0 w1 : Word) (s : State) :
    Same s (execReservedInstruction w w0 w1 s) := by
  simp [execReservedInstruction]

/-! ### Sync -/

@[simp] theorem ident_setGroup (s : State) (l g : Nat) (x : Machine.Group) : ident (setGroup s l g x) = ident s := by
  simp [setGroup]

@[simp] theorem ident_cgOverrun (s : State) (l g : Nat) : ident (cgOverrun s l g) = ident s := by simp [cgOverrun]
@[simp] theorem ident_cgMismatch (s : State) (l g : Nat) : ident (cgMismatch s l g) = ident s := by simp [cgMismatch]
@[simp] theorem ident_cgRefused (s : State) (l g : Nat) : ident (cgRefused s l g) = ident s := by simp [cgRefused]

theorem ident_of_arrive {s u : State} {l c t g : Nat} {sctr : BitVec 6} {sinc : BitVec 8}
    (h : arrive s l c t g sctr sinc = some u) : ident u = ident s := by
  unfold arrive at h
  dsimp only at h
  split at h
  · cases h; simp
  · split at h
    · cases h; simp
    · cases h

@[simp] theorem ident_refuseCla (s : State) (w : ThreadRef) (g : BitVec 4) (sctr : BitVec 6) (sinc : BitVec 8) :
    ident (refuseCla s w g sctr sinc) = ident s := by
  simp [refuseCla]

@[simp] theorem ident_park (s : State) (w : ThreadRef) (x : Wait) : ident (park s w x) = ident s := by simp [park]
@[simp] theorem ident_unpark (s : State) (w : ThreadRef) : ident (unpark s w) = ident s := by simp [unpark]

@[simp] theorem ident_goSync (s : State) (l c t : Nat) (op : SyncOp) (sctr : BitVec 6) (sinc : BitVec 8) :
    ident (goSync s l c t op sctr sinc) = ident s := by
  unfold goSync
  cases op with
  | sig | wait => simp
  | cla g =>
    dsimp only
    split
    · simp
    · split
      · next h => rw [ident_advance, ident_of_arrive h]
      · simp
  | clw g =>
    dsimp only
    split <;> simp

@[simp] theorem ident_runSync (s : State) (l c t : Nat) (op : SyncOp) (sctr : BitVec 6) (sinc : BitVec 8) :
    ident (runSync s l c t op sctr sinc) = ident s := by
  simp [runSync]

@[simp] theorem ident_issueSync (s : State) (w : ThreadRef) (code : BitVec 6) (f : EForm) (op : SyncOp) :
    ident (issueSync s w code f op) = ident s := by
  refine ident_issueE s w code f fun s l c t => ?_
  dsimp only
  split <;> simp

@[simp] theorem ident_releaseThread (s : State) (l c n t : Nat) : ident (releaseThread s l c n t) = ident s := by
  unfold releaseThread
  dsimp only
  split <;> simp

@[simp] theorem same_execWaiterRelease (k : CoreRef) (ctr : Fin 48) (s : State) :
    Same s (execWaiterRelease k ctr s) := by
  simp [execWaiterRelease]

@[simp] theorem ident_noticeWdog (s : State) (l g : Nat) : ident (noticeWdog s l g) = ident s := by simp [noticeWdog]

@[simp] theorem same_execWaitTimeout (w : ThreadRef) (s : State) : Same s (execWaitTimeout w s) := by
  unfold execWaitTimeout
  split
  · simp
  · dsimp only
    split <;> simp

@[simp] theorem ident_writePair (s : State) (l c i : Nat) (v : Word) : ident (writePair s l c i v) = ident s := by
  simp [writePair]

@[simp] theorem ident_writeGroup (s : State) (l g reg : Nat) (v : Word) : ident (writeGroup s l g reg v) = ident s := by
  simp [writeGroup]

@[simp] theorem ident_realignPair (s : State) (l c : Nat) (w : Word) : ident (realignPair s l c w) = ident s := by
  simp [realignPair]

@[simp] theorem ident_realign (s : State) (l c : Nat) : ident (realign s l c) = ident s := by simp [realign]

@[simp] theorem ident_countHeld (s : State) (l c g t : Nat) : ident (countHeld s l c g t) = ident s := by
  unfold countHeld
  dsimp only
  split
  · split
    · next h => rw [ident_advance, ident_unpark, ident_of_arrive h]
    · rfl
  · rfl

@[simp] theorem ident_releaseCore (s : State) (l g : Nat) (gen : BitVec 16) (clas : List Cla) (periodic : Bool)
    (c : Nat) :
    ident (releaseCore s l g gen clas periodic c) = ident s := by
  simp [releaseCore]

@[simp] theorem ident_releaseLanding (s : State) (g : Nat) (periodic : Bool) (l : Nat) :
    ident (releaseLanding s g periodic l) = ident s := by
  simp [releaseLanding]

@[simp] theorem ident_releaseLands (s : State) (l g : Nat) (periodic : Bool) :
    ident (releaseLands s l g periodic) = ident s := by
  simp [releaseLands]

@[simp] theorem ident_masterRelease (s : State) (l g : Nat) (periodic : Bool) :
    ident (masterRelease s l g periodic) = ident s := by
  simp [masterRelease]

@[simp] theorem same_execClosureRelease (l : Fin 32) (g : Fin 16) (s : State) : Same s (execClosureRelease l g s) := by
  simp [execClosureRelease]

@[simp] theorem same_execPeriodicClosureBoundary (l : Fin 32) (g : Fin 16) (s : State) :
    Same s (execPeriodicClosureBoundary l g s) := by
  simp [execPeriodicClosureBoundary]

@[simp] theorem ident_takeArrival (s : State) (l g src mod : Nat) (gen : BitVec 16) (lmask ctl per : Word) :
    ident (takeArrival s l g src mod gen lmask ctl per) = ident s := by
  simp [takeArrival]

theorem ident_of_markSent {s t : State} {l g : Nat} {gen : BitVec 16} (h : markSent s l g gen = some t) :
    ident t = ident s := by
  unfold markSent at h
  dsimp only at h
  split at h
  · cases h; simp
  · split at h
    · cases h; simp
    · cases h

@[simp] theorem same_execArrivalMessage (src l : Fin 32) (g : Fin 16) (gen : BitVec 16) (lmask cgctl cgper : Word)
    (s : State) : Same s (execArrivalMessage src l g gen lmask cgctl cgper s) := by
  unfold execArrivalMessage
  dsimp only
  split
  · simp
  · split
    · simp
    · next h => simp [ident_of_markSent h]

/-! ### Vector -/

@[simp] theorem ident_putVec (s : State) (l c dst : Nat) (rows : PRows) : ident (putVec s l c dst rows) = ident s := by
  simp [putVec]

@[simp] theorem ident_sourceMarks (s : State) (l c first n : Nat) (drain : Option PRows) :
    ident (sourceMarks s l c first n drain) = ident s := by
  simp [sourceMarks]

@[simp] theorem ident_runPick (s : State) (l c : Nat) (e : EngCmd) (rows : PRows) :
    ident (runPick s l c e rows) = ident s := by
  simp [runPick]

@[simp] theorem ident_runVop (s : State) (l c : Nat) (e : EngCmd) (drain : Option PRows) :
    ident (runVop s l c e drain).1 = ident s := by
  simp [runVop]

@[simp] theorem ident_runVcvt (s : State) (l c : Nat) (e : EngCmd) (drain : Option PRows) :
    ident (runVcvt s l c e drain).1 = ident s := by
  simp [runVcvt]

@[simp] theorem ident_runVtab (s : State) (l c : Nat) (e : EngCmd) : ident (runVtab s l c e) = ident s := by
  simp [runVtab]

@[simp] theorem ident_runRed (s : State) (l c : Nat) (e : EngCmd) : ident (runRed s l c e) = ident s := by simp [runRed]

@[simp] theorem ident_runRows (s : State) (l c : Nat) (e : EngCmd) : ident (runRows s l c e) = ident s := by
  simp [runRows]

/-! ### Engines -/

@[simp] theorem ident_openDrain (s : State) (l c : Nat) (rows : PRows) : ident (openDrain s l c rows) = ident s := by
  simp [openDrain]

@[simp] theorem ident_placeRows (s : State) (l c : Nat) : ident (placeRows s l c) = ident s := by
  unfold placeRows
  dsimp only
  split <;> simp

@[simp] theorem ident_popDrain (s : State) (l c : Nat) : ident (popDrain s l c) = ident s := by simp [popDrain]

@[simp] theorem ident_abandonAhead (s : State) (l c : Nat) : ident (abandonAhead s l c) = ident s := by
  simp [abandonAhead]

@[simp] theorem ident_runCommand (s : State) (l c : Nat) (e : EngCmd) : ident (runCommand s l c e).1 = ident s := by
  unfold runCommand
  split <;> split <;> simp

@[simp] theorem ident_popQueue (s : State) (l c : Nat) (e : Eng) (cmd : EngCmd) :
    ident (popQueue s l c e cmd) = ident s := by
  simp [popQueue]

@[simp] theorem ident_retired (s : State) (l c : Nat) (e : Eng) (cmd : EngCmd) :
    ident (retired s l c e cmd) = ident s := by
  simp [retired]

@[simp] theorem ident_drainStep (s : State) (l c : Nat) {rows : State → State × PRows} {done : State → State}
    (hr : ∀ t, ident (rows t).1 = ident t) (hd : ∀ t, ident (done t) = ident t) :
    ident (drainStep s l c rows done) = ident s := by
  simp [drainStep, hr, hd]

@[simp] theorem ident_retireHead (s : State) (l c : Nat) (e : Eng) (cmd : EngCmd) :
    ident (retireHead s l c e cmd) = ident s := by
  unfold retireHead
  dsimp only
  split
  · simp
  · split
    · split <;> simp
    · rfl

@[simp] theorem ident_retireJob (s : State) (l c : Nat) : ident (retireJob s l c) = ident s := by
  unfold retireJob
  dsimp only
  split <;> simp

@[simp] theorem ident_discardWrites (s : State) (l c : Nat) (e : EngCmd) :
    ident (discardWrites s l c e) = ident s := by
  unfold discardWrites
  split <;> simp

@[simp] theorem ident_discardPairing (s : State) (l c : Nat) (e : EngCmd) :
    ident (discardPairing s l c e) = ident s := by
  simp [discardPairing]

@[simp] theorem ident_finishDiscard (s : State) (l c : Nat) (e : Eng) (cmd : EngCmd) :
    ident (finishDiscard s l c e cmd) = ident s := by
  simp [finishDiscard]

@[simp] theorem same_execEngineCommandRetire (k : CoreRef) (e : Eng) (s : State) :
    Same s (execEngineCommandRetire k e s) := by
  unfold execEngineCommandRetire
  split
  · simp
  · dsimp only
    split
    · simp
    · split <;> simp

@[simp] theorem ident_discardSe (s : State) (l c : Nat) (cmd : EngCmd) (code : Nat) :
    ident (discardSe s l c cmd code) = ident s := by
  simp [discardSe]

@[simp] theorem ident_startJob (s : State) (l c : Nat) (cmd : EngCmd) (sids : List Nat) :
    ident (startJob s l c cmd sids) = ident s := by
  simp [startJob]

@[simp] theorem ident_startStrm (s : State) (l c : Nat) (cmd : EngCmd) : ident (startStrm s l c cmd) = ident s := by
  simp [startStrm]

@[simp] theorem ident_startRearm (s : State) (l c : Nat) (cmd : EngCmd) : ident (startRearm s l c cmd) = ident s := by
  simp [startRearm]

@[simp] theorem ident_startHead (s : State) (l c : Nat) (e : Eng) : ident (startHead s l c e) = ident s := by
  simp [startHead]

@[simp] theorem same_execEngineCommandStart (k : CoreRef) (e : Eng) (s : State) :
    Same s (execEngineCommandStart k e s) := by
  unfold execEngineCommandStart
  split
  · dsimp only
    split
    · simp
    · split
      · simp
      · split
        · split <;> simp
        · simp
  · dsimp only
    split
    · simp
    · split
      · simp
      · split
        · split <;> simp
        · simp

@[simp] theorem same_execCommandWaitTimeout (k : CoreRef) (e : Eng) (s : State) :
    Same s (execCommandWaitTimeout k e s) := by
  unfold execCommandWaitTimeout
  dsimp only
  split <;> simp

/-! ### Regs -/

@[simp] theorem ident_after {r : Res} {s : State} (h : Same s r) : ident (after r s) = ident s := by
  cases r with
  | next t => exact h t rfl
  | fault | refused => rfl

@[simp] theorem ident_setLatch (s : State) (o : Nat) (v : Option Word) : ident (setLatch s o v) = ident s := by
  simp [setLatch]

@[simp] theorem ident_setHeld (s : State) (o : Nat) (v : Option Word) : ident (setHeld s o v) = ident s := by
  simp [setHeld]

@[simp] theorem ident_clearRead (s : State) (o : Nat) : ident (clearRead s o) = ident s := by
  unfold clearRead
  split <;> simp

@[simp] theorem ident_regRead (s : State) (m : Master) (o : Nat) : ident (regRead s m o).2 = ident s := by
  unfold regRead
  split
  · simp
  · split
    · simp
    · split <;> simp

@[simp] theorem ident_plainWrite (s : State) (m : Master) (o : Nat) (v : Word) :
    ident (plainWrite s m o v) = ident s := by
  unfold plainWrite
  split <;> simp

@[simp] theorem ident_clearWhole (s : State) (o i : Nat) (v : Word) : ident (clearWhole s o i v) = ident s := by
  simp [clearWhole]

@[simp] theorem ident_writeRing (s : State) (v : Word) : ident (writeRing s v) = ident s := by simp [writeRing]

@[simp] theorem same_execRingWrite (m : Master) (v : Word) (s : State) : Same s (execRingWrite m v s) := by
  simp [execRingWrite]

@[simp] theorem ident_writeTcfg (s : State) (v : Word) : ident (writeTcfg s v) = ident s := by simp [writeTcfg]

@[simp] theorem ident_writeVctl (s : State) (m : Master) (v : Word) : ident (writeVctl s m v) = ident s := by
  simp [writeVctl]

@[simp] theorem ident_writeCkctl (s : State) (m : Master) (v : Word) : ident (writeCkctl s m v) = ident s := by
  simp [writeCkctl]

@[simp] theorem ident_writeDbgCtl (s : State) (v : Word) : ident (writeDbgCtl s v) = ident s := by simp [writeDbgCtl]
@[simp] theorem ident_writeEoi (s : State) (v : Word) : ident (writeEoi s v) = ident s := by simp [writeEoi]
@[simp] theorem same_execEoi (m : Master) (v : Word) (s : State) : Same s (execEoi m v s) := by simp [execEoi]

@[simp] theorem ident_writeChan (s : State) (c o : Nat) (v : Word) : ident (writeChan s c o v) = ident s := by
  simp [writeChan]

@[simp] theorem ident_writePfovr (s : State) (m : Master) (v : Word) : ident (writePfovr s m v) = ident s := by
  unfold writePfovr
  split <;> simp

@[simp] theorem ident_writeQs (s : State) (m : Master) (q x : Nat) (v : Word) :
    ident (writeQs s m q x v) = ident s := by
  unfold writeQs
  split <;> simp

@[simp] theorem ident_writeModule (s : State) (m : Master) (o : Nat) (v : Word) :
    ident (writeModule s m o v) = ident s := by
  unfold writeModule
  split
  · simp
  · split
    · simp
    · split
      · simp
      · split
        · simp
        · split
          · simp
          · split <;> simp

@[simp] theorem ident_writeCore (s : State) (m : Master) (l c x : Nat) (v : Word) :
    ident (writeCore s m l c x v) = ident s := by
  simp [writeCore]

@[simp] theorem ident_writeWinReg (s : State) (m : Master) (u i k : Nat) (v : Word) :
    ident (writeWinReg s m u i k v) = ident s := by
  simp [writeWinReg]

@[simp] theorem ident_writeLand (s : State) (m : Master) (l x : Nat) (v : Word) :
    ident (writeLand s m l x v) = ident s := by
  simp [writeLand]

@[simp] theorem ident_writeQuay (s : State) (m : Master) (q x : Nat) (v : Word) :
    ident (writeQuay s m q x v) = ident s := by
  simp [writeQuay]

@[simp] theorem ident_writeWord (s : State) (m : Master) (o : Nat) (v : Word) :
    ident (writeWord s m o v) = ident s := by
  simp [writeWord]

@[simp] theorem ident_writeTpost (s : State) (m : Master) (l : Nat) (hi : Bool) (v : Word) :
    ident (writeTpost s m l hi v) = ident s := by
  simp [writeTpost]

@[simp] theorem ident_regWrite (s : State) (m : Master) (o : Nat) (v : Word) :
    ident (regWrite s m o v) = ident s := by
  unfold regWrite
  split
  · simp
  · split
    · simp
    · split
      · simp
      · split
        · simp
        · split
          · split <;> simp
          · simp

@[simp] theorem ident_barErr (s : State) (port why : Nat) (write : Bool) (off : Nat) :
    ident (barErr s port why write off) = ident s := by
  simp [barErr]

@[simp] theorem ident_masterWrite (s : State) (m : Master) (o : Nat) (v : Word) :
    ident (masterWrite s m o v) = ident s := by
  unfold masterWrite
  split <;> simp

@[simp] theorem ident_loseWrite (s : State) (m : Master) (o : Nat) : ident (loseWrite s m o) = ident s := by
  simp [loseWrite]

@[simp] theorem ident_meetWrites (s : State) (m : Master) (o : Nat) (v : Word) (m' : Master) (v' : Word) :
    ident (meetWrites s m o v m' v') = ident s := by
  simp [meetWrites]

@[simp] theorem same_execRegisterWrite (m : Master) (off : Nat) (v : RegWrite) (s : State) :
    Same s (execRegisterWrite m off v s) := by
  unfold execRegisterWrite
  split <;> simp

@[simp] theorem same_execPairWrite (m : Master) (k : CoreRef) (i : Fin 16) (v : Word) (s : State) :
    Same s (execPairWrite m k i v s) := by
  simp [execPairWrite]

@[simp] theorem same_execClosureGroupWrite (m : Master) (l : Fin 32) (g : Fin 16) (reg : Fin 11) (v : Word)
    (s : State) :
    Same s (execClosureGroupWrite m l g reg v s) := by
  simp [execClosureGroupWrite]

/-! ### Remote -/

@[simp] theorem ident_ownSrc (s : State) (src : ASrc) : ident (ownSrc s src).2.2 = ident s := by
  unfold ownSrc
  split <;> simp

@[simp] theorem ident_sendResp (s : State) (q t : Trans) (rows : List (List Byte)) :
    ident (sendResp s q t rows) = ident s := by
  unfold sendResp
  split
  · next h => exact ident_of_routeFrame h
  · simp

@[simp] theorem ident_finishAccess (s : State) (a : Access) (st : AStatus) (data : List Byte) (psn : List Nat) :
    ident (finishAccess s a st data psn) = ident s := by
  unfold finishAccess
  split <;> simp

@[simp] theorem ident_applyInc (s : State) (unit : Nat) (w : WSrc) (inc : Option (BitVec 8 × BitVec 6 × BitVec 8)) :
    ident (applyInc s unit w inc) = ident s := by
  unfold applyInc
  split <;> simp

@[simp] theorem ident_readRegs (s : State) (m : Master) (o n : Nat) : ident (readRegs s m o n).2 = ident s := by
  unfold readRegs
  split <;> simp

@[simp] theorem ident_writeRegs (s : State) (m : Master) (o : Nat) (bs : List Byte) :
    ident (writeRegs s m o bs) = ident s := by
  simp [writeRegs]

@[simp] theorem ident_writeAccRow (s : State) (a : Access) (unit sp off i : Nat) :
    ident (writeAccRow s a unit sp off i) = ident s := by
  simp [writeAccRow]

@[simp] theorem ident_finishWrite (s : State) (a : Access) (unit : Nat) (w : WSrc) :
    ident (finishWrite s a unit w) = ident s := by
  simp [finishWrite]

@[simp] theorem ident_readAccRows (s : State) (a : Access) (unit sp off : Nat) :
    ident (readAccRows s a unit sp off) = ident s := by
  simp [readAccRows]

@[simp] theorem ident_perform (s : State) (a : Access) (w : WSrc) (m : Master) (unit sp off : Nat) :
    ident (perform s a w m unit sp off) = ident s := by
  unfold perform
  split <;> simp

@[simp] theorem ident_noteVia (s : State) (id : Nat) (via : Option Nat) : ident (noteVia s id via) = ident s := by
  simp [noteVia]

@[simp] theorem ident_atTarget (s : State) (a : Access) : ident (atTarget s a) = ident s := by
  unfold atTarget
  dsimp only
  split
  · simp
  · split
    · simp
    · split
      · simp
      · simp
      · simp
      · split <;> simp

@[simp] theorem ident_leaveModule (s : State) (a : Access) : ident (leaveModule s a) = ident s := by
  unfold leaveModule
  dsimp only
  split
  · next h =>
    split
    · simp
    · simp [ident_of_routeFrame h]
  · simp

@[simp] theorem same_execRemoteAccess (id : Nat) (s : State) : Same s (execRemoteAccess id s) := by
  unfold execRemoteAccess
  split <;> simp

@[simp] theorem ident_loseHeld (s : State) (a : Access) (k : CoreRef) : ident (loseHeld s a k) = ident s := by
  simp only [loseHeld, ident_mk, ident_eta]

@[simp] theorem same_execTagTimeout (id : Nat) (s : State) : Same s (execTagTimeout id s) := by
  unfold execTagTimeout
  split
  · simp
  · split <;> simp

@[simp] theorem ident_finishHeld (s : State) (l c : Nat) (h : HeldWrite) :
    ident (finishHeld s l c h) = ident s := by
  unfold finishHeld
  split
  · simp
  · simp
  · split <;> simp
  · split <;> simp

@[simp] theorem same_execHeldRowWrite (k : CoreRef) (s : State) : Same s (execHeldRowWrite k s) := by
  unfold execHeldRowWrite
  dsimp only
  split
  · simp
  · split <;> simp

@[simp] theorem same_execRemoteIncrement (t : Trans) (s : State) : Same s (execRemoteIncrement t s) := by
  unfold execRemoteIncrement
  split
  · split
    · dsimp only
      split
      · simp
      · split <;> simp
    · dsimp only
      split
      · simp
      · split <;> simp
  · split
    · dsimp only
      split
      · simp
      · split <;> simp
    · dsimp only
      split
      · simp
      · split <;> simp

/-! ### Control -/

@[simp] theorem ident_countDrop (s : State) (p : Nat) : ident (countDrop s p) = ident s := by simp [countDrop]
@[simp] theorem ident_setTime (s : State) (x : TimeSt) : ident (setTime s x) = ident s := by simp [setTime]

@[simp] theorem ident_takeParent (s : State) (port hops : Nat) : ident (takeParent s port hops) = ident s := by
  simp [takeParent]

@[simp] theorem ident_findParent (s : State) : ident (findParent s) = ident s := by
  unfold findParent
  split <;> simp

@[simp] theorem ident_takeOffset (s : State) (off : Int) : ident (takeOffset s off) = ident s := by simp [takeOffset]
@[simp] theorem ident_followLower (s : State) : ident (followLower s) = ident s := by simp [followLower]

@[simp] theorem ident_onTime (s : State) (port src : Nat) (t1 t2 t3 t4 : Int) :
    ident (onTime s port src t1 t2 t3 t4) = ident s := by
  simp [onTime]

@[simp] theorem same_execTimeExchange (phyTime : Int) (s : State) : Same s (execTimeExchange phyTime s) := by
  simp [execTimeExchange]

@[simp] theorem same_execTimeParentLoss (otherPath : Option (Fin 16 × BitVec 5)) (s : State) :
    Same s (execTimeParentLoss otherPath s) := by
  cases otherPath <;> simp [execTimeParentLoss]

@[simp] theorem ident_openRing (s : State) : ident (openRing s) = ident s := by simp [openRing]

@[simp] theorem ident_spanRole (s : State) (m ring far flag : Nat) :
    ident (spanRole s m ring far flag) = ident s := by
  unfold spanRole
  dsimp only
  split
  · simp
  · split
    · simp
    · split <;> simp

@[simp] theorem ident_holdCut (s : State) : ident (holdCut s) = ident s := by simp [holdCut]

@[simp] theorem ident_learnCut (s : State) (m : Nat) : ident (learnCut s m) = ident s := by
  unfold learnCut
  split
  · simp
  · dsimp only
    split
    · simp
    · split <;> simp

@[simp] theorem ident_sendCut (s : State) (m : Nat) : ident (sendCut s m) = ident s := by simp [sendCut]

@[simp] theorem ident_declareFailed (s : State) (m : Nat) : ident (declareFailed s m) = ident s := by
  simp [declareFailed]

@[simp] theorem ident_fence (s : State) : ident (fence s) = ident s := by simp [fence]

@[simp] theorem same_execNeighbourSilence (role : Fin 7) (s : State) : Same s (execNeighbourSilence role s) := by
  unfold execNeighbourSilence
  split
  · split <;> simp
  · simp

@[simp] theorem same_execCutoutRepeat (s : State) : Same s (execCutoutRepeat s) := by simp [execCutoutRepeat]

@[simp] theorem ident_onArrive (s : State) (src l g : Nat) (gen : BitVec 16) (lmask ctl per : Word) :
    ident (onArrive s src l g gen lmask ctl per) = ident s := by
  unfold onArrive
  split <;> simp

@[simp] theorem ident_onRelease (s : State) (src g : Nat) (gen : BitVec 16) :
    ident (onRelease s src g gen) = ident s := by
  simp [onRelease]

@[simp] theorem ident_resend (s : State) (ty : Nat) (xs : List Unacked) : ident (resend s ty xs) = ident s := by
  simp [resend]

@[simp] theorem same_execClReleaseResend (s : State) : Same s (execClReleaseResend s) := by simp [execClReleaseResend]
@[simp] theorem same_execWdogResend (s : State) : Same s (execWdogResend s) := by simp [execWdogResend]

@[simp] theorem ident_onHold (s : State) (src : Nat) (held boarding : Bool) :
    ident (onHold s src held boarding) = ident s := by
  simp [onHold]

@[simp] theorem same_execHeartbeatTimer (s : State) : Same s (execHeartbeatTimer s) := by simp [execHeartbeatTimer]
@[simp] theorem same_execHoldNoticeTimer (s : State) : Same s (execHoldNoticeTimer s) := by simp [execHoldNoticeTimer]
@[simp] theorem same_execFaultRepeat (s : State) : Same s (execFaultRepeat s) := by simp [execFaultRepeat]

@[simp] theorem ident_onVturn (s : State) (src : Nat) (version : BitVec 16) (t0 : Dword) :
    ident (onVturn s src version t0) = ident s := by
  simp [onVturn]

@[simp] theorem ident_onVturnAck (s : State) (src : Nat) (t0 : Dword) : ident (onVturnAck s src t0) = ident s := by
  simp [onVturnAck]

@[simp] theorem same_execVturnAckTimeout (t0 : Dword) (s : State) : Same s (execVturnAckTimeout t0 s) := by
  simp [execVturnAckTimeout]

@[simp] theorem ident_onMctp (s : State) (src : Nat) (bs : List Byte) : ident (onMctp s src bs) = ident s := by
  unfold onMctp
  split
  · split
    · next h => exact ident_of_routeFrame h
    · simp
  · rfl

@[simp] theorem ident_onBus (s : State) (t : Transport) (bs : List Byte) : ident (onBus s t bs) = ident s := by
  unfold onBus
  split <;> simp

@[simp] theorem ident_onMessage (s : State) (port ty src : Nat) (args : List Int) (bs : List Byte) :
    ident (onMessage s port ty src args bs) = ident s := by
  unfold onMessage
  split <;> simp

/-! ### Ports -/

@[simp] theorem ident_countLost (s : State) (p : Nat) : ident (countLost s p) = ident s := by simp [countLost]
@[simp] theorem ident_refuseFrame (s : State) (t : Trans) : ident (refuseFrame s t) = ident s := by simp [refuseFrame]

@[simp] theorem ident_frameRequest (s : State) (p ft : Nat) (t : Trans) (rows : List (List Byte)) :
    ident (frameRequest s p ft t rows) = ident s := by
  unfold frameRequest
  split <;> simp

@[simp] theorem ident_takeResp (s : State) (t : Trans) (rows : List (List Byte)) :
    ident (takeResp s t rows) = ident s := by
  unfold takeResp
  split <;> simp

@[simp] theorem ident_passOn (s : State) (tc ft : Nat) (t : Trans) (rows : List (List Byte)) :
    ident (passOn s tc ft t rows) = ident s := by
  unfold passOn
  dsimp only
  split
  · simp
  · split
    · next h => exact ident_of_routeFrame h
    · simp

@[simp] theorem ident_onAccess (s : State) (p tc ft : Nat) (t : Trans) (rows : List (List Byte)) :
    ident (onAccess s p tc ft t rows) = ident s := by
  simp [onAccess]

@[simp] theorem ident_onLost (s : State) (p tc ft : Nat) (t : Trans) : ident (onLost s p tc ft t) = ident s := by
  simp [onLost]

@[simp] theorem ident_onMsg (s : State) (p tc ty src dst : Nat) (args : List Int) (payload : List Byte) :
    ident (onMsg s p tc ty src dst args payload) = ident s := by
  unfold onMsg
  split
  · simp
  · split
    · simp
    · split
      · next h => exact ident_of_routeMsg h
      · simp

@[simp] theorem ident_handOn (s : State) (it : RxItem) : ident (handOn s it) = ident s := by
  unfold handOn
  split
  · simp
  · split <;> simp

@[simp] theorem ident_oweCredits (s : State) (it : RxItem) : ident (oweCredits s it) = ident s := by
  unfold oweCredits
  split <;> simp

@[simp] theorem ident_deliverOne (s : State) (it : RxItem) : ident (deliverOne s it) = ident s := by simp [deliverOne]

@[simp] theorem ident_drainRx (n : Nat) (s : State) (k : Nat) : ident (drainRx n s k) = ident s := by
  induction n generalizing s with
  | zero => rfl
  | succ n ih =>
    unfold drainRx
    split
    · rw [ih]; simp
    · rfl

@[simp] theorem ident_inSequence (s : State) (it : RxItem) : ident (inSequence s it) = ident s := by simp [inSequence]

@[simp] theorem ident_countFec (s : State) (p : Nat) (f : Frame) : ident (countFec s p f) = ident s := by
  simp [countFec]

@[simp] theorem ident_badFrame (s : State) (p : Nat) (k : LinkPart) (f : Frame) :
    ident (badFrame s p k f) = ident s := by
  simp [badFrame]

@[simp] theorem ident_receive (s : State) (p : Nat) (k : LinkPart) (f : Frame) : ident (receive s p k f) = ident s := by
  simp [receive]

@[simp] theorem ident_receiveCtl (s : State) (p : Nat) (k : LinkPart) (f : Frame) {act : State → State}
    (ha : ∀ t, ident (act t) = ident t) : ident (receiveCtl s p k f act) = ident s := by
  simp [receiveCtl, ha]

@[simp] theorem same_execIdle (port : Fin 16) (k : LinkPart) (s : State) : Same s (execIdle port k s) := by
  simp [execIdle]

@[simp] theorem same_execReservedFrame (port : Fin 16) (k : LinkPart) (ftype : BitVec 4) (s : State) :
    Same s (execReservedFrame port k ftype s) := by
  simp [execReservedFrame]

@[simp] theorem ident_loseOwn (s : State) (f : Frame) : ident (loseOwn s f) = ident s := by
  unfold loseOwn
  split
  · split
    · split <;> simp
    · simp
  · simp

@[simp] theorem ident_giveUp (s : State) (p : Nat) (e : Sent) (rest : List Sent) :
    ident (giveUp s p e rest) = ident s := by
  simp [giveUp]

@[simp] theorem ident_replayFrom (s : State) (p failed : Nat) : ident (replayFrom s p failed) = ident s := by
  unfold replayFrom
  dsimp only
  split <;> simp

@[simp] theorem same_execNack (port : Fin 16) (k : LinkPart) (failed : BitVec 16) (s : State) :
    Same s (execNack port k failed s) := by
  simp [execNack]

@[simp] theorem same_execLoss (port : Fin 16) (k : LinkPart) (ftype : BitVec 4) (t : Trans) (s : State) :
    Same s (execLoss port k ftype t s) := by
  simp [execLoss]

@[simp] theorem ident_emitFrame (s : State) (p : Nat) (e : Sent) : ident (emitFrame s p e) = ident s := by
  simp [emitFrame]

@[simp] theorem ident_sendNew (s : State) (p tc : Nat) : ident (sendNew s p tc) = ident s := by
  unfold sendNew
  split
  · split
    · dsimp only
      split <;> simp
    · dsimp only
      split <;> simp
  · split
    · dsimp only
      split <;> simp
    · dsimp only
      split <;> simp

theorem ident_of_roundRobin {s t : State} {p n : Nat} (h : roundRobin s p = some (n, t)) : ident t = ident s := by
  unfold roundRobin at h
  dsimp only at h
  split at h <;> cases h <;> simp

@[simp] theorem same_execFrameSend (port : Fin 16) (s : State) : Same s (execFrameSend port s) := by
  unfold execFrameSend
  dsimp only
  split
  · simp
  · split
    · simp
    · simp
    · split
      · simp
      · split
        · simp
        · split
          · simp
          · split
            · next h => simp [ident_of_roundRobin h]
            · simp

@[simp] theorem ident_recvMsg (s : State) (h : MsgHead) (ty : Nat) (args : List Int) (payload : List Byte) :
    ident (recvMsg s h ty args payload) = ident s := by
  simp [recvMsg]

@[simp] theorem same_execMctpPacket (h : MctpFrom) (bytes : List Byte) (s : State) :
    Same s (execMctpPacket h bytes s) := by
  unfold execMctpPacket
  split <;> simp

@[simp] theorem ident_portFalls (s : State) (p : Nat) : ident (portFalls s p) = ident s := by simp [portFalls]

@[simp] theorem same_execPortLinkDown (port : Fin 16) (s : State) : Same s (execPortLinkDown port s) := by
  simp [execPortLinkDown]

@[simp] theorem same_execLinkTrainingTimeout (port : Fin 16) (s : State) : Same s (execLinkTrainingTimeout port s) := by
  simp [execLinkTrainingTimeout]

@[simp] theorem same_execPortLinkUp (port : Fin 16) (peer : BitVec 11) (peerPort : BitVec 4) (s : State) :
    Same s (execPortLinkUp port peer peerPort s) := by
  simp [execPortLinkUp]

/-! ### Ethernet -/

@[simp] theorem ident_sendEth (s : State) (p : Nat) (k : EthOut) (data : List Byte) :
    ident (sendEth s p k data) = ident s := by
  simp [sendEth]

@[simp] theorem ident_setQp (s : State) (q : Qp) : ident (setQp s q) = ident s := by simp [setQp]
@[simp] theorem ident_staleKey (s : State) (p : Nat) : ident (staleKey s p) = ident s := by simp [staleKey]

@[simp] theorem ident_runRoce (s : State) (p : Nat) (op : RoceOp) : ident (runRoce s p op) = ident s := by
  unfold runRoce
  split
  · simp
  · split <;> simp
  · split <;> simp
  · simp
  · simp
  · simp

@[simp] theorem ident_roceRequest (s : State) (p : Nat) (q : Qp) (psn : Nat) (op : RoceOp) :
    ident (roceRequest s p q psn op) = ident s := by
  simp [roceRequest]

@[simp] theorem same_execRocePacket (port : Fin 16) (qp psn : Nat) (op : RoceOp) (macsecOk : Bool) (s : State) :
    Same s (execRocePacket port qp psn op macsecOk s) := by
  unfold execRocePacket
  split
  · dsimp only
    split
    · simp
    · split
      · simp
      · split <;> simp
  · dsimp only
    split
    · simp
    · split
      · simp
      · split <;> simp
  · dsimp only
    split
    · simp
    · split
      · simp
      · split <;> simp

@[simp] theorem same_execCongestionNotification (port : Fin 16) (f : Notification) (s : State) :
    Same s (execCongestionNotification port f s) := by
  unfold execCongestionNotification
  dsimp only
  split
  · simp
  · split <;> simp

@[simp] theorem same_execRateIncrease (port : Fin 16) (qp : Nat) (s : State) :
    Same s (execRateIncrease port qp s) := by
  unfold execRateIncrease
  split <;> simp

@[simp] theorem same_execLocalProtocolFrame (port : Fin 16) (kind : Fin 3) (body : List Byte)
    (secured macsecOk : Bool) (s : State) :
    Same s (execLocalProtocolFrame port kind body secured macsecOk s) := by
  simp [execLocalProtocolFrame]

@[simp] theorem same_execUnknownEthernetFrame (port : Fin 16) (s : State) :
    Same s (execUnknownEthernetFrame port s) := by
  simp [execUnknownEthernetFrame]

/-! ### HostIf -/

@[simp] theorem ident_boardAccess (s : State) (p fn off size : Nat) (wr : Bool) :
    ident (boardAccess s p fn off size wr) = ident s := by
  simp [boardAccess]

@[simp] theorem same_execBar0Access (port : Fin 2) (off : BarPlace) (size : Nat) (wr : Bool) (val : Dword) (s : State) :
    Same s (execBar0Access port off size wr val s) := by
  unfold execBar0Access
  split
  · split
    · simp
    · dsimp only
      split
      · simp
      · split
        · simp
        · split <;> simp
  · split
    · simp
    · dsimp only
      split
      · simp
      · split
        · simp
        · split <;> simp

@[simp] theorem ident_apFails (s : State) (n : Nat) (stale : Bool) : ident (apFails s n stale) = ident s := by
  simp [apFails]

@[simp] theorem ident_apWrite (s : State) (m : Master) (unit sp o : Nat) (bs : List Byte) :
    ident (apWrite s m unit sp o bs) = ident s := by
  simp [apWrite]

@[simp] theorem ident_apRead (s : State) (m : Master) (unit sp o len : Nat) :
    ident (apRead s m unit sp o len).2.2 = ident s := by
  unfold apRead
  split <;> simp

@[simp] theorem same_execApertureAccess (port : Fin 2) (ap : ApSel) (off len : Nat) (wr : Bool) (data : List Byte)
    (s : State) :
    Same s (execApertureAccess port ap off len wr data s) := by
  unfold execApertureAccess
  split
  · dsimp only
    split
    · simp
    · split
      · simp
      · split <;> simp
  · dsimp only
    split
    · simp
    · split
      · simp
      · split <;> simp

@[simp] theorem ident_sendMsix (s : State) (p fn : Nat) : ident (sendMsix s p fn) = ident s := by simp [sendMsix]

@[simp] theorem same_execMsixMessage (dest : Fin 66) (s : State) : Same s (execMsixMessage dest s) := by
  simp [execMsixMessage]

@[simp] theorem ident_flushMsix (s : State) (p fn : Nat) : ident (flushMsix s p fn) = ident s := by simp [flushMsix]
@[simp] theorem ident_resetFnQueue (s : State) (q : Nat) : ident (resetFnQueue s q) = ident s := by simp [resetFnQueue]

@[simp] theorem ident_dropCfg (s : State) (p : Nat) (keep : Nat → Bool) : ident (dropCfg s p keep) = ident s := by
  simp [dropCfg]

@[simp] theorem ident_resetPf (s : State) (p : Nat) : ident (resetPf s p) = ident s := by simp [resetPf]

@[simp] theorem same_execFunctionLevelReset (port : Fin 2) (fn : Fin 33) (s : State) :
    Same s (execFunctionLevelReset port fn s) := by
  simp [execFunctionLevelReset]

@[simp] theorem ident_resetPort (s : State) (p : Nat) : ident (resetPort s p) = ident s := by simp [resetPort]
@[simp] theorem same_execPerst (pulse : PerstPulse) (s : State) : Same s (execPerst pulse s) := by simp [execPerst]

@[simp] theorem same_execPerstRelease (port : Fin 2) (s : State) : Same s (execPerstRelease port s) := by
  simp [execPerstRelease]

@[simp] theorem same_execHotReset (port : Fin 2) (s : State) : Same s (execHotReset port s) := by simp [execHotReset]

@[simp] theorem same_execPcieLinkUp (port : Fin 2) (s : State) : Same s (execPcieLinkUp port s) := by
  simp [execPcieLinkUp]

@[simp] theorem ident_vfsGone (before s : State) (p : Nat) : ident (vfsGone before s p) = ident s := by
  simp [vfsGone]

@[simp] theorem ident_cfgWrite (s : State) (p fn reg : Nat) (v : Word) :
    ident (cfgWrite s p fn reg v) = ident s := by
  unfold cfgWrite
  split <;> simp

@[simp] theorem same_execConfigurationRequest (port : Fin 2) (fn : Fin 33) (reg : Nat) (wr : Bool) (v : Word)
    (s : State) :
    Same s (execConfigurationRequest port fn reg wr v s) := by
  simp [execConfigurationRequest]

/-! ### Tap -/

@[simp] theorem ident_setTap (s : State) (t : Tap) : ident (setTap s t) = ident s := by simp [setTap]
@[simp] theorem ident_selectBypass (s : State) : ident (selectBypass s) = ident s := by simp [selectBypass]

@[simp] theorem ident_tapInstr (s : State) {f : State → State} (hf : ∀ t, ident (f t) = ident t) :
    ident (tapInstr s f) = ident s := by
  simp [tapInstr, hf]

@[simp] theorem same_execBypass (s : State) : Same s (execBypass s) := by simp [execBypass]
@[simp] theorem same_execIdcode (s : State) : Same s (execIdcode s) := by simp [execIdcode]

@[simp] theorem ident_scan (s : State) (ir : BitVec 5) (drive : Bool) (pins : List Bool) :
    ident (scan s ir drive pins) = ident s := by
  simp [scan]

@[simp] theorem same_execSamplePreload (pins : List Bool) (s : State) : Same s (execSamplePreload pins s) := by
  simp [execSamplePreload]

@[simp] theorem same_execExtest (pins : List Bool) (s : State) : Same s (execExtest pins s) := by simp [execExtest]
@[simp] theorem same_execCoreDebug (s : State) : Same s (execCoreDebug s) := by simp [execCoreDebug]
@[simp] theorem same_execTrst (low : Bool) (s : State) : Same s (execTrst low s) := by simp [execTrst]

/-! ## What READY and LC_REQUEST change -/

open Sys2Proof.Claims

theorem fuses_eq_of_ident {s t : State} (h : ident t = ident s) : t.fuses = s.fuses := by
  rw [ident_def, ident_def] at h
  exact congrArg Prod.fst h

theorem pending_eq_of_ident {s t : State} (h : ident t = ident s) : t.pending = s.pending := by
  rw [ident_def, ident_def] at h
  exact congrArg Prod.snd h

/-- What one command may do from `s` to `t`: the identity is kept and the queue is left alone. -/
def Kept (s t : State) : Prop := identityKept s t ∧ t.pending = s.pending

theorem kept_of_ident {s t : State} (h : ident t = ident s) : Kept s t :=
  ⟨by simp [identityKept, fuses_eq_of_ident h], pending_eq_of_ident h⟩

/-- `Kept` sees a state's fuses and queue alone. -/
theorem Kept.congr {s s' t t' : State} (h : Kept s t) (hs : ident s' = ident s) (ht : ident t' = ident t) :
    Kept s' t' := by
  unfold Kept identityKept at h ⊢
  rwa [fuses_eq_of_ident hs, fuses_eq_of_ident ht, pending_eq_of_ident hs, pending_eq_of_ident ht]

/-- A security-version counter that rises keeps what was kept (R472, R537). -/
theorem Kept.raise {s t : State} (c n : Nat) (h : Kept s t) :
    Kept s { t with fuses := { t.fuses with svn := tput 0 c (max (tget 0 t.fuses.svn c) n) t.fuses.svn } } := by
  obtain ⟨⟨hgrade, habsent, hinactive, hstep, hserial, hvcore, hretired, hblank, hsvn⟩, hq⟩ := h
  refine ⟨⟨hgrade, habsent, hinactive, hstep, hserial, hvcore, hretired, hblank, fun k => ?_⟩, hq⟩
  by_cases hk : k = c
  · subst hk
    simpa using (hsvn k).trans (le_max_left _ _)
  · simpa [tget_tput_ne 0 hk] using hsvn k

theorem kept_raiseSvn (s : State) : Kept s (raiseSvn s) :=
  foldl_keeps (fun t c h => h.raise c (tget 0 t.boot.ranSvn c)) (upto 3) (kept_of_ident rfl)

/-- READY raises the security versions and changes nothing else that is kept (R530). -/
theorem kept_execReady {s t : State} (h : execReady s = .next t) : Kept s t := by
  unfold execReady at h
  split at h
  · cases h
    exact kept_of_ident rfl
  · cases h
    refine (kept_raiseSvn _).congr ?_ (ident_lateLaunchers _)
    simp only [ident_noticeHold, ident_setPwr, ident_ite, ident_becomeMaster, ident_setFlag, ident_wrFld, ident_setStage,
      ite_self]

/-- The transitions of R488: none leaves RETIRED, none leads to BLANK. -/
theorem lcs_of_lcAllowed {s : State} {goal : BitVec 3} {token : BitVec 768} {b : Bool}
    (h : lcAllowed s goal token = some b) : s.fuses.lcs ≠ 4 ∧ goal ≠ 0 := by
  constructor <;> intro e <;> simp [lcAllowed, e] at h

theorem kept_lcMove {s : State} {goal : BitVec 3} (opKey : BitVec 768) (wrapKey : BitVec 256) (hs : s.fuses.lcs ≠ 4)
    (hg : goal ≠ 0) : Kept s (lcMove s goal opKey wrapKey) := by
  refine Kept.congr (s := s) (t := { s with fuses := { s.fuses with lcs := goal } }) ?_ rfl ?_
  · exact ⟨⟨rfl, rfl, rfl, rfl, rfl, rfl, fun h => absurd h hs, fun _ => hg, fun _ => le_rfl⟩, rfl⟩
  · simp [lcMove]

theorem kept_lcRequest (s : State) (c : Nat) (goal : BitVec 3) (token opKey : BitVec 768) (wrapKey : BitVec 256) :
    Kept s (lcRequest s c goal token opKey wrapKey) := by
  unfold lcRequest
  split
  · exact kept_of_ident (ident_mbxDone ..)
  · exact kept_of_ident (ident_mbxDone ..)
  · next h => exact kept_lcMove opKey wrapKey (lcs_of_lcAllowed h).1 (lcs_of_lcAllowed h).2

/-- LC_REQUEST moves the life-cycle state as R488 allows, and changes nothing else that is kept. -/
theorem kept_execLcRequest {ch : Fin 50} {target : BitVec 3} {token opKey : BitVec 768} {wrapKey : BitVec 256}
    {s t : State} (h : execLcRequest ch target token opKey wrapKey s = .next t) : Kept s t := by
  cases h
  obtain e | ⟨u, hu, e⟩ := request_cases s ch.val (some 0x40) _ hostChan false
    fun s => lcRequest s ch.val target token opKey wrapKey
  · exact kept_of_ident e
  · rw [e]
    exact (kept_lcRequest ..).congr hu.symm rfl

/-! ## Every command -/

/-- What a command does to the fuses and the queue: nothing, except for READY and LC_REQUEST. -/
theorem same_exec {c : Instr} (s : State) (hready : c ≠ .ready)
    (hlc : ∀ ch goal token opKey wrapKey, c ≠ .lcRequest ch goal token opKey wrapKey) : Same s (exec c s) := by
  cases c with
  | vopCopy | vopAdd | vopSub | vopMul | vopFma | vopAxs | vopAxsb | vopMax | vopMin | vopAbs | vopNeg | vopCmpgt |
    vopCmpge | vopCmpeq | vopSel | vopExp | vopExp2 | vopLog | vopLog2 | vopRcp | vopSqrt | vopRsqrt | vopTanh |
    vopSigmoid | vopSilu | vopGelu | vopSin | vopCos | vopDiv | vopNrsqrt | vopSwiglu | vopRsub | vopRmul |
    vopRdiv | vopRexpsub | vopRscale | pickge =>
    exact same_next.mpr (ident_issueVop ..)
  | add | sub | and | or | xor | shl | shr | sra | mul | mulh | mulhu | cmpeq | cmpne | cmplt | cmpltu | cmpge |
    cmpgeu =>
    exact same_next.mpr (ident_aluR ..)
  | addImmediate | andImmediate | orImmediate | xorImmediate | shlImmediate | shrImmediate | sraImmediate |
    mulImmediate | cmpeqImmediate | cmpneImmediate | cmpltImmediate | cmpltuImmediate | cmpgeImmediate |
    cmpgeuImmediate =>
    exact same_next.mpr (ident_aluI ..)
  | time | heartbeat | hold | clArrive | clRelease | clAck | vturn | vturnAck | fault | wdog | wdogAck | cutout |
    reservedMsgtype =>
    exact same_next.mpr (ident_recvMsg ..)
  | mma | mld | mdr | mz | vcvt | vtab | pack | unpk | rowfill | rowcopy | strm | rearm =>
    exact same_next.mpr (ident_issueQueued ..)
  | beq | bne | blt | bge | bltu | bgeu => exact same_next.mpr (ident_branch ..)
  | ferry | write | read | resp | signal | amo => exact same_next.mpr (ident_receive ..)
  | ldD | ldW | ldWu | ldHu | ldBu => exact same_next.mpr (ident_localLoad ..)
  | redSum | redMax | redMin | redMaxi | redMini => exact same_next.mpr (ident_issueRed ..)
  | stD | stW | stH | stB => exact same_next.mpr (ident_localStore ..)
  | sig | wait | cla | clw => exact same_next.mpr (ident_issueSync ..)
  | ldGD | ldGW => exact same_next.mpr (ident_globalLoad ..)
  | stGD | stGW => exact same_next.mpr (ident_globalStore ..)
  | amoaddD | amoaddW => exact same_next.mpr (ident_globalAmo ..)
  | ready => exact (hready rfl).elim
  | lcRequest => exact (hlc _ _ _ _ _ rfl).elim
  | _ => simp [exec]

theorem kept_exec {c : Instr} {s t : State} (h : exec c s = .next t) : Kept s t := by
  by_cases hready : c = .ready
  · subst hready
    exact kept_execReady h
  · by_cases hlc : ∃ ch goal token opKey wrapKey, c = .lcRequest ch goal token opKey wrapKey
    · obtain ⟨ch, goal, token, opKey, wrapKey, rfl⟩ := hlc
      exact kept_execLcRequest h
    · exact kept_of_ident (same_exec s hready (fun ch g t o w e => hlc ⟨ch, g, t, o, w, e⟩) t h)

/-- Settles O60: READY raises security versions, LC_REQUEST follows R488, and no other command changes the fuses or the
queue. -/
theorem identityKept : Obligations.IdentityKept := fun _ _ _ h => kept_exec h

end Sys2Proof.Laws
end

section
/-! Registers of module scope, BAR0, the result board and the apertures (R12, R31 to R34, R434, R436 to R439, R451, R453,
R465, R468, R564). -/

namespace Sys2Proof.Laws

open Sys2Proof Sys2Proof.Machine Sys2Proof.Claims

/-! ## Single bits of a word -/

theorem wfld_bit (w : Word) (i : Nat) : wfld w i i = (w.getLsbD i).toNat := by
  simp [wfld, bits, BitVec.getLsbD, Nat.testBit, Nat.and_comm 1, Nat.and_one_is_mod]
  rcases Nat.mod_two_eq_zero_or_one (w.toNat >>> i) with h | h <;> simp [h]

theorem getLsbD_wset (w : Word) (i j : Nat) : (wset w i).getLsbD j = (w.getLsbD j || decide (j < 32 ∧ i = j)) := by
  rw [wset, BitVec.getLsbD_or, BitVec.getLsbD_ofNat, Nat.testBit_two_pow, Bool.decide_and]

/-- A flag that is set reads 1. -/
theorem rdFld_setFlag_same (s : State) (o : Nat) {i : Nat} (hi : i < 32) : rdFld (setFlag s o i) o i i = 1 := by
  simp [rdFld, setFlag, wfld_bit, getLsbD_wset, hi]

/-- A flag that is set leaves the other bits of its register. -/
theorem rdFld_setFlag_ne (s : State) (o : Nat) {i j : Nat} (h : i ≠ j) :
    rdFld (setFlag s o i) o j j = rdFld s o j j := by
  simp [rdFld, setFlag, wfld_bit, getLsbD_wset, h]

theorem rd_setFlag_ne (s : State) {o x : Nat} (i : Nat) (h : x ≠ o) : rd (setFlag s o i) x = rd s x := rd_wr_ne s h _

/-- An odd word has bit 0 set. -/
theorem wfld_zero_odd (n : Nat) : wfld (.ofNat 32 (1 + n * 4)) 0 0 = 1 := by
  simp only [wfld, bits, BitVec.toNat_ofNat, Nat.shiftRight_zero]
  omega

/-! ## Bytes of a word -/

theorem leNat_leBytes (k n : Nat) : leNat (leBytes k n) = n % 256 ^ k := by
  induction k generalizing n with
  | zero => simp [leBytes, leNat, Nat.mod_one]
  | succ k ih =>
    rw [leBytes, leNat, ih, BitVec.toNat_ofNat, pow_succ' 256 k, Nat.mod_mul]

@[simp] theorem length_leBytes (k n : Nat) : (leBytes k n).length = k := by
  induction k generalizing n with
  | zero => rfl
  | succ k ih => simp [leBytes, ih]

@[simp] theorem length_fitTo {α : Type} (d : α) (n : Nat) (xs : List α) : (fitTo d n xs).length = n := by
  simp [fitTo]
  omega

/-! ## What an access leaves alone -/

/-- t differs from s in register words and in the marks of memory alone: poison and ECC errors. -/
def MarksOnly (s t : State) : Prop := t = { s with poison := t.poison, uerr := t.uerr, cerr := t.cerr, regs := t.regs }

section
variable {s t u : State}

theorem MarksOnly.refl (s : State) : MarksOnly s s := rfl

theorem MarksOnly.trans (h : MarksOnly s t) (g : MarksOnly t u) : MarksOnly s u := by
  unfold MarksOnly at *
  rw [h] at g
  exact g

theorem RegsOnly.marksOnly (h : RegsOnly s t) : MarksOnly s t := by
  unfold RegsOnly at h
  rw [h]
  rfl

theorem MarksOnly.mem_eq (h : MarksOnly s t) : t.mem = s.mem := by rw [h]
theorem MarksOnly.outs_eq (h : MarksOnly s t) : t.outs = s.outs := by rw [h]
theorem RegsOnly.outs_eq (h : RegsOnly s t) : t.outs = s.outs := by rw [h]

theorem marksOnly_foldl {α : Type} {f : State → α → State} (hf : ∀ s a, MarksOnly s (f s a)) (xs : List α) (s : State) :
    MarksOnly s (xs.foldl f s) :=
  foldl_keeps (P := MarksOnly s) (fun t a h => h.trans (hf t a)) xs (.refl s)

end

theorem marksOnly_setPoison (s : State) (k : Nat) (b : Bool) : MarksOnly s (setPoison s k b) := rfl
theorem marksOnly_freshCheck (s : State) (k : Nat) : MarksOnly s (freshCheck s k) := rfl
theorem marksOnly_freshRow (s : State) (k : Nat) : MarksOnly s (freshRow s k) := rfl
theorem marksOnly_wrPair (s : State) (o v : Nat) : MarksOnly s (wrPair s o v) := rfl

theorem marksOnly_countUp (s : State) (o hi lo n : Nat) (c : Option (Nat × Nat)) : MarksOnly s (countUp s o hi lo n c) :=
  (regsOnly_countUp ..).marksOnly

theorem marksOnly_readLine (s : State) (l o : Nat) : MarksOnly s (readLine s l o) := by
  unfold readLine
  dsimp only
  split
  · exact ((marksOnly_freshCheck ..).trans (marksOnly_setPoison ..)).trans
      ((marksOnly_countUp ..).trans (marksOnly_wrPair ..))
  · split
    · exact (marksOnly_freshCheck ..).trans (marksOnly_countUp ..)
    · exact .refl s

theorem marksOnly_readRowMarks (s : State) (l c r : Nat) : MarksOnly s (readRowMarks s l c r) := by
  unfold readRowMarks
  dsimp only
  have h := (marksOnly_freshRow s (rowKey l c r)).trans
    (marksOnly_countUp _ (coreBase l c + 0x1f0) 15 0 (inRow s.cerr (rowKey l c r)).length none)
  split
  · exact .refl s
  · split
    · exact h
    · exact h.trans ((marksOnly_setPoison ..).trans (marksOnly_countUp ..))

theorem marksOnly_readWord (s : State) (unit sp u : Nat) : MarksOnly s (readWord s unit sp u) := by
  unfold readWord
  split
  · split
    · exact (regsOnly_setFlag ..).marksOnly
    · exact .refl s
  · split
    · refine (marksOnly_freshCheck s u).trans ?_
      dsimp only
      split
      · exact marksOnly_countUp ..
      · exact marksOnly_countUp ..
      · exact .refl _
    · exact .refl s

/-- A read of memory changes marks, counts and causes alone. -/
theorem marksOnly_memRead (s : State) (unit sp off n : Nat) : MarksOnly s (memRead s unit sp off n) := by
  unfold memRead
  split
  · exact marksOnly_foldl (fun s o => marksOnly_readLine s unit o) _ s
  · exact marksOnly_readRowMarks ..
  · exact marksOnly_foldl (fun s u => marksOnly_readWord s unit sp u) _ s

theorem marksOnly_writeLine (s : State) (l off n : Nat) (psn : Bool) (o : Nat) :
    MarksOnly s (writeLine s l off n psn o) := by
  unfold writeLine
  dsimp only
  split
  · exact (marksOnly_freshCheck ..).trans (marksOnly_setPoison ..)
  · exact marksOnly_readLine ..

theorem marksOnly_writtenWord (s : State) (unit sp k n u : Nat) : MarksOnly s (writtenWord s unit sp k n false u) := by
  unfold writtenWord
  dsimp only
  rw [if_neg Bool.false_ne_true]
  split
  · exact marksOnly_freshCheck ..
  · exact marksOnly_readWord ..

/-- A write without poison to a memory other than the scratchpads writes its bytes, on a state that differs in marks
alone. -/
theorem memWrite_eq (s : State) (unit off : Nat) {sp : Nat} (hsp : sp ≠ 1) (bs : List Byte) :
    ∃ t, MarksOnly s t ∧ memWrite s unit sp off bs false = putBytes t (memKey unit sp off) bs := by
  unfold memWrite
  dsimp only
  split
  · exact ⟨_, marksOnly_foldl (fun s o => marksOnly_writeLine s unit off bs.length false o) _ s, rfl⟩
  · exact absurd rfl hsp
  · exact ⟨_, marksOnly_foldl (fun s u => marksOnly_writtenWord s unit sp _ bs.length u) _ s, rfl⟩

/-- Bytes read back after a write of as many. -/
theorem getBytes_putBytes (s : State) (k : Nat) (bs : List Byte) : getBytes (putBytes s k bs) k bs.length = bs := by
  refine List.ext_getElem (by simp [getBytes, tread, upto]) fun i h1 h2 => ?_
  have h : getByte (putBytes s k bs) (k + i) = bs.getD (k + i - k) 0 :=
    getByte_putBytes_in s k bs (by omega) (by omega)
  simp only [getBytes, tread, upto, List.getElem_map, List.getElem_range]
  rw [← getByte, h, Nat.add_sub_cancel_left, List.getD_eq_getElem _ _ h2]

/-! ## Writes of registers by their access codes (R12, R34, R465, R468) -/

/-- What a write looks up of a register of `codedRegs`: its place, its access codes, and that no order, pair, channel,
safety quantity or HM field lies there. -/
theorem codedRegs_facts : ∀ x ∈ codedRegs,
    (x.1 % 4 = 0 ∧ x.1 < 0x1000000 ∧ x.1 ≠ 0x68408) ∧
    (regDef x.1).map (fun d => (word d.rw, word d.w1c, d.hm)) = some (x.2.1, x.2.2, 0) ∧
    (chanOf x.1 = none ∧ tpostOf x.1 = none ∧ heldPair x.1 = false ∧ heldPair (x.1 - 4) = false) ∧
    safetyQty x.1 = none := by
  decide +kernel

/-- A register that exists, lies below the quays and whose domain is not OFF takes the write of any master. -/
theorem masterWrite_reached {s : State} {m : Master} {o : Nat} (v : Word) (h4 : o % 4 = 0) (hlt : o < 0x4000000)
    (hd : (regDef o).isSome = true) (hon : regOff s o = false) : masterWrite s m o v = regWrite s m o v := by
  have hn : (regDef o).isNone = false := by simpa using hd
  have hq : ¬ 0x4000000 ≤ o := by omega
  cases m <;> simp [masterWrite, h4, hn, hq, hon]

section
variable {o : Nat} {rw w1c : Word} (ho : (o, rw, w1c) ∈ codedRegs)
include ho

theorem regOff_coded (s : State) : regOff s o = false := by
  obtain ⟨⟨-, hlt, -⟩, -⟩ := codedRegs_facts _ ho
  simp only at hlt
  simp [regOff, regDomain, hlt]

theorem regDef_coded : ∃ d, regDef o = some d ∧ word d.rw = rw ∧ word d.w1c = w1c ∧ d.hm = 0 := by
  obtain ⟨-, hd, -⟩ := codedRegs_facts _ ho
  obtain ⟨d, hd, he⟩ := Option.map_eq_some_iff.mp hd
  simp only [Prod.mk.injEq] at he
  exact ⟨d, hd, he.1, he.2.1, he.2.2⟩

theorem answers_coded (s : State) {m : Master} (hm : moduleMaster m) : answers s m o = true := by
  obtain ⟨⟨-, hlt, -⟩, -⟩ := codedRegs_facts _ ho
  obtain ⟨d, hd, -⟩ := regDef_coded ho
  have hl : ¬ 0x1000000 ≤ o := Nat.not_le.mpr hlt
  rcases hm with rfl | rfl | ⟨p, rfl⟩ <;> simp [answers, hd, hl]

theorem writeWord_coded (s : State) (m : Master) (v : Word) : writeWord s m o v = plainWrite s m o v := by
  simp only [codedRegs, List.mem_cons, Prod.mk.injEq, List.not_mem_nil, or_false] at ho
  rcases ho with ⟨rfl, -⟩ | ⟨rfl, -⟩ | ⟨rfl, -⟩ | ⟨rfl, -⟩ | ⟨rfl, -⟩ | ⟨rfl, -⟩ <;>
    simp [writeWord, writeModule, chanOf]

theorem plainWrite_coded (s : State) (m : Master) (v : Word) :
    plainWrite s m o v = wr s o (coded (rd s o) rw w1c v) := by
  obtain ⟨d, hd, rfl, rfl, hhm⟩ := regDef_coded ho
  simp [plainWrite, hd, hhm, coded]

/-- A master of module scope writes a coded register: the RW bits take the value, W1C bits written 1 clear. -/
theorem masterWrite_coded (s : State) {m : Master} (hm : moduleMaster m) (v : Word) :
    masterWrite s m o v = wr s o (coded (rd s o) rw w1c v) := by
  obtain ⟨⟨h4, hlt, -⟩, -, ⟨hc, ht, hp, hp'⟩, -⟩ := codedRegs_facts _ ho
  obtain ⟨d, hd, -⟩ := regDef_coded ho
  simp only at h4 hlt hc ht hp hp'
  rw [masterWrite_reached v h4 (by omega) (by simp [hd]) (regOff_coded ho s)]
  simp [regWrite, foreignChan, hc, ht, hp, hp', answers_coded ho s hm, writeWord_coded ho, plainWrite_coded ho]

theorem writeReaches_coded (s : State) {m : Master} (hm : moduleMaster m) : writeReaches s m o = true := by
  obtain ⟨⟨h4, hlt, -⟩, -, ⟨hc, -⟩, -⟩ := codedRegs_facts _ ho
  simp only at h4 hlt hc
  have hq : ¬ 0x4000000 ≤ o := by omega
  have ha := answers_coded ho s hm
  rcases hm with rfl | rfl | ⟨p, rfl⟩ <;> simp [writeReaches, h4, hq, foreignChan, hc, regOff_coded ho s, ha]

theorem writePrevails_coded (m m' : Master) (v v' : Word) : writePrevails o m v m' v' = prevails m m' := by
  obtain ⟨-, -, -, hs⟩ := codedRegs_facts _ ho
  simp only at hs
  simp [writePrevails, hs]

theorem loseWrite_coded (s : State) (m : Master) : loseWrite s m o = noteOverruled s m o := by
  obtain ⟨d, hd, -, -, hhm⟩ := regDef_coded ho
  simp [loseWrite, hmReg, hd, hhm]

theorem rPfovr_ne_coded (p : Nat) : o ≠ rPfovr p := by
  obtain ⟨⟨-, hlt, hne⟩, -⟩ := codedRegs_facts _ ho
  simp only at hlt hne
  unfold rPfovr
  split <;> omega

end

/-- A physical function that loses finds bit 0 of its record set. -/
theorem rdFld_notePfovr (s : State) (p off : Nat) : rdFld (notePfovr s p off) (rPfovr p) 0 0 = 1 := by
  unfold notePfovr
  split
  · rw [rdFld_setFlag_ne _ _ (by decide)]
    assumption
  · simp [rdFld, wfld_zero_odd]

theorem rd_notePfovr_ne (s : State) (p off : Nat) {x : Nat} (h : x ≠ rPfovr p) : rd (notePfovr s p off) x = rd s x := by
  unfold notePfovr
  split
  · exact rd_setFlag_ne _ _ h
  · exact rd_wr_ne _ h _

/-- A master of module scope that loses learns of it (R468). -/
theorem lostNotice_noteOverruled (s : State) {m : Master} (hm : moduleMaster m) (o : Nat) :
    lostNotice (noteOverruled s m o) m := by
  rcases hm with rfl | rfl | ⟨p, rfl⟩
  · simp [lostNotice, noteOverruled, overruledCode, emit]
  · simp [lostNotice, noteOverruled, overruledCode, emit]
  · exact rdFld_notePfovr ..

theorem rd_noteOverruled_ne (s : State) {m : Master} (hm : moduleMaster m) (o : Nat) {x : Nat} (h : ∀ p, x ≠ rPfovr p) :
    rd (noteOverruled s m o) x = rd s x := by
  rcases hm with rfl | rfl | ⟨p, rfl⟩
  · rfl
  · rfl
  · exact rd_notePfovr_ne _ _ _ (h _)

theorem prevails_irrefl (m : Master) : prevails m m = false := by simp [prevails]

/-- Of two writes that meet at a coded register the one of the higher rank takes effect, and the other's master learns that
it lost (R34, R465). -/
theorem registerWrite_met {o : Nat} {rw w1c : Word} (ho : (o, rw, w1c) ∈ codedRegs) (s : State) {m m' : Master}
    (hm : moduleMaster m) (hm' : moduleMaster m') (hne : m ≠ m') (v v' : Word) :
    ∃ u, Runs (.registerWrite m o ⟨v, some (m', v')⟩) s u ∧
      rd u o = coded (rd s o) rw w1c (if prevails m m' then v else v') ∧
      lostNotice u (if prevails m m' then m' else m) := by
  have hr := writeReaches_coded ho s hm
  have hr' := writeReaches_coded ho s hm'
  refine ⟨_, rfl, ?_⟩
  simp only [meetWrites, hne, hr, hr', writePrevails_coded ho, loseWrite_coded ho, masterWrite_coded ho s hm,
    masterWrite_coded ho s hm']
  cases prevails m m'
  · refine ⟨?_, lostNotice_noteOverruled _ hm o⟩
    simp [rd_noteOverruled_ne _ hm o (rPfovr_ne_coded ho)]
  · refine ⟨?_, lostNotice_noteOverruled _ hm' o⟩
    simp [rd_noteOverruled_ne _ hm' o (rPfovr_ne_coded ho)]

/-! ## BAR0 (R31 to R33, R436, R564) -/

theorem memServed_iff (s : State) (p fn : Nat) :
    memServed s p fn = true ↔ (fn = 0 ∨ vfEnabled s p fn = true) ∧ inD3 s p fn = false := by
  simp [memServed]

theorem apRegs_exist : ∀ q < 64, ∀ off ∈ [0x100, 0x104], (regDef (0x68000 + 8 * q + (off - 0x100))).isSome = true := by
  decide +kernel

/-- What a function's BAR0 shows at an offset is a register below the quays, at the same place in its word. -/
theorem bar0Reg_spec {p fn off o : Nat} (hp : p < 2) (hf : fn < 33) (h : bar0Reg p fn off = some o) :
    o % 4 = off % 4 ∧ o < 0x4000000 ∧ (regDef o).isSome = true := by
  unfold bar0Reg at h
  split at h
  · split at h
    · next hlt => cases h; exact ⟨rfl, hlt⟩
    · cases h
  · have hq : fnQueue p fn < 64 := by unfold fnQueue; omega
    dsimp only at h
    split at h
    · next hoff =>
      obtain rfl := Option.some.inj h
      exact ⟨by omega, by omega, apRegs_exist _ hq off (by simpa using hoff)⟩
    · split at h
      · next hoff =>
        obtain rfl := Option.some.inj h
        exact ⟨by unfold rQs; omega, by unfold rQs; omega, hoff.2⟩
      · cases h

/-- An access of 4 B that is served is aligned, and its register's domain is not OFF. -/
theorem aligned_of_bar0Refusal {s : State} {p fn off o : Nat} (h : bar0Refusal s p fn off 4 = none)
    (ho : bar0Reg p fn off = some o) : off % 4 = 0 ∧ regOff s o = false := by
  have h' : (if off % 4 = 0 then if regOff s o = true then some 3 else none else some 1) = (none : Option Nat) := by
    simpa [bar0Refusal, upto, ho] using h
  split at h'
  · next h4 =>
    split at h'
    · cases h'
    · next hoff => exact ⟨h4, by simpa using hoff⟩
  · cases h'

/-- Sizes other than 4 and 8 are refused before all else, then an offset that is no multiple of the size. -/
theorem bar0Refusal_size (s : State) (p fn off size : Nat) :
    (bar0Refusal s p fn off size = some 0 ↔ size ≠ 4 ∧ size ≠ 8) ∧
      (bar0Refusal s p fn off size = some 1 ↔ (size = 4 ∨ size = 8) ∧ off % size ≠ 0) := by
  unfold bar0Refusal
  dsimp only
  by_cases h0 : size ≠ 4 ∧ size ≠ 8
  · rw [if_pos h0]
    simp only [true_iff, Option.some.injEq, zero_ne_one, false_iff]
    exact ⟨h0, by omega⟩
  · rw [if_neg h0]
    by_cases h1 : off % size ≠ 0
    · rw [if_pos h1]
      simp only [Option.some.injEq, one_ne_zero, true_iff, false_iff]
      exact ⟨h0, by omega, h1⟩
    · rw [if_neg h1]
      split
      · simp [h0, not_not.mp h1]
      · split <;> simp [h0, not_not.mp h1]

theorem word_leBytes (v : Dword) : word (leNat ((leBytes 4 v.toNat).take 4)) = v.setWidth 32 := by
  rw [List.take_of_length_le (by simp), leNat_leBytes]
  refine BitVec.eq_of_toNat_eq ?_
  simp [word]

/-- A write of 4 B is the register write of the function. -/
theorem writeRegs_four (s : State) (m : Master) (o : Nat) (v : Dword) :
    writeRegs s m o (leBytes 4 v.toNat) = regWrite s m o (v.setWidth 32) := by
  simp [writeRegs, word_leBytes]

theorem clearRead_mem (s : State) (o : Nat) : (clearRead s o).mem = s.mem := by
  unfold clearRead
  dsimp only
  split
  · rfl
  · split
    · rfl
    · split
      · rfl
      · split <;> rfl

theorem clearRead_outs (s : State) (o : Nat) : (clearRead s o).outs = s.outs := by
  unfold clearRead
  dsimp only
  split
  · rfl
  · split
    · rfl
    · split
      · rfl
      · split <;> rfl

/-- A read of a register that is no part of a pair answers what the register shows. -/
theorem readRegs_four {s : State} {m : Master} {o : Nat} (hlow : pairLow o = false) (hhigh : pairLow (o - 4) = false)
    (hc : foreignChan m o = false) (ha : answers s m o = true) :
    readRegs s m o 4 = (leBytes 4 (regView s m o).toNat, clearRead s o) := by
  simp [readRegs, regRead, hlow, hhigh, hc, ha]

/-- What INT.BARERR holds after a refusal: a record, or MORE beside the one that stands; nothing else changes (R564). -/
theorem barErr_spec (s : State) (p why : Nat) (wr : Bool) (off : Nat) :
    RegsOnly s (barErr s p why wr off) ∧ (∀ x, x ≠ 0x10020 → rd (barErr s p why wr off) x = rd s x) ∧
      (rdFld s 0x10020 0 0 = 0 → rd (barErr s p why wr off) 0x10020 =
        .ofNat 32 (1 + 4 * why + 16 * p + (if wr then 32 else 0) + 64 * (off / 4 % 2 ^ 24))) ∧
      (rdFld s 0x10020 0 0 = 1 → rdFld (barErr s p why wr off) 0x10020 1 1 = 1) := by
  unfold barErr
  dsimp only
  split
  · next h =>
    refine ⟨regsOnly_setFlag .., fun x hx => rd_setFlag_ne _ _ hx, fun h0 => ?_, fun _ => ?_⟩
    · omega
    · exact rdFld_setFlag_same _ _ (by decide)
  · next h =>
    refine ⟨regsOnly_wr .., fun x hx => rd_wr_ne _ hx _, fun _ => ?_, fun h1 => absurd h1 h⟩
    rw [rd_wr, word, bits, Nat.shiftRight_eq_div_pow]
    congr 1
    cases wr <;> simp [b2n] <;> omega

section
variable {s : State} {p : Fin 2} (hup : pcieUp s p.val = true)
include hup

/-- A function that serves no accesses ignores writes and answers reads with unsupported request. -/
theorem bar0_unserved {fn : Fin 33} (hs : memServed s p.val fn.val = false) (off : Nat) (board : Bool) (size : Nat)
    (v : Dword) : Runs (.bar0Access p ⟨fn, board, off⟩ size true v) s s ∧
      Runs (.bar0Access p ⟨fn, board, off⟩ size false v) s (emit s (.completion p.val 1 [] false)) := by
  simp [Runs, exec, execBar0Access, hup, hs]

variable {fn : Fin 33} (hs : memServed s p.val fn.val = true)
include hs

theorem bar0_write {off o : Nat} (hr : bar0Refusal s p.val fn.val off 4 = none)
    (ho : bar0Reg p.val fn.val off = some o) (v : Dword) :
    ∃ u, Runs (.bar0Access p ⟨fn, false, off⟩ 4 true v) s u ∧
      Runs (.registerWrite (fnMaster p fn) o ⟨v.setWidth 32, none⟩) s u := by
  obtain ⟨hmod, hlt, hd⟩ := bar0Reg_spec p.isLt fn.isLt ho
  obtain ⟨h4, hon⟩ := aligned_of_bar0Refusal hr ho
  refine ⟨regWrite s (fnMaster p fn) o (v.setWidth 32), ?_, ?_⟩
  · simp [Runs, exec, execBar0Access, hup, hs, hr, ho, writeRegs_four]
  · simp only [Runs, exec, execRegisterWrite]
    rw [masterWrite_reached _ (hmod.trans h4) hlt hd hon]

theorem bar0_read {off o : Nat} (hr : bar0Refusal s p.val fn.val off 4 = none)
    (ho : bar0Reg p.val fn.val off = some o) (v : Dword) (hlow : pairLow o = false) (hhigh : pairLow (o - 4) = false)
    (hc : foreignChan (fnMaster p fn) o = false) (ha : answers s (fnMaster p fn) o = true) :
    ∃ u, Runs (.bar0Access p ⟨fn, false, off⟩ 4 false v) s u ∧ u.mem = s.mem ∧
      u.outs = s.outs ++ [.completion p.val 0 (leBytes 4 (regView s (fnMaster p fn) o).toNat) false] := by
  refine ⟨emit (clearRead s o) (.completion p.val 0 (leBytes 4 (regView s (fnMaster p fn) o).toNat) false), ?_, ?_, ?_⟩
  · simp [Runs, exec, execBar0Access, hup, hs, hr, ho, readRegs_four hlow hhigh hc ha]
  · exact clearRead_mem s o
  · simp [emit, clearRead_outs]

theorem bar0_refused {off size why : Nat} (hr : bar0Refusal s p.val fn.val off size = some why) (wr : Bool) (v : Dword) :
    ∃ u, Runs (.bar0Access p ⟨fn, false, off⟩ size wr v) s u ∧ u.mem = s.mem ∧ (∀ x, x ≠ 0x10020 → rd u x = rd s x) ∧
      (wr = false → u.outs = s.outs ++ [.completion p.val 0 (List.replicate size 0) false]) ∧
      (rdFld s 0x10020 0 0 = 0 → rd u 0x10020 =
        .ofNat 32 (1 + 4 * why + 16 * p.val + (if wr then 32 else 0) + 64 * (off / 4 % 2 ^ 24))) ∧
      (rdFld s 0x10020 0 0 = 1 → rdFld u 0x10020 1 1 = 1) := by
  obtain ⟨hk, hother, hfirst, hmore⟩ := barErr_spec s p.val why wr off
  cases wr
  · refine ⟨emit (barErr s p.val why false off) (.completion p.val 0 (List.replicate size 0) false), ?_, hk.mem_eq, hother,
      fun _ => ?_, hfirst, hmore⟩
    · simp [Runs, exec, execBar0Access, hup, hs, hr]
    · simp [emit, hk.outs_eq]
  · refine ⟨barErr s p.val why true off, ?_, hk.mem_eq, hother, nofun, hfirst, hmore⟩
    simp [Runs, exec, execBar0Access, hup, hs, hr]

end

/-! ## The result board (R451, R453) -/

theorem map_range_getD {α : Type} (d : α) (xs : List α) (n : Nat) :
    (List.range n).map (fun i => xs.getD i d) = fitTo d n xs := by
  refine List.ext_getElem (by simp) fun i h1 h2 => ?_
  simp only [List.getElem_map, List.getElem_range, fitTo, List.getElem_append, List.length_take]
  rw [List.length_map, List.length_range] at h1
  by_cases hi : i < xs.length
  · rw [List.getD_eq_getElem _ _ hi, dif_pos (by omega), List.getElem_take]
  · rw [List.getD_eq_default _ _ (by omega), dif_neg (by omega), List.getElem_replicate]

/-- A whole slot as BAR2 shows it. -/
theorem boardBytes_slot (s : State) {p fn off q k : Nat} (hk : k < 1024)
    (h : 64 * (if fn = 0 then 0 else 1024 * fnQueue p fn) + off = 64 * (1024 * q + k)) :
    boardBytes s p fn off 64 = fitTo 0 64 (boardSlot s q k) := by
  rw [← map_range_getD]
  unfold boardBytes upto
  refine List.map_congr_left fun i hi => ?_
  have hi : i < 64 := List.mem_range.mp hi
  have hb : (if fn = 0 then 0 else 1024 * fnQueue p fn) % 1024 = 0 := by split <;> omega
  generalize (if fn = 0 then 0 else 1024 * fnQueue p fn) = base at h hb ⊢
  have hrow : (base + (off + i) / 64) / 1024 = q := by omega
  have hslot : (off + i) / 64 % 1024 = k := by omega
  have hbyte : (off + i) % 64 = i := by omega
  rw [hrow, hslot, hbyte]

theorem boardSlot_eq (s : State) (q k : Nat) :
    boardSlot s q k =
      if tget [] (getQs s q).board k = [] ∨ qsRmode s q = true then pendingSlot else tget [] (getQs s q).board k := by
  unfold boardSlot
  split
  · next h => rw [if_pos (.inl h)]
  · next h => simp only [or_iff_right h]

/-- Slot k of queue set q lies at an offset of a function's board. -/
def boardAt (p fn q k off : Nat) : Prop :=
  fn = 0 ∧ q < 64 ∧ off = 65536 * q + 64 * k ∨ fn ≠ 0 ∧ q = 32 * p + fn - 1 ∧ off = 64 * k

section
variable {s : State} {p : Fin 2} (hup : pcieUp s p.val = true) {fn : Fin 33} (hs : memServed s p.val fn.val = true)
include hup hs

theorem board_write (off size : Nat) (v : Dword) : Runs (.bar0Access p ⟨fn, true, off⟩ size true v) s s := by
  simp [Runs, exec, execBar0Access, hup, hs, boardAccess]

/-- A read of a slot answers its record, or PENDING where it holds none or the queue set is in result-queue mode. -/
theorem board_read {q k off : Nat} (hk : k < 1024) (h : boardAt p.val fn.val q k off) (v : Dword) :
    Runs (.bar0Access p ⟨fn, true, off⟩ 64 false v) s (emit s (.completion p.val 0
      (if tget [] (getQs s q).board k = [] ∨ qsRmode s q = true then 1 :: List.replicate 63 0
        else fitTo 0 64 (tget [] (getQs s q).board k)) false)) := by
  have hplace : 64 * (if fn.val = 0 then 0 else 1024 * fnQueue p.val fn.val) + off = 64 * (1024 * q + k) := by
    rcases h with ⟨h0, -, rfl⟩ | ⟨h0, rfl, rfl⟩
    · rw [if_pos h0]; omega
    · rw [if_neg h0, fnQueue]; omega
  have hin : ¬ boardSize fn.val < off + 64 := by
    unfold boardSize
    rcases h with ⟨h0, hq, rfl⟩ | ⟨h0, -, rfl⟩
    · rw [if_pos h0]; omega
    · rw [if_neg h0]; omega
  have hbytes : boardBytes s p.val fn.val off 64 =
      if tget [] (getQs s q).board k = [] ∨ qsRmode s q = true then 1 :: List.replicate 63 0
        else fitTo 0 64 (tget [] (getQs s q).board k) := by
    rw [boardBytes_slot s hk hplace, boardSlot_eq, apply_ite (fitTo 0 64)]
    rfl
  simp only [Runs, exec, execBar0Access, hup, hs, boardAccess, hin, hbytes]
  rfl

end

/-! ## Apertures (R438, R439) -/

theorem regsOnly_countRefusal (s : State) (u : Nat) (stale : Bool) (a : WSrc) :
    RegsOnly s (countRefusal s u stale a) := by
  unfold countRefusal
  split
  · rfl
  · exact (regsOnly_countUp ..).trans (regsOnly_wr ..)

theorem regsOnly_apFails (s : State) (n : Nat) (stale : Bool) : RegsOnly s (apFails s n stale) := by
  unfold apFails
  dsimp only
  refine RegsOnly.trans (t := if wfld (apLow s n) 6 6 = 0 ∧ !absentLand s (apUnit s n) then
    countRefusal s (apUnit s n) stale (.host s.modnum.toNat) else s) ?_ (regsOnly_setFlag ..)
  split
  · exact regsOnly_countRefusal ..
  · exact .refl s

/-- A failed access sets SVC.HOSTERR.APERR. -/
theorem apFails_aperr (s : State) (n : Nat) (stale : Bool) : rdFld (apFails s n stale) 0x6840c 0 0 = 1 :=
  rdFld_setFlag_same _ _ (by decide)

section
variable {s : State} {p : Fin 2} (hup : pcieUp s p.val = true) {a : ApSel}
include hup

theorem aperture_unserved (hs : memServed s p.val (apFn a).val = false) (off len : Nat) (data : List Byte) :
    Runs (.apertureAccess p a off len true data) s s ∧
      Runs (.apertureAccess p a off len false data) s (emit s (.completion p.val 1 [] false)) := by
  simp [Runs, exec, execApertureAccess, hup, hs]

variable (hs : memServed s p.val (apFn a).val = true)
include hs

theorem aperture_read {off len v : Nat} (hgo : apCheck s (apNum p.val a) off len false = .go v)
    (h3 : apSpace s (apNum p.val a) ≠ 3) (h5 : apSpace s (apNum p.val a) ≠ 5) (data : List Byte) :
    let d := memData s (apUnit s (apNum p.val a)) (apSpace s (apNum p.val a)) (apBase s (apNum p.val a) + off) len
    ∃ u, Runs (.apertureAccess p a off len false data) s u ∧ u.mem = s.mem ∧
      u.outs = s.outs ++ [.completion p.val 0 d.1 d.2] := by
  intro d
  have h := marksOnly_memRead s (apUnit s (apNum p.val a)) (apSpace s (apNum p.val a)) (apBase s (apNum p.val a) + off) len
  refine ⟨emit (memRead s (apUnit s (apNum p.val a)) (apSpace s (apNum p.val a)) (apBase s (apNum p.val a) + off) len)
    (.completion p.val 0 d.1 d.2), ?_, h.mem_eq, ?_⟩
  · simp [Runs, exec, execApertureAccess, hup, hs, hgo, apRead, h3, h5, d]
  · simp [emit, h.outs_eq]

theorem aperture_write {off len v : Nat} (hgo : apCheck s (apNum p.val a) off len true = .go v)
    (h1 : apSpace s (apNum p.val a) ≠ 1) (h3 : apSpace s (apNum p.val a) ≠ 3) (h5 : apSpace s (apNum p.val a) ≠ 5)
    (hb : partBad s (apUnit s (apNum p.val a)) (apSpace s (apNum p.val a)) (apBase s (apNum p.val a) + off) len = false)
    (data : List Byte) :
    let k := memKey (apUnit s (apNum p.val a)) (apSpace s (apNum p.val a)) (apBase s (apNum p.val a) + off)
    ∃ u, Runs (.apertureAccess p a off len true data) s u ∧ getBytes u k len = fitTo 0 len data ∧
      ∀ x, (x < k ∨ k + len ≤ x) → getByte u x = getByte s x := by
  intro k
  obtain ⟨t, ht, e⟩ := memWrite_eq s (apUnit s (apNum p.val a)) (apBase s (apNum p.val a) + off) h1 (fitTo 0 len data)
  refine ⟨putBytes t k (fitTo 0 len data), ?_, ?_, fun x hx => ?_⟩
  · simp only [Runs, exec, execApertureAccess, hup, hs, hgo, apWrite, h1, h3, h5, hb, length_fitTo, e, Bool.not_true,
      Bool.false_eq_true, if_false, if_true, or_self, k]
  · have h := getBytes_putBytes t k (fitTo 0 len data)
    rwa [length_fitTo] at h
  · rw [getByte_putBytes_out _ _ _ (by rwa [length_fitTo]), getByte, ht.mem_eq, getByte]

theorem aperture_failed {off len : Nat} {wr stale : Bool} (hf : apCheck s (apNum p.val a) off len wr = .fail stale)
    (data : List Byte) :
    ∃ u, Runs (.apertureAccess p a off len wr data) s u ∧ u.mem = s.mem ∧ rdFld u 0x6840c 0 0 = 1 ∧
      (wr = false → u.outs = s.outs ++ [.completion p.val 4 [] false]) := by
  have h := regsOnly_apFails s (apNum p.val a) stale
  have he := apFails_aperr s (apNum p.val a) stale
  cases wr
  · refine ⟨emit (apFails s (apNum p.val a) stale) (.completion p.val 4 [] false), ?_, h.mem_eq, he, fun _ => ?_⟩
    · simp [Runs, exec, execApertureAccess, hup, hs, hf]
    · simp [emit, h.outs_eq]
  · refine ⟨apFails s (apNum p.val a) stale, ?_, h.mem_eq, he, nofun⟩
    simp [Runs, exec, execApertureAccess, hup, hs, hf]

end

/-! ## Host access to registers -/

/-- The ranks of the masters of module scope (R34). -/
theorem prevails_order (p q : Fin 2) (h : p.val < q.val) :
    prevails .hm .bmc = true ∧ prevails .bmc (.pf p) = true ∧ prevails (.pf p) (.pf q) = true ∧
      prevails (.pf q) (.pf p) = false := by
  simp [prevails, masterRank, masterTie]
  omega

/-- Settles O39: register writes by their access codes and by rank, BAR0, the result board and the apertures, a lemma for
each clause. -/
theorem hostRegisters : Obligations.HostRegisters := by
  refine ⟨fun o rw w1c m v s ho hm => ⟨?_, fun m' v' hm' => ⟨fun hp => ?_, fun hp hne => ?_⟩⟩, prevails_order,
    fun p fn off s hup => ?_, fun p a off len data s hup => ?_⟩
  · refine ⟨wr s o (coded (rd s o) rw w1c v), ?_, rd_wr .., fun x hx => rd_wr_ne s hx _⟩
    simp only [Runs, exec, execRegisterWrite]
    rw [masterWrite_coded ho s hm]
  · have hne : m ≠ m' := by rintro rfl; simp [prevails_irrefl] at hp
    simpa [hp] using registerWrite_met ho s hm hm' hne v v'
  · simpa [hp] using registerWrite_met ho s hm hm' hne v v'
  · intro m open'
    have hopen : memServed s p.val fn.val = true ↔ open' := by
      rw [memServed_iff, Fin.val_eq_zero_iff]
    refine ⟨fun hn board size v => ?_, fun ho o hr hreg => ⟨bar0_write hup (hopen.mpr ho) hr hreg,
      bar0_read hup (hopen.mpr ho) hr hreg⟩, fun ho size wr v why hr => bar0_refused hup (hopen.mpr ho) hr wr v,
      bar0Refusal_size s p.val fn.val off, fun ho q k size v hk hb => ?_⟩
    · obtain ⟨hwrite, hread⟩ := bar0_unserved hup (Bool.eq_false_iff.mpr (mt hopen.mp hn)) off board size v
      exact ⟨hwrite, _, hread, rfl⟩
    · have hb : boardAt p.val fn.val q k off := by
        rwa [boardAt, Ne, Fin.val_eq_zero_iff]
      exact ⟨board_write hup (hopen.mpr ho) off size v, _, board_read hup (hopen.mpr ho) hk hb v, rfl, rfl⟩
  · intro n fn open' unit sp o k
    have hn : apNum p.val a = n := by cases a <;> rfl
    have hf : (apFn a).val = fn := by
      cases a with
      | pf => rfl
      | vf i => exact Nat.mod_eq_of_lt (by omega)
    have hopen : memServed s p.val (apFn a).val = true ↔ open' := by
      rw [hf]
      exact memServed_iff ..
    clear_value n
    subst hn
    refine ⟨fun hn => ?_, fun ho v hgo h3 h5 => aperture_read hup (hopen.mpr ho) hgo h3 h5 data,
      fun ho v hgo h1 h3 h5 hb => aperture_write hup (hopen.mpr ho) hgo h1 h3 h5 hb data,
      fun ho wr stale hfail => aperture_failed hup (hopen.mpr ho) hfail data⟩
    obtain ⟨hwrite, hread⟩ := aperture_unserved hup (Bool.eq_false_iff.mpr (mt hopen.mp hn)) off len data
    exact ⟨hwrite, _, hread, rfl⟩

end Sys2Proof.Laws
end

section
/-! An access of a core's thread at a target of its module: which it waits for, the checks in order, and what a read, a write
and an AMOADD do (R25, R27, R152, R156, R158, R371, R379). -/

namespace Sys2Proof.Laws

open Sys2Proof Sys2Proof.Machine Sys2Proof.Claims

/-! ## Results -/

theorem MarksOnly.accs_eq {s t : State} (h : MarksOnly s t) : t.accs = s.accs := by rw [h]

theorem findAccess_congr {s t : State} (h : t.accs = s.accs) (id : Nat) : findAccess t id = findAccess s id := by
  unfold findAccess
  rw [h]

theorem id_of_findAccess {s : State} {id : Nat} {a : Access} (h : findAccess s id = some a) : a.id = id := by
  simpa using List.find?_some h

/-- A change of accesses that keeps their numbers changes the access found. -/
theorem find?_map_id {xs : List Access} {id : Nat} {a : Access} {f : Access → Access} (hf : ∀ x, (f x).id = x.id)
    (h : (xs.find? fun x => x.id == id) = some a) : ((xs.map f).find? fun x => x.id == id) = some (f a) := by
  rw [List.find?_map]
  simp [hf, h]

theorem findAccess_noteVia {s : State} {id : Nat} {a : Access} (h : findAccess s id = some a) (n : Nat) (via : Option Nat) :
    ∃ b, findAccess (noteVia s n via) id = some b :=
  ⟨_, find?_map_id (fun x => by split <;> rfl) h⟩

/-- An access that is there has the result that answers it. -/
theorem endsAs_answer {s : State} {id : Nat} {b : Access} (h : findAccess s id = some b) (r : AResult) :
    endsAs (answer s id r) id r := by
  refine ⟨_, find?_map_id (f := fun x => if x.id = id then { x with res := some r } else x) (fun x => by split <;> rfl) h, ?_⟩
  rw [if_pos (id_of_findAccess h)]

section
variable {s : State} {a : Access} {l : Fin 32} {c : Fin 256} {t : Fin 16} (hsrc : a.src = .thread (.core l c t))
include hsrc

theorem finishAccess_thread (s : State) (st : AStatus) (data : List Byte) (psn : List Nat) :
    finishAccess s a st data psn = answer s a.id ⟨st, data, !psn.isEmpty⟩ := by
  simp [finishAccess, hsrc]

theorem finishWrite_thread (hinc : a.inc = none) (s : State) (unit : Nat) (w : WSrc) :
    finishWrite s a unit w = answer s a.id ⟨.ok, [], false⟩ := by
  simp [finishWrite, applyInc, hinc, ackStatus, hsrc, finishAccess]

/-- What an access of the thread is at its target: its requester, its source and its master. -/
theorem requester_thread (s : State) :
    ownSrc s a.src = (l.val, c.val, s) ∧ winSrc s a.src l.val c.val = .land s.modnum.toNat l.val c.val ∧
      accMaster a.src l.val c.val = .core l c := by
  refine ⟨by rw [hsrc]; rfl, by simp [winSrc, hsrc], by simp [accMaster, hsrc]⟩

variable {unit sp off : Nat} (hat : gaUnit a.addr = unit ∧ gaSpace a.addr = sp ∧ gaOff a.addr = off)
include hat

theorem atTarget_address (hbad : accAddrBad s a unit sp off = true) :
    atTarget s a = answer s a.id ⟨.address, [], false⟩ := by
  obtain ⟨rfl, rfl, rfl⟩ := hat
  obtain ⟨ho, -, -⟩ := requester_thread hsrc s
  simp [atTarget, ho, hbad, finishAccess_thread hsrc]

variable (hbad : accAddrBad s a unit sp off = false)
include hbad

theorem atTarget_amoSpace (hamo : (isAmo a.kind && !(sp == 0 || sp == 2 || sp == 4 || sp == 6)) = true) :
    atTarget s a = answer s a.id ⟨.amoSpace, [], false⟩ := by
  obtain ⟨rfl, rfl, rfl⟩ := hat
  obtain ⟨ho, -, -⟩ := requester_thread hsrc s
  rw [Bool.and_eq_true] at hamo
  simp only [atTarget, ho, hbad, finishAccess_thread hsrc, if_pos hamo]
  rfl

variable (hamo : (isAmo a.kind && !(sp == 0 || sp == 2 || sp == 4 || sp == 6)) = false)
include hamo

/-- A window that turns the access away ends it, with at most a count of the refusal. -/
theorem atTarget_windowClosed
    (hv : ∀ v, checkWindow s a (.land s.modnum.toNat l.val c.val) (.core l c) unit sp off ≠ .go v) :
    ∃ t, RegsOnly s t ∧ atTarget s a = answer t a.id ⟨.windowClosed, [], false⟩ := by
  obtain ⟨rfl, rfl, rfl⟩ := hat
  obtain ⟨ho, hw, hm⟩ := requester_thread hsrc s
  rw [Bool.eq_false_iff, Ne, Bool.and_eq_true] at hamo
  simp only [atTarget, ho, hw, hm, hbad, finishAccess_thread hsrc, if_neg hamo]
  cases h : checkWindow s a (.land s.modnum.toNat l.val c.val) (.core l c) (gaUnit a.addr) (gaSpace a.addr)
    (gaOff a.addr) with
  | go v => exact absurd h (hv v)
  | quar => exact ⟨s, .refl s, rfl⟩
  | stale => exact ⟨_, regsOnly_countRefusal .., rfl⟩
  | denied => exact ⟨_, regsOnly_countRefusal .., rfl⟩

theorem atTarget_admitted {via : Option Nat}
    (hv : checkWindow s a (.land s.modnum.toNat l.val c.val) (.core l c) unit sp off = .go via) :
    atTarget s a =
      if accOn s a unit sp off = false then answer s a.id ⟨.domainOff, [], false⟩
      else perform (noteVia s a.id via) a (.land s.modnum.toNat l.val c.val) (.core l c) unit sp off := by
  obtain ⟨rfl, rfl, rfl⟩ := hat
  obtain ⟨ho, hw, hm⟩ := requester_thread hsrc s
  rw [Bool.eq_false_iff, Ne, Bool.and_eq_true] at hamo
  simp only [atTarget, ho, hw, hm, hbad, finishAccess_thread hsrc, if_neg hamo, hv]
  cases accOn s a (gaUnit a.addr) (gaSpace a.addr) (gaOff a.addr) <;> rfl

end

/-! ## Effects (R152, R156) -/

theorem getByte_congr {s t : State} (h : t.mem = s.mem) (k : Nat) : getByte t k = getByte s k := by
  unfold getByte
  rw [h]

theorem getBytes_congr {s t : State} (h : t.mem = s.mem) (k n : Nat) : getBytes t k n = getBytes s k n := by
  unfold getBytes
  rw [h]

theorem fitTo_length {α : Type} (d : α) (xs : List α) : fitTo d xs.length xs = xs := by simp [fitTo]

/-- The row that an aligned offset of a scratchpad names begins there (R24). -/
theorem rowKey_of_aligned (unit : Nat) {off : Nat} (h : off % 512 = 0) :
    rowKey unit (rowCore off) (rowNum off) = memKey unit 1 off := by
  unfold rowKey rowCore rowNum memKey
  omega

theorem dropCached_memory (s : State) (l c r : Nat) : (dropCached s l c r).mem = s.mem ∧ (dropCached s l c r).accs = s.accs := by
  unfold dropCached
  dsimp only
  split
  · split <;> exact ⟨rfl, rfl⟩
  · exact ⟨rfl, rfl⟩

/-- A write without poison, of a whole aligned row to a scratchpad, stores its bytes and no others and leaves the accesses. -/
theorem memWrite_spec (s : State) (unit sp off : Nat) (bs : List Byte)
    (hrow : sp = 1 → bs.length = 512 ∧ off % 512 = 0) :
    (memWrite s unit sp off bs false).accs = s.accs ∧
      getBytes (memWrite s unit sp off bs false) (memKey unit sp off) bs.length = bs ∧
      ∀ x, (x < memKey unit sp off ∨ memKey unit sp off + bs.length ≤ x) →
        getByte (memWrite s unit sp off bs false) x = getByte s x := by
  obtain ⟨t, ht, hacc, hmem⟩ : ∃ t, MarksOnly s t ∧ (memWrite s unit sp off bs false).accs = s.accs ∧
      (memWrite s unit sp off bs false).mem = (putBytes t (memKey unit sp off) bs).mem := by
    by_cases h1 : sp = 1
    · subst h1
      obtain ⟨hlen, hal⟩ := hrow rfl
      have hfit : fitTo 0 512 bs = bs := by rw [← hlen, fitTo_length]
      have h := dropCached_memory (setPoison (freshRow (putBytes s (memKey unit 1 off) bs) (memKey unit 1 off))
        (memKey unit 1 off) false) unit (rowCore off) (rowNum off)
      refine ⟨s, .refl s, ?_⟩
      simp only [memWrite, putRow, rowKey_of_aligned unit hal, hfit]
      exact ⟨h.2, h.1⟩
    · obtain ⟨t, ht, e⟩ := memWrite_eq s unit off h1 bs
      exact ⟨t, ht, by rw [e, putBytes_accs, ht.accs_eq], by rw [e]⟩
  refine ⟨hacc, ?_, fun x hx => ?_⟩
  · rw [getBytes_congr hmem, getBytes_putBytes]
  · rw [getByte_congr hmem, getByte_putBytes_out _ _ _ hx, getByte_congr ht.mem_eq]

/-- An address that no check refuses names a whole aligned row of a scratchpad. -/
theorem row_of_accAddrBad {s : State} {a : Access} {unit sp off n : Nat} (hk : isScalar a.kind = true) (hn : accLen a = n)
    (hbad : accAddrBad s a unit sp off = false) (hsp : sp = 1) : n = 512 ∧ off % 512 = 0 := by
  subst hsp
  have hp : accParts a off = [(off, accLen a)] := by
    unfold accParts
    cases h : a.kind <;> simp_all [isScalar]
  simp only [accAddrBad, hp, List.any_cons, List.any_nil, Bool.or_false, Bool.or_eq_false_iff] at hbad
  obtain ⟨⟨⟨hrow, -⟩, -⟩, -⟩ := hbad
  simp only [addrBad, Bool.or_eq_false_iff, Bool.not_eq_eq_eq_not, Bool.not_false] at hrow
  obtain ⟨⟨⟨hrow, -⟩, -⟩, -⟩ := hrow
  simp only [extentOk', hn, Bool.and_eq_true, beq_iff_eq] at hrow
  exact ⟨hrow.1.1.1.1, hrow.1.1.1.2⟩

section
variable {s : State} {a b : Access} {l : Fin 32} {c : Fin 256} {t : Fin 16} (hsrc : a.src = .thread (.core l c t))
  (hfound : findAccess s a.id = some b) (w : WSrc) (m : Master) {unit sp off : Nat} (h3 : sp ≠ 3) (h5 : sp ≠ 5)
include hsrc hfound h3 h5

/-- A read of memory answers its bytes, or POISON. -/
theorem perform_read {n : Nat} (hk : a.kind = .read n) :
    (perform s a w m unit sp off).mem = s.mem ∧
      endsAs (perform s a w m unit sp off) a.id
        (if (memData s unit sp off n).2 then ⟨.poison, [], true⟩ else ⟨.ok, (memData s unit sp off n).1, false⟩) := by
  have h := marksOnly_memRead s unit sp off n
  have hf := (findAccess_congr h.accs_eq a.id).trans hfound
  cases hd : (memData s unit sp off n).2
  · simp only [perform, hk, h3, h5, or_self, if_false, hd, Bool.false_eq_true, finishAccess_thread hsrc]
    exact ⟨h.mem_eq, endsAs_answer hf _⟩
  · simp only [perform, hk, h3, h5, or_self, if_false, hd, if_true, finishAccess_thread hsrc]
    exact ⟨h.mem_eq, endsAs_answer hf _⟩

variable (hinc : a.inc = none)
include hinc

theorem perform_write {data : List Byte} (hk : a.kind = .write data) (hpart : partBad s unit sp off data.length = false)
    (hrow : sp = 1 → data.length = 512 ∧ off % 512 = 0) :
    endsAs (perform s a w m unit sp off) a.id ⟨.ok, [], false⟩ ∧
      getBytes (perform s a w m unit sp off) (memKey unit sp off) data.length = data ∧
      ∀ x, (x < memKey unit sp off ∨ memKey unit sp off + data.length ≤ x) →
        getByte (perform s a w m unit sp off) x = getByte s x := by
  have hpsn : framePsn a = false := by simp [framePsn, hsrc]
  obtain ⟨hacc, hin, hout⟩ := memWrite_spec s unit sp off data hrow
  have e : perform s a w m unit sp off = answer (memWrite s unit sp off data false) a.id ⟨.ok, [], false⟩ := by
    simp [perform, hk, h3, h5, hpart, hpsn, finishWrite_thread hsrc hinc]
  rw [e]
  exact ⟨endsAs_answer ((findAccess_congr hacc a.id).trans hfound) _, hin, hout⟩

omit h3 h5 in
/-- AMOADD stores the sum and answers the old value. -/
theorem perform_amo {n : Nat} {v : Dword} (hk : a.kind = .amo n v) (hd : (memData s unit sp off n).2 = false)
    (h1 : sp ≠ 1) :
    endsAs (perform s a w m unit sp off) a.id ⟨.ok, (memData s unit sp off n).1, false⟩ ∧
      leNat (getBytes (perform s a w m unit sp off) (memKey unit sp off) n) =
        (leNat (memData s unit sp off n).1 + v.toNat) % 256 ^ n ∧
      ∀ x, (x < memKey unit sp off ∨ memKey unit sp off + n ≤ x) →
        getByte (perform s a w m unit sp off) x = getByte s x := by
  have hpsn : framePsn a = false := by simp [framePsn, hsrc]
  have h := marksOnly_memRead s unit sp off n
  have hspec := memWrite_spec (memRead s unit sp off n) unit sp off (amoSum n (leNat (memData s unit sp off n).1) v.toNat)
    fun e => absurd e h1
  have hlen : (amoSum n (leNat (memData s unit sp off n).1) v.toNat).length = n := length_leBytes ..
  rw [hlen] at hspec
  obtain ⟨hacc, hin, hout⟩ := hspec
  have e : perform s a w m unit sp off =
      answer (memWrite (memRead s unit sp off n) unit sp off (amoSum n (leNat (memData s unit sp off n).1) v.toNat) false)
        a.id ⟨.ok, (memData s unit sp off n).1, false⟩ := by
    simp [perform, hk, hd, hpsn, hinc, applyInc, finishAccess_thread hsrc]
  rw [e]
  refine ⟨endsAs_answer ((findAccess_congr (hacc.trans h.accs_eq) a.id).trans hfound) _, ?_, fun x hx => ?_⟩
  · exact (congrArg leNat hin).trans (leNat_leBytes ..)
  · exact (hout x hx).trans (getByte_congr h.mem_eq x)

end

/-! ## Waiting behind an earlier store (R158) -/

/-- An access behind an earlier store or AMOADD of its thread to the same 8 B waits. -/
theorem remoteAccess_waits {id : Nat} {s : State} {pre mid post : List Access} {a b : Access}
    (hs : s.accs = pre ++ b :: mid ++ a :: post) (hne : ∀ x ∈ pre ++ b :: mid, x.id ≠ id) (hid : a.id = id)
    (ha : isScalar a.kind = true) (hb : isScalar b.kind = true) (hw : isRead b.kind = false) (hr : b.res = none)
    (hsrc : ∃ w, a.src = .thread w ∧ b.src = .thread w) (haddr : b.addr.toNat / 8 = a.addr.toNat / 8) :
    Runs (.remoteAccess id) s s := by
  obtain ⟨w, hwa, hwb⟩ := hsrc
  subst hid
  have hfound : findAccess s a.id = some a := by
    rw [findAccess, hs, List.find?_append, List.find?_eq_none.mpr fun x hx => by simpa using hne x hx]
    simp
  have hbefore : s.accs.takeWhile (fun x => x.id != a.id) = pre ++ b :: mid := by
    rw [hs, List.takeWhile_append_of_pos fun x hx => by simpa using hne x hx]
    simp
  have hafter : afterStore s a = true := by
    rw [afterStore, hbefore, List.any_eq_true]
    exact ⟨b, by simp, by simp [hr, ha, hb, hw, hwa, hwb, sameSource, haddr]⟩
  simp [Runs, exec, execRemoteAccess, hfound, hafter]

/-- An access that has not reached its target runs at it. -/
theorem remoteAccess_runs {s : State} {id : Nat} {a : Access} (h : outbound s id a)
    (hmod : gaMod a.addr = s.modnum.toNat) : Runs (.remoteAccess id) s (atTarget s a) := by
  obtain ⟨hf, hres, haway, hwait, hafter⟩ := h
  simp [Runs, exec, execRemoteAccess, hf, hres, haway, hwait, hafter, hmod]

/-- Settles O29: the access waits, or the first check that fails ends it, or its effect takes place; one lemma for each. -/
theorem remoteAccesses : Obligations.RemoteAccesses := by
  refine ⟨fun id s pre b mid a post hs hne hid ha hb hw hr hsrc haddr =>
    remoteAccess_waits hs hne hid ha hb hw hr hsrc haddr, fun id a l c t s ho hsrc hmod hk => ?_⟩
  intro unit sp off k w verdict bad noAmo fails
  have hat : gaUnit a.addr = unit ∧ gaSpace a.addr = sp ∧ gaOff a.addr = off := ⟨rfl, rfl, rfl⟩
  have hrun := remoteAccess_runs ho hmod
  have hf : findAccess s a.id = some a := by
    rw [id_of_findAccess ho.1]
    exact ho.1
  obtain rfl := id_of_findAccess ho.1
  have hfail : ∀ st, atTarget s a = answer s a.id ⟨st, [], false⟩ → fails st := fun st e =>
    ⟨_, hrun, e ▸ endsAs_answer hf _, e ▸ rfl⟩
  refine ⟨fun hbad => hfail _ (atTarget_address hsrc hat hbad), fun hbad hamo =>
    hfail _ (atTarget_amoSpace hsrc hat hbad hamo), fun hbad hamo hv => ?_, fun v hbad hamo hv hon => hfail _ ?_,
    fun v hbad hamo hv hon h3 h5 => ?_⟩
  · obtain ⟨u, hu, e⟩ := atTarget_windowClosed hsrc hat hbad hamo hv
    exact ⟨_, hrun, e ▸ endsAs_answer ((findAccess_congr hu.marksOnly.accs_eq _).trans hf) _, e ▸ hu.mem_eq⟩
  · rw [atTarget_admitted hsrc hat hbad hamo hv, if_pos hon]
  · have e := atTarget_admitted hsrc hat hbad hamo hv
    rw [if_neg (by rw [hon]; exact Bool.noConfusion)] at e
    rw [e] at hrun
    obtain ⟨b, hb⟩ := findAccess_noteVia hf a.id v
    intro d
    have hd : ∀ n, accLen a = n → d = memData (noteVia s a.id v) unit sp off n := fun n e => e ▸ rfl
    refine ⟨fun n hn => ?_, fun data hdata hpart hinc => ?_, fun n v' hn hd' hinc => ?_⟩
    · rw [hd n (by simp [accLen, hn])]
      exact ⟨_, hrun, perform_read hsrc hb w (.core l c) h3 h5 hn⟩
    · have hrow : sp = 1 → data.length = 512 ∧ off % 512 = 0 := 
        row_of_accAddrBad hk (by simp [accLen, hdata]) hbad
      exact ⟨_, hrun, perform_write hsrc hb w (.core l c) h3 h5 hinc hdata hpart hrow⟩
    · have h1 : sp ≠ 1 := by
        intro e
        simp [noAmo, isAmo, hn, e] at hamo
      rw [hd n (by simp [accLen, hn])] at hd' ⊢
      exact ⟨_, hrun, perform_amo hsrc hb w (.core l c) hinc hn hd' h1⟩

end Sys2Proof.Laws
end

section
/-! What resets, transitions of a power domain and the loss of a landing leave alone: time, the power requests and the landings
in the crossing under all of them, memories, threads and jobs under those that scrub nothing. One frame lemma for each function
of the model, in the model's order. -/

namespace Sys2Proof.Laws

open Sys2Proof Sys2Proof.Machine

/-! ## The parts of a state that are followed -/

/-- PWR.PD0 to PD71 and GLB.LFAIL. -/
def steadyReg (o : Nat) : Bool := o == 0x50 || (decide (0x20100 ≤ o) && decide (o < 0x20220))

/-- GLB.BOOTSTAT, GLB.ERRSTAT and CRS.CAUSE. -/
def storedReg (o : Nat) : Bool := o == 0x4c || o == 0x58 || o == 0x40008

/-- Registers that are followed. -/
def tracked (o : Nat) : Bool := steadyReg o || storedReg o

/-- The words of the registers of a set, as a function of the register table. -/
def wordsOf (p : Nat → Bool) (t : Tab Word) (o : Nat) : Word := if p o then tget (resetWord o) t o else 0

/-- The landings that are cut out of the crossing. -/
def outOf (t : Tab Landing) (l : Nat) : Bool := (tget {} t l).out

/-- What the loss of a domain or of a landing leaves alone but for its own requests and its own place in the crossing. -/
structure Steady where
  time : Dword
  edges : Nat
  goal : Tab (Option (Nat × Bool))
  purHold : Bool
  out : Nat → Bool
  word : Nat → Word

/-- What work that scrubs nothing and ends no lap leaves alone as well. -/
structure Stored where
  mem : List Host.Cell
  threads : Tab Thread
  jobs : List Job
  inLap : Bool
  word : Nat → Word

/-- The parts of a state that are followed. It is irreducible so that `simp` rewrites by the frame lemmas below. -/
@[irreducible] def parts (s : State) : Steady × Stored :=
  (⟨s.time, s.edges, s.pwr.goal, s.pwr.purHold, outOf s.lands, wordsOf steadyReg s.regs⟩,
    ⟨s.mem, s.threads, s.hm.jobs, s.crs.inLap, wordsOf storedReg s.regs⟩)

theorem parts_def (s : State) : parts s =
    (⟨s.time, s.edges, s.pwr.goal, s.pwr.purHold, outOf s.lands, wordsOf steadyReg s.regs⟩,
      ⟨s.mem, s.threads, s.hm.jobs, s.crs.inLap, wordsOf storedReg s.regs⟩) := by rw [parts]

/-- A record update: its left side is the state with its fields written out. -/
@[simp] theorem parts_mk {pending time edges mem poison uerr cerr regs latch heldLow threads cores lands trainCw trainCcw
    crs accs nextId sto xpt reqs qsets pcie hm pwr boot tap mgmt dbg served fetched nextReq fuses modnum free outs} :
    parts ⟨pending, time, edges, mem, poison, uerr, cerr, regs, latch, heldLow, threads, cores, lands, trainCw, trainCcw,
      crs, accs, nextId, sto, xpt, reqs, qsets, pcie, hm, pwr, boot, tap, mgmt, dbg, served, fetched, nextReq, fuses,
      modnum, free, outs⟩ =
    (⟨time, edges, pwr.goal, pwr.purHold, outOf lands, wordsOf steadyReg regs⟩,
      ⟨mem, threads, hm.jobs, crs.inLap, wordsOf storedReg regs⟩) := parts_def _

@[simp] theorem steady_eta (s : State) :
    (⟨s.time, s.edges, s.pwr.goal, s.pwr.purHold, outOf s.lands, wordsOf steadyReg s.regs⟩ : Steady) = (parts s).1 := by
  rw [parts_def]

@[simp] theorem stored_eta (s : State) :
    (⟨s.mem, s.threads, s.hm.jobs, s.crs.inLap, wordsOf storedReg s.regs⟩ : Stored) = (parts s).2 := by
  rw [parts_def]

@[simp] theorem parts_ite (c : Prop) [Decidable c] (a b : State) :
    parts (if c then a else b) = if c then parts a else parts b := apply_ite parts c a b

@[simp] theorem steady_ite (c : Prop) [Decidable c] (a b : Steady × Stored) :
    (if c then a else b).1 = if c then a.1 else b.1 := apply_ite Prod.fst c a b

@[simp] theorem parts_ite_fst {β : Type} (c : Prop) [Decidable c] (a b : State × β) :
    parts (if c then a else b).1 = if c then parts a.1 else parts b.1 := by split <;> rfl

@[simp] theorem parts_foldl {α : Type} {f : State → α → State} (hf : ∀ s a, parts (f s a) = parts s) (xs : List α)
    (s : State) : parts (xs.foldl f s) = parts s :=
  foldl_keeps (P := fun t => parts t = parts s) (fun t a h => (hf t a).trans h) xs rfl

@[simp] theorem steady_foldl {α : Type} {f : State → α → State} (hf : ∀ s a, (parts (f s a)).1 = (parts s).1)
    (xs : List α) (s : State) : (parts (xs.foldl f s)).1 = (parts s).1 :=
  foldl_keeps (P := fun t => (parts t).1 = (parts s).1) (fun t a h => (hf t a).trans h) xs rfl

/-! ## Registers and landings that are followed -/

theorem untracked_of_le {o : Nat} (h : 0x50100 ≤ o) : tracked o = false := by
  simp only [tracked, steadyReg, storedReg, Bool.or_eq_false_iff, Bool.and_eq_false_iff, beq_eq_false_iff_ne,
    decide_eq_false_iff_not]
  omega

theorem tracked_lt {o : Nat} (h : tracked o = true) : o < 0x50100 := by
  by_contra hn
  rw [untracked_of_le (Nat.not_lt.mp hn)] at h
  exact Bool.noConfusion h

/-- The registers of landings, cores, quays, ports, queue sets and channels are not followed. -/
@[simp] theorem untracked_blocks :
    (∀ l x, tracked (lcBase l + x) = false) ∧ (∀ l c x, tracked (coreBase l c + x) = false) ∧
      (∀ l, tracked (rBind l) = false) ∧ (∀ u i, tracked (rWctl u i) = false) ∧ (∀ p, tracked (rPort p) = false) ∧
      (∀ p x, tracked (rPort p + x) = false) ∧ (∀ q x, tracked (rQs q x) = false) ∧
      (∀ q, tracked (rQcause q) = false) ∧ (∀ c, tracked (rMbx c) = false) ∧ (∀ c x, tracked (rMbx c + x) = false) ∧
      (∀ c x y, tracked (rMbx c + x + y) = false) ∧ (∀ l i, tracked (scBase l i) = false) ∧
      ∀ l k x, tracked (rArea l k + x) = false := by
  refine ⟨?_, ?_, ?_, ?_, ?_, ?_, ?_, ?_, ?_, ?_, ?_, ?_, ?_⟩ <;> intros <;> apply untracked_of_le
  case refine_4 u i => unfold rWctl winBase; split <;> simp only [lcBase, quayBase] <;> omega
  all_goals simp only [coreBase, rBind, rPort, rQs, rQcause, rMbx, scBase, rArea, lcBase, quayBase]
  all_goals omega

@[simp] theorem untracked_module :
    tracked rXcause = false ∧ tracked rVctl = false ∧ tracked rVstat = false ∧ tracked rVnum = false ∧
      tracked rCkevt = false ∧ tracked rLerr = false ∧ tracked rCerr = false ∧ tracked rCkstat = false ∧
      tracked 0x80010 = false ∧ tracked 0x20000 = false ∧ tracked 0x30 = false ∧ tracked 0x50000 = false ∧
      tracked 0x70000 = false ∧ tracked 0x70004 = false := by
  decide

@[simp] theorem unsteady_module :
    steadyReg rCrsCause = false ∧ steadyReg rBootstat = false ∧ steadyReg rErrstat = false := by
  decide

/-- A table whose entries at key k stay, and whose others stay away from it. -/
theorem tget_filterMap_same {α : Type} (d : α) {f : Nat × α → Option (Nat × α)} {k : Nat}
    (hf : ∀ e x, f e = some x → x.1 = e.1) (hk : ∀ v, f (k, v) = some (k, v)) (t : Tab α) :
    tget d (t.filterMap f) k = tget d t k := by
  induction t with
  | nil => rfl
  | cons e r ih =>
    obtain ⟨j, v⟩ := e
    by_cases hj : j = k
    · subst hj
      rw [List.filterMap_cons_some (hk v)]
      simp [tget]
    · cases h : f (j, v) with
      | none => rw [List.filterMap_cons_none h, ih]; simp [tget, hj]
      | some x =>
        have hx : x.1 ≠ k := by rw [hf _ _ h]; exact hj
        rw [List.filterMap_cons_some h]
        simp [tget, hj, hx, ih]

theorem wordsOf_filterMap {p : Nat → Bool} {f : Nat × Word → Option (Nat × Word)} (hf : ∀ e x, f e = some x → x.1 = e.1)
    (hp : ∀ o v, p o = true → f (o, v) = some (o, v)) (t : Tab Word) : wordsOf p (t.filterMap f) = wordsOf p t := by
  funext o
  unfold wordsOf
  split
  · next h => exact tget_filterMap_same _ hf (fun v => hp o v h) t
  · rfl

/-- A change of register words that leaves those followed. -/
theorem parts_filterMap (s : State) {f : Nat × Word → Option (Nat × Word)} (hf : ∀ e x, f e = some x → x.1 = e.1)
    (hp : ∀ o v, tracked o = true → f (o, v) = some (o, v)) (hm : Hm) (hj : hm.jobs = s.hm.jobs) :
    parts { s with regs := s.regs.filterMap f, hm := hm } = parts s := by
  rw [parts_mk, wordsOf_filterMap hf fun o v h => hp o v (by simp [tracked, h]),
    wordsOf_filterMap hf fun o v h => hp o v (by simp [tracked, h]), hj, ← parts_def]

theorem wordsOf_tput {p : Nat → Bool} {o : Nat} (h : p o = false) (v : Word) (t : Tab Word) :
    wordsOf p (tput (resetWord o) o v t) = wordsOf p t := by
  funext x
  unfold wordsOf
  split
  · rw [tget_tput_other _ _ (by rintro rfl; simp_all)]
  · rfl

@[simp] theorem steady_wr (s : State) {o : Nat} (h : steadyReg o = false) (v : Word) :
    (parts (wr s o v)).1 = (parts s).1 := by
  simp [wr, wordsOf_tput h]

@[simp] theorem parts_wr (s : State) {o : Nat} (h : tracked o = false) (v : Word) : parts (wr s o v) = parts s := by
  rw [tracked, Bool.or_eq_false_iff] at h
  simp [wr, wordsOf_tput h.1, wordsOf_tput h.2]

@[simp] theorem steady_wrFld (s : State) {o : Nat} (h : steadyReg o = false) (hi lo v : Nat) :
    (parts (wrFld s o hi lo v)).1 = (parts s).1 := steady_wr s h _

@[simp] theorem parts_wrFld (s : State) {o : Nat} (h : tracked o = false) (hi lo v : Nat) :
    parts (wrFld s o hi lo v) = parts s := parts_wr s h _

@[simp] theorem steady_setFlag (s : State) {o : Nat} (h : steadyReg o = false) (i : Nat) :
    (parts (setFlag s o i)).1 = (parts s).1 := steady_wr s h _

@[simp] theorem parts_setFlag (s : State) {o : Nat} (h : tracked o = false) (i : Nat) : parts (setFlag s o i) = parts s :=
  parts_wr s h _

/-- A landing's record, its place in the crossing as it was. -/
@[simp] theorem parts_setLand (s : State) (l : Nat) {x : Landing} (h : x.out = (getLand s l).out) :
    parts (setLand s l x) = parts s := by
  have e : outOf (tput {} l x s.lands) = outOf s.lands := by
    funext k
    unfold outOf
    by_cases hk : k = l
    · subst hk; rw [tget_tput_same]; exact h
    · rw [tget_tput_ne _ hk]
  rw [setLand, parts_mk, e, ← parts_def]

@[simp] theorem parts_emit (s : State) (o : Out) : parts (emit s o) = parts s := by simp [emit]

@[simp] theorem steady_scrubRange (s : State) (k n : Nat) : (parts (scrubRange s k n)).1 = (parts s).1 := by
  simp [scrubRange]

@[simp] theorem parts_groupFalls (s : State) (r : Nat) (wasDown : Bool) : parts (groupFalls s r wasDown) = parts s := by
  simp [groupFalls]

@[simp] theorem parts_setPort (s : State) (p : Nat) (x : Port) : parts (setPort s p x) = parts s := by simp [setPort]

@[simp] theorem parts_pushFrame (s : State) (role tc : Nat) (f : Frame) : parts (pushFrame s role tc f) = parts s := by
  simp [pushFrame]

theorem parts_of_routeFrame {s t : State} {dst tc : Nat} {f : Frame} (h : routeFrame s dst tc f = some t) :
    parts t = parts s := by
  unfold routeFrame at h
  dsimp only at h
  split at h
  · cases h
  · cases h; simp

theorem parts_of_routeMsg {s t : State} {dst tc : Nat} {f : Frame} (h : routeMsg s dst tc f = some t) :
    parts t = parts s := by
  unfold routeMsg at h
  split at h
  · exact parts_of_routeFrame h
  · dsimp only at h
    split at h
    · cases h
    · cases h; simp

@[simp] theorem parts_sendMsg (s : State) (ty dst : Nat) (args : List Int) :
    parts (sendMsg s ty dst args) = parts s := by
  unfold sendMsg
  split
  · next h => exact parts_of_routeMsg h
  · simp

@[simp] theorem parts_sendAll (s : State) (ty : Nat) (args : List Int) : parts (sendAll s ty args) = parts s := by
  unfold sendAll
  split
  · rfl
  · refine parts_foldl (fun s r => ?_) _ s
    split <;> simp

@[simp] theorem parts_sendHold (s : State) : parts (sendHold s) = parts s := by simp [sendHold]

@[simp] theorem parts_noticeHold (s : State) : parts (noticeHold s) = parts s := by simp [noticeHold]

@[simp] theorem parts_updHold (s : State) (l : Nat) : parts (updHold s l) = parts s := by simp [updHold]

@[simp] theorem parts_updHolds (s : State) : parts (updHolds s) = parts s := by simp [updHolds]

@[simp] theorem steady_startScrub (s : State) (l st : Nat) : (parts (startScrub s l st)).1 = (parts s).1 := by
  simp [startScrub]

@[simp] theorem steady_scrubLanding (s : State) (l : Nat) : (parts (scrubLanding s l)).1 = (parts s).1 := by
  simp [scrubLanding]

@[simp] theorem parts_emptyTrains (s : State) : parts (emptyTrains s) = parts s := by simp [emptyTrains]

@[simp] theorem steady_abandonLap (s : State) : (parts (abandonLap s)).1 = (parts s).1 := by simp [abandonLap]

@[simp] theorem parts_endStep (s : State) : parts (endStep s) = parts s := by simp [endStep]

@[simp] theorem parts_clearCredit (s : State) : parts (clearCredit s) = parts s := by simp [clearCredit]

@[simp] theorem parts_setStandIn (s : State) (home : Nat) : parts (setStandIn s home) = parts s := by
  unfold setStandIn
  split <;> simp

@[simp] theorem parts_closeWin (s : State) (u i : Nat) : parts (closeWin s u i) = parts s := by simp [closeWin]

theorem winBase_le (u i : Nat) : 0x1000000 ≤ winBase u i := by
  unfold winBase
  split <;> simp only [lcBase, quayBase] <;> omega

@[simp] theorem parts_resetWins (s : State) (u : Nat) : parts (resetWins s u) = parts s := by
  refine parts_filterMap s (fun e x h => ?_) (fun o v h => ?_) _ rfl
  · split at h
    · split at h
      · split at h
        · cases h
        · cases h; rfl
      · cases h
    · cases h; rfl
  · have h1 := winBase_le u 0
    have h2 := tracked_lt h
    rw [if_neg (by simp only; omega)]

@[simp] theorem parts_closeWins (s : State) (p : Nat → Nat → Bool) : parts (closeWins s p) = parts s := by
  simp [closeWins]

@[simp] theorem parts_mbxDone (s : State) (c : Nat) (code : MCode) (out : List Byte) :
    parts (mbxDone s c code out) = parts s := by
  simp [mbxDone]

@[simp] theorem parts_setUse (s : State) (l k u : Nat) : parts (setUse s l k u) = parts s := by simp [setUse]

@[simp] theorem parts_changeUse (s : State) (u v : Nat) : parts (changeUse s u v) = parts s := by simp [changeUse]

@[simp] theorem parts_sendPacket (s : State) (t : Nat) (o : Nat → Out) : parts (sendPacket s t o) = parts s := by
  simp [sendPacket]

@[simp] theorem parts_sendNvme (s : State) (c : NvCmd) : parts (sendNvme s c) = parts s := by simp [sendNvme]

@[simp] theorem parts_pump (s : State) (t : Nat) : parts (pump s t) = parts s := by simp [pump]

@[simp] theorem parts_addNvme (s : State) (c : NvCmd) : parts (addNvme s c) = parts s := by simp [addNvme]

@[simp] theorem parts_issueNvme (s : State) (use : NvUse) (tgt op nsid slba blocks : Nat) (fua : Bool)
    (data : List Byte) :
    parts (issueNvme s use tgt op nsid slba blocks fua data) = parts s := by
  simp [issueNvme]

@[simp] theorem parts_connect (s : State) (t : Nat) : parts (connect s t) = parts s := by simp [connect]

@[simp] theorem parts_connectAll (s : State) (ts : List Nat) : parts (connectAll s ts) = parts s := by simp [connectAll]

@[simp] theorem parts_dropQp (s : State) (t : Nat) : parts (dropQp s t) = parts s := by simp [dropQp]

@[simp] theorem parts_dropCmds (s : State) (o : NvOp) : parts (dropCmds s o) = parts s := by simp [dropCmds]

@[simp] theorem parts_storeErr (s : State) {reg : Nat} (h : tracked reg = false) (code tgt status : Nat) :
    parts (storeErr s reg code tgt status) = parts s := parts_wr s h _

@[simp] theorem parts_setLstate (s : State) (x : LState) : parts (setLstate s x) = parts s := by simp [setLstate]

@[simp] theorem parts_freeIncoming (s : State) : parts (freeIncoming s) = parts s := by simp [freeIncoming]

@[simp] theorem parts_endLoadOrder (s : State) : parts (endLoadOrder s) = parts s := by simp [endLoadOrder]

@[simp] theorem parts_failLoad (s : State) (code : StoErr) (tgt status : Nat) :
    parts (failLoad s code tgt status) = parts s := by
  simp [failLoad]

@[simp] theorem parts_readSlice (s : State) (es : List PlanEntry) (slice home v : Nat) :
    parts (readSlice s es slice home v) = parts s := by
  simp [readSlice]

@[simp] theorem parts_startReload (s : State) (home v : Nat) : parts (startReload s home v) = parts s := by
  unfold startReload
  split
  · simp
  · split
    · split <;> simp
    · simp

@[simp] theorem parts_freeShadows (s : State) (p : Shadow → Bool) : parts (freeShadows s p) = parts s := by
  simp [freeShadows]

@[simp] theorem parts_dropReloads (s : State) (p : Reload → Bool) : parts (dropReloads s p) = parts s := by
  simp [dropReloads]

@[simp] theorem parts_failReload (s : State) (home ver : Nat) (code : StoErr) (tgt status : Nat) :
    parts (failReload s home ver code tgt status) = parts s := by
  simp [failReload]

@[simp] theorem parts_giveLauncher (s : State) (home : Nat) (failed : Bool) :
    parts (giveLauncher s home failed) = parts s := by
  unfold giveLauncher
  split
  · simp
  · split <;> simp

@[simp] theorem parts_setCkState (s : State) (x : CkState) : parts (setCkState s x) = parts s := by simp [setCkState]

@[simp] theorem parts_setCk (s : State) (c : Ckpt) : parts (setCk s c) = parts s := by simp [setCk]

@[simp] theorem parts_clearCkOrder (s : State) : parts (clearCkOrder s) = parts s := by simp [clearCkOrder]

@[simp] theorem parts_endCk (s : State) (x : CkState) : parts (endCk s x) = parts s := by simp [endCk]

@[simp] theorem parts_failCk (s : State) (code : StoErr) (tgt status : Nat) :
    parts (failCk s code tgt status) = parts s := by
  simp [failCk]

@[simp] theorem parts_failOp (s : State) (o : NvOp) (code : StoErr) (tgt status : Nat) :
    parts (failOp s o code tgt status) = parts s := by
  unfold failOp
  split <;> simp

@[simp] theorem parts_loseOp (s : State) (t : Nat) (o : NvOp) : parts (loseOp s t o) = parts s := by simp [loseOp]

@[simp] theorem parts_loseConnection (s : State) (t : Nat) : parts (loseConnection s t) = parts s := by
  simp [loseConnection]

@[simp] theorem parts_setPcie (s : State) (p : Nat) (x : PciePort) : parts (setPcie s p x) = parts s := by
  simp [setPcie]

@[simp] theorem parts_setQs (s : State) (q : Nat) (x : QSet) : parts (setQs s q x) = parts s := by simp [setQs]

@[simp] theorem parts_hostWrite (s : State) (q : Nat) (w : Dword × List Byte) : parts (hostWrite s q w) = parts s := by
  simp [hostWrite]

@[simp] theorem parts_coalesce (s : State) (q : Nat) : parts (coalesce s q) = parts s := by simp [coalesce]

@[simp] theorem parts_clearPend (s : State) (q : Nat) : parts (clearPend s q) = parts s := by simp [clearPend]

@[simp] theorem parts_postNow (s : State) (q : Nat) (r : HeldRec) : parts (postNow s q r) = parts s := by simp [postNow]

@[simp] theorem parts_addRec (s : State) (q : Nat) (r : HeldRec) : parts (addRec s q r) = parts s := by simp [addRec]

@[simp] theorem parts_mapReqs (s : State) (f : Req → Req) : parts (mapReqs s f) = parts s := by simp [mapReqs]

@[simp] theorem parts_updMask (s : State) (l : Nat) (v : BitVec 16) (g : Nat) : parts (updMask s l v g) = parts s := by
  simp [updMask]

@[simp] theorem parts_dropReq (s : State) (r : Req) : parts (dropReq s r) = parts s := by simp [dropReq]

@[simp] theorem parts_closeReq (s : State) (r : Req) (state err flags : Nat) :
    parts (closeReq s r state err flags) = parts s := by
  simp [closeReq]

@[simp] theorem parts_failEntry (s : State) (q : Nat) (raw : List Byte) (err : Nat) :
    parts (failEntry s q raw err) = parts s := by
  simp [failEntry]

@[simp] theorem parts_finishQsReset (s : State) (q : Nat) : parts (finishQsReset s q) = parts s := by
  simp [finishQsReset]

@[simp] theorem parts_endRequests (s : State) (q : Nat) : parts (endRequests s q) = parts s := by simp [endRequests]

@[simp] theorem parts_resetQs (s : State) (q : Nat) : parts (resetQs s q) = parts s := by simp [resetQs]

@[simp] theorem parts_updFree (s : State) (l : Nat) : parts (updFree s l) = parts s := by simp [updFree]

@[simp] theorem parts_orphanAccs (s : State) (l : Nat) : parts (orphanAccs s l) = parts s := by simp [orphanAccs]

@[simp] theorem steady_quarantineLand (s : State) (l : Nat) : (parts (quarantineLand s l)).1 = (parts s).1 := by
  simp [quarantineLand]

@[simp] theorem steady_clearLandMem (s : State) (l : Nat) : (parts (clearLandMem s l)).1 = (parts s).1 := by
  simp [clearLandMem]

@[simp] theorem parts_dropIncoming (s : State) (ls : List Nat) : parts (dropIncoming s ls) = parts s := by
  simp [dropIncoming]

@[simp] theorem steady_freeVersions (s : State) (ls : List Nat) : (parts (freeVersions s ls)).1 = (parts s).1 := by
  simp [freeVersions]

@[simp] theorem parts_abortCkpt (s : State) (ls : List Nat) : parts (abortCkpt s ls) = parts s := by simp [abortCkpt]

@[simp] theorem steady_storageReset (s : State) (l : Nat) : (parts (storageReset s l)).1 = (parts s).1 := by
  simp [storageReset]

@[simp] theorem steady_setJobs (s : State) (f : List Job → List Job) : (parts (setJobs s f)).1 = (parts s).1 := by
  simp [setJobs]

@[simp] theorem steady_mapJob (s : State) (n : Nat) (f : Job → Job) : (parts (mapJob s n f)).1 = (parts s).1 := by
  simp [mapJob]

@[simp] theorem parts_discardHeld (s : State) (q : Nat) : parts (discardHeld s q) = parts s := by simp [discardHeld]

@[simp] theorem parts_failCopied (s : State) (q : Nat) : parts (failCopied s q) = parts s := by simp [failCopied]

@[simp] theorem parts_resetAfterKill (s : State) (q : Nat) : parts (resetAfterKill s q) = parts s := by
  simp [resetAfterKill]

@[simp] theorem parts_endTenancy (s : State) (p : BitVec 16 → Bool) (records : Bool) :
    parts (endTenancy s p records) = parts s := by
  simp [endTenancy]

@[simp] theorem steady_scrubJob (s : State) (j : Job) : (parts (scrubJob s j)).1 = (parts s).1 := by simp [scrubJob]

@[simp] theorem parts_noteRegistry (s : State) : parts (noteRegistry s) = parts s := by simp [noteRegistry]

@[simp] theorem steady_endJob (s : State) (j : Job) : (parts (endJob s j)).1 = (parts s).1 := by simp [endJob]

@[simp] theorem steady_continueKill (s : State) (n : Nat) : (parts (continueKill s n)).1 = (parts s).1 := by
  unfold continueKill
  split
  · simp
  · split
    · simp
    · split
      · dsimp only
        split <;> simp
      · dsimp only
        split <;> simp

@[simp] theorem steady_killJob (s : State) (j : Job) (records : Bool) : (parts (killJob s j records)).1 = (parts s).1 := by
  simp [killJob]

@[simp] theorem steady_killForReset (s : State) (l : Nat) : (parts (killForReset s l)).1 = (parts s).1 := by
  unfold killForReset
  split <;> simp

@[simp] theorem steady_releaseLand (s : State) (l : Nat) : (parts (releaseLand s l)).1 = (parts s).1 := by
  simp [releaseLand]

@[simp] theorem parts_mapCoreRegs (s : State) (l : Nat) (f : Nat → Word → Word) :
    parts (mapCoreRegs s l f) = parts s := by
  refine parts_filterMap s (fun e x h => ?_) (fun o v h => ?_) _ rfl
  · split at h
    · dsimp only at h
      split at h
      · cases h
      · cases h; rfl
    · cases h; rfl
  · have h2 := tracked_lt h
    rw [if_neg (by simp only [coreBase, lcBase]; omega)]

@[simp] theorem parts_loseLeaves (s : State) (l : Nat) : parts (loseLeaves s l) = parts s := by simp [loseLeaves]

@[simp] theorem parts_dropArrivals (s : State) (l : Nat) : parts (dropArrivals s l) = parts s := by simp [dropArrivals]

@[simp] theorem parts_grantGroups (s : State) (l : Nat) : parts (grantGroups s l) = parts s := by simp [grantGroups]

@[simp] theorem steady_setStage (s : State) (n : Nat) : (parts (setStage s n)).1 = (parts s).1 := by simp [setStage]

@[simp] theorem parts_sendFault (s : State) : parts (sendFault s) = parts s := by simp [sendFault]

@[simp] theorem steady_moduleFatal (s : State) (code unit : Nat) : (parts (moduleFatal s code unit)).1 = (parts s).1 := by
  simp only [moduleFatal, parts_ite, steady_ite, parts_sendFault, parts_mk, steady_eta, parts_setFlag, untracked_module,
    untracked_blocks, steady_setStage, steady_wr, unsteady_module, ite_self]

theorem parts_dropRegs (s : State) {lo : Nat} (h : 0x50100 ≤ lo) (n : Nat) : parts (dropRegs s lo n) = parts s := by
  have e : tclear s.regs lo n = s.regs.filterMap fun e => if lo ≤ e.1 ∧ e.1 < lo + n then none else some e := by
    rw [tclear, ← List.filterMap_eq_filter]
    refine List.filterMap_congr fun e _ => ?_
    by_cases hc : lo ≤ e.1 ∧ e.1 < lo + n <;> simp [Option.guard, hc]
  rw [dropRegs, e]
  refine parts_filterMap s (fun e x h => ?_) (fun o v h => ?_) _ rfl
  · split at h
    · cases h
    · cases h; rfl
  · have h2 := tracked_lt h
    rw [if_neg (by simp only; omega)]

@[simp] theorem parts_dropRegs_blocks (s : State) (n : Nat) :
    (∀ l, parts (dropRegs s (lcBase l) n) = parts s) ∧ (∀ l x, parts (dropRegs s (lcBase l + x) n) = parts s) ∧
      (∀ l c, parts (dropRegs s (coreBase l c) n) = parts s) ∧ ∀ q, parts (dropRegs s (quayBase q) n) = parts s := by
  refine ⟨?_, ?_, ?_, ?_⟩ <;> intros <;> apply parts_dropRegs
  all_goals simp only [lcBase, coreBase, quayBase]
  all_goals omega

@[simp] theorem parts_loseReqs (s : State) (l : Nat) : parts (loseReqs s l) = parts s := by simp [loseReqs]

@[simp] theorem steady_arrayLeaves (s : State) (l : Nat) : (parts (arrayLeaves s l)).1 = (parts s).1 := by
  simp [arrayLeaves]

@[simp] theorem steady_arrayOff (s : State) (l : Nat) : (parts (arrayOff s l)).1 = (parts s).1 := by simp [arrayOff]

@[simp] theorem steady_arrayEnters (s : State) (l : Nat) : (parts (arrayEnters s l)).1 = (parts s).1 := by
  simp only [arrayEnters, parts_mk, steady_eta, parts_setLand]

@[simp] theorem parts_avs (s : State) (l : Nat) (op : AvsOp) (a b : Bool) : parts (avs s l op a b).1 = parts s := by
  simp [avs]

@[simp] theorem parts_writeVcore (s : State) (l mv : Nat) (a b : Bool) : parts (writeVcore s l mv a b) = parts s := by
  simp [writeVcore]

@[simp] theorem parts_setVcore (s : State) (l : Nat) : parts (setVcore s l) = parts s := by simp [setVcore]

@[simp] theorem steady_loseStacks (s : State) (l : Nat) : (parts (loseStacks s l)).1 = (parts s).1 := by
  simp [loseStacks]

@[simp] theorem steady_uncoreLeaves (s : State) (l : Nat) (sref : Bool) :
    (parts (uncoreLeaves s l sref)).1 = (parts s).1 := by
  simp only [uncoreLeaves, parts_noticeHold, parts_mk, steady_eta, parts_setLand, parts_ite, steady_ite, parts_setFlag,
    steady_loseStacks, untracked_blocks, ite_self, steady_scrubRange, parts_dropRegs_blocks, parts_resetWins, steady_storageReset,
    steady_killForReset]

@[simp] theorem steady_uncoreEnters (s : State) (l : Nat) (sref : Bool) : (parts (uncoreEnters s l sref)).1 = (parts s).1 := by
  simp [uncoreEnters]

@[simp] theorem steady_quayLeaves (s : State) (q : Nat) : (parts (quayLeaves s q)).1 = (parts s).1 := by
  simp [quayLeaves]

@[simp] theorem parts_portOff (s : State) (p : Nat) : parts (portOff s p) = parts s := by simp [portOff]

@[simp] theorem parts_bankLeaves (s : State) (b : Nat) : parts (bankLeaves s b) = parts s := by simp [bankLeaves]

@[simp] theorem parts_bankEnters (s : State) (b : Nat) : parts (bankEnters s b) = parts s := by simp [bankEnters]

@[simp] theorem parts_dropStorage (s : State) : parts (dropStorage s) = parts s := by simp [dropStorage]

@[simp] theorem parts_setCopy (s : State) (c k : Nat) (f : FlashCopy) : parts (setCopy s c k f) = parts s := by
  simp [setCopy]

@[simp] theorem parts_runCopy (s : State) (c : Nat) : parts (runCopy s c) = parts s := by
  unfold runCopy
  split <;> simp

@[simp] theorem parts_setPorts (s : State) (mask split : Nat) : parts (setPorts s mask split) = parts s := by
  simp [setPorts]

@[simp] theorem parts_setSplit (s : State) (rec : Option Nat) : parts (setSplit s rec) = parts s := by
  cases rec <;> simp [setSplit]

@[simp] theorem steady_applyRecord (s : State) : (parts (applyRecord s)).1 = (parts s).1 := by simp [applyRecord]

@[simp] theorem steady_raiseStage (s : State) (n : Nat) : (parts (raiseStage s n)).1 = (parts s).1 := by
  simp [raiseStage]

@[simp] theorem steady_bootChain (s : State) : (parts (bootChain s)).1 = (parts s).1 := by
  simp only [bootChain, parts_ite, steady_ite, parts_mk, steady_eta, steady_applyRecord, steady_wrFld, unsteady_module,
    parts_wrFld, untracked_module, parts_runCopy, steady_raiseStage, ite_self]


end Sys2Proof.Laws
end

section
/-! The fields of a register word: a field after a write of it, and of another that it does not meet. -/

namespace Sys2Proof.Laws

open Sys2Proof Sys2Proof.Machine

/-- A number with a field replaced: what lies above the field, the field, and what lies below it. -/
theorem putBits_eq (x hi lo v : Nat) :
    putBits x hi lo v =
      2 ^ lo * (2 ^ (hi + 1 - lo) * (x >>> lo / 2 ^ (hi + 1 - lo)) + v % 2 ^ (hi + 1 - lo)) + x % 2 ^ lo := by
  unfold putBits bits
  generalize hi + 1 - lo = n
  have h1 := Nat.div_add_mod x (2 ^ lo)
  have h2 := Nat.div_add_mod (x / 2 ^ lo) (2 ^ n)
  simp only [Nat.shiftRight_eq_div_pow, Nat.shiftLeft_eq, Nat.mul_add, Nat.mul_comm _ (2 ^ lo)]
  have h3 := congrArg (2 ^ lo * ·) h2
  simp only [Nat.mul_add] at h3
  omega

theorem testBit_putBits (x hi lo v i : Nat) :
    (putBits x hi lo v).testBit i = if lo ≤ i ∧ i ≤ hi then v.testBit (i - lo) else x.testBit i := by
  have hx : x % 2 ^ lo < 2 ^ lo := Nat.mod_lt _ (by positivity)
  have hv : v % 2 ^ (hi + 1 - lo) < 2 ^ (hi + 1 - lo) := Nat.mod_lt _ (by positivity)
  rw [putBits_eq, Nat.testBit_two_pow_mul_add _ hx]
  by_cases h1 : i < lo
  · rw [if_pos h1, if_neg (by omega), Nat.testBit_mod_two_pow]
    simp [h1]
  · rw [if_neg h1, Nat.testBit_two_pow_mul_add _ hv]
    by_cases h2 : i ≤ hi
    · rw [if_pos (by omega), if_pos (by omega), Nat.testBit_mod_two_pow]
      simp [show i - lo < hi + 1 - lo by omega]
    · rw [if_neg (by omega), if_neg (by omega), Nat.testBit_div_two_pow, Nat.testBit_shiftRight]
      congr 1
      omega

/-- A bit of a word after a write of a field. -/
theorem getLsbD_wput (w : Word) (hi lo v : Nat) {i : Nat} (h : i < 32) :
    (wput w hi lo v).getLsbD i = if lo ≤ i ∧ i ≤ hi then v.testBit (i - lo) else w.getLsbD i := by
  rw [wput, BitVec.getLsbD_ofNat, testBit_putBits, BitVec.testBit_toNat]
  simp only [h, decide_true, Bool.true_and]

theorem testBit_wfld (w : Word) (hi lo i : Nat) :
    (wfld w hi lo).testBit i = (decide (i < hi + 1 - lo) && w.getLsbD (lo + i)) := by
  rw [wfld, bits, Nat.testBit_mod_two_pow, Nat.testBit_shiftRight, BitVec.testBit_toNat]

/-- A field is what its bits are. -/
theorem wfld_congr {w w' : Word} {hi lo : Nat} (h : ∀ i, lo ≤ i → i ≤ hi → w.getLsbD i = w'.getLsbD i) :
    wfld w hi lo = wfld w' hi lo := by
  refine Nat.eq_of_testBit_eq fun i => ?_
  rw [testBit_wfld, testBit_wfld]
  by_cases hi' : i < hi + 1 - lo
  · rw [h _ (by omega) (by omega)]
  · simp [hi']

theorem wfld_wput_same (w : Word) {hi lo v : Nat} (h : hi < 32) (hv : v < 2 ^ (hi + 1 - lo)) :
    wfld (wput w hi lo v) hi lo = v := by
  refine Nat.eq_of_testBit_eq fun i => ?_
  rw [testBit_wfld]
  by_cases hi' : i < hi + 1 - lo
  · rw [getLsbD_wput _ _ _ _ (by omega), if_pos (by omega)]
    simp [hi']
  · have h2 : 2 ^ (hi + 1 - lo) ≤ 2 ^ i := Nat.pow_le_pow_right (by omega) (by omega)
    rw [Nat.testBit_lt_two_pow (by omega)]
    simp [hi']

theorem wfld_wput_ne (w : Word) {hi lo hi' lo' : Nat} (v : Nat) (h : hi < 32) (hd : hi < lo' ∨ hi' < lo) :
    wfld (wput w hi' lo' v) hi lo = wfld w hi lo :=
  wfld_congr fun i h1 h2 => by rw [getLsbD_wput _ _ _ _ (by omega), if_neg (by omega)]

/-- A field written as it was. -/
theorem wput_wfld (w : Word) (hi lo : Nat) : wput w hi lo (wfld w hi lo) = w := by
  refine BitVec.eq_of_getLsbD_eq fun i h => ?_
  rw [getLsbD_wput _ _ _ _ h]
  split
  · next hc =>
    rw [testBit_wfld, show lo + (i - lo) = i by omega]
    simp [show i - lo < hi + 1 - lo by omega]
  · rfl

theorem wput_bit_one (w : Word) (i : Nat) : wput w i i 1 = wset w i := by
  refine BitVec.eq_of_getLsbD_eq fun j h => ?_
  rw [getLsbD_wput _ _ _ _ h, getLsbD_wset]
  by_cases hj : j = i
  · subst hj
    simp [h]
  · rw [if_neg (by omega)]
    simp [Ne.symm hj]

end Sys2Proof.Laws
end

section
/-! What a transition of a power domain, a cut-out and the loss of a landing do to what they are about: the words and
moves of power domains, GLB.LFAIL, and the landings outside the crossing. -/

namespace Sys2Proof.Laws

open Sys2Proof Sys2Proof.Machine

/-! ## The words of power domains -/

/-- A field of a followed register written. -/
def Steady.put (x : Steady) (o hi lo v : Nat) : Steady :=
  { x with word := fun p => if p = o then wput (x.word o) hi lo v else x.word p }

/-- A move set, or ended. -/
def Steady.aim (x : Steady) (d : Nat) (g : Option (Nat × Bool)) : Steady := { x with goal := tput none d g x.goal }

/-- A landing taken out of the crossing. -/
def Steady.cut (x : Steady) (l : Nat) : Steady := { x with out := fun k => k == l || x.out k }

/-- A field of a followed register. -/
def Steady.fld (x : Steady) (o hi lo : Nat) : Nat := wfld (x.word o) hi lo

theorem Steady.word_put (x : Steady) (o hi lo v p : Nat) :
    (x.put o hi lo v).word p = if p = o then wput (x.word o) hi lo v else x.word p := rfl

@[simp] theorem Steady.rest_put (x : Steady) (o hi lo v : Nat) :
    (x.put o hi lo v).time = x.time ∧ (x.put o hi lo v).edges = x.edges ∧ (x.put o hi lo v).goal = x.goal ∧
      (x.put o hi lo v).purHold = x.purHold ∧ (x.put o hi lo v).out = x.out := ⟨rfl, rfl, rfl, rfl, rfl⟩

@[simp] theorem Steady.rest_aim (x : Steady) (d : Nat) (g : Option (Nat × Bool)) :
    (x.aim d g).time = x.time ∧ (x.aim d g).edges = x.edges ∧ (x.aim d g).word = x.word ∧
      (x.aim d g).purHold = x.purHold ∧ (x.aim d g).out = x.out := ⟨rfl, rfl, rfl, rfl, rfl⟩

@[simp] theorem Steady.rest_cut (x : Steady) (l : Nat) :
    (x.cut l).time = x.time ∧ (x.cut l).edges = x.edges ∧ (x.cut l).word = x.word ∧ (x.cut l).goal = x.goal ∧
      (x.cut l).purHold = x.purHold := ⟨rfl, rfl, rfl, rfl, rfl⟩

theorem Steady.fld_put_same (x : Steady) (o : Nat) {hi lo v : Nat} (h : hi < 32) (hv : v < 2 ^ (hi + 1 - lo)) :
    (x.put o hi lo v).fld o hi lo = v := by
  rw [Steady.fld, Steady.word_put, if_pos rfl, wfld_wput_same _ h hv]

/-- A field that a write of another, or of another register, does not meet. -/
theorem Steady.fld_put_ne (x : Steady) {o p hi lo hi' lo' : Nat} (v : Nat) (h : hi < 32)
    (hd : p ≠ o ∨ hi < lo' ∨ hi' < lo) : (x.put o hi' lo' v).fld p hi lo = x.fld p hi lo := by
  rw [Steady.fld, Steady.word_put]
  split
  · next hp => subst hp; exact wfld_wput_ne _ v h (hd.resolve_left (· rfl))
  · rfl

theorem Steady.fld_put_bit (x : Steady) (o : Nat) {i v : Nat} (h : i < 32) (hv : v < 2) : (x.put o i i v).fld o i i = v :=
  x.fld_put_same o h (by simpa using hv)

@[simp] theorem Steady.fld_aim (x : Steady) (d : Nat) (g : Option (Nat × Bool)) (o hi lo : Nat) :
    (x.aim d g).fld o hi lo = x.fld o hi lo := rfl

@[simp] theorem Steady.fld_cut (x : Steady) (l o hi lo : Nat) : (x.cut l).fld o hi lo = x.fld o hi lo := rfl

/-- A field written as it was. -/
theorem Steady.put_fld (x : Steady) (o hi lo : Nat) : x.put o hi lo (x.fld o hi lo) = x := by
  unfold Steady.put Steady.fld
  rw [wput_wfld]
  congr 1
  funext p
  split
  · next h => rw [h]
  · rfl

theorem steadyReg_pd {d : Nat} (h : d < 72) : steadyReg (rPd d) = true := by
  have h1 : decide (0x20100 ≤ rPd d) = true := decide_eq_true (by unfold rPd; omega)
  have h2 : decide (rPd d < 0x20220) = true := decide_eq_true (by unfold rPd; omega)
  simp only [steadyReg, h1, h2, Bool.and_self, Bool.or_true]

theorem rd_eq_steady (s : State) {o : Nat} (h : steadyReg o = true) : rd s o = (parts s).1.word o := by
  rw [parts_def]
  simp [wordsOf, h, rd]

theorem rdFld_eq_steady (s : State) {o : Nat} (h : steadyReg o = true) (hi lo : Nat) :
    rdFld s o hi lo = (parts s).1.fld o hi lo := by
  rw [rdFld, rd_eq_steady s h, Steady.fld]

theorem steady_wr_at (s : State) {o : Nat} (h : steadyReg o = true) (v : Word) :
    (parts (wr s o v)).1 = { (parts s).1 with word := fun p => if p = o then v else (parts s).1.word p } := by
  have e : wordsOf steadyReg (tput (resetWord o) o v s.regs) =
      fun p => if p = o then v else wordsOf steadyReg s.regs p := by
    funext p
    by_cases hp : p = o
    · subst hp; simp [wordsOf, h]
    · simp [wordsOf, tget_tput_other _ _ hp, hp]
  rw [wr, parts_mk, parts_def, e]

@[simp] theorem steady_put (s : State) {o : Nat} (h : steadyReg o = true) (hi lo v : Nat) :
    (parts (wrFld s o hi lo v)).1 = (parts s).1.put o hi lo v := by
  rw [wrFld, steady_wr_at _ h, rd_eq_steady s h, Steady.put]

@[simp] theorem steady_flag (s : State) {o : Nat} (h : steadyReg o = true) (i : Nat) :
    (parts (setFlag s o i)).1 = (parts s).1.put o i i 1 := by
  rw [setFlag, steady_wr_at _ h, rd_eq_steady s h, Steady.put, wput_bit_one]

theorem time_eq_steady (s : State) : s.time = (parts s).1.time := by rw [parts_def]
theorem edges_eq_steady (s : State) : s.edges = (parts s).1.edges := by rw [parts_def]
theorem goalOf_eq_steady (s : State) (d : Nat) : goalOf s d = tget none (parts s).1.goal d := by rw [parts_def]; rfl
theorem out_eq_steady (s : State) (l : Nat) : (getLand s l).out = (parts s).1.out l := by rw [parts_def]; rfl

theorem domState_eq_steady (s : State) {d : Nat} (h : d < 72) : domState s d = (parts s).1.fld (rPd d) 3 2 :=
  rdFld_eq_steady s (steadyReg_pd h) 3 2

theorem pdReq_eq_steady (s : State) {d : Nat} (h : d < 72) : pdReq s d = (parts s).1.fld (rPd d) 1 0 :=
  rdFld_eq_steady s (steadyReg_pd h) 1 0

theorem rPd_inj {d k : Nat} : rPd d = rPd k ↔ d = k := by
  unfold rPd
  omega

/-! ## Transitions -/

/-- A domain that comes to a state. -/
theorem steady_setDom (s : State) {d v : Nat} (hd : d < 72) :
    (parts (setDom s d v)).1 = (parts s).1.put (rPd d) 3 2 v := by
  have h := steadyReg_pd hd
  by_cases hv : domState s d = v
  · rw [setDom, if_pos hv, ← hv, domState_eq_steady s hd, Steady.put_fld]
  · simp [setDom, hv, h]

theorem steady_forceDom (s : State) {d v : Nat} (hd : d < 72) :
    (parts (forceDom s d v)).1 = (((parts s).1.aim d none).put (rPd d) 3 2 v).put (rPd d) 6 6 0 := by
  have h := steadyReg_pd hd
  rw [forceDom, steady_put _ h, steady_setDom _ hd, setPwr, parts_mk, parts_def s]
  rfl

theorem steady_setSref (s : State) {d : Nat} (hd : d < 72) (b : Bool) :
    (parts (setSref s d b)).1 = (parts s).1.put (rPd d) 5 5 (b2n b) := by
  have h := steadyReg_pd hd
  simp [setSref, h]

/-- The mark of a cut-out. -/
def markOut (s : State) (l : Nat) : State := setLand s l { getLand s l with out := true, standFor := none }

theorem steady_markOut (s : State) (l : Nat) : (parts (markOut s l)).1 = (parts s).1.cut l := by
  have e : outOf (tput {} l { getLand s l with out := true, standFor := none } s.lands) =
      fun k => k == l || outOf s.lands k := by
    funext k
    unfold outOf
    by_cases hk : k = l
    · subst hk; simp
    · simp [tget_tput_ne _ hk, hk]
  rw [markOut, setLand, parts_mk, e, parts_def]
  rfl

/-- The launcher of a landing that was cut out, and of the landing it stood in for. -/
def giveLaunchers (s : State) (l : Nat) (other : Option Nat) (failed : Bool) : State :=
  let s := giveLauncher s l failed
  match other with
  | some h => giveLauncher s h (landFailed s h)
  | none => s

@[simp] theorem parts_giveLaunchers (s : State) (l : Nat) (other : Option Nat) (failed : Bool) :
    parts (giveLaunchers s l other failed) = parts s := by
  cases other <;> simp [giveLaunchers]

/-- A landing marked as cut out, with the notices and the credit that go with it. -/
def leaveCrossing (s : State) (l : Nat) : State :=
  let ready := shReady s
  let s := markOut (dropReloads (endStep (abandonLap s)) fun r => r.land == l) l
  updHolds (noticeHold (clearCredit (freeShadows s fun x => x.land == l || (!ready && x.home == l && circulating s x.ver))))

theorem steady_leaveCrossing (s : State) (l : Nat) : (parts (leaveCrossing s l)).1 = (parts s).1.cut l := by
  simp [leaveCrossing, steady_markOut]

theorem cutLanding_eq (s : State) (l : Nat) (failed : Bool) :
    cutLanding s l failed =
      let closes := canSpan s l
      let t := leaveCrossing s l
      let t := if closes then setFlag t rCrsCause 2 else t
      if !isReady t ∨ !closes then t
      else giveLaunchers t l (getLand (endStep (abandonLap s)) l).standFor failed := rfl

/-- A cut-out. -/
theorem steady_cutLanding (s : State) (l : Nat) (failed : Bool) :
    (parts (cutLanding s l failed)).1 = (parts s).1.cut l := by
  simp [cutLanding_eq, steady_leaveCrossing]

theorem steady_forceLandOff (s : State) {l : Nat} (hl : l < 32) :
    (parts (forceLandOff s l)).1 =
      ((((((parts s).1.put (rPd (32 + l)) 5 5 0).aim l none).put (rPd l) 3 2 0).put (rPd l) 6 6 0).aim (32 + l)
        none |>.put (rPd (32 + l)) 3 2 0).put (rPd (32 + l)) 6 6 0 := by
  rw [forceLandOff, steady_loseStacks, steady_forceDom _ (by omega), steady_forceDom _ (by omega),
    steady_setSref _ (by omega)]
  rfl

/-- A lost landing's code, and the end of its rejoin. -/
def noteLost (s : State) (l code : Nat) : State :=
  let s := wrFld s (0x60 + 4 * (l / 4)) (8 * (l % 4) + 7) (8 * (l % 4)) code
  wrFld { s with boot := { s.boot with rejoins := tput false l false s.boot.rejoins } } 0x54 l l 0

theorem parts_noteLost (s : State) {l : Nat} (code : Nat) (hl : l < 32) : parts (noteLost s l code) = parts s := by
  have hc : tracked (0x60 + 4 * (l / 4)) = false := by
    simp only [tracked, steadyReg, storedReg, Bool.or_eq_false_iff, Bool.and_eq_false_iff, beq_eq_false_iff_ne,
      decide_eq_false_iff_not]
    omega
  have h54 : tracked 0x54 = false := by decide
  rw [noteLost, parts_wrFld _ h54, parts_mk, ← parts_def, parts_wrFld _ hc]

/-- A lost landing out of the crossing, and GLB.LFAIL. -/
def markLost (s : State) (l : Nat) : State :=
  let open' := liveLand s l && !canSpan s l
  let s := loseReqs s l
  let s := if liveLand s l then cutLanding s l true else s
  let s := setFlag (setFlag s rLfail l) 0x30 0
  if open' then moduleFatal (setFlag s rCrsCause 3) 3 l else s

theorem landingFatal_eq (s : State) (l code : Nat) :
    landingFatal s l code =
      if absentLand s l ∨ landDead s l then s
      else forceLandOff (releaseLand (markLost (noteLost s l code) l) l) l := rfl

theorem steady_markLost (s : State) (l : Nat) :
    ∃ x, (x = (parts s).1 ∨ x = (parts s).1.cut l) ∧ (parts (markLost s l)).1 = x.put rLfail l l 1 := by
  have hf : steadyReg rLfail = true := by decide
  refine ⟨(parts (if liveLand (loseReqs s l) l then cutLanding (loseReqs s l) l true else loseReqs s l)).1, ?_, ?_⟩
  · rw [parts_ite, steady_ite, steady_cutLanding, parts_loseReqs]
    split
    · exact .inr rfl
    · exact .inl rfl
  · dsimp only [markLost]
    generalize (if liveLand (loseReqs s l) l then cutLanding (loseReqs s l) l true else loseReqs s l) = t
    split <;> simp [hf]

/-- The loss of a landing: GLB.LFAIL, its cut-out and its domains. -/
theorem steady_landingFatal (s : State) {l : Nat} (code : Nat) (hl : l < 32)
    (h : ¬ (absentLand s l = true ∨ landDead s l = true)) :
    ∃ x, (x = (parts s).1 ∨ x = (parts s).1.cut l) ∧ (parts (landingFatal s l code)).1 =
      (((((((x.put rLfail l l 1).put (rPd (32 + l)) 5 5 0).aim l none).put (rPd l) 3 2 0).put (rPd l) 6 6 0).aim (32 + l)
        none).put (rPd (32 + l)) 3 2 0).put (rPd (32 + l)) 6 6 0 := by
  obtain ⟨x, hx, e⟩ := steady_markLost (noteLost s l code) l
  rw [parts_noteLost s code hl] at hx
  exact ⟨x, hx, by rw [landingFatal_eq, if_neg h, steady_forceLandOff _ hl, steady_releaseLand, e]⟩

end Sys2Proof.Laws
end

section
/-! One step of the model on an empty queue: one edge of TIMECLK, and the landings whose deckhand met an error in its code. -/

namespace Sys2Proof.Laws

open Sys2Proof Sys2Proof.Machine Sys2Proof.Claims

/-! ## An edge of TIMECLK -/

/-- The state but for the time: an edge of TIMECLK changes time and the time unit alone. -/
theorem timeTick_eq (s : State) :
    timeTick s = { s with time := (timeTick s).time, edges := s.edges + 1, xpt := (timeTick s).xpt } := by
  unfold timeTick holdRate
  split <;> rfl

/-- The time moves on by one unless it slews. -/
theorem time_timeTick (s : State) (hs : s.xpt.slew = 0) (hh : inTime s .holdover = false) :
    (timeTick s).time = s.time + 1 := by
  have h : holdRate s = s := by simp [holdRate, hh]
  simp [timeTick, h, hs]

/-! ## The landings that an edge loses -/

/-- A lost landing's uncore is OFF and its bit of GLB.LFAIL is set. -/
def Lost (s : State) (l : Nat) : Prop := landFailed s l = true ∧ domState s (32 + l) = 0

theorem lost_iff (s : State) {l : Nat} (hl : l < 32) :
    Lost s l ↔ (parts s).1.fld rLfail l l = 1 ∧ (parts s).1.fld (rPd (32 + l)) 3 2 = 0 := by
  rw [Lost, landFailed, domState_eq_steady s (by omega), rdFld_eq_steady s (by decide), beq_iff_eq]
  rfl

theorem lost_landingFatal (s : State) {l : Nat} (code : Nat) (hl : l < 32) (h : absentLand s l = false) :
    Lost (landingFatal s l code) l := by
  by_cases hd : landDead s l = true
  · rw [landingFatal, if_pos (.inr hd)]
    simp only [landDead, Bool.and_eq_true, beq_iff_eq] at hd
    exact ⟨hd.1.1.1.1, hd.2⟩
  · obtain ⟨x, -, e⟩ := steady_landingFatal s code hl (by simp [h, hd])
    rw [lost_iff _ hl, e]
    simp only [rPd, rLfail]
    simp (disch := omega) only [Steady.fld_aim, Steady.fld_put_bit, Steady.fld_put_same, Steady.fld_put_ne, and_self]

theorem absentLand_landingFatal (s : State) (l code k : Nat) :
    absentLand (landingFatal s l code) k = absentLand s k := by
  rw [absentLand, fuses_eq_of_ident (ident_landingFatal s l code), absentLand]

/-- The loss of a landing keeps another one's. -/
theorem Lost.landingFatal {s : State} {m : Nat} (h : Lost s m) (hm : m < 32) {l : Nat} (code : Nat) (hl : l < 32) :
    Lost (landingFatal s l code) m := by
  by_cases hd : absentLand s l = true ∨ landDead s l = true
  · rwa [Machine.landingFatal, if_pos hd]
  · by_cases hml : m = l
    · subst hml
      exact lost_landingFatal s code hm (Bool.eq_false_iff.mpr fun ha => hd (.inl ha))
    · obtain ⟨x, hx, e⟩ := steady_landingFatal s code hl hd
      have hx' : ∀ o hi lo, x.fld o hi lo = (parts s).1.fld o hi lo := by
        rcases hx with rfl | rfl <;> simp
      rw [lost_iff _ hm] at h ⊢
      simp only [e, rPd, rLfail] at h ⊢
      simp (disch := omega) only [Steady.fld_aim, Steady.fld_put_ne, hx']
      exact h

/-- Each landing of a list is lost, whichever are lost before it and after it. -/
theorem lost_foldl (code : Nat) {l : Nat} (hl : l < 32) {xs : List Nat} (hx : ∀ m ∈ xs, m < 32) {s : State}
    (h : Lost s l ∨ l ∈ xs ∧ absentLand s l = false) : Lost (xs.foldl (fun s m => landingFatal s m code) s) l := by
  induction xs generalizing s with
  | nil => exact h.resolve_right (by simp)
  | cons m xs ih =>
    obtain ⟨hm, hx⟩ := List.forall_mem_cons.mp hx
    refine ih hx ?_
    obtain h | ⟨h, ha⟩ := h
    · exact .inl (h.landingFatal hl code hm)
    · obtain rfl | h := List.mem_cons.mp h
      · exact .inl (lost_landingFatal s code hl ha)
      · exact .inr ⟨h, by rw [absentLand_landingFatal, ha]⟩

/-- The loss of a landing takes no time. -/
theorem time_landingFatal (s : State) {l : Nat} (code : Nat) (hl : l < 32) :
    (landingFatal s l code).time = s.time ∧ (landingFatal s l code).edges = s.edges := by
  by_cases hd : absentLand s l = true ∨ landDead s l = true
  · rw [landingFatal, if_pos hd]
    exact ⟨rfl, rfl⟩
  · obtain ⟨x, hx, e⟩ := steady_landingFatal s code hl hd
    rw [time_eq_steady, edges_eq_steady, e, time_eq_steady s, edges_eq_steady s]
    rcases hx with rfl | rfl <;> simp

theorem time_foldl_landingFatal (code : Nat) {xs : List Nat} (hx : ∀ m ∈ xs, m < 32) (s : State) :
    (xs.foldl (fun s m => landingFatal s m code) s).time = s.time ∧
      (xs.foldl (fun s m => landingFatal s m code) s).edges = s.edges := by
  induction xs generalizing s with
  | nil => simp
  | cons m xs ih =>
    obtain ⟨hm, hx⟩ := List.forall_mem_cons.mp hx
    have h := time_landingFatal s code hm
    rw [List.foldl_cons, (ih hx _).1, (ih hx _).2, h.1, h.2]
    simp

/-- The landings that an edge loses. -/
theorem mem_badLands (s : State) (l : Nat) :
    l ∈ (presentLands s).filter (deckhandBad s) ↔ l < 32 ∧ absentLand s l = false ∧ deckhandBad s l = true := by
  simp only [presentLands, upto, List.mem_filter, List.mem_range, Bool.not_eq_true', and_assoc]

/-- With no landing to lose an edge is a tick of time. -/
theorem tick_of_good (s : State) (h : ∀ l < 32, deckhandBad s l = false) : tick s = timeTick s := by
  have e : (presentLands (timeTick s)).filter (deckhandBad (timeTick s)) = [] := by
    refine List.eq_nil_iff_forall_not_mem.mpr fun l hl => ?_
    obtain ⟨h1, -, h2⟩ := (mem_badLands _ l).mp hl
    have h3 : deckhandBad (timeTick s) l = deckhandBad s l := by rw [timeTick_eq]; rfl
    rw [h3, h l h1] at h2
    exact Bool.noConfusion h2
  rw [tick, loseDeckhands, e]
  rfl

theorem time_tick (s : State) : (tick s).time = (timeTick s).time ∧ (tick s).edges = s.edges + 1 := by
  obtain ⟨h1, h2⟩ := time_foldl_landingFatal 4 (fun m hm => ((mem_badLands (timeTick s) m).mp hm).1) (timeTick s)
  exact ⟨h1, h2.trans (by rw [timeTick_eq])⟩

theorem pending_tick (s : State) : (tick s).pending = s.pending := by
  have h : ident (tick s) = ident (timeTick s) := by simp [tick, loseDeckhands]
  rw [pending_eq_of_ident h, timeTick_eq]

theorem lost_tick (s : State) {l : Nat} (hl : l < 32) (ha : absentLand s l = false) (hb : deckhandBad s l = true) :
    Lost (tick s) l := by
  have e : absentLand (timeTick s) l = absentLand s l ∧ deckhandBad (timeTick s) l = deckhandBad s l := by
    rw [timeTick_eq]
    exact ⟨rfl, rfl⟩
  refine lost_foldl 4 hl (fun m hm => ((mem_badLands _ m).mp hm).1) (.inr ⟨(mem_badLands _ l).mpr ⟨hl, ?_, ?_⟩, ?_⟩)
  · rw [e.1, ha]
  · rw [e.2, hb]
  · rw [e.1, ha]

/-- Settles O57: the queue's front by the definition of `step`, an empty queue by the lemmas about `tick`. -/
theorem stepRunsFront : Obligations.StepRunsFront := by
  refine ⟨fun c rest s => rfl, fun s h => ⟨tick s, by simp [step, h], ?_, (time_tick s).2, ?_, ?_, ?_⟩, fun _ _ _ => rfl⟩
  · rw [pending_tick, h]
  · intro hb
    rw [tick_of_good s hb, timeTick_eq]
    exact ⟨rfl, rfl, rfl⟩
  · exact fun l hl ha hb => lost_tick s hl ha hb
  · intro hs hh
    rw [(time_tick s).1, time_timeTick s hs hh]

end Sys2Proof.Laws
end

section
/-! Transitions of power domains: requests, and what arrays and uncores lose and take. -/

namespace Sys2Proof.Laws

open Sys2Proof Sys2Proof.Machine Sys2Proof.Claims

/-! ## Ranges of a table -/

theorem tget_tclear {α : Type} (d : α) (t : Tab α) (lo n k : Nat) :
    tget d (tclear t lo n) k = if lo ≤ k ∧ k < lo + n then d else tget d t k := by
  induction t with
  | nil => simp [tclear]
  | cons e r ih =>
    obtain ⟨j, v⟩ := e
    have ih' := ih
    simp only [tclear] at ih ⊢
    by_cases hj : lo ≤ j ∧ j < lo + n
    · rw [List.filter_cons_of_neg (by simp [hj]), ih]
      by_cases hk : j = k
      · subst hk; simp [hj]
      · simp [tget, hk]
    · rw [List.filter_cons_of_pos (by simpa [imp_iff_not_or] using hj)]
      by_cases hk : j = k
      · subst hk; simp [tget, hj]
      · simp only [tget, if_neg hk, ih]

theorem getByte_scrubRange (s : State) (k n x : Nat) :
    getByte (scrubRange s k n) x = if k ≤ x ∧ x < k + n then 0 else getByte s x := tget_tclear _ _ _ _ _

/-- An entry in the range of a change that does not make it a default. -/
theorem tget_mapRange {α : Type} [DecidableEq α] (d : α) {f : α → α} (t : Tab α) {lo n k : Nat} (hk : lo ≤ k ∧ k < lo + n)
    (hd : f d = d) (hf : f (tget d t k) ≠ d) : tget d (mapRange d t lo n f) k = f (tget d t k) := by
  induction t with
  | nil => exact absurd hd hf
  | cons e r ih =>
    obtain ⟨j, v⟩ := e
    unfold mapRange at ih ⊢
    by_cases hj : j = k
    · subst hj
      simp only [tget, if_true] at hf ⊢
      rw [List.filterMap_cons_some (b := (j, f v)) (by simp [hk, hf])]
      simp [tget]
    · simp only [tget, if_neg hj] at hf ⊢
      rw [← ih hf]
      rw [List.filterMap_cons]
      split
      · rfl
      · next x h =>
        have hx : x.1 ≠ k := by
          split at h
          · split at h
            · cases h
            · cases h; exact hj
          · cases h; exact hj
        simp [tget, hx]

/-! ## Arrays -/

theorem mem_eq_parts (s : State) : s.mem = (parts s).2.mem := by rw [parts_def]
theorem threads_eq_parts (s : State) : s.threads = (parts s).2.threads := by rw [parts_def]
theorem getByte_eq_parts (s : State) (k : Nat) : getByte s k = tget 0 (parts s).2.mem k := by rw [← mem_eq_parts]; rfl

theorem mem_abandonLap (s : State) : (abandonLap s).mem = s.mem := by
  have h : (emptyTrains s).mem = s.mem := by rw [mem_eq_parts, parts_emptyTrains, ← mem_eq_parts]
  unfold abandonLap
  dsimp only
  split
  · rw [setFlag_mem, h]
  · exact h

theorem mem_arrayLeaves (s : State) (l : Nat) : (arrayLeaves s l).mem = s.mem := by
  have h : (loseReqs (loseLeaves s l) l).mem = s.mem := by
    rw [mem_eq_parts, parts_loseReqs, parts_loseLeaves, ← mem_eq_parts]
  have h' : (if (loseReqs (loseLeaves s l) l).crs.inLap = true then abandonLap (loseReqs (loseLeaves s l) l)
      else loseReqs (loseLeaves s l) l).mem = s.mem := by
    split
    · rw [mem_abandonLap, h]
    · exact h
  unfold arrayLeaves
  dsimp only
  generalize (if (loseReqs (loseLeaves s l) l).crs.inLap = true then abandonLap (loseReqs (loseLeaves s l) l)
    else loseReqs (loseLeaves s l) l) = t at h' ⊢
  split
  · rw [mem_eq_parts, parts_setStandIn, ← mem_eq_parts]
    exact h'
  · exact h'

/-- What an array that goes OFF scrubs. -/
theorem scrubs_arrayOff (s : State) (l : Nat) :
    (arrayOff s l).mem = tclear (tclear s.mem (memKey l 1 0) (2 ^ 32)) (memKey l 2 0) (2 ^ 25) ∧
      (arrayOff s l).threads = tclear s.threads (4096 * l) 4096 := by
  rw [mem_eq_parts, threads_eq_parts]
  simp only [arrayOff, parts_updHold, parts_grantGroups, parts_dropRegs_blocks, parts_setLand]
  rw [← mem_eq_parts, ← threads_eq_parts]
  exact ⟨rfl, rfl⟩

theorem getByte_arrayOff (s : State) (l k : Nat) :
    getByte (arrayOff s l) k =
      if memKey l 2 0 ≤ k ∧ k < memKey l 2 0 + 2 ^ 25 then 0
      else if memKey l 1 0 ≤ k ∧ k < memKey l 1 0 + 2 ^ 32 then 0 else getByte s k := by
  rw [getByte, (scrubs_arrayOff s l).1, tget_tclear, tget_tclear]
  rfl

theorem getByte_arrayOff_scratchpad (s : State) (l : Nat) {off : Nat} (h : off < 2 ^ 32) :
    getByte (arrayOff s l) (memKey l 1 off) = 0 := by
  rw [getByte_arrayOff, if_neg (by unfold memKey; omega), if_pos (by unfold memKey; omega)]

theorem getByte_arrayOff_scalar (s : State) (l : Nat) {off : Nat} (h : off < 2 ^ 25) :
    getByte (arrayOff s l) (memKey l 2 off) = 0 := by
  rw [getByte_arrayOff, if_pos (by unfold memKey; omega)]

theorem getByte_arrayOff_stack (s : State) (l : Nat) {off : Nat} (h : off < 2 ^ 44) :
    getByte (arrayOff s l) (memKey l 0 off) = getByte s (memKey l 0 off) := by
  rw [getByte_arrayOff, if_neg (by unfold memKey; omega), if_neg (by unfold memKey; omega)]

/-- The keys of the threads of a landing's cores. -/
theorem thrKey_core (l : Fin 32) (c : Fin 256) (t : Fin 16) :
    4096 * l.val ≤ thrKey (.core l c t) ∧ thrKey (.core l c t) < 4096 * l.val + 4096 := by
  have h : thrKey (.core l c t) = (l.val * 256 + c.val) * 16 + t.val := rfl
  omega

theorem getThr_arrayOff (s : State) (l : Fin 32) (c : Fin 256) (t : Fin 16) :
    getThr (arrayOff s l) (.core l c t) = {} := by
  rw [getThr, (scrubs_arrayOff s l).2, tget_tclear, if_pos (thrKey_core l c t)]

theorem getThr_arrayEnters (s : State) (l : Fin 32) (c : Fin 256) (t : Fin 16)
    (h : (getThr s (.core l c t)).due = true) : (getThr (arrayEnters s l) (.core l c t)).st = .ready := by
  unfold getThr at h ⊢
  unfold arrayEnters
  dsimp only
  rw [show (setLand s l.val _).threads = s.threads from rfl, tget_mapRange _ _ (thrKey_core l c t) (by decide)]
  · rw [if_pos h]
  · rw [if_pos h]
    intro e
    exact TState.noConfusion (congrArg Thread.st e)

/-- A written VCORE is the rail's, or AVSERR shows that the rail did not acknowledge it. -/
theorem vcore_writeVcore (s : State) (l mv : Nat) (a b : Bool) :
    tget 0 (writeVcore s l mv a b).pwr.vcore l = mv ∨
      tget 0 (writeVcore s l mv a b).pwr.vcore l = tget 0 s.pwr.vcore l ∧
        rdFld (writeVcore s l mv a b) 0x20000 2 2 = 1 := by
  cases a
  · cases b
    · refine .inr ⟨rfl, ?_⟩
      simp only [writeVcore, avs, Bool.false_eq_true, if_false]
      exact rdFld_setFlag_same _ _ (by omega)
    · left; simp [writeVcore, avs, emit]
  · left; simp [writeVcore, avs, emit]

theorem vcore_setVcore (s : State) (l : Nat) :
    tget 0 (setVcore s l).pwr.vcore l = tget 750 s.fuses.vcore l ∨
      tget 0 (setVcore s l).pwr.vcore l = tget 0 s.pwr.vcore l ∧ rdFld (setVcore s l) 0x20000 2 2 = 1 :=
  vcore_writeVcore _ l _ _ _

theorem arrayEnters_kept (s : State) (l : Nat) :
    (arrayEnters s l).pwr = s.pwr ∧ ∀ o hi lo, rdFld (arrayEnters s l) o hi lo = rdFld s o hi lo :=
  ⟨rfl, fun _ _ _ => rfl⟩

/-! ## Uncores -/

/-- What follows the loss of the stacks of an uncore that leaves ON. -/
def uncoreGone (s : State) (l : Nat) : State :=
  let x := getLand s l
  let s := setLand s l { out := x.out, standFor := x.standFor }
  let s := { s with boot := { s.boot with deckhands := sdel l s.boot.deckhands } }
  noticeHold { s with crs := { s.crs with shadows := s.crs.shadows.filter fun e => e.land != l } }

theorem parts_uncoreGone (s : State) (l : Nat) : parts (uncoreGone s l) = parts s := by
  simp only [uncoreGone, parts_noticeHold, parts_mk, steady_eta, stored_eta, parts_setLand]

/-- The stacks of an uncore that leaves ON without self-refresh. -/
theorem uncoreLeaves_eq (s : State) (l : Nat) : ∃ t, uncoreLeaves s l false = uncoreGone (loseStacks t l) l := ⟨_, rfl⟩

theorem getByte_uncoreLeaves_stack (s : State) (l : Nat) {off : Nat} (h : off < 2 ^ 44) :
    getByte (uncoreLeaves s l false) (memKey l 0 off) = 0 := by
  obtain ⟨t, e⟩ := uncoreLeaves_eq s l
  rw [e, getByte_eq_parts, parts_uncoreGone, ← getByte_eq_parts, loseStacks, getByte_scrubRange,
    if_pos (by unfold stackKey memKey; omega)]

theorem getByte_uncoreEnters_stack (s : State) (l : Nat) {off : Nat} (h : off < 2 ^ 44) :
    getByte (uncoreEnters s l true) (memKey l 0 off) = getByte s (memKey l 0 off) := by
  have e : (uncoreEnters s l true).mem = (arrayOff s l).mem := by simp [uncoreEnters]
  rw [← getByte_arrayOff_stack s l h, getByte, getByte, e]

theorem mem_sadd (n : Nat) (xs : List Nat) : n ∈ sadd n xs := by
  induction xs with
  | nil => simp [sadd]
  | cons m r ih =>
    unfold sadd
    split
    · simp
    · split
      · next h => simp [h]
      · exact List.mem_cons_of_mem _ ih

theorem deckhands_uncoreEnters (s : State) (l : Nat) (sref : Bool) : l ∈ (uncoreEnters s l sref).boot.deckhands :=
  mem_sadd l _

/-! ## The states of a domain -/

section
variable {s : State} {l v : Nat} (hl : l < 32)
include hl

theorem setDom_array (h : domState s l ≠ v) :
    setDom s l v =
      let t := wrFld s (rPd l) 3 2 v
      let t := if domState s l = 2 then arrayLeaves t l else t
      let t := if v = 0 then arrayOff t l else t
      let t := if domState s l = 0 then setVcore t l else t
      if v = 2 then arrayEnters t l else t := by
  rw [setDom, if_neg h, if_pos hl]

theorem setDom_array_off (h : domState s l ≠ 0) : ∃ t, setDom s l 0 = arrayOff t l := by
  rw [setDom_array hl h]
  simp only [if_true, if_neg h, OfNat.zero_ne_ofNat, if_false]
  exact ⟨_, rfl⟩

theorem mem_setDom_array_stop : (setDom s l 1).mem = s.mem := by
  by_cases h : domState s l = 1
  · rw [setDom, if_pos h]
  · rw [setDom_array hl h]
    simp only [one_ne_zero, if_false, OfNat.one_ne_ofNat]
    have h1 : (if domState s l = 2 then arrayLeaves (wrFld s (rPd l) 3 2 1) l else wrFld s (rPd l) 3 2 1).mem = s.mem := by
      split
      · rw [mem_arrayLeaves, wrFld_mem]
      · rfl
    split
    · rw [mem_eq_parts, parts_setVcore, ← mem_eq_parts, h1]
    · exact h1

theorem vcore_setDom_array (h : domState s l = 0) (hv : v ≠ 0) :
    tget 0 (setDom s l v).pwr.vcore l = tget 750 s.fuses.vcore l ∨
      tget 0 (setDom s l v).pwr.vcore l = tget 0 s.pwr.vcore l ∧ rdFld (setDom s l v) 0x20000 2 2 = 1 := by
  rw [setDom_array hl (by omega)]
  simp only [h, OfNat.zero_ne_ofNat, if_false, hv, if_true]
  have hw := vcore_setVcore (wrFld s (rPd l) 3 2 v) l
  rw [wrFld_fuses, wrFld_pwr] at hw
  split
  · rw [(arrayEnters_kept _ l).1, (arrayEnters_kept _ l).2]
    exact hw
  · exact hw

/-- An array that boards. -/
theorem setDom_array_boards (h : domState s l ≠ 2) :
    ∃ t, setDom s l 2 = arrayEnters t l ∧ t.threads = s.threads ∧ t.edges = s.edges := by
  refine ⟨if domState s l = 0 then setVcore (wrFld s (rPd l) 3 2 2) l else wrFld s (rPd l) 3 2 2, ?_, ?_, ?_⟩
  · rw [setDom_array hl h]
    dsimp only
    rw [if_neg h]
    rfl
  · split
    · rw [threads_eq_parts, parts_setVcore, ← threads_eq_parts, wrFld_threads]
    · rfl
  · split
    · rw [edges_eq_steady, parts_setVcore, ← edges_eq_steady]
      rfl
    · rfl

/-- An array that boards starts CYCLE, and its threads that are due are READY. -/
theorem boards_setDom_array (h : domState s l ≠ 2) :
    (getLand (setDom s l 2) l).onEdge = s.edges ∧
      ∀ l' c t, l'.val = l → (getThr s (.core l' c t)).due = true →
        (getThr (setDom s l 2) (.core l' c t)).st = .ready := by
  obtain ⟨t, e, ht, he⟩ := setDom_array_boards hl h
  rw [e, ← he]
  refine ⟨by simp [arrayEnters, getLand, setLand], fun l' c i hl' hd => ?_⟩
  subst hl'
  refine getThr_arrayEnters t l' c i ?_
  rw [getThr, ht]
  exact hd

theorem setDom_uncore (h : domState s (32 + l) ≠ v) :
    setDom s (32 + l) v =
      let t := wrFld s (rPd (32 + l)) 3 2 v
      let t := if domState s (32 + l) = 2 then uncoreLeaves t l (srefSt t (32 + l)) else t
      if v = 2 then uncoreEnters t l (srefSt t (32 + l)) else t := by
  rw [setDom, if_neg h, if_neg (by omega), if_pos (by omega), Nat.add_sub_cancel_left]

omit hl in
/-- The state of a domain and its self-refresh are apart. -/
theorem srefSt_wrFld_state {d : Nat} (hd : d < 72) : srefSt (wrFld s (rPd d) 3 2 v) d = srefSt s d := by
  have h := steadyReg_pd hd
  rw [srefSt, srefSt, rdFld_eq_steady _ h, rdFld_eq_steady _ h, steady_put _ h, Steady.fld_put_ne _ _ (by omega) (by omega)]

/-- An uncore that leaves ON without self-refresh has lost its stacks. -/
theorem getByte_setDom_uncore_leaves (h : domState s (32 + l) = 2) (hv : v ≠ 2) (hs : srefSt s (32 + l) = false)
    {off : Nat} (ho : off < 2 ^ 44) : getByte (setDom s (32 + l) v) (memKey l 0 off) = 0 := by
  rw [setDom_uncore hl (by omega)]
  simp only [h, if_true, if_neg hv, srefSt_wrFld_state (s := s) (by omega : 32 + l < 72), hs]
  exact getByte_uncoreLeaves_stack _ l ho

/-- An uncore that boards: its deckhand, and its stacks where they were in self-refresh. -/
theorem boards_setDom_uncore (h : domState s (32 + l) ≠ 2) :
    l ∈ (setDom s (32 + l) 2).boot.deckhands ∧ (srefSt s (32 + l) = true → ∀ off < 2 ^ 44,
      getByte (setDom s (32 + l) 2) (memKey l 0 off) = getByte s (memKey l 0 off)) := by
  rw [setDom_uncore hl h]
  simp only [if_true, if_neg h, srefSt_wrFld_state (s := s) (by omega : 32 + l < 72)]
  refine ⟨deckhands_uncoreEnters _ _ _, fun hs off ho => ?_⟩
  rw [hs, getByte_uncoreEnters_stack _ l ho, getByte_of_wrFld]

end

end Sys2Proof.Laws
end

section
/-! Requests and transitions of power domains (R41, R45, R502 to R505): what a request is answered with, and what a transition
that completes leaves. -/

namespace Sys2Proof.Laws

open Sys2Proof Sys2Proof.Machine Sys2Proof.Claims

/-! ## The start of a transition -/

/-- The start of a transition is in register words and in the move of its domain. -/
theorem startMove_rest (s : State) (d : Nat) :
    ∃ r g, startMove s d = { s with regs := r, pwr := { s.pwr with goal := g } } := by
  unfold startMove
  split
  · exact ⟨_, _, rfl⟩
  · split
    · exact ⟨_, _, rfl⟩
    · exact ⟨_, _, rfl⟩

theorem rd_startMove (s : State) {d o : Nat} (h : o ≠ rPd d) : rd (startMove s d) o = rd s o := by
  unfold startMove
  split
  · rfl
  · split
    · exact rd_wr_ne s h _
    · exact rd_wr_ne _ h _

/-- The start of a transition changes BUSY alone of the fields of domains. -/
theorem fld_startMove (s : State) {d p hi lo : Nat} (hd : d < 72) (h : hi < 32) (hp : p ≠ rPd d ∨ hi < 6 ∨ 6 < lo) :
    (parts (startMove s d)).1.fld p hi lo = (parts s).1.fld p hi lo := by
  have hr := steadyReg_pd hd
  unfold startMove
  split
  · rfl
  · split
    · rw [steady_put _ hr, Steady.fld_put_ne _ _ h hp]
    · rw [steady_put _ hr, Steady.fld_put_ne _ _ h hp, setPwr, parts_mk, parts_def s]
      rfl

theorem goalOf_startMove_ne (s : State) {d k : Nat} (h : k ≠ d) : goalOf (startMove s d) k = goalOf s k := by
  unfold startMove
  split
  · rfl
  · split
    · rfl
    · simp only [goalOf, setPwr, wrFld_pwr]
      rw [tget_tput_ne _ h]

/-- A transition whose REQ and SREF show that nothing more is asked. -/
theorem startMove_done (s : State) {d : Nat} (hd : d < 72) (hg : goalOf s d = none) (hf : pdForced s d = false)
    (h : domState s d = pdReq s d ∧ srefSt s d = pdSref s d) :
    goalOf (startMove s d) d = none ∧ rdFld (startMove s d) (rPd d) 6 6 = 0 := by
  have e : startMove s d = wrFld s (rPd d) 6 6 0 := by rw [startMove, if_neg (by simp [hg, hf]), if_pos h]
  rw [e]
  refine ⟨hg, ?_⟩
  rw [rdFld_eq_steady _ (steadyReg_pd hd), steady_put _ (steadyReg_pd hd), Steady.fld_put_bit _ _ (by omega) (by omega)]

/-- A transition that is asked for. -/
theorem startMove_moves (s : State) {d : Nat} (hd : d < 72) (hg : goalOf s d = none) (hf : pdForced s d = false)
    (h : domState s d ≠ pdReq s d) : moves (startMove s d) d (pdReq s d) (pdSref s d) := by
  have hr := steadyReg_pd hd
  have e : startMove s d =
      wrFld (setPwr s { s.pwr with goal := tput none d (some (pdReq s d, pdSref s d)) s.pwr.goal }) (rPd d) 6 6 1 := by
    rw [startMove, if_neg (by simp [hg, hf]), if_neg (fun c => h c.1)]
  refine ⟨?_, ?_, ?_⟩
  · rw [e]
    simp only [goalOf, setPwr, wrFld_pwr]
    rw [tget_tput_same]
  · rw [e, rdFld_eq_steady _ hr, steady_put _ hr, Steady.fld_put_bit _ _ (by omega) (by omega)]
  · rw [pdReq_eq_steady _ hd, fld_startMove _ hd (by omega) (by omega), pdReq_eq_steady _ hd]

/-! ## Requests -/

/-- The words of a request: REQ and SREF. -/
def putRequest (s : State) (d req : Nat) (sref : Bool) : State :=
  wrFld (wrFld s (rPd d) 1 0 req) (rPd d) 4 4 (b2n sref)

theorem takeRequest_eq (s : State) (d req : Nat) (sref : Bool) :
    takeRequest s d req sref = startMove (putRequest s d req sref) d := rfl

theorem b2n_lt (b : Bool) : b2n b < 2 := by
  cases b <;> decide

theorem steady_putRequest (s : State) {d : Nat} (hd : d < 72) (req : Nat) (sref : Bool) :
    (parts (putRequest s d req sref)).1 = ((parts s).1.put (rPd d) 1 0 req).put (rPd d) 4 4 (b2n sref) := by
  rw [putRequest, steady_put _ (steadyReg_pd hd), steady_put _ (steadyReg_pd hd)]

/-- What a request writes, and what it leaves of its domain's word. -/
theorem fld_putRequest (s : State) {d req : Nat} (hd : d < 72) (hreq : req < 4) (sref : Bool) :
    pdReq (putRequest s d req sref) d = req ∧ pdSref (putRequest s d req sref) d = sref ∧
      domState (putRequest s d req sref) d = domState s d ∧ pdForced (putRequest s d req sref) d = pdForced s d := by
  have hr := steadyReg_pd hd
  have hb := b2n_lt sref
  unfold pdSref pdForced
  rw [pdReq_eq_steady _ hd, domState_eq_steady _ hd, domState_eq_steady _ hd, rdFld_eq_steady _ hr, rdFld_eq_steady _ hr,
    rdFld_eq_steady _ hr, steady_putRequest s hd]
  simp (disch := omega) only [Steady.fld_put_ne, Steady.fld_put_bit, Steady.fld_put_same]
  refine ⟨trivial, ?_, trivial, trivial⟩
  cases sref <;> rfl

/-- An accepted request that asks for another state starts a transition. -/
theorem moves_takeRequest (s : State) {d req : Nat} (hd : d < 72) (hreq : req < 4) (sref : Bool) (hg : goalOf s d = none)
    (hf : pdForced s d = false) (h : domState s d ≠ req) : moves (takeRequest s d req sref) d req sref := by
  obtain ⟨h1, h2, h3, h4⟩ := fld_putRequest s hd hreq sref
  have m := startMove_moves (putRequest s d req sref) hd hg (h4.trans hf) (by rwa [h1, h3])
  rwa [h1, h2] at m

/-- An accepted request leaves the words of the other domains and of their self-refresh. -/
theorem fld_takeRequest_ne (s : State) {d p hi lo : Nat} (hd : d < 72) (req : Nat) (sref : Bool) (h : hi < 32)
    (hp : p ≠ rPd d) : (parts (takeRequest s d req sref)).1.fld p hi lo = (parts s).1.fld p hi lo := by
  rw [takeRequest_eq, fld_startMove _ hd h (.inl hp), steady_putRequest s hd, Steady.fld_put_ne _ _ h (.inl hp),
    Steady.fld_put_ne _ _ h (.inl hp)]

theorem pdReq_takeRequest (s : State) {d req : Nat} (hd : d < 72) (hreq : req < 4) (sref : Bool) :
    pdReq (takeRequest s d req sref) d = req := by
  rw [takeRequest_eq, pdReq_eq_steady _ hd, fld_startMove _ hd (by omega) (by omega), ← pdReq_eq_steady _ hd,
    (fld_putRequest s hd hreq sref).1]

theorem rd_takeRequest (s : State) {d o : Nat} (req : Nat) (sref : Bool) (h : o ≠ rPd d) :
    rd (takeRequest s d req sref) o = rd s o := by
  rw [takeRequest_eq, rd_startMove _ h]
  exact (rd_wr_ne _ h _).trans (rd_wr_ne _ h _)

theorem takeRequest_rest (s : State) (d req : Nat) (sref : Bool) :
    ∃ r g, takeRequest s d req sref = { s with regs := r, pwr := { s.pwr with goal := g } } := by
  obtain ⟨r, g, e⟩ := startMove_rest (putRequest s d req sref) d
  exact ⟨r, g, e⟩

theorem goalOf_takeRequest_ne (s : State) {d k : Nat} (req : Nat) (sref : Bool) (h : k ≠ d) :
    goalOf (takeRequest s d req sref) k = goalOf s k := goalOf_startMove_ne _ h

/-- A landing's array is asked for no more than its uncore. -/
def lowerArray (s : State) (l req : Nat) : State :=
  if req < domState s l ∨ req < pdReq s l then takeRequest s l (min req (pdReq s l)) false else s

/-- An array's request is no higher than its uncore's after it. -/
theorem pdReq_lowerArray (s : State) {l req : Nat} (hl : l < 32) (hreq : req < 4) :
    pdReq (lowerArray s l req) l = min req (pdReq s l) := by
  unfold lowerArray
  split
  · exact pdReq_takeRequest s (by omega) (by omega) false
  · omega

theorem lowerArray_kept (s : State) {l d : Nat} (req : Nat) (hl : l < 32) (hd : d < 72) (h : d ≠ l) :
    goalOf (lowerArray s l req) d = goalOf s d ∧ domState (lowerArray s l req) d = domState s d ∧
      pdForced (lowerArray s l req) d = pdForced s d ∧ rd (lowerArray s l req) 0x40008 = rd s 0x40008 := by
  have hr := steadyReg_pd hd
  have hp : rPd d ≠ rPd l := rPd_inj.not.mpr h
  unfold lowerArray
  split
  · refine ⟨goalOf_takeRequest_ne _ _ _ h, ?_, ?_, rd_takeRequest _ _ _ (by unfold rPd; omega)⟩
    · rw [domState_eq_steady _ hd, domState_eq_steady _ hd, fld_takeRequest_ne _ (by omega) _ _ (by omega) hp]
    · rw [pdForced, rdFld_eq_steady _ hr, fld_takeRequest_ne _ (by omega) _ _ (by omega) hp, ← rdFld_eq_steady _ hr, pdForced]
  · exact ⟨rfl, rfl, rfl, rfl⟩

theorem lowerArray_rest (s : State) (l req : Nat) :
    ∃ r g, lowerArray s l req = { s with regs := r, pwr := { s.pwr with goal := g } } := by
  unfold lowerArray
  split
  · exact takeRequest_rest _ _ _ _
  · exact ⟨_, _, rfl⟩

theorem pdRefused_eq (s : State) : pdRefused s = wrFld s 0x20000 0 0 1 := by
  rw [pdRefused, setFlag, wrFld, wput_bit_one]

/-- The fields of a request's word. -/
theorem wfld_pdWord {req : Nat} (h : req < 4) (sref : Bool) :
    wfld (pdWord req sref) 1 0 = req ∧ (wfld (pdWord req sref) 4 4 == 1) = sref := by
  unfold pdWord wfld bits
  cases sref
  · simp only [b2n, Bool.false_eq_true, if_false, BitVec.toNat_ofNat]
    exact ⟨by omega, by rw [beq_eq_false_iff_ne]; omega⟩
  · simp only [b2n, if_true, BitVec.toNat_ofNat]
    exact ⟨by omega, by rw [beq_iff_eq]; omega⟩

theorem mayRequest_iff (m : Master) : mayRequest m = true ↔ requests m := by
  cases m <;> simp [mayRequest, requests]

/-- Self-refresh is a request of uncores alone. -/
def asksSref (d : Nat) (sref : Bool) : Bool := decide (32 ≤ d ∧ d < 64) && sref

/-- A domain that a request may not put ON: one that it requires is not ON. -/
theorem all_on_iff (s : State) (xs : List Nat) : (xs.all fun r => domState s r == 2) = true ↔ ∀ r ∈ xs, domState s r = 2 := by
  simp

section
variable {m : Master} {d : Fin 72} {req : Nat} {sref : Bool} {s : State}

theorem exec_request_ignored (h : ¬ requests m ∨ absentDom s d.val = true) :
    Runs (.domainRequest m d (pdWord req sref)) s s := by
  change execDomainRequest m d (pdWord req sref) s = .next s
  rw [← mayRequest_iff] at h
  simp only [execDomainRequest]
  rw [if_pos (by simpa using h)]

variable (hm : requests m) (ha : absentDom s d.val = false) (hreq : req < 4)
include hm ha hreq

theorem exec_request_early (hb : d.val ∉ s.pwr.boarded) (h3 : req ≠ 3)
    (hr : req = 2 → ∀ r ∈ requires d.val, domState s r = 2) :
    Runs (.domainRequest m d (pdWord req sref)) s
      (if asksSref d.val sref = true ∧ ¬ (srefOk s (d.val - 32) = true) then pdRefused s
        else putRequest s d.val req (asksSref d.val sref)) := by
  change execDomainRequest m d (pdWord req sref) s = .next _
  obtain ⟨h1, h2⟩ := wfld_pdWord hreq sref
  rw [← mayRequest_iff] at hm
  have he : ¬ (req = 2 ∧ (!(requires d.val).all fun r => domState s r == 2) = true) := by
    rintro ⟨h2, hn⟩
    rw [Bool.not_eq_true', Bool.eq_false_iff, ne_eq, all_on_iff] at hn
    exact hn (hr h2)
  simp only [execDomainRequest, h1, h2, hm, ha]
  rw [if_neg (by simp), if_pos ⟨by simpa using hb, h3, by simpa only [Bool.not_eq_true', decide_eq_false_iff_not] using he⟩]
  simp only [asksSref, putRequest, Bool.not_eq_true']
  simp

theorem exec_request_late
    (h : d.val ∈ s.pwr.boarded ∨ req = 3 ∨ (req = 2 ∧ ∃ r ∈ requires d.val, domState s r ≠ 2)) :
    Runs (.domainRequest m d (pdWord req sref)) s (requestDom s d.val req (asksSref d.val sref)) := by
  change execDomainRequest m d (pdWord req sref) s = .next _
  obtain ⟨h1, h2⟩ := wfld_pdWord hreq sref
  rw [← mayRequest_iff] at hm
  simp only [execDomainRequest, h1, h2, hm, ha]
  rw [if_neg (by simp), if_neg]
  · rfl
  · rintro ⟨hb, h3, he⟩
    obtain h | h | ⟨h2, r, hr, hn⟩ := h
    · simp [h] at hb
    · exact h3 h
    · simp [h2] at he
      exact hn (he r hr)

end

/-! ## Requests of domains that have boarded -/

section
variable {s : State} {d req : Nat} {sref : Bool}

/-- A request that the reset alone, a required domain or the use of a landing forbids (R502, R503, R505). -/
theorem requestDom_refused (h : req = 3 ∨ (64 ≤ d ∧ d < 70 ∧ req ≠ 2) ∨
      (req = 2 ∧ domState s d ≠ 2 ∧ ∃ r ∈ requires d, domState s r ≠ 2) ∨
      (32 ≤ d ∧ d < 64 ∧ sref = true ∧ srefSt s d = false ∧ srefOk s (d - 32) = false)) :
    requestDom s d req sref = pdRefused s := by
  unfold requestDom
  dsimp only
  split
  · rfl
  · next h1 =>
    split
    · rfl
    · next h2 =>
      rw [if_pos]
      obtain h | h | ⟨e, hn, r, hr, hrn⟩ | ⟨a, b, c, e, f⟩ := h
      · exact absurd (.inl h) h1
      · exact absurd (.inr h) h1
      · refine absurd ⟨e, hn, ?_⟩ h2
        rw [Bool.not_eq_true', Bool.eq_false_iff, ne_eq, all_on_iff]
        exact fun hall => hrn (hall r hr)
      · simp [a, b, c, e, f]

/-- A request of an array (R503). -/
theorem requestDom_array (hd : d < 32) (hreq : req < 3) (h : req = 2 → domState s (32 + d) = 2) :
    requestDom s d req false = takeRequest s d req false := by
  have h2 : ¬ (req = 2 ∧ domState s d ≠ 2 ∧ (!(requires d).all fun r => domState s r == 2) = true) := by
    rintro ⟨e, -, hn⟩
    rw [requires, if_pos hd] at hn
    simp [h e] at hn
  unfold requestDom
  dsimp only
  rw [if_neg (by omega), if_neg h2]
  simp [show ¬ 32 ≤ d by omega]

/-- A request of an uncore that is ON to leave it: refused where the crossing cannot close, else the landing's cut-out, its
array no higher, and the transition. -/
theorem requestDom_uncore {l : Nat} (hl : l < 32) (hreq : req < 2) (hon : domState s (32 + l) = 2)
    (hs : sref = true → srefOk s l = true) :
    requestDom s (32 + l) req sref =
      if liveLand s l = true then
        if canSpan s l = true then takeRequest (lowerArray (cutLanding (loseReqs s l) l false) l req) (32 + l) req sref
        else pdRefused s
      else takeRequest (lowerArray s l req) (32 + l) req sref := by
  have h3 : ¬ ((decide (32 ≤ 32 + l ∧ 32 + l < 64) = true) ∧ sref = true ∧ (!srefSt s (32 + l)) = true ∧
      (!srefOk s l) = true) := by
    rintro ⟨-, a, -, b⟩
    simp [hs a] at b
  have hu : decide (32 ≤ 32 + l ∧ 32 + l < 64) = true := decide_eq_true (by omega)
  unfold requestDom
  dsimp only
  rw [Nat.add_sub_cancel_left, if_neg (by omega), if_neg (by omega), if_neg h3]
  simp only [hu, hon, true_and]
  by_cases hv : liveLand s l = true
  · by_cases hc : canSpan s l = true
    · simp [hv, hc, show req ≠ 2 by omega, lowerArray]
    · simp [hv, hc, show req ≠ 2 by omega]
  · simp [hv, lowerArray]

end

theorem liveLand_false_of_out {s : State} {l : Nat} (h : (getLand s l).out = true) : liveLand s l = false := by
  simp [liveLand, h]

/-- A landing that leaves its crossing, which closes (R540). -/
theorem cutLanding_closes (s : State) (l : Nat) (failed : Bool) (h : canSpan s l = true) :
    rdFld (cutLanding s l failed) 0x40008 2 2 = 1 := by
  have e : ∀ t : State, rd t 0x40008 = (parts t).2.word 0x40008 := by
    intro t
    rw [parts_def]
    rfl
  have hc : ∃ t, (parts (cutLanding s l failed)).2 = (parts (setFlag t rCrsCause 2)).2 := by
    rw [cutLanding_eq]
    dsimp only
    rw [if_pos h]
    refine ⟨leaveCrossing s l, ?_⟩
    split
    · rfl
    · rw [parts_giveLaunchers]
  obtain ⟨t, hc⟩ := hc
  rw [rdFld, e, hc, ← e]
  exact rdFld_setFlag_same t rCrsCause (by omega)

theorem srefOk_iff (s : State) (l : Nat) :
    srefOk s l = true ↔ (getLand s l).out = true ∧ arrayOn s l = false := by
  simp [srefOk]

theorem asksSref_array {d : Nat} (h : d < 32) (sref : Bool) : asksSref d sref = false := by
  simp [asksSref, show ¬ 32 ≤ d by omega]

theorem asksSref_uncore {l : Nat} (h : l < 32) (sref : Bool) : asksSref (32 + l) sref = sref := by
  have hu : decide (32 ≤ 32 + l ∧ 32 + l < 64) = true := decide_eq_true (by omega)
  rw [asksSref, hu, Bool.true_and]

theorem pdForced_of_idle {s : State} {d : Nat} (h : rdFld s (rPd d) 7 7 = 0) : pdForced s d = false := by
  simp [pdForced, h]

/-- The transition of an uncore after its cut-out, or of one that is outside the crossing. -/
theorem moves_uncore (s : State) {l req : Nat} (hl : l < 32) (hreq : req < 2) (sref : Bool)
    (hg : goalOf s (32 + l) = none) (hf : pdForced s (32 + l) = false) (hon : domState s (32 + l) = 2) :
    moves (takeRequest (lowerArray s l req) (32 + l) req sref) (32 + l) req sref ∧
      pdReq (takeRequest (lowerArray s l req) (32 + l) req sref) l = min req (pdReq s l) := by
  obtain ⟨k1, k2, k3, -⟩ := lowerArray_kept s req hl (by omega : 32 + l < 72) (by omega)
  refine ⟨moves_takeRequest _ (by omega) (by omega) sref (k1.trans hg) (k3.trans hf) (by omega), ?_⟩
  rw [pdReq_eq_steady _ (by omega), fld_takeRequest_ne _ (by omega) _ _ (by omega) (rPd_inj.not.mpr (by omega)),
    ← pdReq_eq_steady _ (by omega), pdReq_lowerArray s hl (by omega)]

/-- A cut-out leaves the transitions and the words of domains. -/
theorem cutLanding_kept (s : State) (l d : Nat) (failed : Bool) (hd : d < 72) :
    goalOf (cutLanding (loseReqs s l) l failed) d = goalOf s d ∧
      ∀ hi lo, rdFld (cutLanding (loseReqs s l) l failed) (rPd d) hi lo = rdFld s (rPd d) hi lo := by
  have hr := steadyReg_pd hd
  refine ⟨?_, fun hi lo => ?_⟩
  · rw [goalOf_eq_steady, goalOf_eq_steady, steady_cutLanding, parts_loseReqs]
    rfl
  · rw [rdFld_eq_steady _ hr, rdFld_eq_steady _ hr, steady_cutLanding, parts_loseReqs]
    rfl

/-- What an uncore's transition leaves of the landing's place in the crossing and of CRS.CAUSE. -/
theorem uncoreMove_kept (s : State) {l : Nat} (req : Nat) (sref : Bool) (hl : l < 32) :
    getLand (takeRequest (lowerArray s l req) (32 + l) req sref) l = getLand s l ∧
      rd (takeRequest (lowerArray s l req) (32 + l) req sref) 0x40008 = rd s 0x40008 := by
  obtain ⟨r, g, e⟩ := takeRequest_rest (lowerArray s l req) (32 + l) req sref
  obtain ⟨r', g', e'⟩ := lowerArray_rest s l req
  refine ⟨by rw [e, e']; rfl, ?_⟩
  rw [rd_takeRequest _ _ _ (by unfold rPd; omega), (lowerArray_kept s req hl (by omega : 32 + l < 72) (by omega)).2.2.2]

theorem exists_uncore (d : Fin 72) (h32 : 32 ≤ d.val) (h64 : d.val < 64) :
    ∃ l, l < 32 ∧ ∃ h : 32 + l < 72, d = ⟨32 + l, h⟩ :=
  ⟨d.val - 32, by omega, by omega, Fin.ext (by simp only; omega)⟩

/-- The requests of O52. -/
theorem domainRequests : DomainRequests := by
  intro m d req sref s hreq
  dsimp only
  refine ⟨exec_request_ignored, fun hm ha => ⟨fun hb h3 hr => ?_, fun hlate => ?_⟩⟩
  · have h := exec_request_early (sref := sref) hm ha hreq hb h3 hr
    simp only [srefOk_iff, pdRefused_eq] at h
    exact h
  have hrun := exec_request_late (sref := sref) hm ha hreq hlate
  refine ⟨fun h => ?_, fun hd h3 hne ⟨hg, hf⟩ hon => ?_, fun h32 h64 hlt hs hon hv => ?_,
    fun h32 h64 hlt hon hv hao ho ⟨hg, hf⟩ => ?_⟩
  · rwa [requestDom_refused, pdRefused_eq] at hrun
    obtain h | h | h | ⟨a, b, c, e, f⟩ := h
    · exact .inl h
    · exact .inr (.inl h)
    · exact .inr (.inr (.inl h))
    · refine .inr (.inr (.inr ⟨a, b, by simp [asksSref, a, b, c], by simp [srefSt, e], ?_⟩))
      rcases f with f | f <;> simp [srefOk, f]
  · rw [asksSref_array hd, requestDom_array hd h3 hon] at hrun
    refine ⟨_, hrun, moves_takeRequest s (by omega) hreq false hg (pdForced_of_idle hf) hne, ?_⟩
    obtain ⟨r, g, e⟩ := takeRequest_rest s d.val req false
    rw [e]
  all_goals
    obtain ⟨l, hl, hd, rfl⟩ := exists_uncore d h32 h64
    simp only [Nat.add_sub_cancel_left, asksSref_uncore hl] at *
  · subst hs
    rw [requestDom_uncore hl hlt hon (by simp), if_pos hv] at hrun
    refine ⟨fun hc => ?_, fun hc ⟨hg, hf⟩ => ?_⟩
    · rwa [if_neg (by simp [hc]), pdRefused_eq] at hrun
    · rw [if_pos hc] at hrun
      obtain ⟨kg, kw⟩ := cutLanding_kept s l (32 + l) false (by omega)
      obtain ⟨-, kr⟩ := cutLanding_kept s l l false (by omega)
      obtain ⟨hland, hcause⟩ := uncoreMove_kept (cutLanding (loseReqs s l) l false) req false hl
      obtain ⟨h1, h2⟩ := moves_uncore (cutLanding (loseReqs s l) l false) hl hlt false (kg.trans hg)
        (pdForced_of_idle ((kw 7 7).trans hf)) ((kw 3 2).trans hon)
      refine ⟨_, hrun, h1, liveLand_false_of_out ?_, ?_, h2.trans (congrArg _ (kr 1 0))⟩
      · rw [hland, out_eq_steady, steady_cutLanding]
        simp [Steady.cut]
      · rw [rdFld, hcause]
        exact cutLanding_closes _ l false hc
  · rw [requestDom_uncore hl hlt hon (fun _ => (srefOk_iff s l).mpr ⟨ho, hao⟩), if_neg (by simp [hv])] at hrun
    obtain ⟨h1, h2⟩ := moves_uncore s hl hlt sref hg (pdForced_of_idle hf) hon
    exact ⟨_, hrun, h1, h2⟩

/-! ## Transitions that complete -/

/-- A domain at the state that its transition asked for; what REQ asks beyond that starts another. -/
def arrive (s : State) (d v : Nat) (sref : Bool) : State :=
  let s := setPwr s { s.pwr with goal := tput none d none s.pwr.goal }
  startMove (setSref (if domState s d = 2 then setDom (setSref s d sref) d v else setDom s d v) d sref) d

theorem exec_transition (d : Fin 72) (s : State) :
    exec (.domainTransitionComplete d) s =
      match goalOf s d.val with
      | none => .next s
      | some (v, sref) =>
        if v < 2 ∧ !dependentsLow s d.val v then .next s
        else if v = 2 ∧ !((requires d.val).all fun r => domState s r == 2) then .next s
        else .next (if d.val = 69 ∧ v = 2 then bootChain (arrive s d.val v sref) else arrive s d.val v sref) := rfl

theorem dependentsLow_iff (s : State) (d v : Nat) :
    dependentsLow s d v = true ↔
      ∀ k < 72, d ∈ requires k → domState s k ≤ v ∧ ∀ g, goalOf s k = some g → g.1 ≤ v := by
  unfold dependentsLow
  simp only [upto, List.all_eq_true, List.mem_range, Bool.or_eq_true, Bool.and_eq_true, Bool.not_eq_true',
    decide_eq_true_eq]
  refine forall₂_congr fun k _ => ?_
  rw [List.contains_eq_mem, decide_eq_false_iff_not, imp_iff_not_or]
  cases goalOf s k <;> simp

/-- A domain may come to a state: none that requires it is above that state or moves above it, and for ON each that it
requires is ON (R41). -/
def MayArrive (s : State) (d v : Nat) : Prop :=
  (v < 2 → ∀ k < 72, d ∈ requires k → domState s k ≤ v ∧ ∀ g, goalOf s k = some g → g.1 ≤ v) ∧
    (v = 2 → ∀ r ∈ requires d, domState s r = 2)

section
variable {d : Fin 72} {v : Nat} {sref : Bool} {s : State}

theorem exec_transition_waits (hg : goalOf s d.val = some (v, sref)) (h : ¬ MayArrive s d.val v) :
    Runs (.domainTransitionComplete d) s s := by
  rw [Runs, exec_transition, hg]
  dsimp only
  rw [MayArrive, ← dependentsLow_iff, ← all_on_iff] at h
  split
  · rfl
  · next h1 =>
    rw [if_pos]
    simp only [Bool.not_eq_true', not_and, Bool.not_eq_false] at h1 ⊢
    by_contra h2
    exact h ⟨h1, fun e => by simpa [e] using h2⟩

theorem exec_transition_arrives (hg : goalOf s d.val = some (v, sref)) (h : MayArrive s d.val v) :
    Runs (.domainTransitionComplete d) s
      (if d.val = 69 ∧ v = 2 then bootChain (arrive s d.val v sref) else arrive s d.val v sref) := by
  rw [Runs, exec_transition, hg]
  dsimp only
  obtain ⟨h1, h2⟩ := h
  rw [if_neg, if_neg]
  · rintro ⟨e, hn⟩
    rw [(all_on_iff s _).mpr (h2 e)] at hn
    exact Bool.noConfusion hn
  · rintro ⟨e, hn⟩
    rw [(dependentsLow_iff s _ v).mpr (h1 e)] at hn
    exact Bool.noConfusion hn

end

/-- The state before what REQ asks beyond an arrival starts. -/
def atState (s : State) (d v : Nat) (sref : Bool) : State :=
  let s := setPwr s { s.pwr with goal := tput none d none s.pwr.goal }
  if domState s d = 2 then setDom (setSref s d sref) d v else setDom s d v

theorem arrive_eq (s : State) (d v : Nat) (sref : Bool) :
    arrive s d v sref = startMove (setSref (atState s d v sref) d sref) d := rfl

/-- The domain's word before what REQ asks starts: its state, and the rest but its self-refresh as it was. -/
theorem steady_atState (s : State) {d v : Nat} (hd : d < 72) (sref : Bool) :
    ∃ x, (x = (parts s).1.aim d none ∨ x = ((parts s).1.aim d none).put (rPd d) 5 5 (b2n sref)) ∧
      (parts (atState s d v sref)).1 = x.put (rPd d) 3 2 v := by
  have e : (parts (setPwr s { s.pwr with goal := tput none d none s.pwr.goal })).1 = (parts s).1.aim d none := by
    rw [setPwr, parts_mk, parts_def s]
    rfl
  unfold atState
  dsimp only
  split
  · exact ⟨_, .inr rfl, by rw [steady_setDom _ hd, steady_setSref _ hd, e]⟩
  · exact ⟨_, .inl rfl, by rw [steady_setDom _ hd, e]⟩

/-- A domain before what REQ asks beyond an arrival starts: its state, its self-refresh, and what it leaves of its word. -/
theorem fld_arrived (s : State) {d v : Nat} (hd : d < 72) (hv : v < 4) (sref : Bool) :
    let t := setSref (atState s d v sref) d sref
    goalOf t d = none ∧ domState t d = v ∧ rdFld t (rPd d) 5 5 = b2n sref ∧ pdReq t d = pdReq s d ∧
      rdFld t (rPd d) 4 4 = rdFld s (rPd d) 4 4 ∧ rdFld t (rPd d) 7 7 = rdFld s (rPd d) 7 7 := by
  have hr := steadyReg_pd hd
  have hb := b2n_lt sref
  dsimp only
  obtain ⟨x, hx, e⟩ := steady_atState s (v := v) hd sref
  have hx' : x.goal = ((parts s).1.aim d none).goal ∧ x.fld (rPd d) 1 0 = (parts s).1.fld (rPd d) 1 0 ∧
      x.fld (rPd d) 4 4 = (parts s).1.fld (rPd d) 4 4 ∧ x.fld (rPd d) 7 7 = (parts s).1.fld (rPd d) 7 7 := by
    obtain rfl | rfl := hx
    · exact ⟨rfl, rfl, rfl, rfl⟩
    · simp (disch := omega) only [Steady.fld_put_ne, Steady.fld_aim, and_self, and_true]
      rfl
  obtain ⟨hgoal, h1, h4, h7⟩ := hx'
  rw [goalOf_eq_steady, domState_eq_steady _ hd, pdReq_eq_steady _ hd, pdReq_eq_steady _ hd, rdFld_eq_steady _ hr,
    rdFld_eq_steady _ hr, rdFld_eq_steady _ hr, rdFld_eq_steady _ hr, rdFld_eq_steady _ hr, steady_setSref _ hd, e,
    ← h1, ← h4, ← h7]
  simp (disch := omega) only [Steady.fld_put_ne, Steady.fld_put_bit, Steady.fld_put_same, Steady.rest_put, hgoal, and_self,
    and_true]
  exact tget_tput_same (α := Option (Nat × Bool)) none d none _

/-- What an arrival leaves of its domain's word, and where it ends the transition. -/
theorem fld_arrive (s : State) {d v : Nat} (hd : d < 72) (hv : v < 4) (sref : Bool) :
    domState (arrive s d v sref) d = v ∧ (rdFld (arrive s d v sref) (rPd d) 5 5 = 1 ↔ sref = true) ∧
      (pdReq s d = v → rdFld s (rPd d) 4 4 = b2n sref → rdFld s (rPd d) 7 7 = 0 →
        goalOf (arrive s d v sref) d = none ∧ rdFld (arrive s d v sref) (rPd d) 6 6 = 0) := by
  have hr := steadyReg_pd hd
  obtain ⟨hg, h1, h2, h3, h4, h5⟩ := fld_arrived s hd hv sref
  refine ⟨?_, ?_, fun k1 k2 k3 => ?_⟩
  · rw [arrive_eq, domState_eq_steady _ hd, fld_startMove _ hd (by omega) (by omega), ← domState_eq_steady _ hd, h1]
  · rw [arrive_eq, rdFld_eq_steady _ hr, fld_startMove _ hd (by omega) (by omega), ← rdFld_eq_steady _ hr, h2]
    cases sref <;> simp [b2n]
  · have hs : srefSt (setSref (atState s d v sref) d sref) d = pdSref (setSref (atState s d v sref) d sref) d := by
      rw [srefSt, pdSref, h2, h4, k2]
    exact startMove_done _ hd hg (pdForced_of_idle (h5.trans k3)) ⟨h1.trans (h3.trans k1).symm, hs⟩

theorem setSref_rest (s : State) (d : Nat) (sref : Bool) : ∃ r, setSref s d sref = { s with regs := r } := by
  refine ⟨(setSref s d sref).regs, ?_⟩
  unfold setSref
  split
  · exact (regsOnly_wrFld s _ _ _ _).trans (regsOnly_wrFld _ _ _ _ _) |>.trans (regsOnly_wrFld _ _ _ _ _)
  · exact regsOnly_wrFld s _ _ _ _

theorem rd_setSref_array (s : State) {d o : Nat} (sref : Bool) (hd : d < 32) (h : o ≠ rPd d) :
    rd (setSref s d sref) o = rd s o := by
  unfold setSref
  rw [if_neg (by omega)]
  exact rd_wr_ne s h _

/-- What an arrival keeps of the state that the domain's new state leaves. -/
theorem arrive_rest (s : State) (d v : Nat) (sref : Bool) :
    ∃ r g, arrive s d v sref =
      { atState s d v sref with regs := r, pwr := { (atState s d v sref).pwr with goal := g } } := by
  obtain ⟨r, e⟩ := setSref_rest (atState s d v sref) d sref
  obtain ⟨r', g', e'⟩ := startMove_rest (setSref (atState s d v sref) d sref) d
  exact ⟨r', g', by rw [arrive_eq, e', e]⟩

theorem rd_arrive_array (s : State) {d o : Nat} (v : Nat) (sref : Bool) (hd : d < 32) (h : o ≠ rPd d) :
    rd (arrive s d v sref) o = rd (atState s d v sref) o := by
  rw [arrive_eq, rd_startMove _ h, rd_setSref_array _ _ hd h]

/-- The state from which the domain comes to its new one. -/
theorem atState_eq (s : State) {d : Nat} (v : Nat) (sref : Bool) (hd : d < 72) :
    ∃ t, atState s d v sref = setDom t d v ∧ (∃ r g, t = { s with regs := r, pwr := { s.pwr with goal := g } }) ∧
      domState t d = domState s d ∧ srefSt t d = if domState s d = 2 then sref else srefSt s d := by
  have hr := steadyReg_pd hd
  have h0 : ∀ g, domState (setPwr s { s.pwr with goal := g }) d = domState s d := fun _ => rfl
  unfold atState
  dsimp only
  rw [h0]
  split
  · obtain ⟨r, e⟩ := setSref_rest (setPwr s { s.pwr with goal := tput none d none s.pwr.goal }) d sref
    refine ⟨_, rfl, ⟨r, _, e⟩, ?_, ?_⟩
    · rw [domState_eq_steady _ hd, steady_setSref _ hd, Steady.fld_put_ne _ _ (by omega) (by omega),
        ← domState_eq_steady _ hd, h0]
    · rw [srefSt, rdFld_eq_steady _ hr, steady_setSref _ hd, Steady.fld_put_bit _ _ (by omega) (b2n_lt sref)]
      cases sref <;> rfl
  · exact ⟨_, rfl, ⟨_, _, rfl⟩, rfl, rfl⟩

section
variable {s : State} {l v : Nat} {sref : Bool} (hl : l < 32)
include hl

/-- An array that comes to a state. -/
theorem arrive_array :
    (v = 0 → domState s l ≠ 0 →
      (∀ off < 2 ^ 32, getByte (arrive s l v sref) (memKey l 1 off) = 0) ∧
      (∀ off < 2 ^ 25, getByte (arrive s l v sref) (memKey l 2 off) = 0) ∧
      ∀ l' c t, l'.val = l → getThr (arrive s l v sref) (.core l' c t) = {}) ∧
    (v = 1 → (arrive s l v sref).mem = s.mem) ∧
    (domState s l = 0 → v ≠ 0 → tget 0 (arrive s l v sref).pwr.vcore l = tget 750 s.fuses.vcore l ∨
      tget 0 (arrive s l v sref).pwr.vcore l = tget 0 s.pwr.vcore l ∧ rdFld (arrive s l v sref) 0x20000 2 2 = 1) ∧
    (domState s l ≠ 2 → v = 2 → (getLand (arrive s l v sref) l).onEdge = s.edges ∧
      ∀ l' c t, l'.val = l → (getThr s (.core l' c t)).due = true →
        (getThr (arrive s l v sref) (.core l' c t)).st = .ready) := by
  have hreg := rd_arrive_array s v sref hl (by unfold rPd; omega : 0x20000 ≠ rPd l)
  obtain ⟨r, g, e⟩ := arrive_rest s l v sref
  obtain ⟨t, et, ⟨r', g', e'⟩, hdom, -⟩ := atState_eq s v sref (by omega : l < 72)
  have hmem : (arrive s l v sref).mem = (setDom t l v).mem := by rw [e, et]
  have hthr : (arrive s l v sref).threads = (setDom t l v).threads := by rw [e, et]
  have hland : (arrive s l v sref).lands = (setDom t l v).lands := by rw [e, et]
  have hvcore : (arrive s l v sref).pwr.vcore = (setDom t l v).pwr.vcore := by rw [e, et]
  refine ⟨?_, ?_, fun h hv => ?_, ?_⟩
  · rintro rfl h
    obtain ⟨x, ex⟩ := setDom_array_off hl (hdom ▸ h)
    rw [ex] at hmem hthr
    unfold getByte getThr
    rw [hmem, hthr]
    refine ⟨fun off => getByte_arrayOff_scratchpad x l, fun off => getByte_arrayOff_scalar x l, fun l' c i h' => ?_⟩
    subst h'
    exact getThr_arrayOff x l' c i
  · rintro rfl
    rw [hmem, mem_setDom_array_stop hl, e']
  · have hw := vcore_setDom_array hl (hdom.trans h) hv
    rw [e'] at hw
    rw [rdFld, hreg, et, hvcore, e']
    exact hw
  · rintro h rfl
    have hb := boards_setDom_array hl (hdom ▸ h : domState t l ≠ 2)
    unfold getLand getThr at hb ⊢
    rw [hland, hthr]
    rw [e'] at hb ⊢
    exact hb

/-- An uncore that comes to a state. -/
theorem arrive_uncore :
    (domState s (32 + l) = 2 → v ≠ 2 → sref = false →
      ∀ off < 2 ^ 44, getByte (arrive s (32 + l) v sref) (memKey l 0 off) = 0) ∧
    (domState s (32 + l) ≠ 2 → v = 2 → l ∈ (arrive s (32 + l) v sref).boot.deckhands ∧
      (rdFld s (rPd (32 + l)) 5 5 = 1 → ∀ off < 2 ^ 44, getByte (arrive s (32 + l) v sref) (memKey l 0 off) =
        getByte s (memKey l 0 off))) := by
  obtain ⟨r, g, e⟩ := arrive_rest s (32 + l) v sref
  obtain ⟨t, et, ⟨r', g', e'⟩, hdom, hsref⟩ := atState_eq s v sref (by omega : 32 + l < 72)
  have hmem : (arrive s (32 + l) v sref).mem = (setDom t (32 + l) v).mem := by rw [e, et]
  have hboot : (arrive s (32 + l) v sref).boot = (setDom t (32 + l) v).boot := by rw [e, et]
  have hs : getByte t = getByte s := by rw [e']; rfl
  unfold getByte at hs ⊢
  rw [hmem, hboot]
  refine ⟨fun h hv h0 off ho => ?_, ?_⟩
  · exact getByte_setDom_uncore_leaves hl (hdom.trans h) hv (by rw [hsref, if_pos h, h0]) ho
  · rintro h rfl
    obtain ⟨h1, h2⟩ := boards_setDom_uncore hl (hdom ▸ h : domState t (32 + l) ≠ 2)
    refine ⟨h1, fun h5 off ho => ?_⟩
    have h3 := h2 (by rw [hsref, if_neg h, srefSt, h5]; rfl) off ho
    exact h3.trans (congrFun hs _)

end

theorem steady_bootChain_if (c : Prop) [Decidable c] (s : State) :
    (parts (if c then bootChain s else s)).1 = (parts s).1 := by
  split
  · exact steady_bootChain s
  · rfl

/-- The transitions of O52. -/
theorem domainTransitions : DomainTransitions := by
  intro d v sref s hv
  dsimp only
  refine ⟨fun h => ?_, fun hg hm => exec_transition_waits hg hm, fun hg hm => ⟨_, exec_transition_arrives hg hm, ?_⟩⟩
  · rw [Runs, exec_transition, h]
  · have hr := steadyReg_pd d.isLt
    obtain ⟨h1, h2, h3⟩ := fld_arrive s d.isLt (by omega : v < 4) sref
    rw [← and_assoc, ← and_assoc]
    constructor
    · have e := steady_bootChain_if (d.val = 69 ∧ v = 2) (arrive s d.val v sref)
      generalize (if d.val = 69 ∧ v = 2 then bootChain (arrive s d.val v sref) else arrive s d.val v sref) = u at e ⊢
      rw [domState_eq_steady u d.isLt, rdFld_eq_steady u hr, rdFld_eq_steady u hr, goalOf_eq_steady u, e,
        ← domState_eq_steady _ d.isLt, ← rdFld_eq_steady _ hr, ← rdFld_eq_steady _ hr, ← goalOf_eq_steady]
      exact ⟨⟨h1, h2⟩, h3⟩
    · by_cases hd : d.val < 32
      · obtain ⟨a1, a2, a3, a4⟩ := arrive_array (s := s) (v := v) (sref := sref) hd
        rw [if_neg (by omega)]
        exact ⟨fun _ => a1, fun _ => a2, fun _ => a3, fun _ => a4, by omega, by omega⟩
      · refine ⟨fun c => absurd c hd, fun c => absurd c hd, fun c => absurd c hd, fun c => absurd c hd, ?_, ?_⟩
        all_goals
          intro h32 h64
          obtain ⟨l, hl, hd', rfl⟩ := exists_uncore d h32 h64
          obtain ⟨u1, u2⟩ := arrive_uncore (s := s) (v := v) (sref := sref) hl
          simp only [Nat.add_sub_cancel_left]
          rw [if_neg (by omega)]
        · exact u1
        · exact u2

/-- Settles O52: requests and transitions, one lemma for each. -/
theorem powerDomains : Obligations.PowerDomains := ⟨domainRequests, domainTransitions⟩

end Sys2Proof.Laws
end

section
/-! The reset of the module: the register words it keeps, and what its state holds (R523, R524). -/

namespace Sys2Proof.Laws

open Sys2Proof Sys2Proof.Machine Sys2Proof.Claims

/-! ## Fields of registers -/

/-- A field that a write of another, or of another register, does not meet. -/
theorem rdFld_wrFld_ne (s : State) {o p hi lo hi' lo' : Nat} (v : Nat) (h : hi < 32) (hd : p ≠ o ∨ hi < lo' ∨ hi' < lo) :
    rdFld (wrFld s o hi' lo' v) p hi lo = rdFld s p hi lo := by
  by_cases hp : p = o
  · subst hp
    rw [rdFld, wrFld, rd_wr, wfld_wput_ne _ v h (hd.resolve_left (· rfl)), rdFld]
  · rw [rdFld, wrFld, rd_wr_ne s hp, rdFld]

theorem rdFld_wrFld_same (s : State) (o : Nat) {hi lo v : Nat} (h : hi < 32) (hv : v < 2 ^ (hi + 1 - lo)) :
    rdFld (wrFld s o hi lo v) o hi lo = v := by
  rw [rdFld, wrFld, rd_wr, wfld_wput_same _ h hv]

theorem rd_wrFld_ne (s : State) {o p : Nat} (hi lo v : Nat) (h : p ≠ o) : rd (wrFld s o hi lo v) p = rd s p := rd_wr_ne s h _

theorem rdFld_setFlag_off (s : State) {o p i hi lo : Nat} (h : hi < 32) (hd : p ≠ o ∨ i < lo ∨ hi < i) :
    rdFld (setFlag s o i) p hi lo = rdFld s p hi lo := by
  rw [setFlag, ← wput_bit_one]
  exact rdFld_wrFld_ne s 1 h (hd.imp_right fun c => c.symm)

/-! ## FORCED follows the power inputs -/

theorem regsOnly_updForced (s : State) : RegsOnly s (updForced s) :=
  foldl_keeps (P := RegsOnly s) (fun _ _ h => h.trans (regsOnly_wrFld _ _ _ _ _)) _ (RegsOnly.refl s)

/-- FORCED alone changes in the words of domains. -/
theorem rdFld_updForced (s : State) {p hi lo : Nat} (h : hi < 32) (hd : (∀ d < 72, p ≠ rPd d) ∨ hi < 7 ∨ 7 < lo) :
    rdFld (updForced s) p hi lo = rdFld s p hi lo :=
  List.foldlRecOn (motive := fun t => rdFld t p hi lo = rdFld s p hi lo) _ _ rfl
    fun _ e d hm => (rdFld_wrFld_ne _ _ h (hd.imp_left fun c => c d (List.mem_range.mp hm))).trans e

theorem rd_updForced (s : State) {p : Nat} (h : ∀ d < 72, p ≠ rPd d) : rd (updForced s) p = rd s p :=
  List.foldlRecOn (motive := fun t => rd t p = rd s p) _ _ rfl
    fun _ e d hm => (rd_wrFld_ne _ _ _ _ (h d (List.mem_range.mp hm))).trans e

/-! ## The register words that a reset keeps -/

/-- A register word after a reset: the kept bits, every other bit at its reset value. -/
def keptWord (k : RKind) (o : Nat) (w : Word) : Word :=
  let m := BitVec.ofNat 32 (keptBits k o)
  (w &&& m) ||| (resetWord o &&& ~~~m)

theorem getLsbD_keptWord (k : RKind) (o : Nat) (w : Word) {i : Nat} (h : i < 32) :
    (keptWord k o w).getLsbD i = if (keptBits k o).testBit i then w.getLsbD i else (resetWord o).getLsbD i := by
  simp only [keptWord, BitVec.getLsbD_or, BitVec.getLsbD_and, BitVec.getLsbD_not, BitVec.getLsbD_ofNat, h, decide_true,
    Bool.true_and]
  cases (keptBits k o).testBit i <;> simp

theorem keptWord_reset (k : RKind) (o : Nat) : keptWord k o (resetWord o) = resetWord o := by
  refine BitVec.eq_of_getLsbD_eq fun i h => ?_
  rw [getLsbD_keptWord _ _ _ h, ite_self]

theorem keptWord_none {k : RKind} {o : Nat} (h : keptBits k o = 0) (w : Word) : keptWord k o w = resetWord o := by
  refine BitVec.eq_of_getLsbD_eq fun i hi => ?_
  rw [getLsbD_keptWord _ _ _ hi, h]
  simp

theorem keptWord_all {k : RKind} {o : Nat} (h : keptBits k o = 0xffffffff) (w : Word) : keptWord k o w = w := by
  refine BitVec.eq_of_getLsbD_eq fun i hi => ?_
  have h1 : Nat.testBit (2 ^ 32 - 1) i = true := by rw [Nat.testBit_two_pow_sub_one]; simpa using hi
  rw [getLsbD_keptWord _ _ _ hi, h, show (0xffffffff : Nat) = 2 ^ 32 - 1 from rfl, h1, if_pos rfl]

/-- A field whose bits a reset keeps. -/
theorem wfld_keptWord {k : RKind} {o hi lo : Nat} (h : hi < 32) (hb : ∀ i, lo ≤ i → i ≤ hi → (keptBits k o).testBit i = true)
    (w : Word) : wfld (keptWord k o w) hi lo = wfld w hi lo :=
  wfld_congr fun i h1 h2 => by rw [getLsbD_keptWord _ _ _ (by omega), hb i h1 h2, if_pos rfl]

theorem tget_of_tabOk_lt {d : Nat → Word} {a k : Nat} {t : Tab Word} (ok : tabOk d a t = true) (h : k < a) (x : Word) :
    tget x t k = x := by
  induction t generalizing a with
  | nil => rfl
  | cons e r ih =>
    obtain ⟨j, v⟩ := e
    simp only [tabOk, Bool.and_eq_true, decide_eq_true_eq] at ok
    rw [tget, if_neg (by omega), ih ok.2 (by omega)]

theorem keptRegs_eq (k : RKind) (t : Tab Word) :
    keptRegs k t = t.filterMap fun e =>
      if keptWord k e.1 e.2 = resetWord e.1 then none else some (e.1, keptWord k e.1 e.2) := rfl

/-- A register after a reset, from a list of words in canonical form. -/
theorem tget_keptRegs (k : RKind) (o : Nat) {a : Nat} {t : Tab Word} (ok : tabOk resetWord a t = true) :
    tget (resetWord o) (keptRegs k t) o = keptWord k o (tget (resetWord o) t o) := by
  induction t generalizing a with
  | nil => exact (keptWord_reset k o).symm
  | cons e r ih =>
    obtain ⟨j, v⟩ := e
    simp only [tabOk, Bool.and_eq_true, decide_eq_true_eq] at ok
    have hc : keptRegs k ((j, v) :: r) =
        if keptWord k j v = resetWord j then keptRegs k r else (j, keptWord k j v) :: keptRegs k r := by
      rw [keptRegs_eq, keptRegs_eq]
      split
      · next h => simp only [List.filterMap_cons, h, if_true]
      · next h => simp only [List.filterMap_cons, h, if_false]
    rw [hc]
    by_cases hj : j = o
    · subst hj
      have hr : tget (resetWord j) r j = resetWord j := tget_of_tabOk_lt ok.2 (by omega) _
      split
      · next h => rw [ih ok.2, hr, keptWord_reset, tget, if_pos rfl, h]
      · rw [tget, if_pos rfl, tget, if_pos rfl]
    · split
      · rw [ih ok.2, tget, if_neg hj]
      · rw [tget, if_neg hj, ih ok.2, tget, if_neg hj]

/-- A POWER-ON reset keeps no register word. -/
theorem keptRegs_powerOn (t : Tab Word) : keptRegs .powerOn t = [] := by
  rw [keptRegs_eq, List.filterMap_eq_nil_iff]
  exact fun e _ => if_pos (keptWord_none rfl _)

/-! ## The bits that a reset keeps -/

/-- The control word of a window is found by its offset. -/
theorem wctlOf_rWctl {u i : Nat} (hi : i < winCount u) : wctlOf u (rWctl u i) = some i := by
  have e : rWctl u i = winBase u 0 + 16 * i + 12 := by
    unfold rWctl winBase
    split <;> omega
  unfold wctlOf
  dsimp only
  rw [if_pos (by omega)]
  congr 1
  omega

theorem wctlOf_of_lt {u o : Nat} (h : o < 0x1000000) : wctlOf u o = none := by
  have := winBase_le u 0
  unfold wctlOf
  exact if_neg (by omega)

theorem keptBits_window {k : RKind} {u i : Nat} (hk : k ≠ .powerOn) (hu : u < 36) (hi : i < winCount u) :
    keptBits k (rWctl u i) = 0xff := by
  have hb : 0x1000000 ≤ rWctl u i := by
    have := winBase_le u i
    unfold rWctl
    omega
  have ha : (unitList.any fun v => (wctlOf v (rWctl u i)).isSome) = true := by
    rw [List.any_eq_true]
    exact ⟨u, by simpa [unitList, upto] using hu, by rw [wctlOf_rWctl hi]; rfl⟩
  unfold keptBits
  dsimp only
  rw [if_neg hk, if_neg (by omega), if_neg (by omega), if_neg (by omega), if_neg (by omega),
    if_neg (by unfold rRing; omega), if_neg (by omega), if_pos ha]

/-- Of the registers of the module, those of the always-on state alone are kept. -/
theorem keptBits_module {k : RKind} {o : Nat} (ho : o < 0x1000000)
    (h1 : ¬ (o = 0x40 ∨ (0x60 ≤ o ∧ o < 0x80) ∨ o = 0x20018 ∨ o = 0x2001c)) (h2 : o ≠ 0x20000) (h3 : o ≠ 0x30000)
    (h4 : k.reachesAon = true ∨ ¬ ((0x20040 ≤ o ∧ o < 0x20058) ∨ o = 0x20060 ∨ o = 0x20064) ∧ o ≠ 0x50004 ∧ o ≠ 0x50000) :
    keptBits k o = 0 := by
  have ha : ¬ (unitList.any fun v => (wctlOf v o).isSome) = true := by
    simp [wctlOf_of_lt ho]
  unfold keptBits
  dsimp only
  by_cases hk : k = .powerOn
  · exact if_pos hk
  rw [if_neg hk, if_neg h1, if_neg h2, if_neg h3]
  obtain h4 | ⟨h4, h5, h6⟩ := h4
  · simp [h4, ha]
  · rw [if_neg (fun c => h4 c.2), if_neg (fun c => h5 c.2), if_neg (fun c => h6 c.2), if_neg ha]

theorem keptBits_rPd (k : RKind) {d : Nat} (hd : d < 72) : keptBits k (rPd d) = 0 := by
  unfold rPd
  exact keptBits_module (by omega) (by omega) (by omega) (by omega) (.inr (by omega))

/-- The words of domains at reset: OFF, with REQ at ON. -/
theorem resetWord_rPd : ∀ d < 72, wfld (resetWord (rPd d)) 3 2 = 0 ∧ wfld (resetWord (rPd d)) 1 0 = 2 := by
  decide

/-! ## The state after a reset -/

/-- What a reset leaves outside the register words. -/
structure Wiped (s : State) (k : RKind) (u : State) : Prop where
  mem : u.mem = []
  threads : u.threads = []
  cores : u.cores = []
  lands : u.lands = []
  jobs : u.hm.jobs = []
  reqs : u.reqs = []
  accs : u.accs = []
  fuses : u.fuses = s.fuses
  pending : u.pending = s.pending
  nonce : u.hm.nonce = s.hm.nonce + 1
  winGen : u.hm.winGen = resetGens k s.hm.winGen
  time : u.time = if k = .powerOn then 0 else s.time
  noClock : u.boot.noClock = s.boot.noClock
  pinLow : u.boot.pinLow = s.boot.pinLow

theorem Wiped.regsOnly {s u t : State} {k : RKind} (h : Wiped s k u) (g : RegsOnly u t) : Wiped s k t := by
  rw [RegsOnly] at g
  rw [g]
  exact ⟨h.mem, h.threads, h.cores, h.lands, h.jobs, h.reqs, h.accs, h.fuses, h.pending, h.nonce, h.winGen, h.time,
    h.noClock, h.pinLow⟩

theorem Wiped.sampleStraps {s u : State} {k : RKind} (h : Wiped s k u) (straps : BitVec 3) (b : Bool) :
    Wiped s k (sampleStraps u straps b) :=
  ⟨h.mem, h.threads, h.cores, h.lands, h.jobs, h.reqs, h.accs, h.fuses, h.pending, h.nonce, h.winGen, h.time, h.noClock,
    h.pinLow⟩

/-- The words that a reset writes itself: PD68 that it does not reach, and GLB.RSTCAUSE. -/
def markReset (s : State) (k : RKind) : State :=
  let s := if k.reachesAon then s else wrFld s (rPd 68) 3 2 2
  let s := wrFld s 0x40 18 16 k.num
  if k = .powerOn then s else setFlag s 0x40 k.num

theorem regsOnly_markReset (s : State) (k : RKind) : RegsOnly s (markReset s k) := by
  cases k
  · exact regsOnly_wrFld _ _ _ _ _
  · exact (regsOnly_wrFld _ _ _ _ _).trans (regsOnly_setFlag _ _ _)
  · exact ((regsOnly_wrFld _ _ _ _ _).trans (regsOnly_wrFld _ _ _ _ _)).trans (regsOnly_setFlag _ _ _)
  · exact ((regsOnly_wrFld _ _ _ _ _).trans (regsOnly_wrFld _ _ _ _ _)).trans (regsOnly_setFlag _ _ _)

theorem wipe_eq (s : State) (k : RKind) :
    ∃ w, wipe s k = updForced (markReset w k) ∧ w.regs = keptRegs k s.regs ∧ Wiped s k w :=
  ⟨_, rfl, rfl, rfl, rfl, rfl, rfl, rfl, rfl, rfl, rfl, rfl, rfl, rfl, rfl, rfl, rfl⟩

theorem wiped_wipe (s : State) (k : RKind) : Wiped s k (wipe s k) := by
  obtain ⟨w, e, -, h⟩ := wipe_eq s k
  rw [e]
  exact h.regsOnly ((regsOnly_markReset w k).trans (regsOnly_updForced _))

/-- A register that a reset does not write itself. -/
theorem rd_markReset_ne_cause (s : State) (k : RKind) {o : Nat} (h : o ≠ 0x40) :
    rd (markReset s k) o = rd (if k.reachesAon then s else wrFld s (rPd 68) 3 2 2) o := by
  unfold markReset
  dsimp only
  generalize (if k.reachesAon = true then s else wrFld s (rPd 68) 3 2 2) = t
  split
  · exact rd_wrFld_ne t _ _ _ h
  · rw [rd_setFlag_ne _ _ h, rd_wrFld_ne t _ _ _ h]

theorem rd_markReset (s : State) (k : RKind) {o : Nat} (h1 : o ≠ 0x40) (h2 : o ≠ rPd 68) :
    rd (markReset s k) o = rd s o := by
  rw [rd_markReset_ne_cause s k h1]
  split
  · rfl
  · exact rd_wrFld_ne s _ _ _ h2

theorem rPd_ne {d o : Nat} (h : o < 0x20100) : o ≠ rPd d := by
  unfold rPd
  omega

/-- GLB.RSTCAUSE.LAST names the reset. -/
theorem lastReset_markReset (s : State) (k : RKind) : rdFld (markReset s k) 0x40 18 16 = k.num := by
  have hn : k.num < 2 ^ (18 + 1 - 16) ∧ k.num < 16 := by cases k <;> decide
  unfold markReset
  dsimp only
  split
  · exact rdFld_wrFld_same _ _ (by omega) hn.1
  · rw [rdFld_setFlag_off _ (by omega) (by omega), rdFld_wrFld_same _ _ (by omega) hn.1]

theorem flag_markReset (s : State) {k : RKind} (hk : k ≠ .powerOn) : rdFld (markReset s k) 0x40 k.num k.num = 1 := by
  have hn : k.num < 32 := by cases k <;> decide
  unfold markReset
  dsimp only
  rw [if_neg hk, rdFld_setFlag_same _ _ hn]

/-- The flags of other resets stay. -/
theorem flag_markReset_ne (s : State) {k : RKind} (hk : k ≠ .powerOn) {b : Nat} (hb : b < 9) (hn : b ≠ k.num) :
    rdFld (markReset s k) 0x40 b b = rdFld s 0x40 b b := by
  unfold markReset
  dsimp only
  rw [if_neg hk, rdFld_setFlag_ne _ _ (Ne.symm hn), rdFld_wrFld_ne _ _ (by omega) (by omega)]
  split
  · rfl
  · exact rdFld_wrFld_ne _ _ (by omega) (.inl (rPd_ne (by omega)))

section
variable {s : State} {k : RKind} (hk : k = .powerOn ∨ regsListed s)
include hk

theorem tget_keptRegs_listed (o : Nat) : tget (resetWord o) (keptRegs k s.regs) o = keptWord k o (rd s o) := by
  obtain rfl | h := hk
  · rw [keptRegs_powerOn, keptWord_none rfl]
    rfl
  · exact tget_keptRegs k o h

/-- A register after a reset. -/
theorem rd_wipe {o : Nat} (h1 : o ≠ 0x40) (h2 : ∀ d < 72, o ≠ rPd d) : rd (wipe s k) o = keptWord k o (rd s o) := by
  obtain ⟨w, e, hr, -⟩ := wipe_eq s k
  rw [e, rd_updForced _ h2, rd_markReset _ _ h1 (h2 68 (by omega)), rd, hr, tget_keptRegs_listed hk]

theorem rd_wipe_module {o : Nat} (h1 : o ≠ 0x40) (h2 : ∀ d < 72, o ≠ rPd d) (h : keptBits k o = 0) :
    rd (wipe s k) o = resetWord o := by
  rw [rd_wipe hk h1 h2, keptWord_none h]

/-- A domain's word after a reset that reaches it. -/
theorem rdFld_wipe_pd {d hi lo : Nat} (hd : d < 72) (h : hi < 7) (h68 : d ≠ 68 ∨ k.reachesAon = true ∨ hi < 2) :
    rdFld (wipe s k) (rPd d) hi lo = wfld (resetWord (rPd d)) hi lo := by
  obtain ⟨w, e, hr, -⟩ := wipe_eq s k
  have h0 : rPd d ≠ 0x40 := Ne.symm (rPd_ne (by omega))
  have hw : rdFld w (rPd d) hi lo = wfld (resetWord (rPd d)) hi lo := by
    rw [rdFld, rd, hr, tget_keptRegs_listed hk, keptWord_none (keptBits_rPd k hd)]
  rw [e, rdFld_updForced _ (by omega) (.inr (.inl h)), rdFld, rd_markReset_ne_cause _ _ h0, ← rdFld, ← hw]
  split
  · rfl
  · next hn => exact rdFld_wrFld_ne w 2 (by omega) ((h68.imp rPd_inj.not.mpr fun c => .inl (c.resolve_left hn)))

theorem freshDomains_wipe :
    (∀ d < 72, d ≠ 68 → domState (wipe s k) d = 0 ∧ pdReq (wipe s k) d = 2) ∧
      (k.reachesAon = true → domState (wipe s k) 68 = 0) := by
  refine ⟨fun d hd hn => ⟨?_, ?_⟩, fun h => ?_⟩
  · exact (rdFld_wipe_pd hk hd (by omega) (.inl hn)).trans (resetWord_rPd d hd).1
  · exact (rdFld_wipe_pd hk hd (by omega) (.inl hn)).trans (resetWord_rPd d hd).2
  · exact (rdFld_wipe_pd hk (by omega) (by omega) (.inr (.inl h))).trans (resetWord_rPd 68 (by omega)).1

/-- The flags that tell resets apart, and the rest of GLB's always-on words. -/
theorem cause_wipe (hp : k ≠ .powerOn) :
    rdFld (wipe s k) 0x40 k.num k.num = 1 ∧ rdFld (wipe s k) 0x40 18 16 = k.num ∧
      ∀ b < 9, b ≠ k.num → rdFld (wipe s k) 0x40 b b = rdFld s 0x40 b b := by
  obtain ⟨w, e, hr, -⟩ := wipe_eq s k
  have hu : ∀ hi lo, rdFld (wipe s k) 0x40 hi lo = rdFld (markReset w k) 0x40 hi lo := by
    intro hi lo
    rw [e, rdFld, rd_updForced _ (fun d _ => rPd_ne (by omega)), rdFld]
  have hw : rd w 0x40 = rd s 0x40 := by
    rw [rd, hr, tget_keptRegs_listed hk]
    exact keptWord_all (by simp [keptBits, hp]) _
  refine ⟨(hu _ _).trans (flag_markReset w hp), (hu _ _).trans (lastReset_markReset w k), fun b hb hn => ?_⟩
  rw [hu, flag_markReset_ne w hp hb hn, rdFld, hw, rdFld]

end

theorem domState_wipe_aon (s : State) {k : RKind} (h : k.reachesAon = false) : domState (wipe s k) 68 = 2 := by
  obtain ⟨w, e, -, -⟩ := wipe_eq s k
  have h0 : rPd 68 ≠ 0x40 := by decide
  rw [e, domState, rdFld_updForced _ (by omega) (.inr (.inl (by omega))), rdFld, rd_markReset_ne_cause _ _ h0, ← rdFld, h]
  exact rdFld_wrFld_same w (rPd 68) (by omega) (by omega)

/-! ## What the claims about resets state -/

theorem rWctl_range {u i : Nat} (hi : i < winCount u) :
    winBase u 0 ≤ rWctl u i ∧ rWctl u i < winBase u 0 + 16 * winCount u ∧ 0x1000000 ≤ rWctl u i := by
  have h := winBase_le u i
  unfold rWctl
  unfold winBase winCount at *
  split <;> simp_all only [if_true, if_false] <;> omega

theorem rWctl_ne_rPd {u i d : Nat} (hi : i < winCount u) (hd : d < 72) : rWctl u i ≠ rPd d := by
  have h := (rWctl_range hi).2.2
  unfold rPd
  omega

theorem tget_resetGens {k : RKind} (hk : k ≠ .powerOn) (g : Tab (BitVec 8)) {u : Nat} (hu : u < 36) :
    tget 0 (resetGens k g) u = tget 0 g u + 1 := by
  have h : ∀ (xs : List Nat) (t : Tab (BitVec 8)), u ∈ xs ∨ tget 0 t u = tget 0 g u + 1 →
      tget 0 (xs.foldl (fun t v => tput 0 v (tget 0 g v + 1) t) t) u = tget 0 g u + 1 := by
    intro xs
    induction xs with
    | nil => exact fun t h => h.resolve_left (by simp)
    | cons v xs ih =>
      refine fun t h => ih _ ?_
      by_cases hv : u = v
      · subst hv
        exact .inr (tget_tput_same _ _ _ _)
      · rw [tget_tput_ne _ hv]
        exact h.imp_left fun c => (List.mem_cons.mp c).resolve_left hv
  rw [resetGens, if_neg hk]
  exact h _ _ (.inl (by simpa [unitList, upto] using hu))

theorem cause_wipe_powerOn (s : State) : rd (wipe s .powerOn) 0x40 = 1 := by
  obtain ⟨w, e, hr, -⟩ := wipe_eq s .powerOn
  have hw : rd w 0x40 = 1 := by
    rw [rd, hr, keptRegs_powerOn]
    decide
  rw [e, rd_updForced _ (fun d _ => rPd_ne (by omega))]
  change rd (wrFld w 0x40 18 16 0) 0x40 = 1
  rw [wrFld, rd_wr, hw]
  decide

section
variable {s : State} {k : RKind} (hk : k = .powerOn ∨ regsListed s)
include hk

/-- A register of the module that a reset does not keep. -/
theorem rd_wipe_fresh {o : Nat} (ho : o < 0x20100)
    (h1 : ¬ (o = 0x40 ∨ (0x60 ≤ o ∧ o < 0x80) ∨ o = 0x20018 ∨ o = 0x2001c)) (h2 : o ≠ 0x20000)
    (h4 : k.reachesAon = true ∨ ¬ ((0x20040 ≤ o ∧ o < 0x20058) ∨ o = 0x20060 ∨ o = 0x20064)) :
    rd (wipe s k) o = resetWord o :=
  rd_wipe_module hk (by omega) (fun d _ => rPd_ne ho)
    (keptBits_module (by omega) h1 h2 (by omega) (h4.imp_right fun c => ⟨c, by omega, by omega⟩))

theorem freshModule_wipe : freshModule s (wipe s k) := by
  have w := wiped_wipe s k
  have r50 : rd (wipe s k) 0x50 = 0 :=
    (rd_wipe_fresh hk (by omega) (by omega) (by omega) (.inr (by omega))).trans (by decide)
  have r4c : isReady (wipe s k) = false := by
    rw [isReady, rdFld, rd_wipe_fresh hk (by omega) (by omega) (by omega) (.inr (by omega))]
    decide
  have r58 : fatal (wipe s k) = false := by
    rw [fatal, rdFld, rd_wipe_fresh hk (by omega) (by omega) (by omega) (.inr (by omega))]
    decide
  exact ⟨w.mem, w.threads, w.cores, w.lands, w.jobs, w.reqs, w.accs, (freshDomains_wipe hk).1, r50, r4c, r58, w.fuses,
    w.pending, by rw [w.nonce]; omega⟩

/-- A window's control word after a reset: its generation, closed. -/
theorem window_wipe (hp : k ≠ .powerOn) {n i : Nat} (hn : n < 36) (hi : i < winCount n) :
    winGen (wipe s k) n i = winGen s n i + 1 ∧ winOpen (wipe s k) n i = false := by
  obtain ⟨h1, h2, h3⟩ := rWctl_range hi
  have hb := keptBits_window hp hn hi
  have hr : rd (wipe s k) (rWctl n i) = keptWord k (rWctl n i) (rd s (rWctl n i)) :=
    rd_wipe hk (by omega) fun d hd => rWctl_ne_rPd hi hd
  constructor
  · have hg : rdFld (wipe s k) (rWctl n i) 7 0 = rdFld s (rWctl n i) 7 0 := by
      rw [rdFld, hr, wfld_keptWord (by omega) (fun j _ hj => ?_), rdFld]
      rw [hb, show (0xff : Nat) = 2 ^ 8 - 1 from rfl, Nat.testBit_two_pow_sub_one]
      exact decide_eq_true (by omega)
    rw [winGen, hg, (wiped_wipe s k).winGen, tget_resetGens hp _ hn, winGen, BitVec.add_assoc]
  · rw [winOpen, winFlag, rdFld, hr, wfld_bit, getLsbD_keptWord _ _ _ (by omega), hb, resetWord_window n h1 h2,
      if_neg (by decide)]
    decide

/-- The state of the always-on domain that a reset keeps (R523). -/
theorem alwaysOnKept_wipe (hp : k ≠ .powerOn) : alwaysOnKept s (wipe s k) k.num := by
  obtain ⟨h1, h2, h3⟩ := cause_wipe hk hp
  have all : ∀ o, o < 0x20100 → o ≠ 0x40 → (0x60 ≤ o ∧ o < 0x80) ∨ o = 0x20018 ∨ o = 0x2001c →
      rd (wipe s k) o = rd s o := fun o ho hn h =>
    (rd_wipe hk hn fun d _ => rPd_ne ho).trans (keptWord_all (by
      unfold keptBits
      dsimp only
      rw [if_neg hp, if_pos (.inr h)]) _)
  refine ⟨by rw [(wiped_wipe s k).time, if_neg hp], h1, h2, h3, fun i hi => all _ (by omega) (by omega) (by omega),
    all _ (by omega) (by omega) (by omega), all _ (by omega) (by omega) (by omega), ?_, ?_,
    fun n i hn hi => window_wipe hk hp hn hi⟩
  · rw [rdFld, rd_wipe hk (by omega) (fun d _ => rPd_ne (by omega)), wfld_keptWord (by omega), rdFld]
    have hb : keptBits k 0x20000 = 0x1f8 := by simp [keptBits, hp]
    rw [hb]
    intro i h3 h8
    interval_cases i <;> rfl
  · rw [rdFld, rd_wipe hk (by omega) ?_, wfld_keptWord (by omega), rdFld]
    · have hb : keptBits k 0x30000 = 4 := by simp [keptBits, hp]
      rw [hb]
      intro i h3 h8
      interval_cases i; rfl
    · intro d hd
      unfold rPd
      omega

theorem safety_wipe_aon (h : k.reachesAon = true) : ∀ o ∈ safetyWords, rd (wipe s k) o = resetWord o := by
  have hr : ∀ o ∈ safetyWords, o < 0x20100 ∧ 0x20040 ≤ o := by decide
  exact fun o ho => rd_wipe_fresh hk (hr o ho).1 (by have := hr o ho; omega) (by have := hr o ho; omega) (.inl h)

theorem safety_wipe_kept (h : k.reachesAon = false) : ∀ o ∈ safetyWords, rd (wipe s k) o = rd s o := by
  have hr : ∀ o ∈ safetyWords, o < 0x20100 ∧ ((0x20040 ≤ o ∧ o < 0x20058) ∨ o = 0x20060 ∨ o = 0x20064) := by decide
  intro o ho
  obtain ⟨h1, h2⟩ := hr o ho
  have hp : k ≠ .powerOn := by rintro rfl; cases h
  refine (rd_wipe hk (by omega) fun d _ => rPd_ne h1).trans (keptWord_all ?_ _)
  unfold keptBits
  dsimp only
  rw [if_neg hp, if_neg (by omega), if_neg (by omega), if_neg (by omega), if_pos ⟨by rw [h]; rfl, h2⟩]

end

/-- The windows are closed at generation 0 after a POWER-ON reset. -/
theorem winGen_wipe_powerOn (s : State) {n i : Nat} (hi : i < winCount n) : winGen (wipe s .powerOn) n i = 0 := by
  obtain ⟨h1, h2, h3⟩ := rWctl_range hi
  rw [winGen, rdFld, rd_wipe (.inl rfl) (by omega) (fun d hd => rWctl_ne_rPd hi hd), keptWord_none rfl,
    resetWord_window n h1 h2, (wiped_wipe s .powerOn).winGen]
  rfl

end Sys2Proof.Laws
end

section
/-! The resets of the whole module (R522 to R524, R538) and of purser firmware (R526, R527): when each acts, and what it leaves. -/

namespace Sys2Proof.Laws

open Sys2Proof Sys2Proof.Machine Sys2Proof.Claims

/-! ## Straps -/

theorem rd_sampleStraps (s : State) (straps : BitVec 3) (b : Bool) {o : Nat} (h : o ≠ 0x50000) :
    rd (sampleStraps s straps b) o = rd s o := rd_wrFld_ne _ _ _ _ h

theorem rdFld_sampleStraps (s : State) (straps : BitVec 3) (b : Bool) {o : Nat} (h : o ≠ 0x50000) (hi lo : Nat) :
    rdFld (sampleStraps s straps b) o hi lo = rdFld s o hi lo := congrArg (wfld · hi lo) (rd_sampleStraps s straps b h)

theorem straps_sampleStraps (s : State) (straps : BitVec 3) : rdFld (sampleStraps s straps true) 0x50000 3 0 = straps.toNat :=
  rdFld_wrFld_same _ _ (by omega) (by have := straps.isLt; omega)

theorem rPd_ne_straps {d : Nat} (h : d < 72) : rPd d ≠ 0x50000 := by
  unfold rPd
  omega

theorem domState_sampleStraps (s : State) (straps : BitVec 3) (b : Bool) {d : Nat} (h : d < 72) :
    domState (sampleStraps s straps b) d = domState s d := rdFld_sampleStraps s straps b (rPd_ne_straps h) 3 2

theorem freshModule_sampleStraps {s u : State} (straps : BitVec 3) (b : Bool) (h : freshModule s u) :
    freshModule s (sampleStraps u straps b) := by
  obtain ⟨mem, threads, cores, lands, jobs, reqs, accs, doms, lfail, ready, fatal', rest⟩ := h
  refine ⟨mem, threads, cores, lands, jobs, reqs, accs, fun d hd hn => ?_, ?_, ?_, ?_, rest⟩
  · rw [domState_sampleStraps _ _ _ hd, pdReq, rdFld_sampleStraps _ _ _ (rPd_ne_straps hd)]
    exact doms d hd hn
  · rw [rd_sampleStraps _ _ _ (by omega), lfail]
  · rw [isReady, rdFld_sampleStraps _ _ _ (by omega)]
    exact ready
  · rw [fatal, rdFld_sampleStraps _ _ _ (by omega)]
    exact fatal'

theorem window_sampleStraps (s : State) (straps : BitVec 3) (b : Bool) {n i : Nat} (hi : i < winCount n) :
    winGen (sampleStraps s straps b) n i = winGen s n i ∧ winOpen (sampleStraps s straps b) n i = winOpen s n i := by
  have h : rWctl n i ≠ 0x50000 := by have := rWctl_range hi; omega
  rw [winGen, winOpen, winFlag, rdFld_sampleStraps _ _ _ h, rdFld_sampleStraps _ _ _ h]
  exact ⟨rfl, rfl⟩

theorem alwaysOnKept_sampleStraps {s u : State} {kind : Nat} (straps : BitVec 3) (b : Bool) (h : alwaysOnKept s u kind) :
    alwaysOnKept s (sampleStraps u straps b) kind := by
  obtain ⟨time, own, last, flags, codes, lo, hi, pins, trip, wins⟩ := h
  refine ⟨time, ?_, ?_, fun c hc hn => ?_, fun i h8 => ?_, ?_, ?_, ?_, ?_, fun n i hn hi => ?_⟩
  · rwa [rdFld_sampleStraps _ _ _ (by omega)]
  · rwa [rdFld_sampleStraps _ _ _ (by omega)]
  · rw [rdFld_sampleStraps _ _ _ (by omega), flags c hc hn]
  · rw [rd_sampleStraps _ _ _ (by omega), codes i h8]
  · rwa [rd_sampleStraps _ _ _ (by omega)]
  · rwa [rd_sampleStraps _ _ _ (by omega)]
  · rwa [rdFld_sampleStraps _ _ _ (by omega)]
  · rwa [rdFld_sampleStraps _ _ _ (by omega)]
  · obtain ⟨h1, h2⟩ := window_sampleStraps u straps b hi
    rw [h1, h2]
    exact wins n i hn hi

theorem safety_sampleStraps (s : State) (straps : BitVec 3) (b : Bool) :
    ∀ o ∈ safetyWords, rd (sampleStraps s straps b) o = rd s o := by
  have h : ∀ o ∈ safetyWords, o ≠ 0x50000 := by decide
  exact fun o ho => rd_sampleStraps s straps b (h o ho)

/-! ## Which reset acts -/

theorem not_mem_sdel (n : Nat) (xs : List Nat) : n ∉ sdel n xs := by
  simp [sdel]

theorem powerOnRuns_iff (s : State) : powerOnRuns s = false ↔ noPowerOn s := by
  unfold powerOnRuns noPowerOn
  rw [Bool.or_eq_false_iff, Bool.and_eq_false_iff]
  simp [RKind.num]

theorem greaterRuns_pin (s : State) : greaterRuns s .pin = powerOnRuns s := by
  simp [greaterRuns, RKind.reachesAon]

/-- A reset of the module that spares the always-on domain. -/
theorem doReset_spares {s : State} {k : RKind} (hk : k.reachesAon = false) (hp : noPowerOn s)
    (hl : s.boot.pinLow = false) : doReset s k = wipe s k := by
  rw [doReset, if_neg]
  simp [greaterRuns, (powerOnRuns_iff s).mpr hp, hl, hk]

/-- What a reset of the module that spares the always-on domain leaves. -/
theorem spared {s : State} {k : RKind} (hk : k.reachesAon = false) (ok : regsListed s) :
    freshModule s (wipe s k) ∧ alwaysOnKept s (wipe s k) k.num ∧ domState (wipe s k) 68 = 2 ∧
      ∀ o ∈ safetyWords, rd (wipe s k) o = rd s o :=
  ⟨freshModule_wipe (.inr ok), alwaysOnKept_wipe (.inr ok) (by rintro rfl; cases hk), domState_wipe_aon s hk,
    safety_wipe_kept (.inr ok) hk⟩

/-- The state with SYS_RST_N low, as the filter has counted the pulse. -/
def pinFalls (s : State) : State := { s with free := s.free + 1, boot := { s.boot with pinLow := true } }

theorem freshModule_of_pinFalls {s u : State} (h : freshModule (pinFalls s) u) : freshModule s u := h

theorem alwaysOnKept_of_pinFalls {s u : State} {kind : Nat} (h : alwaysOnKept (pinFalls s) u kind) :
    alwaysOnKept s u kind := h

theorem exec_pinReset (s : State) (ns : Nat) (straps : BitVec 3) (b : Bool) :
    (10000 ≤ ns → exec (.pinReset ns straps b) s =
      .next (if powerOnRuns s then pinFalls s else sampleStraps (wipe (pinFalls s) .pin) straps b)) ∧
    (ns < 2000 → exec (.pinReset ns straps b) s = .next { s with free := s.free + 1 }) := by
  change (_ → execPinReset ns straps b s = _) ∧ (_ → execPinReset ns straps b s = _)
  have hg : greaterRuns { s with free := s.free + 1 } .pin = powerOnRuns s := greaterRuns_pin _
  have hd : greaterRuns (pinFalls s) .pin = powerOnRuns s := greaterRuns_pin _
  refine ⟨fun h => ?_, fun h => ?_⟩
  · have hp : pulseActs s ns = (true, { s with free := s.free + 1 }) := by simp [pulseActs, h]
    rw [execPinReset, hp]
    change Host.Outcome.next (if greaterRuns { s with free := s.free + 1 } .pin = true then pinFalls s
      else sampleStraps (doReset (pinFalls s) .pin) straps b) = _
    rw [hg, doReset, hd]
    split <;> rfl
  · have h1 : ¬ 10000 ≤ ns := by omega
    have h2 : ¬ 2000 ≤ ns := by omega
    simp [execPinReset, pulseActs, h1, h2]

/-- The state without ROOTCLK. -/
def clockFails (s : State) : State := { s with boot := { s.boot with noClock := true } }

theorem exec_clockLoss {s : State} (hp : noPowerOn s) (hl : s.boot.pinLow = false) {ns : Nat} (h : 2000 < ns) :
    exec (.clockLoss ns) s = .next (wipe (clockFails s) .clkLoss) := by
  have e : doReset (clockFails s) .clkLoss = wipe (clockFails s) .clkLoss := doReset_spares rfl hp hl
  change execClockLoss ns s = _
  rw [execClockLoss, if_neg (by omega)]
  exact congrArg _ e

theorem keyed_iff (v : Word) : keyed v = true ↔ wfld v 7 0 = 0x5a ∧ wfld v 8 8 = 1 := by
  simp [keyed]

/-! ## Power comes -/

theorem exec_powerOnReset (s : State) (straps : BitVec 3) (b : Bool) :
    exec (.powerOnReset straps b) s = .next (powerUp s straps b) := rfl

/-- PWR_OK_0 without ROOTCLK: the power inputs alone change. -/
theorem powerUp_noClock {s : State} (h : s.boot.noClock = true) (straps : BitVec 3) (b : Bool) :
    0 ∉ (powerUp s straps b).pwr.bad ∧ (powerUp s straps b).boot = s.boot ∧ (powerUp s straps b).mem = s.mem ∧
      ∀ d < 72, domState (powerUp s straps b) d = domState s d := by
  have e : powerUp s straps b = updForced { s with pwr := { s.pwr with bad := sdel 0 s.pwr.bad } } := by
    rw [powerUp]
    exact if_pos h
  have hr := regsOnly_updForced { s with pwr := { s.pwr with bad := sdel 0 s.pwr.bad } }
  rw [e]
  refine ⟨?_, ?_, ?_, fun d _ => rdFld_updForced _ (by omega) (.inr (.inl (by omega)))⟩
  · rw [hr]
    exact not_mem_sdel 0 _
  · rw [hr]
  · rw [hr]

/-- PWR_OK_0 with ROOTCLK: a POWER-ON reset. -/
theorem powerUp_clock {s : State} (h : s.boot.noClock = false) (straps : BitVec 3) (b : Bool) :
    ∃ x, powerUp s straps b = sampleStraps (wipe x .powerOn) straps b ∧ (∀ u, freshModule x u → freshModule s u) := by
  refine ⟨{ s with pwr := { s.pwr with bad := sdel 0 s.pwr.bad } }, ?_, fun u hu => hu⟩
  rw [powerUp]
  exact if_neg (by simp [h])

/-! ## The resets of the whole module -/

/-- The resets of the whole module of O48. -/
theorem moduleResets : ModuleResets := by
  intro s
  refine ⟨fun h straps b => ?noClock, fun h straps => ?powerOn, fun h straps => ?straps, fun hn ns straps b hl => ?covered,
    fun ok hp ns straps hl => ?pin, fun ns straps b hs => (exec_pinReset s ns straps b).2 hs,
    fun ok hp hl => ⟨?clock, ?module⟩, fun ns hs => ?shortLoss, fun m v h => ?notKeyed, fun h => ?release, fun h => ?clockBack⟩
  case noClock =>
    obtain ⟨h1, h2, h3, h4⟩ := powerUp_noClock h straps b
    exact ⟨_, exec_powerOnReset s straps b, h1, h2, h3, h4⟩
  case powerOn =>
    obtain ⟨x, e, hf⟩ := powerUp_clock h straps true
    refine ⟨_, exec_powerOnReset s straps true, ?_⟩
    rw [e]
    refine ⟨freshModule_sampleStraps _ _ (hf _ (freshModule_wipe (.inl rfl))),
      ((wiped_wipe x .powerOn).sampleStraps straps true).time.trans (if_pos rfl), ?_, ?_,
      straps_sampleStraps _ straps, fun o ho => ?_, fun n i hn hi => ?_⟩
    · rw [rd_sampleStraps _ _ _ (by omega), cause_wipe_powerOn]
    · rw [domState_sampleStraps _ _ _ (by omega), (freshDomains_wipe (.inl rfl)).2 rfl]
    · rw [safety_sampleStraps _ _ _ o ho, safety_wipe_aon (.inl rfl) rfl o ho]
    · rw [(window_sampleStraps _ _ _ hi).1, winGen_wipe_powerOn x hi]
  case straps =>
    obtain ⟨x, e, hf⟩ := powerUp_clock h straps false
    refine ⟨_, exec_powerOnReset s straps false, ?_⟩
    rw [e]
    refine ⟨freshModule_sampleStraps _ _ (hf _ (freshModule_wipe (.inl rfl))), ?_⟩
    rw [rd_sampleStraps _ _ _ (by omega), cause_wipe_powerOn]
  case covered =>
    rw [Runs, (exec_pinReset s ns straps b).1 hl, if_pos]
    · rfl
    · rwa [← powerOnRuns_iff, Bool.not_eq_false] at hn
  case pin =>
    refine ⟨_, (exec_pinReset s ns straps true).1 hl, ?_⟩
    have ok' : regsListed (pinFalls s) := ok
    rw [if_neg (by rw [(powerOnRuns_iff s).mpr hp]; exact Bool.false_ne_true)]
    refine ⟨freshModule_sampleStraps _ _ (freshModule_of_pinFalls (freshModule_wipe (.inr ok'))),
      alwaysOnKept_sampleStraps _ _ (alwaysOnKept_of_pinFalls (alwaysOnKept_wipe (k := .pin) (.inr ok') (by decide))), ?_,
      straps_sampleStraps _ straps, ((wiped_wipe (pinFalls s) .pin).sampleStraps straps true).pinLow, fun o ho => ?_⟩
    · rw [domState_sampleStraps _ _ _ (by omega), (freshDomains_wipe (.inr ok')).2 rfl]
    · rw [safety_sampleStraps _ _ _ o ho, safety_wipe_aon (.inr ok') rfl o ho]
  case clock =>
    intro ns hs
    obtain ⟨h1, h2, h3, h4⟩ := spared (s := clockFails s) (k := .clkLoss) rfl ok
    refine ⟨_, exec_clockLoss hp hl hs, h1, h2, h3, (wiped_wipe (clockFails s) .clkLoss).noClock, h4⟩
  case module =>
    intro m v hm hkey hgo
    obtain ⟨h1, h2, h3, h4⟩ := spared (k := .module) rfl ok
    refine ⟨_, ?_, h1, h2, h3, h4⟩
    change execModuleReset m v s = _
    rw [execModuleReset, if_pos ⟨hm, (keyed_iff v).mpr ⟨hkey, hgo⟩⟩, doReset_spares rfl hp hl]
  case shortLoss => exact if_pos hs
  case notKeyed =>
    change execModuleReset m v s = _
    rw [execModuleReset, if_neg]
    rw [keyed_iff]
    rintro ⟨hm, hkey, hgo⟩
    obtain h | h | h := h
    · rw [h] at hm; cases hm
    · exact h hkey
    · exact h hgo
  case release => exact congrArg Host.Outcome.next (if_pos h)
  case clockBack => exact congrArg Host.Outcome.next (if_pos h)

end Sys2Proof.Laws
end

section
/-! The reset of purser firmware (R526, R527, R529): boarding held, queue sets, quay SRAM and deckhands fresh. -/

namespace Sys2Proof.Laws

open Sys2Proof Sys2Proof.Machine Sys2Proof.Claims

/-! ## Queue sets -/

theorem inLap_eq_parts (s : State) : s.crs.inLap = (parts s).2.inLap := by rw [parts_def]


theorem qsets_updMask (s : State) (l : Nat) (v : BitVec 16) (g : Nat) : (updMask s l v g).qsets = s.qsets := by
  rw [updMask, wrFld_qsets]

theorem qsets_dropReq (s : State) (r : Req) : (dropReq s r).qsets = s.qsets := by
  unfold dropReq
  dsimp only
  split
  · rw [qsets_updMask]
  · rfl

theorem qsets_foldl_dropReq (rs : List Req) (s : State) : (rs.foldl (fun s r => dropReq s r) s).qsets = s.qsets :=
  foldl_keeps (P := fun t => t.qsets = s.qsets) (fun t r h => (qsets_dropReq t r).trans h) rs rfl

theorem getQs_finishQsReset (s : State) (q p : Nat) :
    getQs (finishQsReset s q) p = if p = q then {} else getQs s p := by
  have e : (finishQsReset s q).qsets = tput {} q { getQs (setQs s q {}) q with fresh := 0 } (tput {} q {} s.qsets) := by
    simp only [finishQsReset, clearPend, setQs, wrFld_qsets, wr_qsets, getQs]
  rw [getQs, e, tput_tput]
  split
  · next h =>
    subst h
    rw [tget_tput_same, getQs, setQs, tget_tput_same]
  · next h =>
    rw [tget_tput_ne _ h]
    rfl

/-- A queue set that a reset leaves fresh, or, with requests in a lap, resetting once the lap ends. -/
theorem getQs_resetQs (s : State) (q : Nat) :
    (getQs (resetQs s q) q = {} ∨ s.crs.inLap = true ∧ (getQs (resetQs s q) q).resetting = true) ∧
      ∀ p, p ≠ q → getQs (resetQs s q) p = getQs s p := by
  have hq : ∀ t : State, t.qsets = tput {} q { getQs s q with resetting := true, entries := [] } s.qsets →
      (getQs t q).resetting = true ∧ ∀ p, p ≠ q → getQs t p = getQs s p := by
    intro t ht
    rw [getQs, ht, tget_tput_same]
    exact ⟨rfl, fun p hp => by rw [getQs, ht, tget_tput_ne _ hp, getQs]⟩
  unfold resetQs
  dsimp only
  generalize ht : List.foldl (fun s r => dropReq s r) _ _ = t
  have hqs : t.qsets = tput {} q { getQs s q with resetting := true, entries := [] } s.qsets := by
    rw [← ht, qsets_foldl_dropReq, setQs, wrFld_qsets]
  have hlap : t.crs.inLap = s.crs.inLap := by
    rw [inLap_eq_parts, ← ht, inLap_eq_parts]
    simp
  split
  · next h => exact ⟨.inr ⟨hlap ▸ h.1, (hq t hqs).1⟩, (hq t hqs).2⟩
  · have he : (endRequests t q).qsets = t.qsets := qsets_foldl_dropReq _ _
    simp only [getQs_finishQsReset, if_true]
    refine ⟨.inl trivial, fun p hp => ?_⟩
    rw [if_neg hp]
    exact (hq _ (he.trans hqs)).2 p hp

/-- Every queue set after the resets of all. -/
theorem getQs_foldl_resetQs (s : State) {q : Nat} (hq : q < 64) :
    let t := (upto 64).foldl (fun s q => resetQs s q) s
    getQs t q = {} ∨ s.crs.inLap = true ∧ (getQs t q).resetting = true := by
  have h : ∀ (xs : List Nat) (t : State), t.crs.inLap = s.crs.inLap →
      (q ∈ xs ∨ getQs t q = {} ∨ s.crs.inLap = true ∧ (getQs t q).resetting = true) →
      let u := xs.foldl (fun s q => resetQs s q) t
      getQs u q = {} ∨ s.crs.inLap = true ∧ (getQs u q).resetting = true := by
    intro xs
    induction xs with
    | nil => exact fun t _ h => h.resolve_left (by simp)
    | cons p xs ih =>
      intro t ht h
      obtain ⟨h1, h2⟩ := getQs_resetQs t p
      refine ih _ (by rw [inLap_eq_parts, parts_resetQs, ← inLap_eq_parts, ht]) ?_
      by_cases hp : q = p
      · subst hp
        exact .inr (ht ▸ h1)
      · rw [h2 q hp]
        exact h.imp_left fun c => (List.mem_cons.mp c).resolve_left hp
  exact h _ s rfl (.inl (List.mem_range.mpr hq))

/-! ## The steps of the reset -/

/-- Boarding held, storage and queue sets at reset. -/
def quietPurser (s : State) : State :=
  (upto 64).foldl (fun s q => resetQs s q) (dropStorage (noticeHold (setPwr s { s.pwr with purHold := true })))

/-- One quay's windows closed and its SRAM scrubbed. -/
def scrubQuay (s : State) (q : Nat) : State := scrubRange (resetWins s (32 + q)) (memKey q 4 0) (2 ^ 26)

/-- The deckhands' threads dropped. -/
def dropDeckhands (s : State) : State := { s with threads := s.threads.filter fun e => e.1 < 131072 }

/-- READY clear, and the stage of start-up. -/
def restage (s : State) : State :=
  let s := wrFld s rBootstat 4 4 0
  if fatal s ∨ rdFld s rBootstat 3 0 < 3 then s else setStage s 3

/-- The times from which the watchdog and start-up count, and the deckhands that start. -/
def restart (s : State) : State :=
  { s with boot := { s.boot with
    resetAt := s.time
    quaysAt := s.time
    served := s.time
    deckhands := (presentLands s).filter fun l => uncoreOn s l } }

theorem parts_quietPurser (s : State) :
    parts (quietPurser s) = ({ (parts s).1 with purHold := true }, (parts s).2) := by
  have h : ∀ s q, parts (resetQs s q) = parts s := parts_resetQs
  rw [quietPurser, parts_foldl h, parts_dropStorage, parts_noticeHold, setPwr, parts_mk, parts_def]

theorem getByte_scrubQuay (s : State) (q k : Nat) :
    getByte (scrubQuay s q) k = if memKey q 4 0 ≤ k ∧ k < memKey q 4 0 + 2 ^ 26 then 0 else getByte s k :=
  getByte_scrubRange _ _ _ _

/-- The scrub of the quays' SRAM leaves the rest but memory and windows. -/
theorem scrubQuay_kept (s : State) (q : Nat) :
    (parts (scrubQuay s q)).1 = (parts s).1 ∧ (scrubQuay s q).threads = s.threads ∧ (scrubQuay s q).hm.jobs = s.hm.jobs ∧
      (scrubQuay s q).qsets = s.qsets ∧ wordsOf storedReg (scrubQuay s q).regs = wordsOf storedReg s.regs := by
  have h : (parts (resetWins s (32 + q))).2.word = (parts s).2.word := by rw [parts_resetWins]
  rw [parts_def, parts_def] at h
  exact ⟨by rw [scrubQuay, steady_scrubRange, parts_resetWins], rfl, rfl, rfl, h⟩

/-- All quays' SRAM scrubbed. -/
def scrubQuays (s : State) : State := (upto 4).foldl scrubQuay s

theorem scrubQuays_kept (s : State) :
    (parts (scrubQuays s)).1 = (parts s).1 ∧ (scrubQuays s).threads = s.threads ∧ (scrubQuays s).hm.jobs = s.hm.jobs ∧
      (scrubQuays s).qsets = s.qsets ∧ wordsOf storedReg (scrubQuays s).regs = wordsOf storedReg s.regs :=
  foldl_keeps (P := fun t => (parts t).1 = (parts s).1 ∧ t.threads = s.threads ∧ t.hm.jobs = s.hm.jobs ∧
      t.qsets = s.qsets ∧ wordsOf storedReg t.regs = wordsOf storedReg s.regs)
    (fun t q ⟨h1, h2, h3, h4, h5⟩ => by
      obtain ⟨g1, g2, g3, g4, g5⟩ := scrubQuay_kept t q
      exact ⟨g1.trans h1, g2.trans h2, g3.trans h3, g4.trans h4, g5.trans h5⟩) _ ⟨rfl, rfl, rfl, rfl, rfl⟩

theorem scrubQuays_eq (s : State) : scrubQuays s = scrubQuay (scrubQuay (scrubQuay (scrubQuay s 0) 1) 2) 3 := rfl

/-- The SRAM of a quay is zero. -/
theorem getByte_scrubQuays_sram (s : State) {q off : Nat} (hq : q < 4) (h : off < 2 ^ 26) :
    getByte (scrubQuays s) (memKey q 4 off) = 0 := by
  have hr : ∀ p, p ≠ q → ¬ (memKey p 4 0 ≤ memKey q 4 off ∧ memKey q 4 off < memKey p 4 0 + 2 ^ 26) := by
    intro p hp
    unfold memKey
    omega
  have hs : memKey q 4 0 ≤ memKey q 4 off ∧ memKey q 4 off < memKey q 4 0 + 2 ^ 26 := by
    unfold memKey
    omega
  rw [scrubQuays_eq, getByte_scrubQuay, getByte_scrubQuay, getByte_scrubQuay, getByte_scrubQuay]
  obtain rfl | rfl | rfl | rfl : q = 0 ∨ q = 1 ∨ q = 2 ∨ q = 3 := by omega
  · rw [if_neg (hr 3 (by omega)), if_neg (hr 2 (by omega)), if_neg (hr 1 (by omega)), if_pos hs]
  · rw [if_neg (hr 3 (by omega)), if_neg (hr 2 (by omega)), if_pos hs]
  · rw [if_neg (hr 3 (by omega)), if_pos hs]
  · rw [if_pos hs]

/-- The memories of landings are left. -/
theorem getByte_scrubQuays_landing (s : State) {l sp off : Nat} (hs : sp ∈ [0, 1, 2, 6]) (h : off < 2 ^ 44) :
    getByte (scrubQuays s) (memKey l sp off) = getByte s (memKey l sp off) := by
  have hr : ∀ q, ¬ (memKey q 4 0 ≤ memKey l sp off ∧ memKey l sp off < memKey q 4 0 + 2 ^ 26) := by
    intro q
    simp only [List.mem_cons, List.not_mem_nil, or_false] at hs
    unfold memKey
    omega
  rw [scrubQuays_eq, getByte_scrubQuay, getByte_scrubQuay, getByte_scrubQuay, getByte_scrubQuay, if_neg (hr 3),
    if_neg (hr 2), if_neg (hr 1), if_neg (hr 0)]

theorem regsOnly_restage (s : State) : RegsOnly s (restage s) := by
  unfold restage
  dsimp only
  split
  · exact regsOnly_wrFld _ _ _ _ _
  · exact (regsOnly_wrFld _ _ _ _ _).trans (regsOnly_wrFld _ _ _ _ _)

/-- READY is clear, and the stage is back at QUAYS where start-up had come past it and no fatal error stands (R529). -/
theorem bootstat_restage (s : State) :
    isReady (restage s) = false ∧
      rdFld (restage s) 0x4c 3 0 = if fatal s = true ∨ rdFld s 0x4c 3 0 < 3 then rdFld s 0x4c 3 0 else 3 := by
  have hf : fatal (wrFld s rBootstat 4 4 0) = fatal s := by
    rw [fatal, rdFld_wrFld_ne _ _ (by omega) (.inl (by decide)), fatal]
  have h3 : rdFld (wrFld s rBootstat 4 4 0) rBootstat 3 0 = rdFld s 0x4c 3 0 :=
    rdFld_wrFld_ne _ _ (by omega) (by omega)
  have h4 : rdFld (wrFld s rBootstat 4 4 0) 0x4c 4 4 = 0 := rdFld_wrFld_same _ _ (by omega) (by omega)
  unfold restage
  dsimp only
  rw [hf, h3]
  split
  · exact ⟨by rw [isReady, h4]; rfl, h3⟩
  · refine ⟨?_, rdFld_wrFld_same _ _ (by omega) (by omega)⟩
    have h5 : rdFld (setStage (wrFld s rBootstat 4 4 0) 3) 0x4c 4 4 = rdFld (wrFld s rBootstat 4 4 0) 0x4c 4 4 :=
      rdFld_wrFld_ne _ _ (by omega) (by omega)
    rw [isReady, h5, h4]
    rfl

/-- The state before GLB.BOOTSTAT is written. -/
def stillPurser (s : State) : State := dropDeckhands (scrubQuays (quietPurser s))

theorem jobs_eq_parts (s : State) : s.hm.jobs = (parts s).2.jobs := by rw [parts_def]

theorem rd_eq_words (s : State) {o : Nat} (h : storedReg o = true) : rd s o = wordsOf storedReg s.regs o := by
  rw [wordsOf, if_pos h, rd]

theorem rd_eq_stored (s : State) {o : Nat} (h : storedReg o = true) : rd s o = (parts s).2.word o := by
  rw [parts_def, rd_eq_words s h]

theorem dropDeckhands_kept (s : State) :
    (dropDeckhands s).threads = s.threads.filter (fun e => e.1 < 131072) ∧ (dropDeckhands s).hm.jobs = s.hm.jobs ∧
      (dropDeckhands s).regs = s.regs ∧ (dropDeckhands s).qsets = s.qsets ∧ (dropDeckhands s).mem = s.mem :=
  ⟨rfl, rfl, rfl, rfl, rfl⟩

theorem stillPurser_kept (s : State) :
    (parts (stillPurser s)).1 = { (parts s).1 with purHold := true } ∧ (stillPurser s).hm.jobs = s.hm.jobs ∧
      (∀ o, storedReg o = true → rd (stillPurser s) o = rd s o) ∧
      (stillPurser s).threads = s.threads.filter fun e => e.1 < 131072 := by
  obtain ⟨h1, h2, h3, -, h5⟩ := scrubQuays_kept (quietPurser s)
  obtain ⟨d1, d2, d3, -, -⟩ := dropDeckhands_kept (scrubQuays (quietPurser s))
  have hq := parts_quietPurser s
  have hp : (parts (stillPurser s)).1 = (parts (scrubQuays (quietPurser s))).1 := by
    rw [stillPurser, dropDeckhands, parts_mk, steady_eta]
  refine ⟨?_, ?_, fun o ho => ?_, ?_⟩
  · rw [hp, h1, hq]
  · rw [stillPurser, d2, h3, jobs_eq_parts, hq, ← jobs_eq_parts]
  · rw [rd_eq_words _ ho, stillPurser, d3, h5, ← rd_eq_words _ ho, rd_eq_stored _ ho, hq, ← rd_eq_stored _ ho]
  · rw [stillPurser, d1, h2, threads_eq_parts, hq, ← threads_eq_parts]

theorem tget_filter_lt {α : Type} (d : α) (t : Tab α) (n k : Nat) :
    tget d (t.filter fun e => e.1 < n) k = if k < n then tget d t k else d := by
  induction t with
  | nil => simp
  | cons e r ih =>
    obtain ⟨j, v⟩ := e
    by_cases hj : j < n
    · rw [List.filter_cons_of_pos (by simpa using hj)]
      by_cases hk : j = k
      · subst hk; simp [tget, hj]
      · simp only [tget, if_neg hk, ih]
    · rw [List.filter_cons_of_neg (by simpa using hj), ih]
      by_cases hk : k < n
      · simp [tget, hk, show j ≠ k by omega]
      · simp [hk]

/-- The threads of cores are left, and those of deckhands are at reset. -/
theorem getThr_stillPurser (s : State) :
    (∀ l c t, getThr (stillPurser s) (.core l c t) = getThr s (.core l c t)) ∧
      ∀ l, getThr (stillPurser s) (.deckhand l) = {} := by
  refine ⟨fun l c t => ?_, fun l => ?_⟩
  · have h := thrKey_core l c t
    rw [getThr, (stillPurser_kept s).2.2.2, tget_filter_lt, if_pos (by omega), getThr]
  · have h : thrKey (.deckhand l) = 131072 + l.val := rfl
    rw [getThr, (stillPurser_kept s).2.2.2, tget_filter_lt, if_neg (by omega)]

theorem getQs_stillPurser (s : State) {q : Nat} (hq : q < 64) :
    getQs (stillPurser s) q = {} ∨ s.crs.inLap = true ∧ (getQs (stillPurser s) q).resetting = true := by
  obtain ⟨-, -, -, hk, -⟩ := scrubQuays_kept (quietPurser s)
  obtain ⟨-, -, -, hd, -⟩ := dropDeckhands_kept (scrubQuays (quietPurser s))
  have e : (stillPurser s).qsets = (quietPurser s).qsets := hd.trans hk
  have h := getQs_foldl_resetQs (dropStorage (noticeHold (setPwr s { s.pwr with purHold := true }))) hq
  have hlap : (dropStorage (noticeHold (setPwr s { s.pwr with purHold := true }))).crs.inLap = s.crs.inLap := by
    rw [inLap_eq_parts, parts_dropStorage, parts_noticeHold, ← inLap_eq_parts]
    rfl
  rw [hlap] at h
  rw [getQs, e]
  exact h

theorem getByte_stillPurser (s : State) :
    (∀ q off, q < 4 → off < 2 ^ 26 → getByte (stillPurser s) (memKey q 4 off) = 0) ∧
      ∀ l sp off, sp ∈ [0, 1, 2, 6] → off < 2 ^ 44 →
        getByte (stillPurser s) (memKey l sp off) = getByte s (memKey l sp off) := by
  obtain ⟨-, -, -, -, hd⟩ := dropDeckhands_kept (scrubQuays (quietPurser s))
  have e : ∀ k, getByte (stillPurser s) k = getByte (scrubQuays (quietPurser s)) k := fun _ => congrArg (tget 0 · _) hd
  refine ⟨fun q off hq ho => ?_, fun l sp off hs ho => ?_⟩
  · rw [e, getByte_scrubQuays_sram _ hq ho]
  · rw [e, getByte_scrubQuays_landing _ hs ho, getByte_eq_parts, parts_quietPurser, ← getByte_eq_parts]

/-- The last writes of a PURSER reset: GLB.BOOTSTAT, times and GLB.RSTCAUSE. -/
def noteReset (s : State) (flag : Nat) : State := wrFld (setFlag (restart (restage s)) 0x40 flag) 0x40 18 16 4

/-- They leave memories, threads, jobs and queue sets. -/
theorem noteReset_rest (s : State) (flag : Nat) :
    ∃ r b, noteReset s flag = { s with regs := r, boot := b } ∧ b.resetAt = s.time := by
  obtain ⟨r, e⟩ : ∃ r, restage s = { s with regs := r } := ⟨_, regsOnly_restage s⟩
  rw [noteReset, e]
  exact ⟨_, _, rfl, rfl⟩

theorem noteReset_kept (s : State) (flag : Nat) :
    (noteReset s flag).hm.jobs = s.hm.jobs ∧ (noteReset s flag).threads = s.threads ∧
      (noteReset s flag).qsets = s.qsets ∧ (noteReset s flag).mem = s.mem := by
  obtain ⟨r, b, e, -⟩ := noteReset_rest s flag
  rw [e]
  exact ⟨rfl, rfl, rfl, rfl⟩

theorem rd_noteReset (s : State) (flag : Nat) {o : Nat} (h : o ≠ 0x40) :
    rd (noteReset s flag) o = rd (restage s) o := by
  rw [noteReset, rd_wrFld_ne _ _ _ _ h, rd_setFlag_ne _ _ h]
  rfl

theorem purserReset_eq_noteReset (s : State) (flag : Nat) : purserReset s flag = noteReset (stillPurser s) flag := rfl

/-- What a PURSER reset leaves. -/
theorem purserFresh_purserReset (s : State) {flag : Nat} (hf : flag = 7 ∨ flag = 8) :
    purserFresh s (purserReset s flag) flag := by
  rw [purserReset_eq_noteReset]
  obtain ⟨hsteady, hjobs, hrd, -⟩ := stillPurser_kept s
  obtain ⟨hthr, hdeck⟩ := getThr_stillPurser s
  obtain ⟨hsram, hland⟩ := getByte_stillPurser s
  obtain ⟨hready, hstage⟩ := bootstat_restage (stillPurser s)
  have hqs := fun q (h : q < 64) => getQs_stillPurser s h
  have hboot : ∀ hi lo, rdFld (noteReset (stillPurser s) flag) 0x4c hi lo = rdFld (restage (stillPurser s)) 0x4c hi lo :=
    fun hi lo => congrArg (wfld · hi lo) (rd_noteReset _ flag (by omega))
  have htime : (stillPurser s).time = s.time := by rw [time_eq_steady, hsteady, time_eq_steady s]
  have hhold : (stillPurser s).pwr.purHold = true := by
    have e : ∀ t : State, t.pwr.purHold = (parts t).1.purHold := fun t => by rw [parts_def]
    rw [e, hsteady]
  have hfatal : fatal (stillPurser s) = fatal s := by rw [fatal, rdFld, hrd _ (by decide), ← rdFld, fatal]
  have h3 : rdFld (stillPurser s) 0x4c 3 0 = rdFld s 0x4c 3 0 := by rw [rdFld, hrd _ (by decide), rdFld]
  refine ⟨?_, rdFld_wrFld_same _ _ (by omega) (by omega), ?_, ?_, ?_, ?_, ?_⟩
  · rw [noteReset, rdFld_wrFld_ne _ _ (by omega) (by omega), rdFld_setFlag_same _ _ (by omega)]
  · obtain ⟨r, b, e, -⟩ := noteReset_rest (stillPurser s) flag
    rw [bhold, e]
    simp [hhold]
  · rw [isReady, hboot]
    exact hready
  · obtain ⟨r, b, e, hb⟩ := noteReset_rest (stillPurser s) flag
    rw [e, ← htime]
    exact hb
  · rw [hboot, hstage, hfatal, h3]
  · obtain ⟨k1, k2, k3, k4⟩ := noteReset_kept (stillPurser s) flag
    unfold getThr at hthr hdeck ⊢
    unfold getQs at hqs ⊢
    unfold getByte at hsram hland ⊢
    rw [k1, k2, k3, k4]
    exact ⟨hjobs, hthr, hdeck, hqs, hsram, fun l sp off _ => hland l sp off⟩

theorem exec_purserReset (s : State) (m : Master) (v : Word) :
    exec (.purserReset m v) s =
      if !reachesModule m ∨ !keyed v ∨ s.pwr.bad.contains 0 ∨ s.boot.pinLow ∨ s.boot.noClock then .next s
      else .next (purserReset s 8) := rfl

/-- PURWD counts units of 10 ms. -/
theorem exec_purserWatchdog (s : State) :
    exec .purserWatchdog s =
      if quayOn s 0 ∧ s.boot.served.toNat + s.boot.cfg.purwd * 2000000 ≤ s.time.toNat then .next (purserReset s 7)
      else .next s := by
  have h : s.boot.cfg.purwd * 10 * tick1ms = s.boot.cfg.purwd * 2000000 := by
    rw [Nat.mul_assoc]
    rfl
  rw [← h]
  rfl

theorem purserResets : PurserResets := by
  intro s
  refine ⟨fun m v hm hb hp hc => ⟨fun hk hg => ⟨_, ?_, purserFresh_purserReset s (.inr rfl)⟩, fun h => ?_⟩,
    fun hq ht => ⟨_, ?_, purserFresh_purserReset s (.inl rfl)⟩, fun ht => ?_⟩
  · rw [Runs, exec_purserReset, if_neg]
    simp [hm, (keyed_iff v).mpr ⟨hk, hg⟩, hb, hp, hc]
  · have hk : keyed v = false := by
      rw [Bool.eq_false_iff, ne_eq, keyed_iff]
      exact fun c => h.elim (fun n => n c.1) (fun n => n c.2)
    rw [Runs, exec_purserReset, if_pos]
    simp [hk]
  · rw [Runs, exec_purserWatchdog, if_pos ⟨hq, ht⟩]
  · rw [Runs, exec_purserWatchdog, if_neg]
    omega

/-- Settles O48: the resets of the module and those of purser firmware, one lemma for each. -/
theorem resets : Obligations.Resets := ⟨moduleResets, purserResets⟩

end Sys2Proof.Laws
end

section
/-! The order of the crossing (R18, R47, R51, R53, R55): what its functions read of a state, so that a change of anything else
leaves the order, the owners of slots and the launches that a table gives. -/

namespace Sys2Proof.Laws

open Sys2Proof Sys2Proof.Machine Sys2Proof.Claims

/-- The two states agree in all that the order of the crossing rests on. -/
structure SameRing (s t : State) : Prop where
  crs : t.crs = s.crs
  fuses : t.fuses = s.fuses
  modnum : t.modnum = s.modnum
  time : t.time = s.time
  out : ∀ k, (getLand t k).out = (getLand s k).out
  stand : ∀ k, (getLand t k).standFor = (getLand s k).standFor
  place : ∀ k, (getLand t k).lpos = (getLand s k).lpos
  sent : ∀ k, (getLand t k).launched = (getLand s k).launched
  words : ∀ o < 0x1000000, rd t o = rd s o

/-! ## The live landings -/

section
variable {s t : State}

theorem liveLand_congr (hf : t.fuses = s.fuses) (ho : ∀ k, (getLand t k).out = (getLand s k).out) (l : Nat) :
    liveLand t l = liveLand s l := by
  rw [liveLand, liveLand, ho, absentLand, absentLand, hf]

theorem liveLands_congr (hf : t.fuses = s.fuses) (ho : ∀ k, (getLand t k).out = (getLand s k).out) :
    liveLands t = liveLands s := by
  unfold liveLands
  simp only [liveLand_congr hf ho]

theorem nextLive_congr (hf : t.fuses = s.fuses) (ho : ∀ k, (getLand t k).out = (getLand s k).out)
    (he : t.crs.ext = s.crs.ext) (d : Dir) (l : Nat) : nextLive t d l = nextLive s d l := by
  unfold nextLive
  simp only [liveLand_congr hf ho, he]

theorem mem_liveLands {l : Nat} : l ∈ liveLands s ↔ liveLand s l = true := by
  simp only [liveLands, upto, List.mem_filter, List.mem_range, and_iff_right_iff_imp]
  intro h
  simp only [liveLand, Bool.and_eq_true, decide_eq_true_eq] at h
  exact h.1.1

/-- On a crossing of one module, a live landing has a next live one in each direction: at the worst itself. -/
theorem nextLive_isSome (he : s.crs.ext = false) {l : Nat} (hl : liveLand s l = true) (d : Dir) :
    (nextLive s d l).isSome = true := by
  have h32 : l < 32 := by
    simp only [liveLand, Bool.and_eq_true, decide_eq_true_eq] at hl
    exact hl.1.1
  have hmem : l ∈ ringFrom false d l := by
    cases d
    · exact List.mem_map.mpr ⟨31, by simp [upto], by omega⟩
    · exact List.mem_map.mpr ⟨31, by simp [upto], by omega⟩
  rw [nextLive, he, List.find?_isSome]
  exact ⟨l, hmem, hl⟩

/-! ## Ports -/

theorem rd_port (h : ∀ o < 0x1000000, rd t o = rd s o) {p : Nat} (hp : p < 16) : rd t (rPort p) = rd s (rPort p) :=
  h _ (by simp only [rPort]; omega)

theorem rolePorts_congr (h : ∀ o < 0x1000000, rd t o = rd s o) (r : Nat) : rolePorts t r = rolePorts s r := by
  unfold rolePorts
  refine List.filter_congr fun p hp => ?_
  have hp : p < 16 := List.mem_range.mp hp
  rw [portRole, portRole, portEth, portEth, rdFld, rdFld, rdFld, rdFld, rd_port h hp]

theorem lt_of_mem_rolePorts {r p : Nat} (h : p ∈ rolePorts s r) : p < 16 :=
  List.mem_range.mp (List.mem_filter.mp h).1

theorem entryRole_congr (h : ∀ o < 0x1000000, rd t o = rd s o) (e : Nat) : entryRole t e = entryRole s e := by
  have hr (hi lo : Nat) : rdFld t rRing hi lo = rdFld s rRing hi lo := by
    rw [rdFld, rdFld, h _ (by decide)]
  unfold entryRole bulkRole
  simp only [hr, rolePorts_congr h]

theorem neighbourMod_congr (h : ∀ o < 0x1000000, rd t o = rd s o) (hm : t.modnum = s.modnum) (d : Dir) :
    neighbourMod t d = neighbourMod s d := by
  unfold neighbourMod
  rw [entryRole_congr h, rolePorts_congr h]
  cases e : rolePorts s (entryRole s (match d with | .cw => 1 | .ccw => 2)) with
  | nil => simp only [hm]
  | cons p ps =>
    have hp : p < 16 := lt_of_mem_rolePorts (s := s) (e ▸ List.mem_cons_self)
    simp only [portPeer, rdFld, rd_port h hp]

end

/-! ## The order -/

section
variable {s t : State} (h : SameRing s t)
include h

theorem SameRing.liveLand_eq (l : Nat) : liveLand t l = liveLand s l := liveLand_congr h.fuses h.out l
theorem SameRing.liveLands_eq : liveLands t = liveLands s := liveLands_congr h.fuses h.out
theorem SameRing.nextLive_eq (d : Dir) (l : Nat) : nextLive t d l = nextLive s d l :=
  nextLive_congr h.fuses h.out (by rw [h.crs]) d l

theorem SameRing.presentLands_eq : presentLands t = presentLands s := by
  unfold presentLands absentLand
  rw [h.fuses]

theorem SameRing.presentIn_eq (m : Nat) : presentIn t m = presentIn s m := by
  unfold presentIn
  rw [h.presentLands_eq, h.modnum]

theorem SameRing.modsFrom_eq (n m : Nat) : modsFrom t n m = modsFrom s n m := by
  induction n generalizing m with
  | zero => rfl
  | succ n ih => rw [modsFrom, modsFrom, ih, h.modnum]

theorem SameRing.crossingMods_eq : crossingMods t = crossingMods s := by
  have ho : otherMods t = otherMods s := by
    rw [otherMods, otherMods, h.modsFrom_eq, rdFld, rdFld, h.words _ (by decide)]
  unfold crossingMods
  rw [ho, h.modnum]

theorem SameRing.landingOrder_eq : landingOrder t = landingOrder s := by
  unfold landingOrder
  rw [h.crs, h.crossingMods_eq, h.presentLands_eq, h.modnum]
  simp only [h.presentIn_eq]

theorem SameRing.liveIn_eq (m : Nat) : liveIn t m = liveIn s m := by
  unfold liveIn
  rw [h.liveLands_eq, h.presentIn_eq, h.modnum, h.time]

theorem SameRing.liveIds_eq : liveIds t = liveIds s := by
  unfold liveIds
  rw [h.crs, h.crossingMods_eq, h.liveLands_eq, h.modnum]
  simp only [h.liveIn_eq]

theorem SameRing.sliceHome_eq (k : Nat) : sliceHome t k = sliceHome s k := by
  unfold sliceHome sliceHomeId
  rw [h.landingOrder_eq, h.modnum]

theorem SameRing.sliceOf_eq (home : Nat) : sliceOf t home = sliceOf s home := by
  unfold sliceOf
  rw [h.landingOrder_eq]

theorem SameRing.launcherOf_eq (home : Nat) : launcherOf t home = launcherOf s home := by
  have hin : standIn t home = standIn s home := by
    unfold standIn
    rw [h.liveLands_eq]
    simp only [h.stand]
  unfold launcherOf
  rw [hin, h.liveLand_eq]

theorem SameRing.launches_eq (l : Nat) : launches t l = launches s l := by
  unfold launches
  rw [h.presentLands_eq]
  simp only [h.launcherOf_eq]

theorem SameRing.curLayer_eq (l : Nat) : curLayer t l = curLayer s l := by
  unfold curLayer
  rw [h.crs, h.place]

/-- The owners of slots (R51). -/
theorem SameRing.ownsSlot_eq (l : Nat) (d : Dir) (k : Nat) : ownsSlot t l d k = ownsSlot s l d k := by
  unfold ownsSlot shareAt slotOwner quarter
  simp only [h.curLayer_eq, h.sliceHome_eq, h.launcherOf_eq, h.nextLive_eq, h.crs]

/-- The checks on a ferry (R63). -/
theorem SameRing.damage_eq (f : Ferry) : damage t f = damage s f := by
  have hv (v : Nat) : circulating t v = circulating s v := by
    unfold circulating liveVer retVer rdFld
    rw [h.words _ (by omega)]
  unfold damage liveCount
  rw [h.liveIds_eq, hv]

/-! ## Launches that the table gives -/

theorem SameRing.gradHome_eq (d : Dir) (l : Nat) : gradHome t d l = gradHome s d l := by
  unfold gradHome nextEntry
  simp only [h.nextLive_eq, h.modnum, h.liveIn_eq, neighbourMod_congr h.words h.modnum]

theorem SameRing.launchTotal_eq (l : Nat) (y : LtLayer) (kind : Nat) : launchTotal t l y kind = launchTotal s l y kind := by
  have hids (id : Nat) : launchesId t id = launchesId s id := by
    unfold launchesId
    rw [h.modnum, h.launches_eq, h.landingOrder_eq, h.liveIds_eq]
  have hof (home : Nat) : ltOf t y kind home = ltOf s y kind home := by
    unfold ltOf
    rw [h.sliceOf_eq]
  have hgrad (d : Dir) (id : Nat) : gradHomeId t d id = gradHomeId s d id := by
    unfold gradHomeId liveBefore
    simp only [h.modnum, h.gradHome_eq, h.liveIds_eq]
  have hdir (id : Nat) (d : Dir) : launchDir t id y kind d = launchDir s id y kind d := by
    unfold launchDir
    simp only [hids, hof, hgrad]
  unfold launchTotal launchTotalId
  rw [hdir, hdir, h.modnum]

theorem SameRing.isLast_eq (l : Nat) (f : FerryHdr) : isLast t l f = isLast s l f := by
  unfold isLast launchedIn
  simp only [h.curLayer_eq, h.launchTotal_eq, h.sent]

end

/-! ## Changes that leave the order -/

theorem sameRing_setLand (s : State) (l : Nat) {x : Landing} (ho : x.out = (getLand s l).out)
    (hs : x.standFor = (getLand s l).standFor) (hp : x.lpos = (getLand s l).lpos)
    (hl : x.launched = (getLand s l).launched) : SameRing s (setLand s l x) := by
  have at_l {β : Type} (g : Landing → β) (hg : g x = g (getLand s l)) (k : Nat) :
      g (getLand (setLand s l x) k) = g (getLand s k) := by
    by_cases hk : k = l
    · subst hk; rw [getLand_setLand]; exact hg
    · rw [getLand_setLand_ne s hk]
  exact ⟨rfl, rfl, rfl, rfl, at_l (·.out) ho, at_l (·.standFor) hs, at_l (·.lpos) hp, at_l (·.launched) hl, fun _ _ => rfl⟩

theorem MarksOnly.sameRing {s t : State} (h : MarksOnly s t) (hr : ∀ o < 0x1000000, rd t o = rd s o) : SameRing s t := by
  refine ⟨?_, ?_, ?_, ?_, fun k => ?_, fun k => ?_, fun k => ?_, fun k => ?_, hr⟩ <;> rw [h] <;> rfl

theorem SameRing.trans {s t u : State} (h : SameRing s t) (g : SameRing t u) : SameRing s u where
  crs := g.crs.trans h.crs
  fuses := g.fuses.trans h.fuses
  modnum := g.modnum.trans h.modnum
  time := g.time.trans h.time
  out k := (g.out k).trans (h.out k)
  stand k := (g.stand k).trans (h.stand k)
  place k := (g.place k).trans (h.place k)
  sent k := (g.sent k).trans (h.sent k)
  words o ho := (g.words o ho).trans (h.words o ho)

end Sys2Proof.Laws
end

section
/-! Work at a ring stop: what it leaves of the crossing, of the module's registers and of pace credit, and how a slot leaves
the stop (R55, R60, R67, R98). -/

namespace Sys2Proof.Laws

open Sys2Proof Sys2Proof.Machine Sys2Proof.Claims

/-! ## What work at a ring stop leaves alone -/

/-- t comes from s by work at ring stops: landings and hold notices change, but no landing's pace credit or place in the
crossing, and no register word of which p holds. -/
structure StopWork (p : Nat → Prop) (s t : State) : Prop where
  rest : t = { s with lands := t.lands, regs := t.regs, xpt := { s.xpt with txq := t.xpt.txq },
                      crs := { s.crs with lastHold := t.crs.lastHold, lastBoard := t.crs.lastBoard } }
  out : ∀ k, (getLand t k).out = (getLand s k).out
  credit : ∀ k, (getLand t k).credit = (getLand s k).credit
  words : ∀ o, p o → rd t o = rd s o

section
variable {p : Nat → Prop} {s t u : State}

theorem StopWork.refl (s : State) : StopWork p s s := ⟨rfl, fun _ => rfl, fun _ => rfl, fun _ _ => rfl⟩

theorem StopWork.trans (h : StopWork p s t) (g : StopWork p t u) : StopWork p s u where
  rest := by
    have e := g.rest
    rw [h.rest] at e
    exact e
  out k := (g.out k).trans (h.out k)
  credit k := (g.credit k).trans (h.credit k)
  words o ho := (g.words o ho).trans (h.words o ho)

/-- The later part first, so that its start is known when the earlier part is. -/
theorem StopWork.after (g : StopWork p t u) (h : StopWork p s t) : StopWork p s u := h.trans g

theorem StopWork.foldl {α : Type} {f : State → α → State} (hf : ∀ s a, StopWork p s (f s a)) (xs : List α) (s : State) :
    StopWork p s (xs.foldl f s) :=
  foldl_keeps (P := fun t => StopWork p s t) (fun t a h => h.trans (hf t a)) xs (.refl s)

theorem RegsOnly.stopWork (h : RegsOnly s t) (hp : ∀ o, p o → rd t o = rd s o) : StopWork p s t where
  rest := by rw [h]
  out k := by rw [h]; rfl
  credit k := by rw [h]; rfl
  words := hp

theorem stopWork_setLand (s : State) (l : Nat) {x : Landing} (ho : x.out = (getLand s l).out)
    (hc : x.credit = (getLand s l).credit) : StopWork p s (setLand s l x) where
  rest := rfl
  out k := by
    by_cases hk : k = l
    · subst hk; rw [getLand_setLand]; exact ho
    · rw [getLand_setLand_ne s hk]
  credit k := by
    by_cases hk : k = l
    · subst hk; rw [getLand_setLand]; exact hc
    · rw [getLand_setLand_ne s hk]
  words _ _ := rfl

theorem stopWork_pushFrame (s : State) (role tc : Nat) (f : Frame) : StopWork p s (pushFrame s role tc f) :=
  ⟨rfl, fun _ => rfl, fun _ => rfl, fun _ _ => rfl⟩

theorem stopWork_sendMsg (hp : ¬ p rXcause) (s : State) (ty dst : Nat) (args : List Int) :
    StopWork p s (sendMsg s ty dst args) := by
  unfold sendMsg routeMsg
  rw [if_neg (by simp)]
  dsimp only
  split
  · next h =>
    split at h
    · cases h
    · cases h; exact stopWork_pushFrame ..
  · exact (regsOnly_setFlag ..).stopWork fun o ho => rd_setFlag_ne s 7 (by rintro rfl; exact hp ho)

theorem stopWork_noticeHold (hp : ¬ p rXcause) (s : State) : StopWork p s (noticeHold s) := by
  unfold noticeHold
  split
  · refine StopWork.trans ?_ (StopWork.foldl (fun s m => stopWork_sendMsg hp s 3 m _) _ _)
    exact ⟨rfl, fun _ => rfl, fun _ => rfl, fun _ _ => rfl⟩
  · exact .refl s

theorem stopWork_updHold (hp : ¬ p rXcause) (s : State) (l : Nat) : StopWork p s (updHold s l) := by
  unfold updHold
  dsimp only
  split
  · exact (stopWork_noticeHold hp _).after (stopWork_setLand s l rfl rfl)
  · split
    · exact (stopWork_noticeHold hp _).after (stopWork_setLand s l rfl rfl)
    · exact .refl s

theorem stopWork_releaseSlots (hp : ¬ p rXcause) (s : State) (l : Nat) : StopWork p s (releaseSlots s l) :=
  (stopWork_updHold hp _ l).after (stopWork_setLand s l rfl rfl)

theorem stopWork_noteSeen (s : State) (l : Nat) (f : Ferry) : StopWork p s (noteSeen s l f) := by
  unfold noteSeen
  dsimp only
  refine stopWork_setLand s l ?_ ?_ <;> split <;> rfl

theorem stopWork_deliver (hp : ¬ p rXcause) (s : State) (l : Nat) (f : Ferry) : StopWork p s (deliver s l f) := by
  unfold deliver
  dsimp only
  split
  · refine (stopWork_updHold hp _ l).after (stopWork_setLand s l ?_ ?_) <;> dsimp only <;> split <;> rfl
  · exact .refl s

theorem stopWork_afterFerry (hp : ¬ p rXcause) (s : State) (l : Nat) (f : Ferry) : StopWork p s (afterFerry s l f) := by
  unfold afterFerry
  dsimp only
  split
  · exact (stopWork_releaseSlots hp _ l).after (stopWork_setLand s l rfl rfl)
  · exact stopWork_releaseSlots hp s l

/-! ## The live landings -/

theorem StopWork.ext_eq (h : StopWork p s t) : t.crs.ext = s.crs.ext := by rw [h.rest]
theorem StopWork.modnum_eq (h : StopWork p s t) : t.modnum = s.modnum := by rw [h.rest]
theorem StopWork.fuses_eq (h : StopWork p s t) : t.fuses = s.fuses := by rw [h.rest]

theorem StopWork.liveLand_eq (h : StopWork p s t) (l : Nat) : liveLand t l = liveLand s l :=
  liveLand_congr h.fuses_eq h.out l

theorem StopWork.liveLands_eq (h : StopWork p s t) : liveLands t = liveLands s := liveLands_congr h.fuses_eq h.out

theorem StopWork.nextLive_eq (h : StopWork p s t) (d : Dir) (l : Nat) : nextLive t d l = nextLive s d l :=
  nextLive_congr h.fuses_eq h.out h.ext_eq d l

end

/-! ## A slot leaves the stop -/

@[simp] theorem getTSlot_setTSlot (s : State) (d : Dir) (k : Nat) (x : TSlot) : getTSlot (setTSlot s d k x) d k = x := by
  cases d <;> exact tget_tput_same ..

/-- Where a landing follows in its direction, the slot goes on with its ferry and the landing's hold bit (R67). -/
theorem forward_inside {s : State} {l : Nat} {d : Dir} (h : (nextLive s d l).isSome = true) (k : Nat) (f : Option Ferry) :
    forward s l d k f =
      setTSlot { s with crs := { s.crs with stamps := s.crs.stamps + 1 } } d k
        ⟨f, holdWord s l (getTSlot s d k).hold, some l, s.crs.stamps⟩ := by
  obtain ⟨n, hn⟩ := Option.isSome_iff_exists.mp h
  have e : nextLive { s with crs := { s.crs with stamps := s.crs.stamps + 1 } } d l = some n := hn
  unfold forward
  simp only [e]
  rfl

section
variable {s : State} {l : Nat} {d : Dir} (h : (nextLive s d l).isSome = true) (k : Nat) (f : Option Ferry)
include h

theorem getTSlot_forward :
    getTSlot (forward s l d k f) d k = ⟨f, holdWord s l (getTSlot s d k).hold, some l, s.crs.stamps⟩ := by
  rw [forward_inside h, getTSlot_setTSlot]

theorem forward_regs : (forward s l d k f).regs = s.regs := by
  rw [forward_inside h]
  cases d <;> rfl

theorem rd_forward (o : Nat) : rd (forward s l d k f) o = rd s o := by
  unfold rd
  rw [forward_regs h]

theorem getLand_forward (j : Nat) : getLand (forward s l d k f) j = getLand s j := by
  rw [forward_inside h]
  cases d <;> rfl

end

end Sys2Proof.Laws
end

section
/-! A slot at a ring stop of a crossing of one module: empty, damaged, or with a ferry that goes on (R55, R57 to R60, R63, R67,
R70). -/

namespace Sys2Proof.Laws

open Sys2Proof Sys2Proof.Machine Sys2Proof.Claims

/-! ## Counts -/

/-- A count one field higher, held to the field, wherever its flag lies outside the field. -/
theorem rdFld_countUp_same (s : State) {o hi lo n : Nat} {cause : Option (Nat × Nat)} (h : hi < 32)
    (hc : ∀ co b, cause = some (co, b) → o ≠ co ∨ b < lo ∨ hi < b) :
    rdFld (countUp s o hi lo n cause) o hi lo = min (2 ^ (hi + 1 - lo) - 1) (rdFld s o hi lo + n) := by
  have hpos : 0 < 2 ^ (hi + 1 - lo) := Nat.two_pow_pos _
  have hw : rdFld (wrFld s o hi lo (satAdd (2 ^ (hi + 1 - lo) - 1) (rdFld s o hi lo) n)) o hi lo =
      min (2 ^ (hi + 1 - lo) - 1) (rdFld s o hi lo + n) :=
    rdFld_wrFld_same s o h (by unfold satAdd; omega)
  unfold countUp
  cases cause with
  | none => exact hw
  | some x =>
    dsimp only
    split
    · rw [rdFld_setFlag_off _ h (hc x.1 x.2 rfl), hw]
    · exact hw

/-- A field that the count and its flag do not meet. -/
theorem rdFld_countUp_ne (s : State) {o p hi lo hi' lo' n : Nat} {cause : Option (Nat × Nat)} (h : hi < 32)
    (hd : p ≠ o ∨ hi < lo' ∨ hi' < lo) (hc : ∀ co b, cause = some (co, b) → p ≠ co ∨ b < lo ∨ hi < b) :
    rdFld (countUp s o hi' lo' n cause) p hi lo = rdFld s p hi lo := by
  have hw (v : Nat) : rdFld (wrFld s o hi' lo' v) p hi lo = rdFld s p hi lo := rdFld_wrFld_ne s v h hd
  unfold countUp
  cases cause with
  | none => exact hw _
  | some x =>
    dsimp only
    split
    · rw [rdFld_setFlag_off _ h (hc x.1 x.2 rfl), hw]
    · exact hw _

/-- A word that is neither the count's nor its flag's. -/
theorem rd_countUp_ne (s : State) {o p hi lo n : Nat} {cause : Option (Nat × Nat)} (hd : p ≠ o)
    (hc : ∀ co b, cause = some (co, b) → p ≠ co) : rd (countUp s o hi lo n cause) p = rd s p := by
  unfold countUp
  cases cause with
  | none => exact rd_wrFld_ne _ _ _ _ hd
  | some x =>
    dsimp only
    split
    · rw [rd_setFlag_ne _ _ (hc x.1 x.2 rfl), rd_wrFld_ne _ _ _ _ hd]
    · exact rd_wrFld_ne _ _ _ _ hd

/-- RS.CAUSE: the count of an event by its number, four to a word (R573). -/
def rsCount (s : State) (l e : Nat) : Nat := rdFld s (lcBase l + 0x10000 + 4 * (e / 4)) (8 * (e % 4) + 7) (8 * (e % 4))

theorem regsOnly_countRs (s : State) (l : Nat) (e : RsEvent) : RegsOnly s (countRs s l e) := by
  unfold countRs
  exact regsOnly_countUp ..

theorem rsCount_countRs_same (s : State) (l : Nat) (e : RsEvent) :
    rsCount (countRs s l e) l e.num = min 255 (rsCount s l e.num + 1) := by
  have h7 : 8 * (e.num % 4) + 7 + 1 - 8 * (e.num % 4) = 8 := by omega
  unfold rsCount countRs
  rw [rdFld_countUp_same s (by omega) (by rintro co b ⟨⟩; exact .inl (by omega)), h7]
  simp only [Nat.reducePow, Nat.reduceSub]

theorem rsCount_countRs_ne (s : State) (l : Nat) (e : RsEvent) {j : Nat} (h : j ≠ e.num) :
    rsCount (countRs s l e) l j = rsCount s l j := by
  unfold rsCount countRs
  refine rdFld_countUp_ne s (by omega) (by omega) fun co b hb => ?_
  cases hb
  exact .inl (by omega)

/-- Registers below the landings' own. -/
theorem rd_countRs_low (s : State) (l : Nat) (e : RsEvent) {o : Nat} (h : o < 0x1000000) :
    rd (countRs s l e) o = rd s o := by
  refine rd_countUp_ne s (by simp only [lcBase]; omega) fun co b hb => ?_
  cases hb
  simp only [lcBase]
  omega

theorem rsCount_forward {s : State} {l : Nat} {d : Dir} (h : (nextLive s d l).isSome = true) (k : Nat) (f : Option Ferry)
    (e : Nat) : rsCount (forward s l d k f) l e = rsCount s l e := by
  unfold rsCount rdFld
  rw [rd_forward h]

/-! ## The slot's arrival -/

/-- The landing has noted the slot, and its owner has gained credit. -/
def atStop (s : State) (l : Nat) (d : Dir) (k : Nat) : State :=
  if ownsSlot s l d k = true then addCredit (noteSlot s l d k) l else noteSlot s l d k

theorem sameRing_noteSlot (s : State) (l : Nat) (d : Dir) (k : Nat) : SameRing s (noteSlot s l d k) := by
  cases d
  · exact sameRing_setLand s l (x := { getLand s l with lastCw := some k }) rfl rfl rfl rfl
  · exact sameRing_setLand s l (x := { getLand s l with lastCcw := some k }) rfl rfl rfl rfl

theorem sameRing_addCredit (s : State) (l : Nat) : SameRing s (addCredit s l) :=
  sameRing_setLand s l (x := { getLand s l with credit := satAdd 512 (getLand s l).credit (paceEff s + 1) }) rfl rfl rfl rfl

theorem sameRing_atStop (s : State) (l : Nat) (d : Dir) (k : Nat) : SameRing s (atStop s l d k) := by
  unfold atStop
  split
  · exact (sameRing_noteSlot s l d k).trans (sameRing_addCredit _ l)
  · exact sameRing_noteSlot s l d k

/-- At the stop only the landing's own record has changed: the slot that came last, and its pace credit. -/
theorem atStop_eq (s : State) (l : Nat) (d : Dir) (k : Nat) :
    ∃ x, atStop s l d k = setLand s l x ∧ x.hold = (getLand s l).hold ∧
      x.waveHold = (getLand s l).waveHold ∧
      x.credit = if ownsSlot s l d k = true then moreCredit s l else (getLand s l).credit := by
  have hn : ∃ y, noteSlot s l d k = setLand s l y ∧ y.hold = (getLand s l).hold ∧
      y.waveHold = (getLand s l).waveHold ∧ y.credit = (getLand s l).credit := by
    cases d
    · exact ⟨_, rfl, rfl, rfl, rfl⟩
    · exact ⟨_, rfl, rfl, rfl, rfl⟩
  obtain ⟨y, e, hh, hw, hc⟩ := hn
  unfold atStop
  split
  · refine ⟨{ y with credit := moreCredit s l }, ?_, hh, hw, rfl⟩
    rw [e]
    unfold addCredit
    rw [getLand_setLand, setLand_setLand, hc]
    rfl
  · exact ⟨y, e, hh, hw, hc⟩

section
variable (s : State) (l : Nat) (d : Dir) (k : Nat)

theorem atStop_regs : (atStop s l d k).regs = s.regs := by
  obtain ⟨x, e, -⟩ := atStop_eq s l d k
  rw [e]; rfl

theorem getTSlot_atStop (d' : Dir) (j : Nat) : getTSlot (atStop s l d k) d' j = getTSlot s d' j := by
  obtain ⟨x, e, -⟩ := atStop_eq s l d k
  rw [e]; rfl

theorem holdBit_atStop : holdBit (atStop s l d k) l = holdBit s l := by
  obtain ⟨x, e, hh, hw, -⟩ := atStop_eq s l d k
  unfold holdBit
  rw [e, getLand_setLand, hh, hw]

theorem credit_atStop : (getLand (atStop s l d k) l).credit =
    if ownsSlot s l d k = true then moreCredit s l else (getLand s l).credit := by
  obtain ⟨x, e, -, -, hc⟩ := atStop_eq s l d k
  rw [e, getLand_setLand, hc]

end

/-! ## Damage -/

theorem liveCount_closed {s : State} (he : s.crs.ext = false) : liveCount s = (liveLands s).length := by
  unfold liveCount liveIds
  rw [if_neg (by simp [he]), List.length_map]

theorem damage_iff {s : State} (he : s.crs.ext = false) (f : Ferry) :
    (damage s f = some .badKind ↔ kindKnown f.hdr = false) ∧
      (damage s f = some .stray ↔ kindKnown f.hdr = true ∧ (liveLands s).length ≤ f.hops) ∧
      (damage s f = some .staleVer ↔ kindKnown f.hdr = true ∧ f.hops < (liveLands s).length ∧
        circulating s f.hdr.version.toNat = false) := by
  unfold damage
  rw [liveCount_closed he]
  cases hk : kindKnown f.hdr with
  | false => simp
  | true =>
    by_cases hs : (liveLands s).length ≤ f.hops
    · simp [hs]
    · simp [hs, Nat.lt_of_not_le hs]

/-- Damage is one of three events, none of them a failed CRC. -/
theorem num_of_damage {s : State} {f : Ferry} {e : RsEvent} (h : damage s f = some e) : e.num ≠ 1 := by
  unfold damage at h
  split at h
  · cases h; decide
  · split at h
    · cases h; decide
    · split at h
      · cases h; decide
      · cases h

/-! ## What the stop does with the slot -/

/-- A ferry as it arrives: one hop older, poisoned whole where its CRC fails (R55, R58). -/
def hopped (f : Ferry) (crcBad : Bool) : Ferry :=
  { f with hops := f.hops + 1, poison := if crcBad then 0xffffffffffffffff else f.poison }

/-- The stop with a failed CRC counted. -/
def crcCounted (s : State) (l : Nat) (crcBad : Bool) : State := if crcBad = true then countRs s l .crc else s

theorem regsOnly_crcCounted (s : State) (l : Nat) (b : Bool) : RegsOnly s (crcCounted s l b) := by
  unfold crcCounted
  split
  · exact regsOnly_countRs ..
  · exact .refl s

theorem rd_crcCounted_low (s : State) (l : Nat) (b : Bool) {o : Nat} (h : o < 0x1000000) :
    rd (crcCounted s l b) o = rd s o := by
  unfold crcCounted
  split
  · exact rd_countRs_low s l _ h
  · rfl

theorem rsCount_crcCounted (s : State) (l : Nat) {b : Bool} (h : b = true) :
    rsCount (crcCounted s l b) l 1 = min 255 (rsCount s l 1 + 1) := by
  rw [crcCounted, if_pos h]
  exact rsCount_countRs_same s l .crc

theorem rsCount_crcCounted_ne (s : State) (l : Nat) (b : Bool) {j : Nat} (h : j ≠ 1) :
    rsCount (crcCounted s l b) l j = rsCount s l j := by
  unfold crcCounted
  split
  · exact rsCount_countRs_ne s l .crc h
  · rfl

/-- The checks at the stop are those of the state before the arrival: a count of a failed CRC is none of what they read. -/
theorem damage_atStop (s : State) (l : Nat) (d : Dir) (slot : Nat) (crcBad : Bool) (g : Ferry) :
    damage (crcCounted (atStop s l d slot) l crcBad) g = damage s g := by
  have hc := (regsOnly_crcCounted (atStop s l d slot) l crcBad).marksOnly.sameRing fun o ho => rd_crcCounted_low _ _ _ ho
  exact ((sameRing_atStop s l d slot).trans hc).damage_eq g

/-- The stop's part once it has noted the slot. -/
def takeSlot (a : State) (l : Nat) (d : Dir) (slot : Nat) (hdrBad crcBad : Bool) : State :=
  if hdrBad then forward (countRs a l .hdrLoss) l d slot none
  else
    match (getTSlot a d slot).ferry with
    | none => forward a l d slot none
    | some f =>
      if emptyHdr f.hdr then forward a l d slot none
      else
        match damage (crcCounted a l crcBad) (hopped f crcBad) with
        | some e => forward (countRs (crcCounted a l crcBad) l e) l d slot none
        | none => passFerry (crcCounted a l crcBad) l d slot (hopped f crcBad)

section
variable {l : Fin 32} {d : Dir} {slot : Nat} {s : State} (hs : stopAt s l d slot) (he : s.crs.ext = false)
include hs he

/-- An arrival that the stop takes, once it has noted the slot. -/
theorem slotArrival_eq (hdrBad crcBad : Bool) :
    exec (.slotArrival l d slot hdrBad crcBad) s = .next (takeSlot (atStop s l.val d slot) l.val d slot hdrBad crcBad) := by
  obtain ⟨hl, hu, hk, ha⟩ := hs
  have hslot : slotOk s slot = true := by simp [slotOk, he, hk]
  have hext (t : State) (ht : t.crs = s.crs) (x : TSlot) : atEdge t d x = false := by simp [atEdge, ht, he]
  have hnote : (noteSlot s l.val d slot).crs = s.crs := by cases d <;> rfl
  have hat : (if !(noteSlot s l.val d slot).crs.ext ∧ ownsSlot (noteSlot s l.val d slot) l.val d slot = true then
      addCredit (noteSlot s l.val d slot) l.val else noteSlot s l.val d slot) = atStop s l.val d slot := by
    rw [hnote, (sameRing_noteSlot ..).ownsSlot_eq, he]
    simp [atStop]
  show execSlotArrival l d slot hdrBad crcBad s = _
  unfold execSlotArrival
  simp only [hl, hu, hslot, ha, Bool.not_true, Bool.false_eq_true, or_self, if_false]
  rw [hat]
  simp only [hext _ (sameRing_atStop ..).crs, Bool.false_eq_true, false_and, if_false]
  cases hdrBad with
  | true => rfl
  | false =>
    cases hx : (getTSlot (atStop s l.val d slot) d slot).ferry with
    | none => simp [takeSlot, hx]
    | some f =>
      cases hh : emptyHdr f.hdr with
      | true => simp [takeSlot, hx, hh]
      | false =>
        cases crcBad with
        | true =>
          cases hd : damage (countRs (atStop s l.val d slot) l.val .crc) (hopped f true) <;>
            simp_all [takeSlot, crcCounted, hopped]
        | false =>
          cases hd : damage (atStop s l.val d slot) (hopped f false) <;> simp_all [takeSlot, crcCounted, hopped]

theorem slotArrival_headless (crcBad : Bool) :
    Runs (.slotArrival l d slot true crcBad) s
      (forward (countRs (atStop s l.val d slot) l.val .hdrLoss) l.val d slot none) :=
  slotArrival_eq hs he true crcBad

theorem slotArrival_empty (crcBad : Bool) (hx : (getTSlot s d slot).ferry = none) :
    Runs (.slotArrival l d slot false crcBad) s (forward (atStop s l.val d slot) l.val d slot none) := by
  rw [Runs, slotArrival_eq hs he]
  simp [takeSlot, getTSlot_atStop, hx]

variable {f : Ferry} (hx : (getTSlot s d slot).ferry = some f)
include hx

theorem slotArrival_control (crcBad : Bool) (hh : emptyHdr f.hdr = true) :
    Runs (.slotArrival l d slot false crcBad) s (forward (atStop s l.val d slot) l.val d slot none) := by
  rw [Runs, slotArrival_eq hs he]
  simp [takeSlot, getTSlot_atStop, hx, hh]

theorem slotArrival_damaged {crcBad : Bool} (hh : emptyHdr f.hdr = false) {e : RsEvent}
    (hd : damage s (hopped f crcBad) = some e) :
    Runs (.slotArrival l d slot false crcBad) s
      (forward (countRs (crcCounted (atStop s l.val d slot) l.val crcBad) l.val e) l.val d slot none) := by
  rw [Runs, slotArrival_eq hs he]
  simp [takeSlot, getTSlot_atStop, hx, hh, damage_atStop, hd]

theorem slotArrival_passes {crcBad : Bool} (hh : emptyHdr f.hdr = false) (hd : damage s (hopped f crcBad) = none) :
    Runs (.slotArrival l d slot false crcBad) s
      (passFerry (crcCounted (atStop s l.val d slot) l.val crcBad) l.val d slot (hopped f crcBad)) := by
  rw [Runs, slotArrival_eq hs he]
  simp [takeSlot, getTSlot_atStop, hx, hh, damage_atStop, hd]

end

/-! ## A weight ferry -/

/-- A weight ferry is no other kind. -/
theorem kinds_of_datum {f : Ferry} (h : isDatum f = true) :
    isCarry f = false ∧ isGrad f = false ∧ isGather f = false ∧ f.hdr.kind ≠ 3 := by
  unfold isDatum at h
  unfold isCarry isGrad isGather
  simp only [beq_iff_eq] at h
  simp [h]

theorem actOn_datum (s : State) (l : Nat) {f : Ferry} (h : isDatum f = true) :
    actOn s l f = (f, s) ∨ actOn s l f = (f, deliver s l f) := by
  obtain ⟨-, hg, -, hk⟩ := kinds_of_datum h
  unfold actOn
  cases arrayOn s l
  · refine .inl ?_
    rw [if_pos (by rfl), if_neg (not_or.mpr ⟨by simp [hg], hk⟩)]
  · exact .inr (by simp [h])

theorem retire_datum (s : State) (l : Nat) {f : Ferry} (h : isDatum f = true) : retire s l f = s := by
  obtain ⟨-, hg, hs, -⟩ := kinds_of_datum h
  simp [retire, hg, hs]

/-- A good weight ferry goes on, or its slot goes on empty where it retires (R55). -/
theorem passFerry_datum {p : Nat → Prop} (hp : ¬ p rXcause) (s : State) (l : Nat) (d : Dir) (k : Nat) {f : Ferry}
    (h : isDatum f = true) :
    ∃ t, StopWork p s t ∧ passFerry s l d k f = forward t l d k (if retiresAt s l f = true then none else some f) := by
  obtain ⟨r, hr, hw⟩ : ∃ r, actOn (noteSeen s l f) l f = (f, r) ∧ StopWork p s r := by
    rcases actOn_datum (noteSeen s l f) l h with e | e
    · exact ⟨_, e, stopWork_noteSeen s l f⟩
    · exact ⟨_, e, (stopWork_noteSeen s l f).trans (stopWork_deliver hp _ l f)⟩
  refine ⟨afterFerry r l f, hw.trans (stopWork_afterFerry hp r l f), ?_⟩
  unfold passFerry
  simp only [(kinds_of_datum h).1, Bool.false_eq_true, if_false, hr, retire_datum _ _ h]
  split <;> rfl

theorem retiresAt_inside {s : State} {l n : Nat} {f : Ferry} (h : nextLive s f.dir l = some n) :
    retiresAt s l f = (f.lmodule == s.modnum && f.launcher.val == n) := by
  simp [retiresAt, h]

/-! ## The ring stop -/

/-- A stop where only registers have changed since the slot's arrival sends it on with the landing's hold bit. -/
theorem forward_atStop {s t : State} {l : Nat} {d : Dir} {k : Nat} (hn : (nextLive s d l).isSome = true)
    (ht : RegsOnly (atStop s l d k) t) (f : Option Ferry) :
    (getTSlot (forward t l d k f) d k).ferry = f ∧ (getTSlot (forward t l d k f) d k).last = some l ∧
      (getTSlot (forward t l d k f) d k).hold = holdWord s l (getTSlot s d k).hold := by
  have hnext : nextLive t d l = nextLive s d l := by rw [ht]; exact (sameRing_atStop s l d k).nextLive_eq d l
  have hslot : getTSlot t d k = getTSlot s d k := by rw [ht]; exact getTSlot_atStop s l d k d k
  have hhold : holdBit t l = holdBit s l := by rw [ht]; exact holdBit_atStop s l d k
  rw [getTSlot_forward (by rw [hnext]; exact hn), hslot, holdWord, hhold]
  exact ⟨rfl, rfl, rfl⟩

theorem rsCount_atStop (s : State) (l : Nat) (d : Dir) (k e : Nat) : rsCount (atStop s l d k) l e = rsCount s l e := by
  unfold rsCount rdFld rd
  rw [atStop_regs]

section
variable {l : Fin 32} {d : Dir} {slot : Nat} {s : State} (hs : stopAt s l d slot) (he : s.crs.ext = false)
  (hn : (nextLive s d l.val).isSome = true)
include hn

/-- Registers alone do not change where the slot goes. -/
theorem nextLive_stop {t : State} (ht : RegsOnly (atStop s l.val d slot) t) : (nextLive t d l.val).isSome = true := by
  rw [ht]
  exact (congrArg Option.isSome ((sameRing_atStop s l.val d slot).nextLive_eq d l.val)).trans hn

theorem rsCount_headless :
    rsCount (forward (countRs (atStop s l.val d slot) l.val .hdrLoss) l.val d slot none) l.val 0 =
      min 255 (rsCount s l.val 0 + 1) := by
  rw [rsCount_forward (nextLive_stop hn (regsOnly_countRs ..)), ← rsCount_atStop s l.val d slot 0]
  exact rsCount_countRs_same _ _ .hdrLoss

include hs he

theorem arrival_empty (crcBad hdrBad : Bool) (hx : (getTSlot s d slot).ferry = none) :
    ∃ u, Runs (.slotArrival l d slot hdrBad crcBad) s u ∧ ((getTSlot u d slot).ferry = none ∧
      (getTSlot u d slot).last = some l.val ∧ (getTSlot u d slot).hold = holdWord s l.val (getTSlot s d slot).hold) ∧
      (getLand u l.val).credit =
        (if ownsSlot s l.val d slot = true then moreCredit s l.val else (getLand s l.val).credit) ∧
      (hdrBad = true → rsCount u l.val 0 = min 255 (rsCount s l.val 0 + 1)) := by
  cases hdrBad with
  | true =>
    have ht := regsOnly_countRs (atStop s l.val d slot) l.val .hdrLoss
    refine ⟨_, slotArrival_headless hs he crcBad, forward_atStop hn ht none, ?_, fun _ => rsCount_headless hn⟩
    rw [getLand_forward (nextLive_stop hn ht), getLand, ht.lands_eq]
    exact credit_atStop s l.val d slot
  | false =>
    refine ⟨_, slotArrival_empty hs he crcBad hx, forward_atStop hn (.refl _) none, ?_, fun h => by cases h⟩
    rw [getLand_forward (nextLive_stop hn (.refl _)), credit_atStop]

variable {f : Ferry} (hx : (getTSlot s d slot).ferry = some f)
include hx

theorem arrival_damaged (crcBad : Bool) (hh : emptyHdr f.hdr = false) {e : RsEvent}
    (hd : damage s (hopped f crcBad) = some e) :
    ∃ u, Runs (.slotArrival l d slot false crcBad) s u ∧ ((getTSlot u d slot).ferry = none ∧
      (getTSlot u d slot).last = some l.val ∧ (getTSlot u d slot).hold = holdWord s l.val (getTSlot s d slot).hold) ∧
      rsCount u l.val e.num = min 255 (rsCount s l.val e.num + 1) ∧
      (crcBad = true → rsCount u l.val 1 = min 255 (rsCount s l.val 1 + 1)) := by
  have hne := num_of_damage hd
  have ht := (regsOnly_crcCounted (atStop s l.val d slot) l.val crcBad).trans (regsOnly_countRs _ l.val e)
  refine ⟨_, slotArrival_damaged hs he hx hh hd, forward_atStop hn ht none, ?_, fun hb => ?_⟩
  · rw [rsCount_forward (nextLive_stop hn ht), rsCount_countRs_same, rsCount_crcCounted_ne _ _ _ hne, rsCount_atStop]
  · rw [rsCount_forward (nextLive_stop hn ht), rsCount_countRs_ne _ _ _ (Ne.symm hne), rsCount_crcCounted _ _ hb,
      rsCount_atStop]

theorem arrival_datum (crcBad : Bool) (hh : emptyHdr f.hdr = false) (hd : damage s (hopped f crcBad) = none)
    (hk : isDatum f = true) :
    ∃ u, Runs (.slotArrival l d slot false crcBad) s u ∧
      (getTSlot u d slot).ferry = (if retiresAt s l.val f = true then none else some (hopped f crcBad)) ∧
      (getTSlot u d slot).last = some l.val ∧
      (crcBad = true → rsCount u l.val 1 = min 255 (rsCount s l.val 1 + 1)) := by
  have ht := regsOnly_crcCounted (atStop s l.val d slot) l.val crcBad
  obtain ⟨w, hw, e⟩ := passFerry_datum (p := fun o => o ≠ rXcause) (fun h => h rfl)
    (crcCounted (atStop s l.val d slot) l.val crcBad) l.val d slot (f := hopped f crcBad) hk
  have hw' : (nextLive w d l.val).isSome = true := by rw [hw.nextLive_eq]; exact nextLive_stop hn ht
  have hret : retiresAt (crcCounted (atStop s l.val d slot) l.val crcBad) l.val (hopped f crcBad) =
      retiresAt s l.val f := by
    obtain ⟨n, hnext⟩ := Option.isSome_iff_exists.mp (nextLive_isSome he hs.1 f.dir)
    have hm : (crcCounted (atStop s l.val d slot) l.val crcBad).modnum = s.modnum := by
      rw [ht]
      exact (sameRing_atStop s l.val d slot).modnum
    have hnext' : nextLive (crcCounted (atStop s l.val d slot) l.val crcBad) (hopped f crcBad).dir l.val = some n := by
      rw [ht]
      exact ((sameRing_atStop s l.val d slot).nextLive_eq f.dir l.val).trans hnext
    rw [retiresAt_inside hnext, retiresAt_inside hnext', hm]
    rfl
  refine ⟨_, slotArrival_passes hs he hx hh hd, ?_, ?_, fun hb => ?_⟩
  · rw [e, getTSlot_forward hw', hret]
  · rw [e, getTSlot_forward hw']
  · rw [e, rsCount_forward hw']
    unfold rsCount rdFld
    rw [hw.words _ (by simp only [lcBase, rXcause]; omega)]
    have h1 := rsCount_crcCounted (atStop s l.val d slot) l.val hb
    rw [rsCount_atStop] at h1
    exact h1

end

/-- Settles O21: an arrival reduces to what the stop does with its slot, and the slot leaves with the landing's hold bit. -/
theorem ringStops : Obligations.RingStops := by
  intro l d slot crcBad s hs he hn
  refine ⟨fun hdrBad hx => arrival_empty hs he hn crcBad hdrBad hx, fun f _ => ?_, fun f hx hh => ?_,
    fun f hx hh => ⟨fun e hd => arrival_damaged hs he hn hx crcBad hh hd,
      fun hd hk => arrival_datum hs he hn hx crcBad hh hd hk⟩, damage_iff he⟩
  · exact ⟨_, slotArrival_headless hs he crcBad, forward_atStop hn (regsOnly_countRs ..) none, rsCount_headless hn⟩
  · refine ⟨_, slotArrival_control hs he hx crcBad hh, forward_atStop hn (.refl _) none, ?_⟩
    rw [forward_regs (nextLive_stop hn (.refl _)), atStop_regs]

end Sys2Proof.Laws
end

section
/-! A launch on the crossing (R52, R53, R55, R56, R65, R70, R90): what the launcher does with its own ferry, and what the slot
then holds. -/

namespace Sys2Proof.Laws

open Sys2Proof Sys2Proof.Machine Sys2Proof.Claims

/-! ## Work of a launcher -/

section
variable {p : Nat → Prop} (hp : ¬ p rXcause)
include hp

theorem stopWork_setWaves (s : State) (l : Nat) (w : Waves) : StopWork p s (setWaves s l w) :=
  (stopWork_noticeHold hp _).after (stopWork_setLand s l rfl rfl)

theorem stopWork_enterLayer (s : State) (l : Nat) : StopWork p s (enterLayer s l) := by
  unfold enterLayer
  split
  · exact stopWork_setWaves hp ..
  · exact .refl s

theorem stopWork_passLayers (l n : Nat) (s : State) : StopWork p s (passLayers l n s) := by
  induction n generalizing s with
  | zero => exact .refl s
  | succ n ih =>
    unfold passLayers
    split
    · split
      · exact (ih _).after ((stopWork_enterLayer hp _ l).after (stopWork_setLand s l rfl rfl))
      · exact .refl s
    · exact .refl s

theorem stopWork_noteLaunch (s : State) (l : Nat) (d : Dir) (home : Nat) (h : FerryHdr) :
    StopWork p s (noteLaunch s l d home h) :=
  (stopWork_passLayers hp l _ _).after (stopWork_setLand s l rfl rfl)

theorem stopWork_takeContrib (s : State) (l : Nat) (f : Ferry) : StopWork p s (takeContrib s l f).2 :=
  (stopWork_setWaves hp _ l _).after (stopWork_setLand s l rfl rfl)

end

/-- A count at a ring stop changes registers alone. -/
theorem stopWork_countRsN (s : State) (l : Nat) (e : RsEvent) (n : Nat) :
    StopWork (fun _ => False) s (countRsN s l e n) :=
  StopWork.foldl (fun s _ => (regsOnly_countRs s l e).stopWork fun _ h => h.elim) _ s

theorem stopWork_addGradient (s : State) (l : Nat) (f : Ferry) : StopWork (fun _ => False) s (addGradient s l f).2 :=
  (stopWork_countRsN _ l _ _).after (stopWork_takeContrib id s l f)

/-! ## The payload -/

theorem rd_readLine_low (s : State) (l o : Nat) {x : Nat} (h : x < 0x1000000) : rd (readLine s l o) x = rd s x := by
  have hb : x ≠ scBase l (stackOf o) := by simp only [scBase, lcBase]; omega
  have hb8 : x ≠ scBase l (stackOf o) + 8 := by simp only [scBase, lcBase]; omega
  have hb12 : x ≠ scBase l (stackOf o) + 8 + 4 := by simp only [scBase, lcBase]; omega
  unfold readLine
  dsimp only
  split
  · unfold wrPair
    rw [rd_wr_ne _ hb12, rd_wr_ne _ hb8, rd_countUp_ne _ hb (by rintro co b ⟨⟩; simp only [lcBase]; omega)]
    rfl
  · split
    · rw [rd_countUp_ne _ hb (by rintro co b ⟨⟩)]
      rfl
    · rfl

theorem marksOnly_readLines (s : State) (l off n : Nat) : MarksOnly s (readLines s l off n) :=
  marksOnly_foldl (fun s o => marksOnly_readLine s l o) _ s

theorem rd_readLines_low (s : State) (l off n : Nat) {x : Nat} (h : x < 0x1000000) :
    rd (readLines s l off n) x = rd s x :=
  foldl_keeps (P := fun t => rd t x = rd s x) (fun t o e => (rd_readLine_low t l o h).trans e) _ rfl

/-- What a launch reads for its payload marks lines of the stacks at most. -/
theorem launchPayload_rest {s t : State} {l : Nat} {h : FerryHdr} {off : Nat} {rows : List (List Byte)} {psn : BitVec 64}
    (hp : launchPayload s l h off = some (rows, psn, t)) : MarksOnly s t ∧ ∀ o < 0x1000000, rd t o = rd s o := by
  unfold launchPayload at hp
  dsimp only at hp
  split at hp
  · cases hp; exact ⟨.refl s, fun _ _ => rfl⟩
  · cases hp; exact ⟨.refl s, fun _ _ => rfl⟩
  · obtain ⟨r, -, hr⟩ := Option.map_eq_some_iff.mp hp
    cases hr
    exact ⟨.refl s, fun _ _ => rfl⟩
  · split at hp
    · cases hp
    · cases hp
      exact ⟨marksOnly_readLines .., fun _ h => rd_readLines_low _ _ _ _ h⟩

/-- A GRADIENT ferry starts at zero (R56). -/
theorem launchPayload_gradient (s : State) (l : Nat) {h : FerryHdr} (hk : h.kind = 2) (off : Nat) :
    launchPayload s l h off = some (List.replicate 64 (List.replicate 512 0), 0, s) := by
  unfold launchPayload
  rw [hk]
  rfl

/-! ## The ferry at its launch -/

/-- The launcher has paid 256/256 of pace credit (R70). -/
def paid (t : State) (l : Nat) : State := setLand t l { getLand t l with credit := (getLand t l).credit - 256 }

theorem sameRing_paid (t : State) (l : Nat) : SameRing t (paid t l) :=
  sameRing_setLand t l (x := { getLand t l with credit := (getLand t l).credit - 256 }) rfl rfl rfl rfl

theorem liveCount_pos {s : State} {l : Nat} (hl : liveLand s l = true) : 0 < liveCount s := by
  have hmem : 32 * s.modnum.toNat + l ∈ liveIds s := by
    unfold liveIds
    split
    · have hown : s.modnum.toNat ∈ crossingMods s := by
        have hin : s.modnum.toNat ∈ s.modnum.toNat :: otherMods s := List.mem_cons_self
        unfold crossingMods
        rw [List.mem_append, or_comm, ← List.mem_append, List.take_append_drop]
        exact hin
      refine List.mem_flatMap.mpr ⟨_, hown, List.mem_map.mpr ⟨l, ?_, rfl⟩⟩
      rw [liveIn, if_pos rfl]
      exact mem_liveLands.mpr hl
    · exact List.mem_map.mpr ⟨l, mem_liveLands.mpr hl, rfl⟩
  exact List.length_pos_of_mem hmem

/-- A ferry of a known kind and a circulating version is sound at its launch (R63). -/
theorem damage_launched {s : State} {l : Nat} (hl : liveLand s l = true) {f : Ferry} (hk : kindKnown f.hdr = true)
    (h0 : f.hops = 0) (hv : circulating s f.hdr.version.toNat = true) : damage s f = none := by
  have := liveCount_pos hl
  unfold damage
  rw [hk, hv, h0]
  simp
  omega

section
variable {l : Fin 32} {d : Dir} {slot : Nat} {h : FerryHdr} {off hm : Nat} {rows : List (List Byte)} {psn : BitVec 64}
  {t s : State}

/-- A launch that is not due (R53, R65). -/
theorem ferryLaunch_early (hk : h.kind ≠ 1) (hhome : launchHome s l.val d slot h = some hm)
    (hdue : h.version ≠ s.crs.lapVer ∨ ferryDue s l.val d hm h = false) : Runs (.ferryLaunch l d slot h off) s s := by
  have hcarry : (h.kind == 1) = false := by simpa using hk
  have hd : h.version ≠ s.crs.lapVer ∨ (!ferryDue s l.val d hm h) = true := by simpa using hdue
  show execFerryLaunch l d slot h off s = _
  unfold execFerryLaunch
  simp only [hcarry, hhome, hd, Bool.false_eq_true]
  split <;> rfl

variable (hl : launchable s l d slot h off hm rows psn t)
include hl

theorem sameRing_launchable : SameRing s (paid t l.val) := by
  obtain ⟨-, -, -, -, hpay, -⟩ := hl
  obtain ⟨hmarks, hlow⟩ := launchPayload_rest hpay
  exact (hmarks.sameRing hlow).trans (sameRing_paid t l.val)

/-- The ferry that is launched, with its header as the ring stop writes it. -/
theorem launched_eq : (⟨launchHdr l h (isLast (paid t l.val) l.val h), d, 0, l, (paid t l.val).modnum,
    BitVec.ofNat 11 (hm / 32), psn, (paid t l.val).time, rows⟩ : Ferry) =
    launched s l d hm (launchHdr l h (isLast s l.val h)) psn rows := by
  have hr := sameRing_launchable hl
  rw [hr.isLast_eq, hr.modnum, hr.time]
  rfl

theorem damage_launchable (hk : kindKnown (launchHdr l h (isLast s l.val h)) = true) :
    damage (paid t l.val) (launched s l d hm (launchHdr l h (isLast s l.val h)) psn rows) = none := by
  have hr := sameRing_launchable hl
  obtain ⟨hmay, -, -, -, -, hv, -⟩ := hl
  have hlive : liveLand s l.val = true := by
    simp only [mayLaunch, Bool.and_eq_true] at hmay
    exact hmay.1.1.1.1.1.1.1.1.1
  rw [hr.damage_eq]
  exact damage_launched hlive hk rfl hv

/-- A launch of a sound ferry, up to what the launcher does with it. -/
theorem ferryLaunch_eq (hk : kindKnown (launchHdr l h (isLast s l.val h)) = true)
    (hdue : h.kind = 1 ∨ h.version = s.crs.lapVer ∧ ferryDue s l.val d hm h = true) :
    exec (.ferryLaunch l d slot h off) s = .next
      (let c := paid t l.val
       let f := launched s l d hm (launchHdr l h (isLast s l.val h)) psn rows
       if h.kind == 1 then forward c l.val d slot (some f)
       else
        let r := actOn (noteSeen c l.val f) l.val f
        let s' := noteLaunch (afterFerry r.2 l.val f) l.val d hm (launchHdr l h (isLast s l.val h))
        if retiresAt c l.val f then forward (retire s' l.val r.1) l.val d slot none
        else forward s' l.val d slot (some r.1)) := by
  have hf := launched_eq hl
  have hd := damage_launchable hl hk
  have hlast := (sameRing_launchable hl).isLast_eq l.val h
  obtain ⟨hmay, h1, h64, hhome, hpay, -⟩ := hl
  have hdue' : ¬ ((!(h.kind == 1)) = true ∧ (h.version ≠ s.crs.lapVer ∨ (!ferryDue s l.val d hm h) = true)) := by
    rcases hdue with e | ⟨e, e'⟩
    · simp [e]
    · simp [e, e']
  show execFerryLaunch l d slot h off s = _
  unfold execFerryLaunch
  dsimp only
  rw [if_neg (by rw [hmay]; simp; omega), hhome]
  dsimp only
  rw [if_neg hdue', hpay]
  dsimp only
  have hpaid : setLand t l.val { getLand t l.val with credit := (getLand t l.val).credit - 256 } = paid t l.val := rfl
  rw [hpaid, hf, hd]
  dsimp only
  by_cases hcar : (h.kind == 1) = true
  · rw [if_pos hcar, if_pos hcar]
  · rw [if_neg hcar, if_neg hcar, hlast]

/-- The launcher's slot and credit once its ferry has left (R56, R70). -/
theorem inSlot_forward {w : State} (hw : StopWork (fun _ => False) (paid t l.val) w) (f : Ferry) :
    inSlot s (forward w l.val d slot (some f)) l d slot f := by
  have hr := sameRing_launchable hl
  obtain ⟨hmay, -, -, -, hpay, -, -, n, hn, -⟩ := hl
  have hnext : (nextLive w d l.val).isSome = true := by
    rw [hw.nextLive_eq, hr.nextLive_eq, hn]; rfl
  have hcredit : 256 ≤ (getLand s l.val).credit := by
    simp only [mayLaunch, Bool.and_eq_true, decide_eq_true_eq] at hmay
    exact hmay.1.1.1.2
  have ht : (getLand t l.val).credit = (getLand s l.val).credit := by
    rw [(launchPayload_rest hpay).1]; rfl
  refine ⟨?_, ?_, ?_⟩
  · rw [getTSlot_forward hnext]
  · rw [getTSlot_forward hnext]
  · rw [getLand_forward hnext, hw.credit, paid, getLand_setLand, ht]
    exact Nat.sub_add_cancel hcredit

/-- The launched ferry does not retire at once: the next live landing is another. -/
theorem retiresAt_launchable (g : FerryHdr) : retiresAt (paid t l.val) l.val (launched s l d hm g psn rows) = false := by
  have hr := sameRing_launchable hl
  obtain ⟨-, -, -, -, -, -, -, n, hn, hne⟩ := hl
  have hn' : nextLive (paid t l.val) (launched s l d hm g psn rows).dir l.val = some n := by
    rw [hr.nextLive_eq]; exact hn
  rw [retiresAt_inside hn']
  simp [launched, Ne.symm hne]

/-- Every ferry but a carry is acted on by its launcher, and goes on. -/
theorem ferryLaunch_acts (hk : kindKnown (launchHdr l h (isLast s l.val h)) = true) (h1 : h.kind ≠ 1)
    (hv : h.version = s.crs.lapVer) (hdue : ferryDue s l.val d hm h = true) {r : Ferry × State}
    (hr : actOn (noteSeen (paid t l.val) l.val (launched s l d hm (launchHdr l h (isLast s l.val h)) psn rows)) l.val
      (launched s l d hm (launchHdr l h (isLast s l.val h)) psn rows) = r)
    (hw : StopWork (fun _ => False) (paid t l.val) r.2) :
    ∃ u, Runs (.ferryLaunch l d slot h off) s u ∧ inSlot s u l d slot r.1 := by
  have hnot : (h.kind == 1) = false := by simpa using h1
  refine ⟨_, ferryLaunch_eq hl hk (.inr ⟨hv, hdue⟩), ?_⟩
  simp only [hnot, hr, retiresAt_launchable hl, Bool.false_eq_true, if_false]
  exact inSlot_forward hl ((hw.trans (stopWork_afterFerry id _ _ _)).trans (stopWork_noteLaunch id _ _ _ _ _)) r.1

/-- A launch of weights. -/
theorem launch_datum (h0 : h.kind = 0) (h3 : h.sub.toNat ≤ 3) (hf : h.fmt ≠ 0xf) (hv : h.version = s.crs.lapVer)
    (hdue : ferryDue s l.val d hm h = true) :
    ∃ u, Runs (.ferryLaunch l d slot h off) s u ∧ inSlot s u l d slot
      (launched s l d hm { h with shadow := decide (h.home ≠ l), last := isLast s l.val h, dest := 0 } psn rows) := by
  have e : launchHdr l h (isLast s l.val h) =
      { h with shadow := decide (h.home ≠ l), last := isLast s l.val h, dest := 0 } := by
    simp [launchHdr, fmtOf, h0, bne, beq_eq_decide]
  have hk : kindKnown (launchHdr l h (isLast s l.val h)) = true := by
    rw [e]; simpa [kindKnown, h0, h3] using hf
  have hd : isDatum (launched s l d hm (launchHdr l h (isLast s l.val h)) psn rows) = true := by
    rw [e]; simp [isDatum, launched, h0]
  rw [← e]
  rcases actOn_datum (noteSeen (paid t l.val) l.val _) l.val hd with ea | ea
  · exact ferryLaunch_acts hl hk (by simp [h0]) hv hdue ea (stopWork_noteSeen ..)
  · exact ferryLaunch_acts hl hk (by simp [h0]) hv hdue ea ((stopWork_noteSeen ..).trans (stopWork_deliver id _ _ _))

/-- A launch of an OFFSET-CARRY. -/
theorem launch_carry (h1 : h.kind = 1) (h0 : h.sub = 0) (hf : h.fmt ≠ 0xf) :
    ∃ u, Runs (.ferryLaunch l d slot h off) s u ∧ inSlot s u l d slot
      (launched s l d hm { h with shadow := false } psn rows) := by
  have e : launchHdr l h (isLast s l.val h) = { h with shadow := false } := by simp [launchHdr, fmtOf, h1]
  have hk : kindKnown (launchHdr l h (isLast s l.val h)) = true := by
    rw [e]; simpa [kindKnown, h1, h0] using hf
  refine ⟨_, ferryLaunch_eq hl hk (.inl h1), ?_⟩
  have h1' : (h.kind == 1) = true := by simp [h1]
  rw [← e]
  simp only [h1', if_true]
  exact inSlot_forward hl (.refl _) _

end

/-! ## The launcher's own contribution to a GRADIENT ferry (R56, R90) -/

theorem leBytes_leNat (bs : List Byte) : leBytes bs.length (leNat bs) = bs := by
  induction bs with
  | nil => rfl
  | cons b r ih =>
    have hb := b.isLt
    have hd : (b.toNat + 256 * leNat r) / 256 = leNat r := by omega
    have hm : BitVec.ofNat 8 (b.toNat + 256 * leNat r) = b := BitVec.eq_of_toNat_eq (by rw [BitVec.toNat_ofNat]; omega)
    rw [List.length_cons, leNat, leBytes, hd, ih, hm]

theorem g32Add_zero (b : Word) : g32Add 0 b = (b, false) := by
  have h1 := b.toInt_lt
  have h2 := b.le_toInt
  unfold g32Add
  have hz : (0 : Word).toInt = 0 := rfl
  rw [hz, Int.zero_add, if_neg (by norm_num at h2 ⊢; omega), if_neg (by norm_num at h1 ⊢; omega)]
  exact congrArg (·, false) (BitVec.zero_add b)

/-- A row added to a row of zeros is the row. -/
theorem g32Row_zero (n : Nat) {row : List Byte} (h : row.length = 4 * n) : (g32Row (List.replicate (4 * n) 0) row).1 = row := by
  induction n generalizing row with
  | zero => rw [List.eq_nil_of_length_eq_zero h]; rfl
  | succ n ih =>
    obtain ⟨a, b, c, e, r, rfl⟩ : ∃ a b c e r, row = a :: b :: c :: e :: r := by
      match row, h with
      | a :: b :: c :: e :: r, _ => exact ⟨a, b, c, e, r, rfl⟩
    have hr : r.length = 4 * n := by simpa [Nat.mul_succ] using h
    have hz : (BitVec.ofNat 32 (leNat [0, 0, 0, 0]) : Word) = 0 := rfl
    have hlt : leNat [a, b, c, e] < 2 ^ 32 := by
      have := a.isLt; have := b.isLt; have := c.isLt; have := e.isLt
      simp only [leNat]
      omega
    show (leBytes 4 (g32Add (BitVec.ofNat 32 (leNat [0, 0, 0, 0])) (BitVec.ofNat 32 (leNat [a, b, c, e]))).1.toNat ++
      (g32Row (List.replicate (4 * n) 0) r).1) = _
    rw [hz, g32Add_zero, ih hr, BitVec.toNat_ofNat, Nat.mod_eq_of_lt hlt]
    show leBytes [a, b, c, e].length (leNat [a, b, c, e]) ++ r = _
    rw [leBytes_leNat]
    rfl

theorem noticeHold_lands (s : State) : (noticeHold s).lands = s.lands := by
  have hsend (s : State) (ty dst : Nat) (args : List Int) : (sendMsg s ty dst args).lands = s.lands := by
    unfold sendMsg routeMsg
    rw [if_neg (by simp)]
    dsimp only
    split
    · next h =>
      split at h
      · cases h
      · cases h; rfl
    · rfl
  unfold noticeHold
  split
  · unfold sendHold
    dsimp only
    refine foldl_keeps (P := fun t : State => t.lands = s.lands) (fun t m e => ?_) _ ?_
    · exact (hsend ..).trans e
    · rfl
  · rfl

theorem noteSeen_eq (s : State) (l : Nat) (f : Ferry) : ∃ xs, noteSeen s l f = setLand s l { getLand s l with seen := xs } := by
  unfold noteSeen
  dsimp only
  split
  · exact ⟨_, rfl⟩
  · exact ⟨_, rfl⟩

/-- Taking a contribution leaves the bounds recorded. -/
theorem bounds_takeContrib (s : State) (l : Nat) (f : Ferry) :
    (getLand (takeContrib s l f).2 l).bounds = (getLand s l).bounds := by
  have hw (s : State) (w : Waves) : (getLand (setWaves s l w) l).bounds = (getLand s l).bounds := by
    unfold setWaves
    dsimp only
    rw [getLand, noticeHold_lands, setLand, tget_tput_same]
  unfold takeContrib
  dsimp only
  rw [hw, getLand_setLand]

theorem nonfinite_takeContrib (s : State) (l : Nat) (f g : Ferry) (i : Nat) :
    nonfinite (takeContrib s l f).2 l g i = nonfinite s l g i := by
  unfold nonfinite boundByte
  rw [bounds_takeContrib]

/-- Payload row i of a ferry with the landing's contribution added: zero from ROWS on. -/
theorem fRow_addGradient_above (s : State) (l : Nat) (f : Ferry) {i : Nat} (h : f.hdr.rows ≤ i) :
    fRow (addGradient s l f).1 i = List.replicate 512 0 := by
  have hn : ((addGradient s l f).1.payload)[i]? = none := by
    rw [List.getElem?_eq_none_iff]
    simpa [addGradient, upto, -List.reduceReplicate] using h
  unfold fRow
  rw [List.getD_eq_getElem?_getD, hn]
  rfl

theorem fRow_addGradient_zero (s : State) (l : Nat) (f : Ferry) {i : Nat} (h : i < f.hdr.rows)
    (h0 : fRow f i = List.replicate 512 0) (hfin : nonfinite s l f i = false) {r : Rows}
    (hr : findRows (getLand s l).contrib (homeId f) f.hdr.layer.toNat f.hdr.seq.toNat = some r) {row : List Byte}
    (hrow : r.rows[i]? = some row) (hlen : row.length = 512) : fRow (addGradient s l f).1 i = row := by
  have hc : (takeContrib s l f).1 = r.rows := by simp [takeContrib, hr]
  have hfit : fitTo (0#8) 512 row = row := by rw [← hlen]; exact fitTo_length 0 row
  have hp : ((addGradient s l f).1.payload)[i]? = some (g32Row (List.replicate 512 0) row).1 := by
    simp [addGradient, upto, h, nonfinite_takeContrib, hfin, hc, hrow, h0, hfit, -List.reduceReplicate]
  unfold fRow
  rw [List.getD_eq_getElem?_getD, hp, Option.getD_some, g32Row_zero 128 hlen]
  exact hfit

theorem actOn_gradient {s : State} {l : Nat} {f : Ferry} (hon : arrayOn s l = true) (hg : isGrad f = true) :
    actOn s l f = addGradient s l f := by
  have hd : isDatum f = false := by
    unfold isGrad at hg
    unfold isDatum
    simp only [beq_iff_eq] at hg
    simp [hg]
  simp [actOn, hon, hg, hd]

/-- A GRADIENT ferry before its launcher adds to it: every row zero (R56). -/
def zeroFerry (s : State) (l : Fin 32) (d : Dir) (hm : Nat) (h : FerryHdr) : Ferry :=
  launched s l d hm h 0 (List.replicate 64 (List.replicate 512 0))

theorem fRow_zeroFerry {s : State} {l : Fin 32} {d : Dir} {hm : Nat} {h : FerryHdr} {i : Nat} (hi : i < 64) :
    fRow (zeroFerry s l d hm h) i = List.replicate 512 0 := by
  have hp : (zeroFerry s l d hm h).payload[i]? = some (List.replicate 512 0) :=
    List.getElem?_replicate_of_lt hi
  unfold fRow
  rw [List.getD_eq_getElem?_getD, hp, Option.getD_some]
  have hfit := fitTo_length 0 (List.replicate 512 (0 : Byte))
  rw [List.length_replicate] at hfit
  exact hfit

theorem homeId_zeroFerry (s : State) (l : Fin 32) (d : Dir) (hm : Nat) (h : FerryHdr) :
    homeId (zeroFerry s l d hm h) = hm % 2 ^ 16 / 32 * 32 + h.home.val := by
  have e : ((zeroFerry s l d hm h).hmodule).toNat = hm / 32 % 2 ^ 11 := BitVec.toNat_ofNat ..
  rw [homeId, e]
  show 32 * (hm / 32 % 2 ^ 11) + h.home.val = _
  omega

section
variable {l : Fin 32} {d : Dir} {slot : Nat} {h : FerryHdr} {off hm : Nat} {rows : List (List Byte)} {psn : BitVec 64}
  {t s : State} (hl : launchable s l d slot h off hm rows psn t)
include hl

/-- A launch of a GRADIENT ferry. -/
theorem launch_gradient (h2 : h.kind = 2) (h0 : h.sub = 0) (hv : h.version = s.crs.lapVer)
    (hdue : ferryDue s l.val d hm h = true) :
    ∃ u f, Runs (.ferryLaunch l d slot h off) s u ∧ inSlot s u l d slot f ∧
      f.hdr = { h with shadow := false, last := isLast s l.val h, fmt := 0xd, dest := 0 } ∧ f.hops = 0 ∧
      f.launcher = l ∧ f.lmodule = s.modnum ∧ homeId f = hm % 2 ^ 16 / 32 * 32 + h.home.val ∧ f.stamp = s.time ∧
      (∀ i, h.rows ≤ i → fRow f i = List.replicate 512 0) ∧ ∀ i < h.rows, ∀ r row, nonfinite s l.val f i = false →
        findRows (getLand s l.val).contrib (homeId f) h.layer.toNat h.seq.toNat = some r → r.rows[i]? = some row →
        row.length = 512 → fRow f i = row := by
  obtain ⟨g, hg⟩ : ∃ g : FerryHdr, g = { h with shadow := false, last := isLast s l.val h, fmt := 0xd, dest := 0 } :=
    ⟨_, rfl⟩
  have e : launchHdr l h (isLast s l.val h) = g := by rw [hg]; simp [launchHdr, fmtOf, h2]
  have hk : kindKnown (launchHdr l h (isLast s l.val h)) = true := by
    rw [e, hg]; simp [kindKnown, h2, h0]
  have hgrad : isGrad (zeroFerry s l d hm g) = true := beq_iff_eq.mpr (by rw [← h2, hg]; rfl)
  have hrow : (zeroFerry s l d hm g).hdr.rows = h.rows := by rw [hg]; rfl
  obtain ⟨hrows, hpsn, ht⟩ : List.replicate 64 (List.replicate 512 0) = rows ∧ (0 : BitVec 64) = psn ∧ s = t := by
    obtain ⟨-, -, -, -, hpay, -⟩ := hl
    rw [launchPayload_gradient s l.val h2] at hpay
    simpa only [Option.some.injEq, Prod.mk.injEq] using hpay
  subst hrows hpsn ht
  have hr := sameRing_launchable hl
  have hz : launched s l d hm (launchHdr l h (isLast s l.val h)) 0 (List.replicate 64 (List.replicate 512 0)) =
      zeroFerry s l d hm g := by rw [e]; rfl
  have hon : arrayOn (noteSeen (paid s l.val) l.val (zeroFerry s l d hm g)) l.val = true := by
    have hmay := hl.1
    simp only [mayLaunch, Bool.and_eq_true] at hmay
    have hl32 := l.isLt
    rw [arrayOn, domState, rdFld, (stopWork_noteSeen (p := fun _ => True) ..).words _ trivial,
      hr.words _ (by simp only [rPd]; omega)]
    exact hmay.1.1.1.1.1.1.1.1.2
  obtain ⟨xs, en⟩ := noteSeen_eq (paid s l.val) l.val (zeroFerry s l d hm g)
  obtain ⟨u, hu, hin⟩ := ferryLaunch_acts hl hk (by simp [h2]) hv hdue (by rw [hz, actOn_gradient hon hgrad])
    ((stopWork_noteSeen ..).trans (stopWork_addGradient ..))
  refine ⟨u, _, hu, hin, hg, rfl, rfl, rfl, ?_, rfl, fun i hi => fRow_addGradient_above _ _ _ (by rw [hrow]; exact hi),
    fun i hi r row hfin hfind hrow' hlen => ?_⟩
  · exact (homeId_zeroFerry s l d hm g).trans (by rw [hg])
  have h64 : h.rows ≤ 64 := hl.2.2.1
  have hat : (getLand (noteSeen (paid s l.val) l.val (zeroFerry s l d hm g)) l.val).contrib = (getLand s l.val).contrib ∧
      (getLand (noteSeen (paid s l.val) l.val (zeroFerry s l d hm g)) l.val).bounds = (getLand s l.val).bounds := by
    rw [en, getLand_setLand, paid, getLand_setLand]
    exact ⟨rfl, rfl⟩
  have hkey : g.layer = h.layer ∧ g.seq = h.seq := by rw [hg]; exact ⟨rfl, rfl⟩
  refine fRow_addGradient_zero _ _ _ (by rw [hrow]; exact hi) (fRow_zeroFerry (by omega)) ?_ (r := r) ?_ hrow' hlen
  · unfold nonfinite boundByte
    rw [hat.2]
    exact hfin
  · rw [hat.1]
    rw [← hkey.1, ← hkey.2] at hfind
    exact hfind

end

/-- Settles O20: a launch that is due fills the slot with the ferry on which its launcher has acted. -/
theorem ferryLaunches : Obligations.FerryLaunches := by
  refine ⟨fun l d slot h off hm rows psn t s hl => ⟨launch_datum hl, launch_carry hl, launch_gradient hl⟩,
    fun l d slot h off hm s hk hhome hdue => ferryLaunch_early hk hhome hdue⟩

end Sys2Proof.Laws
end

section
/-! Injection into the ferry buffer, and LC.FBUF (R60, R115, R257, R294, R295, R297). -/

namespace Sys2Proof.Laws

open Sys2Proof Sys2Proof.Machine Sys2Proof.Claims

/-! ## Sets of numbers -/

theorem mem_sadd_iff (n k : Nat) (xs : List Nat) : k ∈ sadd n xs ↔ k = n ∨ k ∈ xs := by
  induction xs with
  | nil => simp [sadd]
  | cons m r ih =>
    unfold sadd
    split
    · simp
    · split
      · next h => subst h; simp
      · simp only [List.mem_cons, ih]
        tauto

theorem contains_sset_same (n : Nat) (b : Bool) (xs : List Nat) : (sset n b xs).contains n = b := by
  cases b with
  | true => simp [sset, mem_sadd_iff]
  | false => simp [sset, sdel]

theorem contains_sset_ne {n k : Nat} (h : k ≠ n) (b : Bool) (xs : List Nat) : (sset n b xs).contains k = xs.contains k := by
  rw [Bool.eq_iff_iff, List.contains_iff_mem, List.contains_iff_mem]
  cases b with
  | true => simp [sset, mem_sadd_iff, h]
  | false => simp [sset, sdel, h]

/-! ## Rows of a scratchpad -/

theorem length_fRow (f : Ferry) (i : Nat) : (fRow f i).length = 512 := length_fitTo ..

theorem getBytes_same {s t : State} {k n : Nat} (h : ∀ i < n, getByte t (k + i) = getByte s (k + i)) :
    getBytes t k n = getBytes s k n :=
  List.map_congr_left fun i hi => h i (List.mem_range.mp hi)

section
variable (s : State) (l c r : Nat) (bs : List Byte) (p : Bool)

/-- What a write of a row does to memory and marks. -/
theorem putRow_marks : (putRow s l c r bs p).mem = (putBytes s (rowKey l c r) (fitTo 0 512 bs)).mem ∧
    (putRow s l c r bs p).poison = sset (rowKey l c r) p s.poison ∧
    (putRow s l c r bs p).uerr = sclear s.uerr (rowKey l c r) 512 := by
  have hd (t : State) : (dropCached t l c r).mem = t.mem ∧ (dropCached t l c r).poison = t.poison ∧
      (dropCached t l c r).uerr = t.uerr := by
    unfold dropCached
    dsimp only
    split
    · split <;> exact ⟨rfl, rfl, rfl⟩
    · exact ⟨rfl, rfl, rfl⟩
  exact hd _

theorem rowData_putRow_same (h : bs.length = 512) : rowData (putRow s l c r bs p) l c r = (bs, p) := by
  obtain ⟨hm, hp, hu⟩ := putRow_marks s l c r bs p
  have hfit : fitTo 0 512 bs = bs := by rw [← h]; exact fitTo_length 0 bs
  have hnone : (inRow (sclear s.uerr (rowKey l c r) 512) (rowKey l c r)).isEmpty = true := by
    rw [List.isEmpty_iff, inRow, List.filter_eq_nil_iff]
    intro u hu
    simp only [sclear, List.mem_filter] at hu
    have := hu.2
    simp only [Bool.not_eq_true', Bool.and_eq_false_iff, decide_eq_false_iff_not] at this
    simp only [Bool.and_eq_true, decide_eq_true_eq]
    omega
  have hb : getBytes (putRow s l c r bs p) (rowKey l c r) 512 = bs := by
    rw [getBytes_congr hm, hfit, ← h]
    exact getBytes_putBytes s (rowKey l c r) bs
  unfold rowData poisoned
  dsimp only
  rw [hb, hp, hu, contains_sset_same, hnone]
  simp

/-- A row elsewhere is as it was. -/
theorem rowData_putRow_ne {l' c' r' : Nat} (h : rowKey l c r + 512 ≤ rowKey l' c' r' ∨ rowKey l' c' r' + 512 ≤ rowKey l c r) :
    rowData (putRow s l c r bs p) l' c' r' = rowData s l' c' r' := by
  obtain ⟨hm, hp, hu⟩ := putRow_marks s l c r bs p
  have hb : getBytes (putRow s l c r bs p) (rowKey l' c' r') 512 = getBytes s (rowKey l' c' r') 512 := by
    rw [getBytes_congr hm]
    refine getBytes_same fun i hi => ?_
    exact getByte_putBytes_out s _ _ (by rw [length_fitTo]; omega)
  have hin : inRow (sclear s.uerr (rowKey l c r) 512) (rowKey l' c' r') = inRow s.uerr (rowKey l' c' r') := by
    unfold inRow sclear
    rw [List.filter_filter]
    refine List.filter_congr fun u _ => ?_
    by_cases h1 : rowKey l' c' r' ≤ u ∧ u < rowKey l' c' r' + 512
    · have h2 : (decide (rowKey l c r ≤ u) && decide (u < rowKey l c r + 512)) = false := by
        rw [← Bool.decide_and, decide_eq_false_iff_not]; omega
      rw [h2, Bool.not_false, Bool.and_true]
    · rw [← Bool.decide_and, decide_eq_false h1, Bool.false_and]
  unfold rowData poisoned
  dsimp only
  rw [hb, hp, hu, hin, contains_sset_ne (by omega)]

end

/-- Rows of one landing's scratchpads lie apart. -/
theorem rowKey_apart (l : Nat) {c c' r r' : Nat} (hr : r < 32768) (hr' : r' < 32768) (h : c ≠ c' ∨ r ≠ r') :
    rowKey l c r + 512 ≤ rowKey l c' r' ∨ rowKey l c' r' + 512 ≤ rowKey l c r := by
  simp only [rowKey, memKey]
  omega

/-! ## Rows written through the chain port -/

/-- No operand hold stalls a row of the core: its matrix engine is idle and no write waits. -/
def free (s : State) (l c : Nat) : Prop := (getCore s l c).mtx.running = false ∧ (getCore s l c).held = []

theorem rowHeld_free {s : State} {l c : Nat} (h : free s l c) (r : Nat) : rowHeld s l c r = false := by
  unfold rowHeld heldRows
  simp [h.1, h.2]

/-- A write of a row leaves what holds stand on. -/
theorem free_putRow {s : State} {l' c' : Nat} (h : free s l' c') (l c r : Nat) (bs : List Byte) (p : Bool) :
    free (putRow s l c r bs p) l' c' := by
  have hd (t : State) (ht : free t l' c') : free (dropCached t l c r) l' c' := by
    unfold dropCached
    dsimp only
    split
    · split
      · by_cases hk : coreKey l' c' = coreKey l c
        · have e : getCore (setCore t l c { getCore t l c with tcache := none }) l' c' =
              { getCore t l' c' with tcache := none } := by
            unfold getCore setCore
            rw [hk]
            exact tget_tput_same ..
          rw [free, e]
          exact ht
        · rw [free, getCore_setCore_ne _ hk]
          exact ht
      · exact ht
    · exact ht
  exact hd _ h

theorem rowData_congr {s t : State} (hm : t.mem = s.mem) (hp : t.poison = s.poison) (hu : t.uerr = s.uerr) (l c r : Nat) :
    rowData t l c r = rowData s l c r := by
  unfold rowData poisoned
  dsimp only
  rw [getBytes_congr hm, hp, hu]

theorem putRow_lands (s : State) (l c r : Nat) (bs : List Byte) (p : Bool) : (putRow s l c r bs p).lands = s.lands := by
  have hd (t : State) : (dropCached t l c r).lands = t.lands := by
    unfold dropCached
    dsimp only
    split
    · split <;> rfl
    · rfl
  exact hd _

/-- Rows that no hold stalls are all written; rows of another core, and those before them, stay. -/
theorem writeRowsHeld_free {l c : Nat} (hc : c < 256) (goal : HeldFor) {rows : List (List Byte × Bool)}
    (hlen : ∀ x ∈ rows, x.1.length = 512) {s : State} {r : Nat} (hf : ∀ c < 256, free s l c)
    (hr : r + rows.length ≤ 32768) :
    (∀ j < 256, free (writeRowsHeld s l c r goal rows) l j) ∧ (writeRowsHeld s l c r goal rows).lands = s.lands ∧
      (∀ i x, rows[i]? = some x → rowData (writeRowsHeld s l c r goal rows) l c (r + i) = x) ∧
      (∀ c' r', r' < 32768 → c' ≠ c ∨ r' < r → rowData (writeRowsHeld s l c r goal rows) l c' r' = rowData s l c' r') := by
  induction rows generalizing s r with
  | nil => exact ⟨hf, rfl, fun i x h => by simp at h, fun _ _ _ _ => rfl⟩
  | cons x rest ih =>
    obtain ⟨bs, p⟩ := x
    have hbs : bs.length = 512 := hlen _ List.mem_cons_self
    rw [List.length_cons] at hr
    have e : writeRowsHeld s l c r goal ((bs, p) :: rest) =
        writeRowsHeld (putRow s l c r bs p) l c (r + 1) goal rest := by
      rw [writeRowsHeld, rowHeld_free (hf c hc), if_neg Bool.false_ne_true]
    obtain ⟨h1, h2, h3, h4⟩ := ih (fun x hx => hlen x (List.mem_cons_of_mem _ hx))
      (s := putRow s l c r bs p) (r := r + 1) (fun c' hc' => free_putRow (hf c' hc') l c r bs p) (by omega)
    rw [e]
    refine ⟨h1, h2.trans (putRow_lands ..), fun i x hx => ?_, fun c' r' hr' hd => ?_⟩
    · cases i with
      | zero =>
        cases hx
        show rowData _ l c r = _
        rw [h4 c r (by omega) (.inr (by omega)), rowData_putRow_same _ _ _ _ _ _ hbs]
      | succ i =>
        have := h3 i x hx
        rwa [show r + 1 + i = r + (i + 1) by omega] at this
    · rw [h4 c' r' hr' (by omega), rowData_putRow_ne _ _ _ _ _ _ (rowKey_apart l (by omega) hr' (by omega))]

/-- The rows in the scratchpads of every core of a list. -/
theorem writeCores_free {l : Nat} (goal : HeldFor) {rows : List (List Byte × Bool)} (hlen : ∀ x ∈ rows, x.1.length = 512)
    {r : Nat} (hr : r + rows.length ≤ 32768) {cs : List Nat} (hcs : ∀ c ∈ cs, c < 256) {s : State}
    (hf : ∀ c < 256, free s l c) :
    (cs.foldl (fun s c => writeRowsHeld s l c r goal rows) s).lands = s.lands ∧
      (∀ c ∈ cs, ∀ i x, rows[i]? = some x → rowData (cs.foldl (fun s c => writeRowsHeld s l c r goal rows) s) l c (r + i) = x) ∧
      (∀ c ∉ cs, ∀ r', r' < 32768 →
        rowData (cs.foldl (fun s c => writeRowsHeld s l c r goal rows) s) l c r' = rowData s l c r') := by
  induction cs generalizing s with
  | nil => exact ⟨rfl, fun c h => by simp at h, fun _ _ _ _ => rfl⟩
  | cons c cs ih =>
    obtain ⟨h1, h2, h3, h4⟩ := writeRowsHeld_free (hcs c List.mem_cons_self) goal hlen hf hr
    obtain ⟨g1, g2, g3⟩ := ih (fun c hc => hcs c (List.mem_cons_of_mem _ hc)) h1
    refine ⟨g1.trans h2, fun c' hc' i x hx => ?_, fun c' hc' r' hr' => ?_⟩
    · by_cases hin : c' ∈ cs
      · exact g2 c' hin i x hx
      · obtain rfl : c' = c := by simpa [hin] using hc'
        have hi : i < rows.length := (List.getElem?_eq_some_iff.mp hx).1
        rw [List.foldl_cons, g3 c' hin _ (by omega)]
        exact h3 i x hx
    · rw [List.mem_cons, not_or] at hc'
      rw [List.foldl_cons, g3 c' hc'.2 r' hr', h4 c' r' hr' (.inl hc'.1)]

/-! ## The injection -/

theorem chainFull_fold (xs : List Nat) (s : State) (l : Nat) : RegsOnly s (xs.foldl (fun s c => chainFull s l c) s) :=
  foldl_keeps (P := fun t => RegsOnly s t) (fun _ _ h => h.trans (regsOnly_countUp ..)) xs (.refl s)

/-- The tiles of a weight ferry: one for each token group of the mask (R115). -/
theorem postTiles_spec {p : Nat → Prop} (s : State) (l : Nat) (q : Queued) (slot : Nat) :
    StopWork p s (postTiles s l q slot) ∧
      (getLand (postTiles s l q slot) l).inject = (getLand s l).inject ∧
      (getLand (postTiles s l q slot) l).tiles.length = (getLand s l).tiles.length +
        if q.f.hdr.sub = 0 then (maskBits 16 q.mask.toNat).length else 0 := by
  unfold postTiles
  split
  · generalize maskBits 16 q.mask.toNat = gs
    induction gs generalizing s with
    | nil => exact ⟨.refl s, rfl, rfl⟩
    | cons g gs ih =>
      obtain ⟨h1, h2, h3⟩ := ih (setLand s l { getLand s l with
        tiles := (getLand s l).tiles ++
          [⟨(getLand s l).tileNum, q.f.hdr.chain.val, g, q.num, tileHandle q.f g slot, false, false⟩]
        tileNum := (getLand s l).tileNum + 1 })
      rw [List.foldl_cons]
      refine ⟨h1.after (stopWork_setLand s l rfl rfl), h2.trans ?_, h3.trans ?_⟩
      · rw [getLand_setLand]
      · rw [getLand_setLand, List.length_append, List.length_singleton, List.length_cons]
        omega
  · exact ⟨.refl s, rfl, rfl⟩

/-- Releasing slots leaves the injection queues and the tiles. -/
theorem releaseSlots_queues (s : State) (l : Nat) :
    (getLand (releaseSlots s l) l).inject = (getLand s l).inject ∧
      (getLand (releaseSlots s l) l).tiles = (getLand s l).tiles := by
  have hn (t : State) (x : Landing) : getLand (noticeHold (setLand t l x)) l = x := by
    rw [getLand, noticeHold_lands]
    exact getLand_setLand t l x
  unfold releaseSlots updHold
  dsimp only
  split
  · rw [hn, getLand_setLand]; exact ⟨rfl, rfl⟩
  · split
    · rw [hn, getLand_setLand]; exact ⟨rfl, rfl⟩
    · rw [getLand_setLand]; exact ⟨rfl, rfl⟩

theorem bit_eq_testBit (x i : Nat) : bit x i = x.testBit i := by
  rw [Nat.testBit_eq_decide_div_mod_eq, bit, Nat.shiftRight_eq_div_pow, beq_eq_decide]

theorem rdFld_lt (s : State) (o hi lo : Nat) : rdFld s o hi lo < 2 ^ (hi + 1 - lo) := Nat.mod_lt _ (Nat.two_pow_pos _)

/-- The rows of a ferry with their poison bits (R294). -/
def ferryRows (f : Ferry) : List (List Byte × Bool) :=
  (upto (min 64 f.hdr.rows)).map fun i => (fRow f i, bit f.poison.toNat i)

theorem length_ferryRows (f : Ferry) : (ferryRows f).length = min 64 f.hdr.rows := by simp [ferryRows, upto]

theorem ferryRows_at (f : Ferry) {i : Nat} (h : i < min 64 f.hdr.rows) :
    (ferryRows f)[i]? = some (fRow f i, f.poison.getLsbD i) := by
  have hi : (upto (min 64 f.hdr.rows))[i]? = some i := List.getElem?_range h
  rw [ferryRows, List.getElem?_map, hi, Option.map_some, bit_eq_testBit, BitVec.testBit_toNat]

/-- The cores of a chain (R101). -/
def chainCores (s : State) (l k : Nat) : List Nat := (activeCores s l).filter fun c => c % 16 == k

theorem mem_chainCores (s : State) (l k : Nat) {c : Nat} :
    c ∈ chainCores s l k ↔ c < 256 ∧ coreActive s l c = true ∧ c % 16 = k := by
  simp only [chainCores, activeCores, upto, List.mem_filter, List.mem_range, beq_iff_eq]
  tauto

/-- The landing's record with the ferry moved from the queue to a slot. -/
def injected (s : State) (l k slot : Nat) (q : Queued) (rest : List Queued) : State :=
  setLand s l
    { getLand s l with
      inject := tput [] k rest (getLand s l).inject
      fslots := tput none (k * 32 + slot) (some ⟨q.f.hdr, launcherId q.f, q.f.dir, q.num, q.upTo⟩) (getLand s l).fslots }

section
variable {l : Fin 32} {k : Fin 16} {q : Queued} {rest : List Queued} {slot : Nat} {s : State}
  (hq : injQueue (getLand s l.val) k.val = q :: rest) (hslot : freeSlot s l.val k.val = some slot)
include hslot

theorem row_bound (i : Nat) (h : i ≤ 64) : rdFld s (lcBase l.val + 0x90) 12 0 + 64 * slot + i ≤ 32768 := by
  have h1 := rdFld_lt s (lcBase l.val + 0x90) 12 0
  have h2 := rdFld_lt s (lcBase l.val + 0x90) 18 13
  have h3 : slot < fbDepth s l.val := List.mem_range.mp (List.mem_of_find?_eq_some hslot)
  rw [fbDepth] at h3
  omega

variable (hon : arrayOn s l.val = true) (hthere : absentLand s l.val = false)
include hq hon hthere

/-- An injection at a landing that runs, with a slot for the head of the queue. -/
theorem chainInjection_eq : exec (.chainInjection l k) s = .next
    (let base := rdFld s (lcBase l.val + 0x90) 12 0 + 64 * slot
     let n := min 64 q.f.hdr.rows
     let cores := chainCores s l.val k.val
     let fills := cores.filter fun c => chainFills s l.val c base n && !q.stalled.contains c
     if cores.any fun c => !chainTakes s l.val c base n then
      let full := fills.filter fun c => !chainTakes s l.val c base n
      full.foldl (fun s c => chainFull s l.val c)
        (setLand s l.val { getLand s l.val with
          inject := tput [] k.val ({ q with stalled := q.stalled ++ full } :: rest) (getLand s l.val).inject })
     else
      let t := injected (fills.foldl (fun s c => chainFull s l.val c) s) l.val k.val slot q rest
      releaseSlots (postTiles (cores.foldl (fun s c => writeRowsHeld s l.val c base .chain (ferryRows q.f)) t) l.val q slot)
        l.val) := by
  have hlen : ((upto (min 64 q.f.hdr.rows)).map fun i => (fRow q.f i, bit q.f.poison.toNat i)).length =
      min 64 q.f.hdr.rows := length_ferryRows q.f
  have hland (xs : List Nat) : getLand (xs.foldl (fun s c => chainFull s l.val c) s) l.val = getLand s l.val := by
    rw [getLand, (chainFull_fold xs s l.val).lands_eq, getLand]
  unfold freeSlot at hslot
  show execChainInjection l k s = _
  unfold execChainInjection
  dsimp only
  rw [hq]
  dsimp only
  rw [hslot]
  dsimp only
  rw [hlen, if_neg (by simp [hon, hthere])]
  unfold injected
  rw [hland]
  unfold chainCores ferryRows
  split <;> rfl

/-- An injection whose rows every chain-port buffer takes. -/
theorem injection_goes (hfree : ∀ c < 256, free s l.val c) :
    let base := rdFld s (lcBase l.val + 0x90) 12 0 + 64 * slot
    ∃ u, Runs (.chainInjection l k) s u ∧ injQueue (getLand u l.val) k.val = rest ∧
      (∀ c < 256, coreActive s l.val c = true → c % 16 = k.val → ∀ i < min 64 q.f.hdr.rows,
        rowData u l.val c (base + i) = (fRow q.f i, q.f.poison.getLsbD i)) ∧
      (getLand u l.val).tiles.length = (getLand s l.val).tiles.length +
        if q.f.hdr.sub = 0 then (maskBits 16 q.mask.toNat).length else 0 := by
  intro base
  have hbound : base + (ferryRows q.f).length ≤ 32768 := row_bound hslot _ (by rw [length_ferryRows]; omega)
  have hcores : ∀ c ∈ chainCores s l.val k.val, c < 256 := fun c hc => ((mem_chainCores ..).mp hc).1
  have hheld (c n : Nat) (hc : c < 256) : chainHeld s l.val c = 0 ∧ chainWaits s l.val c base n = 0 := by
    simp [chainHeld, chainWaits, (hfree c hc).2, rowHeld_free (hfree c hc)]
  have htakes : ((chainCores s l.val k.val).any fun c => !chainTakes s l.val c base (min 64 q.f.hdr.rows)) = false := by
    rw [List.any_eq_false]
    intro c hc
    simp [chainTakes, (hheld c 0 (hcores c hc)).1, fun n => (hheld c n (hcores c hc)).2, chainMax]
  have hfills : ((chainCores s l.val k.val).filter fun c =>
      chainFills s l.val c base (min 64 q.f.hdr.rows) && !q.stalled.contains c) = [] := by
    rw [List.filter_eq_nil_iff]
    intro c hc
    simp [chainFills, (hheld c 0 (hcores c hc)).1, fun n => (hheld c n (hcores c hc)).2, chainMax]
  have hrun := chainInjection_eq hq hslot hon hthere
  dsimp only at hrun
  rw [htakes, hfills, if_neg Bool.false_ne_true] at hrun
  replace hrun : exec (.chainInjection l k) s = .next (releaseSlots (postTiles ((chainCores s l.val k.val).foldl
      (fun s c => writeRowsHeld s l.val c base .chain (ferryRows q.f)) (injected s l.val k.val slot q rest)) l.val q slot)
      l.val) := hrun
  obtain ⟨hlands, hrows, -⟩ := writeCores_free .chain (fun x hx => by
      obtain ⟨i, -, rfl⟩ := List.mem_map.mp hx
      exact length_fRow ..) hbound hcores (s := injected s l.val k.val slot q rest) (fun c hc => hfree c hc)
  generalize ht : (chainCores s l.val k.val).foldl (fun s c => writeRowsHeld s l.val c base .chain (ferryRows q.f))
    (injected s l.val k.val slot q rest) = t at *
  have hland : getLand t l.val = getLand (injected s l.val k.val slot q rest) l.val := by rw [getLand, hlands, getLand]
  rw [injected, getLand_setLand] at hland
  obtain ⟨hwork, hinject, htiles⟩ := postTiles_spec (p := fun o => o ≠ rXcause) t l.val q slot
  have hall := hwork.trans (stopWork_releaseSlots (fun h => h rfl) _ l.val)
  obtain ⟨hinject', htiles'⟩ := releaseSlots_queues (postTiles t l.val q slot) l.val
  refine ⟨_, hrun, ?_, fun c hc hact hk i hi => ?_, ?_⟩
  · rw [injQueue, hinject', hinject, hland]
    exact tget_tput_same ..
  · rw [rowData_congr (by rw [hall.rest]) (by rw [hall.rest]) (by rw [hall.rest])]
    exact hrows c ((mem_chainCores ..).mpr ⟨hc, hact, hk⟩) i _ (ferryRows_at q.f hi)
  · rw [htiles', htiles, hland]

/-- An injection for whose rows some chain-port buffer has no room. -/
theorem injection_waits (hfull : ∃ c < 256, coreActive s l.val c = true ∧ c % 16 = k.val ∧
    chainTakes s l.val c (rdFld s (lcBase l.val + 0x90) 12 0 + 64 * slot) (min 64 q.f.hdr.rows) = false) :
    ∃ u full, Runs (.chainInjection l k) s u ∧ u.mem = s.mem ∧
      injQueue (getLand u l.val) k.val = { q with stalled := q.stalled ++ full } :: rest := by
  obtain ⟨c, hc, hact, hk, hno⟩ := hfull
  have hany : ((chainCores s l.val k.val).any fun c => !chainTakes s l.val c
      (rdFld s (lcBase l.val + 0x90) 12 0 + 64 * slot) (min 64 q.f.hdr.rows)) = true :=
    List.any_eq_true.mpr ⟨c, (mem_chainCores ..).mpr ⟨hc, hact, hk⟩, by rw [hno]; rfl⟩
  have hrun := chainInjection_eq hq hslot hon hthere
  dsimp only at hrun
  rw [hany, if_pos rfl] at hrun
  generalize List.filter _ (List.filter _ _) = full at hrun
  refine ⟨_, full, hrun, (chainFull_fold ..).mem_eq, ?_⟩
  rw [getLand, (chainFull_fold ..).lands_eq, ← getLand, getLand_setLand]
  unfold injQueue
  dsimp only
  exact tget_tput_same (α := List Queued) ..

end

/-! ## LC.FBUF (R297) -/

section
variable (m : Master) {l : Fin 32} {v : Word} {s : State} (hthere : absentLand s l.val = false)
  (hon : domState s (32 + l.val) ≠ 0)
  (hnew : wfld v 12 0 ≠ rdFld s (lcBase l.val + 0x90) 12 0 ∨ wfld v 18 13 ≠ rdFld s (lcBase l.val + 0x90) 18 13)
include hthere hon hnew

theorem fbufWrite_taken (hf : (getLand s l.val).fslots = []) (ht : (getLand s l.val).tiles = [])
    (h1 : 1 ≤ wfld v 18 13) (h32 : wfld v 18 13 ≤ 32) (hfit : wfld v 12 0 + 64 * wfld v 18 13 ≤ 6144) :
    ∃ u, Runs (.fbufWrite m l v) s u ∧ rdFld u (lcBase l.val + 0x90) 12 0 = wfld v 12 0 ∧
      rdFld u (lcBase l.val + 0x90) 18 13 = wfld v 18 13 := by
  have hsame : ¬ (wfld v 12 0 = rdFld s (lcBase l.val + 0x90) 12 0 ∧ wfld v 18 13 = rdFld s (lcBase l.val + 0x90) 18 13) :=
    fun ⟨e, e'⟩ => hnew.elim (· e) (· e')
  have hrun : exec (.fbufWrite m l v) s = .next (updHold (if wfld v 31 31 = 1 then
      wrFld (wrFld (wrFld s (lcBase l.val + 0x90) 12 0 (wfld v 12 0)) (lcBase l.val + 0x90) 18 13 (wfld v 18 13))
        (lcBase l.val + 0x90) 31 31 0 else
      wrFld (wrFld s (lcBase l.val + 0x90) 12 0 (wfld v 12 0)) (lcBase l.val + 0x90) 18 13 (wfld v 18 13)) l.val) := by
    show execFbufWrite m l v s = _
    unfold execFbufWrite
    dsimp only
    rw [if_neg (by simp [hthere, hon]), if_neg hsame, if_pos (by simp [hf, ht, h1, h32, nRows, hfit])]
  have hb : wfld v 12 0 < 2 ^ (12 + 1 - 0) := Nat.mod_lt _ (Nat.two_pow_pos _)
  have hd : wfld v 18 13 < 2 ^ (18 + 1 - 13) := Nat.mod_lt _ (Nat.two_pow_pos _)
  have hreg (t : State) (hi lo : Nat) : rdFld (updHold t l.val) (lcBase l.val + 0x90) hi lo =
      rdFld t (lcBase l.val + 0x90) hi lo := by
    rw [rdFld, (stopWork_updHold (p := fun o => o ≠ rXcause) (fun h => h rfl) t l.val).words _
      (by simp only [lcBase, rXcause]; omega), rdFld]
  refine ⟨_, hrun, ?_, ?_⟩
  · rw [hreg]
    split
    · rw [rdFld_wrFld_ne _ _ (by omega) (by omega), rdFld_wrFld_ne _ _ (by omega) (by omega),
        rdFld_wrFld_same _ _ (by omega) hb]
    · rw [rdFld_wrFld_ne _ _ (by omega) (by omega), rdFld_wrFld_same _ _ (by omega) hb]
  · rw [hreg]
    split
    · rw [rdFld_wrFld_ne _ _ (by omega) (by omega), rdFld_wrFld_same _ _ (by omega) hd]
    · rw [rdFld_wrFld_same _ _ (by omega) hd]

theorem fbufWrite_refused (h : ¬ (((getLand s l.val).fslots = [] ∧ (getLand s l.val).tiles = []) ∧
      1 ≤ wfld v 18 13 ∧ wfld v 18 13 ≤ 32 ∧ wfld v 12 0 + 64 * wfld v 18 13 ≤ 6144)) :
    ∃ u, Runs (.fbufWrite m l v) s u ∧ rdFld u (lcBase l.val + 0x90) 31 31 = 1 ∧
      rdFld u (lcBase l.val + 0x90) 12 0 = rdFld s (lcBase l.val + 0x90) 12 0 ∧
      rdFld u (lcBase l.val + 0x90) 18 13 = rdFld s (lcBase l.val + 0x90) 18 13 := by
  have hsame : ¬ (wfld v 12 0 = rdFld s (lcBase l.val + 0x90) 12 0 ∧ wfld v 18 13 = rdFld s (lcBase l.val + 0x90) 18 13) :=
    fun ⟨e, e'⟩ => hnew.elim (· e) (· e')
  refine ⟨setFlag s (lcBase l.val + 0x90) 31, ?_, rdFld_setFlag_same s _ (by omega), rdFld_setFlag_off s (by omega) (by omega),
    rdFld_setFlag_off s (by omega) (by omega)⟩
  show execFbufWrite m l v s = _
  unfold execFbufWrite
  dsimp only
  rw [if_neg (by simp [hthere, hon]), if_neg hsame, if_neg]
  rintro ⟨hf, ht, h1, h32, hfit⟩
  exact h ⟨⟨List.isEmpty_iff.mp hf, List.isEmpty_iff.mp ht⟩, h1, h32, hfit⟩

end

/-- Settles O19: an injection writes its rows core by core where no hold stalls them, and else waits; a write of LC.FBUF is
taken or sets REFUSED. -/
theorem ferryBuffer : Obligations.FerryBuffer :=
  ⟨fun _ _ _ _ _ _ hq hslot hon hthere =>
      ⟨injection_goes hq hslot hon hthere, injection_waits hq hslot hon hthere⟩,
    fun m _ _ _ hthere hon =>
      ⟨fun hnew hempty hfits => fbufWrite_taken m hthere hon hnew hempty.1 hempty.2 hfits.1 hfits.2.1 hfits.2.2,
        fun hnew h => fbufWrite_refused m hthere hon hnew h⟩⟩

end Sys2Proof.Laws
end

section
/-! The work that a lap does for requests leaves the crossing alone (R454, R457 to R462): one frame lemma for each function of the
model, in the model's order. -/

namespace Sys2Proof.Laws

open Sys2Proof Sys2Proof.Machine

/-- The crossing: the landings, its controller and the part's fuses. It is irreducible so that `simp` rewrites by the frame lemmas
below. -/
@[irreducible] def ringOf (s : State) : Tab Landing × Crs × Fuses := (s.lands, s.crs, s.fuses)

theorem ringOf_def (s : State) : ringOf s = (s.lands, s.crs, s.fuses) := by rw [ringOf]

/-- A record update: its left side is the state with its fields written out. -/
@[simp] theorem ringOf_mk {pending time edges mem poison uerr cerr regs latch heldLow threads cores lands trainCw trainCcw
    crs accs nextId sto xpt reqs qsets pcie hm pwr boot tap mgmt dbg served fetched nextReq fuses modnum free outs} :
    ringOf ⟨pending, time, edges, mem, poison, uerr, cerr, regs, latch, heldLow, threads, cores, lands, trainCw, trainCcw,
      crs, accs, nextId, sto, xpt, reqs, qsets, pcie, hm, pwr, boot, tap, mgmt, dbg, served, fetched, nextReq, fuses,
      modnum, free, outs⟩ = (lands, crs, fuses) := ringOf_def _

@[simp] theorem ringOf_eta (s : State) : (s.lands, s.crs, s.fuses) = ringOf s := (ringOf_def s).symm

@[simp] theorem ringOf_ite (c : Prop) [Decidable c] (a b : State) :
    ringOf (if c then a else b) = if c then ringOf a else ringOf b := apply_ite ringOf c a b

@[simp] theorem ringOf_foldl {α : Type} {f : State → α → State} (hf : ∀ s a, ringOf (f s a) = ringOf s) (xs : List α)
    (s : State) : ringOf (xs.foldl f s) = ringOf s :=
  foldl_keeps (P := fun t => ringOf t = ringOf s) (fun t a h => (hf t a).trans h) xs rfl

@[simp] theorem ringOf_wr (s : State) (o : Nat) (v : Word) : ringOf (wr s o v) = ringOf s := by simp [wr]

@[simp] theorem ringOf_wrFld (s : State) (o hi lo v : Nat) : ringOf (wrFld s o hi lo v) = ringOf s := ringOf_wr ..

@[simp] theorem ringOf_setFlag (s : State) (o i : Nat) : ringOf (setFlag s o i) = ringOf s := ringOf_wr ..

@[simp] theorem ringOf_emit (s : State) (o : Out) : ringOf (emit s o) = ringOf s := by simp [emit]

@[simp] theorem ringOf_setQs (s : State) (q : Nat) (x : QSet) : ringOf (setQs s q x) = ringOf s := by simp [setQs]

@[simp] theorem ringOf_hostWrite (s : State) (q : Nat) (w : Dword × List Byte) : ringOf (hostWrite s q w) = ringOf s := by
  simp [hostWrite]

@[simp] theorem ringOf_coalesce (s : State) (q : Nat) : ringOf (coalesce s q) = ringOf s := by simp [coalesce]

@[simp] theorem ringOf_clearPend (s : State) (q : Nat) : ringOf (clearPend s q) = ringOf s := by simp [clearPend]

@[simp] theorem ringOf_postNow (s : State) (q : Nat) (r : HeldRec) : ringOf (postNow s q r) = ringOf s := by simp [postNow]

@[simp] theorem ringOf_addRec (s : State) (q : Nat) (r : HeldRec) : ringOf (addRec s q r) = ringOf s := by simp [addRec]

@[simp] theorem ringOf_updMask (s : State) (l : Nat) (v : BitVec 16) (g : Nat) : ringOf (updMask s l v g) = ringOf s := by
  simp [updMask]

@[simp] theorem ringOf_dropReq (s : State) (r : Req) : ringOf (dropReq s r) = ringOf s := by simp [dropReq]

@[simp] theorem ringOf_closeReq (s : State) (r : Req) (state err flags : Nat) :
    ringOf (closeReq s r state err flags) = ringOf s := by
  simp [closeReq]

@[simp] theorem ringOf_finishQsReset (s : State) (q : Nat) : ringOf (finishQsReset s q) = ringOf s := by
  simp [finishQsReset]

@[simp] theorem ringOf_endRequests (s : State) (q : Nat) : ringOf (endRequests s q) = ringOf s := by simp [endRequests]

@[simp] theorem ringOf_lapResets (s : State) : ringOf (lapResets s) = ringOf s := by
  unfold lapResets
  exact ringOf_foldl (fun s q => by simp) _ s

@[simp] theorem ringOf_placeReq (s : State) (r : Req) (v : BitVec 16) (l g : Nat) :
    ringOf (placeReq s r v l g) = ringOf s := by
  simp [placeReq]

/-- Setting QSET-SERVED aside, a placed request changes nothing of the crossing. -/
@[simp] theorem ringOf_admitLoop (v : BitVec 16) (n : Nat) (blocked : List Nat) (s : State) :
    ringOf (admitLoop v n blocked s) = ringOf s := by
  induction n generalizing blocked s with
  | zero => rfl
  | succ n ih =>
    unfold admitLoop
    split
    · rfl
    · split
      · simp [ih]
      · split <;> simp [ih]

@[simp] theorem ringOf_admitRequests (s : State) : ringOf (admitRequests s) = ringOf s := by simp [admitRequests]

@[simp] theorem ringOf_reportReq (s : State) (r : Req) : ringOf (reportReq s r) = ringOf s := by
  simp [reportReq]

@[simp] theorem ringOf_lapReq (s : State) (t0 : Nat) (toks : List LapTok) (r : Req) :
    ringOf (lapReq s t0 toks r) = ringOf s := by
  unfold lapReq
  dsimp only
  split
  · rfl
  · split
    · simp
    · split <;> simp

@[simp] theorem ringOf_lapReqs (s : State) (l : Nat) (toks : List LapTok) : ringOf (lapReqs s l toks) = ringOf s := by
  simp [lapReqs]

/-- A change of the areas' USE changes registers, and takes the shadows in free areas off the list. -/
theorem changeUse_regs (s : State) (u v : Nat) : ∃ t, RegsOnly s t ∧ changeUse s u v =
    { t with crs := { t.crs with shadows := t.crs.shadows.filter fun x => areaUse t x.land x.k != 0 } } := by
  refine ⟨_, ?_, rfl⟩
  refine foldl_keeps (P := RegsOnly s) (fun t l h => h.trans ?_) _ (.refl s)
  refine foldl_keeps (P := RegsOnly t) (fun t k h => h.trans ?_) _ (.refl t)
  split
  · exact regsOnly_wrFld ..
  · exact .refl t

theorem RegsOnly.crs_eq {s t : State} (h : RegsOnly s t) : t.crs = s.crs := by rw [h]

/-- The retirement of a version, and what it leaves of the crossing. -/
theorem retireVersion_lap (s : State) : (retireVersion s).lands = s.lands ∧
    (retireVersion s).crs.inLap = s.crs.inLap ∧ (retireVersion s).crs.laps = s.crs.laps := by
  unfold retireVersion
  split
  · obtain ⟨t, ht, e⟩ := changeUse_regs (wrFld (wrFld s rVnum 31 16 0) rVstat 4 4 0) 3 0
    have hs : RegsOnly s t := ((regsOnly_wrFld ..).trans (regsOnly_wrFld ..)).trans ht
    dsimp only
    rw [e]
    refine ⟨hs.lands_eq, ?_, ?_⟩
    · show t.crs.inLap = _
      rw [hs.crs_eq]
    · show t.crs.laps = _
      rw [hs.crs_eq]
  · exact ⟨rfl, rfl, rfl⟩

end Sys2Proof.Laws
end

section
/-! Pace credit by time, gradient waves, and the start and the end of a lap (R64, R66, R71, R87, R88, R91, R99, R596). -/

namespace Sys2Proof.Laws

open Sys2Proof Sys2Proof.Machine Sys2Proof.Claims

/-! ## Records of rows -/

theorem findRows_putRowsRec_same (xs : List Rows) (r : Rows) :
    findRows (putRowsRec xs r) r.key r.layer r.seq = some r := by
  rw [findRows, putRowsRec, dropRows, List.find?_append, List.find?_eq_none.mpr]
  · simp
  · intro y hy
    have h := (List.mem_filter.mp hy).2
    simpa [imp_iff_not_or, or_assoc] using h

theorem findRows_putRowsRec_ne (xs : List Rows) {r : Rows} {key layer seq : Nat}
    (h : ¬ (r.key = key ∧ r.layer = layer ∧ r.seq = seq)) :
    findRows (putRowsRec xs r) key layer seq = findRows xs key layer seq := by
  have hr : ([r].find? fun y => y.key == key && y.layer == layer && y.seq == seq) = none := by
    rw [List.find?_eq_none]
    intro y hy hk
    cases List.mem_singleton.mp hy
    simp only [Bool.and_eq_true, beq_iff_eq, and_assoc] at hk
    exact h hk
  rw [findRows, putRowsRec, dropRows, List.find?_append, hr, Option.or_none, List.find?_filter, findRows]
  refine List.find?_congr fun y _ => ?_
  by_cases hk : y.key = key ∧ y.layer = layer ∧ y.seq = seq
  · obtain ⟨rfl, rfl, rfl⟩ := hk
    have hr : ¬ (y.key = r.key ∧ y.layer = r.layer ∧ y.seq = r.seq) := fun ⟨e, e', e''⟩ => h ⟨e.symm, e'.symm, e''.symm⟩
    simpa [imp_iff_not_or, or_assoc] using hr
  · have hf : (y.key == key && y.layer == layer && y.seq == seq) = false := by
      simpa [imp_iff_not_or, or_assoc] using hk
    simp [hf]

/-! ## A wave is fetched -/

/-- The part of the double buffer for contributions, and that for bound bytes. -/
def bufferOf (grad : Bool) (x : Landing) : List Rows := if grad then x.contrib else x.contribScale

theorem waveRows_congr {s t : State} {l : Nat} (hb : (getLand t l).bounds = (getLand s l).bounds) (hc : t.crs.lt = s.crs.lt)
    (w : WaveItem) : waveRows t l w = waveRows s l w := by
  simp only [waveRows, contribRow, rowScale, boundByte, hb, hc]

theorem waveRows_key (s : State) (l : Nat) (w : WaveItem) : (waveRows s l w).1.key = w.home ∧
    (waveRows s l w).1.layer = w.layer.toNat ∧ (waveRows s l w).1.seq = w.seq.toNat := by
  unfold waveRows
  split <;> exact ⟨rfl, rfl, rfl⟩

/-- What fetching leaves alone at the landing and in the crossing. -/
structure Fetching (l : Nat) (s t : State) : Prop where
  work : StopWork (fun o => o < 0x1000000) s t
  bounds : (getLand t l).bounds = (getLand s l).bounds
  waves : (getLand t l).waves = (getLand s l).waves
  waveHold : (getLand t l).waveHold = (getLand s l).waveHold

theorem Fetching.waveRows_eq {l : Nat} {s t : State} (h : Fetching l s t) (w : WaveItem) :
    waveRows t l w = waveRows s l w :=
  waveRows_congr h.bounds (by rw [h.work.rest]) w

theorem Fetching.trans {l : Nat} {s t u : State} (h : Fetching l s t) (g : Fetching l t u) : Fetching l s u :=
  ⟨h.work.trans g.work, g.bounds.trans h.bounds, g.waves.trans h.waves, g.waveHold.trans h.waveHold⟩

theorem regsOnly_countRsN (s : State) (l : Nat) (e : RsEvent) (n : Nat) : RegsOnly s (countRsN s l e n) :=
  foldl_keeps (P := RegsOnly s) (fun t _ h => h.trans (regsOnly_countRs t l e)) _ (.refl s)

theorem getLand_countRsN (s : State) (l : Nat) (e : RsEvent) (n : Nat) : getLand (countRsN s l e n) l = getLand s l := by
  rw [getLand, (regsOnly_countRsN ..).lands_eq, getLand]

theorem fetching_fetchItem (s : State) (l : Nat) (w : WaveItem) : Fetching l s (fetchItem s l w) := by
  have hw : StopWork (fun o => o < 0x1000000) s (countRsN s l .g32Sat (waveRows s l w).2) :=
    StopWork.foldl (fun s _ => (regsOnly_countRs s l _).stopWork fun _ h => rd_countRs_low s l _ h) _ s
  unfold fetchItem
  dsimp only
  split
  · refine ⟨hw.trans (stopWork_setLand _ l (by rfl) (by rfl)), ?_, ?_, ?_⟩ <;> rw [getLand_setLand, getLand_countRsN]
  · refine ⟨hw.trans (stopWork_setLand _ l (by rfl) (by rfl)), ?_, ?_, ?_⟩ <;> rw [getLand_setLand, getLand_countRsN]

theorem bufferOf_fetchItem_same (s : State) (l : Nat) (w : WaveItem) :
    bufferOf (waveGrad w) (getLand (fetchItem s l w) l) =
      putRowsRec (bufferOf (waveGrad w) (getLand s l)) (waveRows s l w).1 := by
  unfold fetchItem waveGrad
  dsimp only
  rw [getLand_setLand]
  cases w.rows with
  | gradient rs => simp [bufferOf, getLand_countRsN]
  | bounds rs => simp [bufferOf, getLand_countRsN]

theorem bufferOf_fetchItem_ne (s : State) (l : Nat) {w : WaveItem} {g : Bool} (h : waveGrad w ≠ g) :
    bufferOf g (getLand (fetchItem s l w) l) = bufferOf g (getLand s l) := by
  unfold waveGrad at h
  unfold fetchItem
  dsimp only
  rw [getLand_setLand]
  revert h
  cases w.rows with
  | gradient rs => intro h; obtain rfl := (Bool.not_eq_true _ ▸ Ne.symm h : g = false); simp [bufferOf, getLand_countRsN]
  | bounds rs => intro h; obtain rfl := (Bool.not_eq_false _ ▸ Ne.symm h : g = true); simp [bufferOf, getLand_countRsN]

/-- The landing after a whole list is fetched. -/
def fetchAll (s : State) (l : Nat) (wave : List WaveItem) : State := wave.foldl (fun s w => fetchItem s l w) s

theorem fetching_fetchAll (s : State) (l : Nat) (wave : List WaveItem) : Fetching l s (fetchAll s l wave) :=
  foldl_keeps (P := Fetching l s) (fun t w h => h.trans (fetching_fetchItem t l w)) wave ⟨.refl s, rfl, rfl, rfl⟩

/-- Two contributions to the same collecting ferry. -/
def sameFerry (v w : WaveItem) : Prop := v.home = w.home ∧ v.layer = w.layer ∧ v.seq = w.seq

/-- A record stays in the double buffer while contributions to other ferries are fetched. -/
theorem findRows_fetchAll_other (s : State) (l : Nat) (g : Bool) {w : WaveItem} {post : List WaveItem}
    (h : ∀ v ∈ post, ¬ sameFerry v w) :
    findRows (bufferOf g (getLand (fetchAll s l post) l)) w.home w.layer.toNat w.seq.toNat =
      findRows (bufferOf g (getLand s l)) w.home w.layer.toNat w.seq.toNat := by
  induction post generalizing s with
  | nil => rfl
  | cons v post ih =>
    refine (ih (fetchItem s l v) fun x hx => h x (List.mem_cons_of_mem _ hx)).trans ?_
    by_cases hg : waveGrad v = g
    · obtain ⟨hk, hl, hq⟩ := waveRows_key s l v
      rw [← hg, bufferOf_fetchItem_same, findRows_putRowsRec_ne]
      rw [hk, hl, hq]
      exact fun ⟨e, e', e''⟩ => h v (List.mem_cons_self ..) ⟨e, BitVec.eq_of_toNat_eq e', BitVec.eq_of_toNat_eq e''⟩
    · rw [bufferOf_fetchItem_ne s l hg]

/-- The last contribution to a ferry is the one in the double buffer. -/
theorem findRows_fetchAll (s : State) (l : Nat) {w : WaveItem} {pre post : List WaveItem}
    (h : ∀ v ∈ post, ¬ sameFerry v w) :
    findRows (bufferOf (waveGrad w) (getLand (fetchAll s l (pre ++ w :: post)) l)) w.home w.layer.toNat w.seq.toNat =
      some (waveRows s l w).1 := by
  have e : fetchAll s l (pre ++ w :: post) = fetchAll (fetchItem (fetchAll s l pre) l w) l post := by
    simp [fetchAll, List.foldl_append]
  obtain ⟨hk, hl, hq⟩ := waveRows_key (fetchAll s l pre) l w
  rw [e, findRows_fetchAll_other _ l _ h, bufferOf_fetchItem_same, ← hk, ← hl, ← hq, findRows_putRowsRec_same,
    (fetching_fetchAll s l pre).waveRows_eq]

theorem waveRows_gradient (s : State) (l : Nat) {w : WaveItem} {rs : List (List (List (Int × Int)))}
    (h : w.rows = .gradient rs) : (waveRows s l w).1.rows.length = rs.length ∧
    ∀ i shards, rs[i]? = some shards → (waveRows s l w).1.rows[i]? =
      some (contribRow s ((boundByte s l w.home w.layer.toNat (64 * w.seq.toNat + i)).getD 0) shards).1 := by
  rw [waveRows, h]
  refine ⟨by simp, fun i shards hi => ?_⟩
  simp [List.getElem?_zipIdx, hi]

theorem waveRows_bounds (s : State) (l : Nat) {w : WaveItem} {rs : List (List (List (Word × Word)))}
    (h : w.rows = .bounds rs) {i : Nat} {shards : List (List (Word × Word))} (hi : rs[i]? = some shards) :
    ((waveRows s l w).1.rows.getD (i / 512) []).getD (i % 512) 0 = rowBound shards := by
  have hlt : i < rs.length := (List.getElem?_eq_some_iff.mp hi).1
  have hrow : i / 512 < ceilDiv rs.length 512 := by
    rw [ceilDiv]
    omega
  rw [waveRows, h]
  simp only [upto, List.length_map, List.getD_eq_getElem?_getD, List.getElem?_map, List.getElem?_range hrow, Option.map_some,
    Option.getD_some]
  rw [List.getElem?_take, if_pos (Nat.mod_lt _ (by decide)), List.getElem?_drop, List.getElem?_map,
    show 512 * (i / 512) + i % 512 = i by omega, hi]
  rfl

theorem wavesOf_layer (x : Landing) (layer : Nat) : (wavesOf x layer).layer = layer := by
  unfold wavesOf
  split
  · next w h => simpa using List.find?_some h
  · rfl

theorem getLand_setWaves (s : State) (l : Nat) (w : Waves) : getLand (setWaves s l w) l =
    { getLand s l with
      waves := ((getLand s l).waves.filter fun v => v.layer != w.layer) ++ [w]
      waveHold := arrayOn s l &&
        (((getLand s l).waves.filter fun v => v.layer != w.layer) ++ [w]).any fun v => waveDue s.crs.lt v } := by
  unfold setWaves
  dsimp only
  rw [getLand, noticeHold_lands, setLand, tget_tput_same]

theorem wavesOf_setWaves (s : State) (l : Nat) (w : Waves) : wavesOf (getLand (setWaves s l w) l) w.layer = w := by
  rw [getLand_setWaves, wavesOf]
  dsimp only
  rw [List.find?_append, List.find?_eq_none.mpr]
  · simp
  · intro v hv
    simpa using (List.mem_filter.mp hv).2

/-- The array domain of a landing is a module register, below those of the landings. -/
theorem StopWork.arrayOn_eq {s t : State} (h : StopWork (fun o => o < 0x1000000) s t) {l : Nat} (hl : l < 32) :
    arrayOn t l = arrayOn s l := by
  rw [arrayOn, arrayOn, domState, domState, rdFld, rdFld, h.words _ (by simp only [rPd]; omega)]

section
variable {l : Fin 32} {wave : List WaveItem} {s : State} (hon : arrayOn s l.val = true) (hlive : liveLand s l.val = true)
include hon hlive

theorem waveFetched_not (hg : wave.any waveGrad = true)
    (h : s.crs.inLap = false ∨ ∀ y ∈ s.crs.lt.layers, wholeWave s l.val y wave = false) :
    Runs (.gradientWaveFetched l wave) s s := by
  have hnone : (s.crs.lt.layers.find? fun y => s.crs.inLap && wholeWave s l.val y wave) = none := by
    refine List.find?_eq_none.mpr fun y hy => ?_
    cases h with
    | inl h => simp [h]
    | inr h => simp [h y hy]
  show execGradientWaveFetched l wave s = _
  unfold execGradientWaveFetched
  rw [if_neg (by simp [hon, hlive]), if_pos hg, hnone]

theorem waveFetched_whole (hg : wave.any waveGrad = true) (hlap : s.crs.inLap = true) {y : LtLayer}
    (hy : (s.crs.lt.layers.find? fun y => wholeWave s l.val y wave) = some y) :
    Runs (.gradientWaveFetched l wave) s (waveFetched (fetchAll s l.val wave) l.val y) := by
  have hsome : (s.crs.lt.layers.find? fun y => s.crs.inLap && wholeWave s l.val y wave) = some y := by
    simpa only [hlap, Bool.true_and] using hy
  show execGradientWaveFetched l wave s = _
  unfold execGradientWaveFetched
  rw [if_neg (by simp [hon, hlive]), if_pos hg, hsome]
  rfl

theorem boundsFetched (hg : wave.any waveGrad = false) :
    Runs (.gradientWaveFetched l wave) s (fetchAll s l.val wave) := by
  show execGradientWaveFetched l wave s = _
  unfold execGradientWaveFetched
  rw [if_neg (by simp [hon, hlive]), if_neg (by simp [hg])]
  rfl

end

theorem fetched_waveFetched (s : State) (l : Nat) (y : LtLayer) :
    (wavesOf (getLand (waveFetched s l y) l) y.layer.toNat).fetched = (wavesOf (getLand s l) y.layer.toNat).fetched + 1 := by
  unfold waveFetched
  dsimp only
  have h := wavesOf_setWaves s l { wavesOf (getLand s l) y.layer.toNat with
    fetched := (wavesOf (getLand s l) y.layer.toNat).fetched + 1 }
  dsimp only at h
  rw [wavesOf_layer] at h ⊢
  rw [h]

theorem contrib_waveFetched (s : State) (l : Nat) (y : LtLayer) :
    (getLand (waveFetched s l y) l).contrib = (getLand s l).contrib := by
  rw [waveFetched]
  rw [getLand_setWaves]

theorem waveHold_waveFetched {s : State} {l : Nat} (hon : arrayOn s l = true) (y : LtLayer) :
    (getLand (waveFetched s l y) l).waveHold = (getLand (waveFetched s l y) l).waves.any fun v => waveDue s.crs.lt v := by
  rw [waveFetched]
  rw [getLand_setWaves, hon, Bool.true_and]

/-! ## Pace credit by time (R99) -/

theorem paceTick {l : Fin 32} {s : State} (he : s.crs.ext = true) (hl : liveLand s l.val = true)
    (hu : uncoreOn s l.val = true) :
    Runs (.paceCreditTick l) s (setLand s l.val { getLand s l.val with credit := moreCredit s l.val }) := by
  show execPaceCreditTick l s = _
  unfold execPaceCreditTick
  rw [if_pos ⟨he, hl, hu⟩]
  rfl

/-! ## The start of a lap (R64, R71, R515, R596) -/

theorem inLap_lapForecast (s : State) : (lapForecast s).crs.inLap = s.crs.inLap := by
  have htake : parts (takeThm s) = parts s := by simp [takeThm, setPwr]
  have hpeak : parts (peakOf (takeThm s) 1).2.2 = parts s := by
    rw [← htake]
    unfold peakOf
    dsimp only
    split
    · rfl
    · simp
  have hg (t : State) : parts (setGhold t) = parts t := by
    unfold setGhold
    split
    · rfl
    · rw [parts_noticeHold, parts_setFlag _ (by decide), parts_setFlag _ (by decide)]
  have he (t : State) (peak : Int) : parts (endGhold t peak) = parts t := by
    unfold endGhold
    split
    · rw [parts_noticeHold, parts_wrFld _ (by decide)]
    · rfl
  rw [inLap_eq_parts, inLap_eq_parts]
  unfold lapForecast
  dsimp only
  split
  · rw [hg, hpeak]
  · rw [he, hpeak]

theorem crossing_of_ringOf {s t : State} (h : ringOf t = ringOf s) : t.crs = s.crs ∧ t.lands = s.lands ∧ t.fuses = s.fuses := by
  rw [ringOf_def, ringOf_def, Prod.mk.injEq, Prod.mk.injEq] at h
  exact ⟨h.2.1, h.1, h.2.2⟩

theorem rdPair_wrPair (s : State) (o : Nat) {v : Nat} (h : v < 2 ^ 64) : rdPair (wrPair s o v) o = v := by
  rw [rdPair, wrPair, rd_wr_ne _ (by omega), rd_wr, rd_wr, BitVec.toNat_ofNat, BitVec.toNat_ofNat,
    Nat.mod_eq_of_lt (a := v / 2 ^ 32) (by omega)]
  exact Nat.mod_add_div v (2 ^ 32)

theorem StopWork.inLap_eq {p : Nat → Prop} {s t : State} (h : StopWork p s t) : t.crs.inLap = s.crs.inLap := by rw [h.rest]

theorem StopWork.lapVer_eq {p : Nat → Prop} {s t : State} (h : StopWork p s t) : t.crs.lapVer = s.crs.lapVer := by
  rw [h.rest]

theorem beginLap_spec (s : State) (v : Nat) (t0 : Dword) : (beginLap s v t0).crs.inLap = true ∧
    (beginLap s v t0).crs.lapVer = .ofNat 16 v ∧ rdPair (beginLap s v t0) 0x40018 = t0.toNat := by
  unfold beginLap
  dsimp only
  generalize pauseReqs _ = r
  generalize hm : ({ wrPair r 0x40018 t0.toNat with crs := _ } : State) = m
  have hw : StopWork (fun o => o ≠ rXcause) m ((liveLands ((liveLands m).foldl (fun s l => lapLand s v t0 l) m)).foldl enterLap
      ((liveLands m).foldl (fun s l => lapLand s v t0 l) m)) :=
    (StopWork.foldl (fun s l => (stopWork_passLayers (fun h => h rfl) l _ _).after (stopWork_enterLayer (fun h => h rfl) s l)) _ _).after
      (StopWork.foldl (fun s l => stopWork_setLand s l (by rfl) (by rfl)) _ m)
  generalize List.foldl enterLap _ _ = u at hw ⊢
  have hpair : rdPair u 0x40018 = rdPair m 0x40018 := by
    rw [rdPair, rdPair, hw.words _ (by decide), hw.words _ (by decide)]
  rw [hw.inLap_eq, hw.lapVer_eq, hpair]
  subst hm
  exact ⟨rfl, rfl, rdPair_wrPair r 0x40018 t0.isLt⟩

section
variable {t0 : Dword} {n : LaunchTable} {s : State} (hready : isReady s = true) (hfatal : fatal s = false)
  (ht : s.time.toNat ≤ t0.toNat) (hlap : s.crs.inLap = false) (hcut : s.crs.cutHold = false)
  (hv : (versionDue (boundary s n) t0).1 ≠ 0) (hruns : lapsRun (boundary s n) = true)
include hready hfatal ht hlap hcut hv hruns

theorem lapStart_eq : exec (.lapStart t0 n) s = .next
    (if allLaunchers (boundary s n) (versionDue (boundary s n) t0).1 then
      if bhold (lapForecast (boundary s n)) then
        if stopped (lapForecast (boundary s n)) then admitRequests (lapForecast (boundary s n)) else lapForecast (boundary s n)
      else beginLap (if (versionDue (boundary s n) t0).2 then turnLap (lapForecast (boundary s n)) else lapForecast (boundary s n))
        (versionDue (boundary s n) t0).1 t0
    else setFlag (boundary s n) rCrsCause 6) := by
  have hdrop : dropStalled s = s := by rw [dropStalled, if_neg (by simp [hlap])]
  show execLapStart t0 n s = _
  unfold execLapStart
  dsimp only
  rw [if_neg (by simp [hready, hfatal, ht]), hdrop, if_neg (by simp [hlap, hcut]), if_neg (by simp [hv, hruns])]
  by_cases hall : allLaunchers (boundary s n) (versionDue (boundary s n) t0).1 = true
  · rw [if_neg (by simp [hall]), if_pos hall]
    by_cases hb : bhold (lapForecast (boundary s n)) = true
    · rw [if_pos hb, if_pos hb]
    · rw [if_neg hb, if_neg hb]
  · rw [if_pos (by simpa using hall), if_neg hall]

end

/-- No lap starts while one is in progress that no watchdog has stalled. -/
theorem lapStart_inLap (t0 : Dword) (n : LaunchTable) {s : State} (hlap : s.crs.inLap = true) (hst : s.crs.stalled = false) :
    Runs (.lapStart t0 n) s s := by
  have hdrop : dropStalled s = s := by rw [dropStalled, if_neg (by simp [hst])]
  show execLapStart t0 n s = _
  unfold execLapStart
  dsimp only
  rw [hdrop]
  split
  · rfl
  · rw [if_pos (Or.inl hlap)]

/-! ## The end of a lap (R66) -/

theorem lapEnd_waits {l : Fin 32} (toks : List LapTok) {s : State} (h : lapReceived s l.val = false) : Runs (.lapEnd l toks) s s := by
  show execLapEnd l toks s = _
  unfold execLapEnd
  dsimp only
  rw [if_pos (by simp [h])]

section
variable {l : Fin 32} (toks : List LapTok) {s : State} (hlap : s.crs.inLap = true) (hlive : liveLand s l.val = true)
  (hend : (getLand s l.val).ended = false) (ht : rdPair s 0x40018 ≤ s.time.toNat)
include hlap hlive hend ht

theorem lapEnd_eq (h : lapReceived s l.val = true) : Runs (.lapEnd l toks) s
    (finishLap (lapReqs (setLand s l.val { getLand s l.val with ended := true }) l.val toks)) := by
  show execLapEnd l toks s = _
  unfold execLapEnd
  dsimp only
  rw [if_neg (by simp [hlap, hlive, hend, h, ht])]

end

theorem getLand_of_lands {s t : State} (h : t.lands = s.lands) (k : Nat) : getLand t k = getLand s k := by
  rw [getLand, h, getLand]

/-- A landing at which the lap has ended, and what its requests had of it. -/
theorem lapEnded {s : State} (l : Nat) (toks : List LapTok) {m : State}
    (hm : m = lapReqs (setLand s l { getLand s l with ended := true }) l toks) :
    m.crs = s.crs ∧ (getLand m l).ended = true ∧ (∀ k, k ≠ l → getLand m k = getLand s k) ∧ liveLands m = liveLands s := by
  have hr : ringOf m = ringOf (setLand s l { getLand s l with ended := true }) := by rw [hm, ringOf_lapReqs]
  obtain ⟨hc, hl, hf⟩ := crossing_of_ringOf hr
  have hg (k : Nat) : getLand m k = getLand (setLand s l { getLand s l with ended := true }) k :=
    getLand_of_lands hl k
  refine ⟨hc, by rw [hg, getLand_setLand], fun k hk => by rw [hg, getLand_setLand_ne _ hk], liveLands_congr hf fun k => ?_⟩
  rw [hg]
  by_cases hk : k = l
  · subst hk; rw [getLand_setLand]
  · rw [getLand_setLand_ne _ hk]

theorem finishLap_all {m : State} (h : ∀ k ∈ liveLands m, (getLand m k).ended = true) :
    (finishLap m).lands = m.lands ∧ (finishLap m).crs.inLap = false ∧ (finishLap m).crs.laps = m.crs.laps + 1 := by
  unfold finishLap
  rw [if_pos (List.all_eq_true.mpr h)]
  obtain ⟨hl, hin, hlaps⟩ := retireVersion_lap { m with crs := { m.crs with inLap := false, laps := m.crs.laps + 1 } }
  obtain ⟨hc, hl', -⟩ := crossing_of_ringOf (ringOf_lapResets (retireVersion
    { m with crs := { m.crs with inLap := false, laps := m.crs.laps + 1 } }))
  rw [hc, hl']
  exact ⟨hl, hin, hlaps⟩

theorem finishLap_some {m : State} {k : Nat} (hk : k ∈ liveLands m) (h : (getLand m k).ended = false) : finishLap m = m := by
  unfold finishLap
  rw [if_neg]
  intro hall
  rw [List.all_eq_true.mp hall k hk] at h
  cases h

/-! ## Laps -/

/-- Settles O22: a fetched list is a fold whose last contribution to each ferry stays in the double buffer; a lap start keeps
what `beginLap` writes, as the landings' work after it leaves the controller alone; the requests' part of a lap end leaves the
crossing alone. -/
theorem laps : Obligations.Laps := by
  unfold Obligations.Laps
  refine ⟨fun l s he hl hu => paceTick he hl hu, fun l wave s hon hlive => ?waves, fun t0 n s hlap hcut hready hfatal ht => ?start,
    fun t0 n s => lapStart_inLap t0 n, fun l toks s hlap hlive hend ht => ?finish⟩
  case waves =>
    refine ⟨waveFetched_not hon hlive, fun y hg hlap hy => ⟨_, waveFetched_whole hon hlive hg hlap hy, ?_, ?_, ?_⟩,
      fun hg => ⟨_, boundsFetched hon hlive hg, (fetching_fetchAll s l.val wave).waveHold, ?_⟩⟩
    · have hw := (fetching_fetchAll s l.val wave).waves
      dsimp only
      rw [fetched_waveFetched, wavesOf, hw, ← wavesOf]
    · have h := fetching_fetchAll s l.val wave
      have hlt : (fetchAll s l.val wave).crs.lt = s.crs.lt := by rw [h.work.rest]
      rw [waveHold_waveFetched ((h.work.arrayOn_eq l.isLt).trans hon), hlt]
    · rintro w rs ⟨pre, post, rfl, hpost⟩ hrs
      have hgrad : waveGrad w = true := by rw [waveGrad, hrs]
      have h := findRows_fetchAll s l.val (pre := pre) hpost
      rw [hgrad] at h
      obtain ⟨hlen, hrow⟩ := waveRows_gradient s l.val hrs
      rw [contrib_waveFetched]
      exact ⟨_, h, hlen, hrow⟩
    · rintro w rs ⟨pre, post, rfl, hpost⟩ hrs
      have hgrad : waveGrad w = false := by rw [waveGrad, hrs]
      have h := findRows_fetchAll s l.val (pre := pre) hpost
      rw [hgrad] at h
      exact ⟨_, h, fun i shards hi => waveRows_bounds s l.val hrs hi⟩
  case start =>
    intro b v hv hruns
    have hrun := lapStart_eq hready hfatal ht hlap hcut hv hruns
    refine ⟨fun hall hb => ?_, fun hall hb => ?_, fun hall => ?_⟩
    · rw [if_pos hall, if_neg (by rw [hb]; decide)] at hrun
      exact ⟨_, hrun, beginLap_spec _ _ _⟩
    · rw [if_pos hall, if_pos hb] at hrun
      refine ⟨_, hrun, ?_⟩
      split
      · obtain ⟨hc, -⟩ := crossing_of_ringOf (ringOf_admitRequests (lapForecast b))
        rw [hc, inLap_lapForecast]
      · exact inLap_lapForecast b
    · rw [if_neg (by rw [hall]; decide)] at hrun
      exact ⟨_, hrun, rdFld_setFlag_same _ _ (by decide), rfl⟩
  case finish =>
    refine ⟨lapEnd_waits toks, fun h => ?_⟩
    obtain ⟨hc, hl, hother, hlives⟩ := lapEnded l.val toks (s := s) rfl
    have hrun := lapEnd_eq toks hlap hlive hend ht h
    generalize lapReqs _ l.val toks = m at hc hl hother hlives hrun
    by_cases hall : ∀ k ∈ liveLands m, (getLand m k).ended = true
    · obtain ⟨hlands, hin, hlaps⟩ := finishLap_all hall
      refine ⟨_, hrun, by rw [getLand, hlands]; exact hl, fun _ => ⟨hin, by rw [hlaps, hc]⟩, fun ⟨k, hk, hne, hnot⟩ => ?_⟩
      rw [← hother k hne, hall k (hlives ▸ hk)] at hnot
      cases hnot
    · simp only [not_forall, Bool.not_eq_true] at hall
      obtain ⟨k, hk, hnot⟩ := hall
      rw [finishLap_some hk hnot] at hrun
      refine ⟨_, hrun, hl, fun hends => ?_, fun _ => by rw [hc]; exact ⟨hlap, rfl⟩⟩
      have hne : k ≠ l.val := fun e => by
        rw [e, hl] at hnot
        cases hnot
      rw [hother k hne, hends k (hlives ▸ hk) hne] at hnot
      cases hnot

end Sys2Proof.Laws
end

section
/-! What the work of a load leaves alone: the module's registers below those of the landings, and the crossing controller but for
its list of shadows (R83, R86, R382 to R389). One frame lemma for each function of the model, in the model's order. -/

namespace Sys2Proof.Laws

open Sys2Proof Sys2Proof.Machine

/-- The registers of the module lie below those of the landings. -/
def moduleReg (o : Nat) : Bool := decide (o < 0x1000000)

/-- The module's registers, and the crossing controller without its list of shadows. It is irreducible so that `simp` rewrites by
the frame lemmas below. -/
@[irreducible] def helm (s : State) : (Nat → Word) × Crs := (wordsOf moduleReg s.regs, { s.crs with shadows := [] })

theorem helm_def (s : State) : helm s = (wordsOf moduleReg s.regs, { s.crs with shadows := [] }) := by rw [helm]

theorem rd_of_helm {s t : State} (h : helm t = helm s) {o : Nat} (ho : o < 0x1000000) : rd t o = rd s o := by
  rw [helm_def, helm_def, Prod.mk.injEq] at h
  have e := congrFun h.1 o
  rw [wordsOf, wordsOf, if_pos (by simpa [moduleReg] using ho), if_pos (by simpa [moduleReg] using ho)] at e
  exact e

theorem rdFld_of_helm {s t : State} (h : helm t = helm s) {o : Nat} (ho : o < 0x1000000) (hi lo : Nat) :
    rdFld t o hi lo = rdFld s o hi lo := by rw [rdFld, rd_of_helm h ho, rdFld]

theorem crs_of_helm {s t : State} (h : helm t = helm s) : t.crs = { s.crs with shadows := t.crs.shadows } := by
  rw [helm_def, helm_def, Prod.mk.injEq] at h
  have e : ({ ({ t.crs with shadows := [] } : Crs) with shadows := t.crs.shadows } : Crs) =
    { ({ s.crs with shadows := [] } : Crs) with shadows := t.crs.shadows } := by rw [h.2]
  exact e

/-- A record update: its left side is the state with its fields written out. -/
@[simp] theorem helm_mk {pending time edges mem poison uerr cerr regs latch heldLow threads cores lands trainCw trainCcw
    crs accs nextId sto xpt reqs qsets pcie hm pwr boot tap mgmt dbg served fetched nextReq fuses modnum free outs} :
    helm ⟨pending, time, edges, mem, poison, uerr, cerr, regs, latch, heldLow, threads, cores, lands, trainCw, trainCcw,
      crs, accs, nextId, sto, xpt, reqs, qsets, pcie, hm, pwr, boot, tap, mgmt, dbg, served, fetched, nextReq, fuses,
      modnum, free, outs⟩ = (wordsOf moduleReg regs, { crs with shadows := [] }) := helm_def _

@[simp] theorem helm_eta (s : State) : (wordsOf moduleReg s.regs, ({ s.crs with shadows := [] } : Crs)) = helm s :=
  (helm_def s).symm

theorem helm_shadows (s : State) (xs : List Shadow) : helm { s with crs := { s.crs with shadows := xs } } = helm s := by
  rw [helm_def, helm_def]

@[simp] theorem helm_ite (c : Prop) [Decidable c] (a b : State) :
    helm (if c then a else b) = if c then helm a else helm b := apply_ite helm c a b

@[simp] theorem helm_foldl {α : Type} {f : State → α → State} (hf : ∀ s a, helm (f s a) = helm s) (xs : List α)
    (s : State) : helm (xs.foldl f s) = helm s :=
  foldl_keeps (P := fun t => helm t = helm s) (fun t a h => (hf t a).trans h) xs rfl

/-- A write to a register of a landing. -/
theorem helm_wr (s : State) {o : Nat} (h : 0x1000000 ≤ o) (v : Word) : helm (wr s o v) = helm s := by
  have hp : moduleReg o = false := by simpa [moduleReg] using h
  simp [wr, wordsOf_tput hp]

theorem helm_wrFld (s : State) {o : Nat} (h : 0x1000000 ≤ o) (hi lo v : Nat) : helm (wrFld s o hi lo v) = helm s :=
  helm_wr s h _

@[simp] theorem helm_setUse (s : State) (l k u : Nat) : helm (setUse s l k u) = helm s :=
  helm_wrFld s (by simp only [rArea, lcBase]; omega) _ _ _

theorem helm_of_marksOnly {s t : State} (h : MarksOnly s t) (hw : ∀ o < 0x1000000, rd t o = rd s o) : helm t = helm s := by
  have hr : wordsOf moduleReg t.regs = wordsOf moduleReg s.regs := by
    funext o
    by_cases ho : o < 0x1000000
    · rw [wordsOf, wordsOf, if_pos (by simpa [moduleReg] using ho), if_pos (by simpa [moduleReg] using ho)]
      exact hw o ho
    · rw [wordsOf, wordsOf, if_neg (by simpa [moduleReg] using ho), if_neg (by simpa [moduleReg] using ho)]
  rw [helm_def, helm_def, hr]
  rw [h]

@[simp] theorem helm_readLine (s : State) (l o : Nat) : helm (readLine s l o) = helm s :=
  helm_of_marksOnly (marksOnly_readLine s l o) fun _ h => rd_readLine_low s l o h

@[simp] theorem helm_readLines (s : State) (l off n : Nat) : helm (readLines s l off n) = helm s := by simp [readLines]

@[simp] theorem helm_writeLine (s : State) (l off n : Nat) (psn : Bool) (o : Nat) :
    helm (writeLine s l off n psn o) = helm s := by
  unfold writeLine
  dsimp only
  split
  · exact helm_of_marksOnly ((marksOnly_freshCheck ..).trans (marksOnly_setPoison ..)) fun _ _ => rfl
  · exact helm_readLine ..

@[simp] theorem helm_putBytes (s : State) (k : Nat) (bs : List Byte) : helm (putBytes s k bs) = helm s := by simp [putBytes]

@[simp] theorem helm_writeStack (s : State) (l off : Nat) (bs : List Byte) (psn : Bool) :
    helm (writeStack s l off bs psn) = helm s := by
  simp [writeStack]

@[simp] theorem helm_copyStack (s : State) (l off k dest n : Nat) : helm (copyStack s l off k dest n) = helm s := by
  simp [copyStack]

@[simp] theorem helm_ownBytes (s : State) (a : Dword) (n : Nat) : helm (ownBytes s a n).2 = helm s := by
  unfold ownBytes
  split
  · rfl
  · dsimp only
    split
    · simp
    · split <;> rfl

@[simp] theorem helm_readSmap (s : State) : helm (readSmap s).2 = helm s := by
  have h1 := helm_ownBytes s (BitVec.ofNat 64 (rdPair s 0x40020)) 16
  unfold readSmap
  dsimp only
  split
  · next h => rwa [h] at h1
  · next b u h =>
    rw [h] at h1
    split
    · exact h1
    · have h2 := helm_ownBytes u (BitVec.ofNat 64 (rdPair s 0x40020) + 16) (16 * field b 4 4)
      split
      · next e => rw [e] at h2; exact h2.trans h1
      · next e => rw [e] at h2; exact h2.trans h1

/-- The areas taken change USE and the list of shadows. -/
theorem helm_of_takeHomeArea {s t : State} {home n : Nat} (h : takeHomeArea s home n = some t) : helm t = helm s := by
  unfold takeHomeArea at h
  split at h
  · split at h
    · cases h; exact helm_setUse ..
    · cases h
  · cases h

theorem helm_of_takeShadowArea {s t : State} {home ver n : Nat} (h : takeShadowArea s home ver n = some t) :
    helm t = helm s := by
  unfold takeShadowArea at h
  split at h
  · split at h
    · split at h
      · cases h
        exact (helm_shadows _ _).trans (helm_setUse ..)
      · cases h
    · cases h
  · cases h

theorem helm_of_takeAreas {s t : State} {m : List SExt} {ver : Nat} (h : takeAreas s m ver = some t) :
    helm t = helm s := by
  revert t
  refine List.foldlRecOn (homeSlices s) _ (motive := fun a => ∀ {t}, a = some t → helm t = helm s) ?_ ?_
  · rintro _ ⟨⟩
    rfl
  · intro a ha hs _ t h
    obtain ⟨u, rfl, hu⟩ := Option.bind_eq_some_iff.mp h
    refine Eq.trans ?_ (ha rfl)
    split at hu
    · exact helm_of_takeShadowArea hu
    · obtain ⟨v, hv, ht⟩ := Option.bind_eq_some_iff.mp hu
      refine Eq.trans ?_ (helm_of_takeHomeArea hv)
      split at ht
      · exact helm_of_takeShadowArea ht
      · cases ht
        rfl

@[simp] theorem helm_emit (s : State) (o : Out) : helm (emit s o) = helm s := by simp [emit]

@[simp] theorem helm_sendPacket (s : State) (t : Nat) (o : Nat → Out) : helm (sendPacket s t o) = helm s := by
  simp [sendPacket]

@[simp] theorem helm_sendNvme (s : State) (c : NvCmd) : helm (sendNvme s c) = helm s := by simp [sendNvme]

@[simp] theorem helm_pump (s : State) (t : Nat) : helm (pump s t) = helm s := by simp [pump]

@[simp] theorem helm_addNvme (s : State) (c : NvCmd) : helm (addNvme s c) = helm s := by simp [addNvme]

@[simp] theorem helm_issueNvme (s : State) (use : NvUse) (tgt op nsid slba blocks : Nat) (fua : Bool) (data : List Byte) :
    helm (issueNvme s use tgt op nsid slba blocks fua data) = helm s := by
  simp [issueNvme]

@[simp] theorem helm_readExtent (s : State) (e : PlanEntry) (use : Nat → NvUse) : helm (readExtent s e use) = helm s := by
  simp [readExtent]

@[simp] theorem helm_connect (s : State) (t : Nat) : helm (connect s t) = helm s := by simp [connect]

@[simp] theorem helm_connectAll (s : State) (ts : List Nat) : helm (connectAll s ts) = helm s := by simp [connectAll]

@[simp] theorem helm_dropCmds (s : State) (o : NvOp) : helm (dropCmds s o) = helm s := by simp [dropCmds]

@[simp] theorem helm_changeUse (s : State) (u v : Nat) : helm (changeUse s u v) = helm s := by simp [changeUse]

@[simp] theorem helm_freeIncoming (s : State) : helm (freeIncoming s) = helm s := by
  unfold freeIncoming
  dsimp only
  rw [helm_mk, helm_eta, helm_changeUse]

end Sys2Proof.Laws
end

section
/-! The orders of CRS.VCTL (R78, R83, R84, R86, R93): what each leaves in CRS.VCTL and CRS.VSTAT. -/

namespace Sys2Proof.Laws

open Sys2Proof Sys2Proof.Machine Sys2Proof.Claims

/-! ## CRS.VCTL and CRS.VSTAT -/

/-- An order has put its version number into CRS.VCTL.INCOMING. -/
def ordered (s : State) (v : BitVec 16) : State := wrFld s rVctl 15 0 v.toNat

theorem rdFld_ordered (s : State) (v : BitVec 16) : rdFld (ordered s v) rVctl 15 0 = v.toNat :=
  rdFld_wrFld_same s _ (by decide) v.isLt

theorem rdFld_ordered_ne (s : State) (v : BitVec 16) {o hi lo : Nat} (h : hi < 32) (ho : o ≠ rVctl ∨ 15 < lo) :
    rdFld (ordered s v) o hi lo = rdFld s o hi lo :=
  rdFld_wrFld_ne s _ h (ho.imp_right .inr)

theorem lstate_ordered (s : State) (v : BitVec 16) : lstate (ordered s v) = lstate s :=
  rdFld_ordered_ne s v (by decide) (.inl (by decide))

theorem retVer_ordered (s : State) (v : BitVec 16) : retVer (ordered s v) = retVer s :=
  rdFld_ordered_ne s v (by decide) (.inl (by decide))

theorem liveVer_ordered (s : State) (v : BitVec 16) : liveVer (ordered s v) = liveVer s :=
  rdFld_ordered_ne s v (by decide) (.inl (by decide))

theorem lstate_setLstate (s : State) (x : LState) : lstate (setLstate s x) = x.num :=
  rdFld_wrFld_same s _ (by decide) (by cases x <;> decide)

theorem rdFld_setLstate_ne (s : State) (x : LState) {o hi lo : Nat} (h : hi < 32) (ho : o ≠ rVstat ∨ 2 < lo) :
    rdFld (setLstate s x) o hi lo = rdFld s o hi lo :=
  rdFld_wrFld_ne s _ h (ho.imp_right .inr)

/-- The orders LOAD and LOCAL read 0; the rest of CRS.VCTL, and the other registers, stay. -/
theorem rdFld_endLoadOrder (s : State) : rdFld (endLoadOrder s) rVctl 16 16 = 0 ∧ rdFld (endLoadOrder s) rVctl 19 19 = 0 :=
  ⟨(rdFld_wrFld_ne _ _ (by decide) (.inr (.inl (by decide)))).trans (rdFld_wrFld_same _ _ (by decide) (by decide)),
    rdFld_wrFld_same _ _ (by decide) (by decide)⟩

theorem rdFld_endLoadOrder_ne (s : State) {o hi lo : Nat} (h : hi < 32) (ho : o ≠ rVctl ∨ hi < 16) :
    rdFld (endLoadOrder s) o hi lo = rdFld s o hi lo :=
  (rdFld_wrFld_ne _ _ h (ho.imp_right fun c => .inl (by omega))).trans (rdFld_wrFld_ne _ _ h (ho.imp_right .inl))

/-! ## Refusals (R84) -/

theorem refuseVersion_spec (s : State) (r : VRefusal) : rdFld (refuseVersion s r) rVstat 5 5 = 1 ∧
    rdFld (refuseVersion s r) rVstat 8 6 = r.num ∧ lstate (refuseVersion s r) = lstate s ∧
    rdFld (refuseVersion s r) rVctl 15 0 = rdFld s rVctl 15 0 := by
  refine ⟨rdFld_setFlag_same _ _ (by decide), ?_, ?_, ?_⟩
  · exact (rdFld_setFlag_off _ (by decide) (.inr (.inl (by decide)))).trans
      (rdFld_wrFld_same _ _ (by decide) (by cases r <;> decide))
  · exact (rdFld_setFlag_off _ (by decide) (.inr (.inr (by decide)))).trans
      (rdFld_wrFld_ne _ _ (by decide) (.inr (.inl (by decide))))
  · exact (rdFld_setFlag_off _ (by decide) (.inl (by decide))).trans (rdFld_wrFld_ne _ _ (by decide) (.inl (by decide)))

/-- An order is refused with its reason. -/
theorem refused_ordered (s : State) (v : BitVec 16) (r : VRefusal) :
    let u := refuseVersion (ordered s v) r
    rdFld u rVstat 5 5 = 1 ∧ rdFld u rVstat 8 6 = r.num ∧ rdFld u rVctl 15 0 = v.toNat ∧ lstate u = lstate s := by
  obtain ⟨hflag, hwhy, hl, hv⟩ := refuseVersion_spec (ordered s v) r
  exact ⟨hflag, hwhy, hv.trans (rdFld_ordered s v), hl.trans (lstate_ordered s v)⟩

theorem loadRefusal_busy {s : State} (v : Nat) (h : (lstate s ≠ 0 ∧ lstate s ≠ 4) ∨ retVer s ≠ 0) :
    loadRefusal s v = some .loadBusy := by
  rw [loadRefusal, if_pos]
  simpa [inLstate, LState.num] using h

theorem loadRefusal_badVersion {s : State} {v : Nat} (h : lstate s = 0 ∨ lstate s = 4) (hr : retVer s = 0)
    (hv : v = 0 ∨ v = liveVer s) : loadRefusal s v = some .badVersion := by
  rw [loadRefusal, if_neg, if_pos (or_assoc.mp (.inl hv))]
  rcases h with h | h <;> simp [inLstate, LState.num, h, hr]

theorem loadRefusal_none {s : State} {v : Nat} (h : lstate s = 0 ∨ lstate s = 4) (hr : retVer s = 0) (h0 : v ≠ 0)
    (hl : v ≠ liveVer s) : loadRefusal s v = none := by
  rw [loadRefusal, if_neg, if_neg (by simp [h0, hl, hr])]
  rcases h with h | h <;> simp [inLstate, LState.num, h, hr]

section
variable {m : Master} (v : BitVec 16) (s : State) (hm : reachesModule m = true)
include hm

theorem load_eq : exec (.load m v) s = .next (match loadRefusal (ordered s v) v.toNat with
    | some r => refuseVersion (ordered s v) r
    | none => startLoad (ordered s v) v) := by
  show execLoad m v s = _
  rw [execLoad, versionOrder, if_pos hm]
  rfl

theorem local_eq : exec (.localVersion m v) s = .next (match loadRefusal (ordered s v) v.toNat with
    | some r => refuseVersion (ordered s v) r
    | none => startLocal (ordered s v) v) := by
  show execLocalVersion m v s = _
  rw [execLocalVersion, versionOrder, if_pos hm]
  rfl

theorem load_refused {i : Instr} (hi : i = .load m v ∨ i = .localVersion m v) {r : VRefusal}
    (h : loadRefusal (ordered s v) v.toNat = some r) : Runs i s (refuseVersion (ordered s v) r) := by
  rcases hi with rfl | rfl
  · rw [Runs, load_eq v s hm, h]
  · rw [Runs, local_eq v s hm, h]

end

/-! ## A load that fails, and one that starts (R83, R86) -/

/-- The registers of the module after a load has failed: those before the areas are freed. -/
theorem failLoad_regs (s : State) (code : StoErr) (tgt status : Nat) : ∃ t, (t = s ∨ t = setFlag s rCkevt 1) ∧
    helm (failLoad s code tgt status) =
      helm (storeErr (setLstate (endLoadOrder t) .failed) rLerr code.num tgt status) := by
  unfold failLoad
  dsimp only
  rw [helm_freeIncoming, helm_dropCmds]
  split
  · exact ⟨_, .inl rfl, rfl⟩
  · exact ⟨_, .inr rfl, rfl⟩

theorem incMap_freeIncoming (s : State) : (freeIncoming s).sto.incMap = [] := by
  unfold freeIncoming
  rfl

theorem incMap_failLoad (s : State) (code : StoErr) (tgt status : Nat) : (failLoad s code tgt status).sto.incMap = [] := by
  unfold failLoad
  exact incMap_freeIncoming _

/-- STO.LERR takes the error; the orders end; LSTATE is FAILED; CRS.VCTL keeps the version number. -/
theorem failLoad_spec (s : State) (code : StoErr) (tgt status : Nat) : lstate (failLoad s code tgt status) = 4 ∧
    rdFld (failLoad s code tgt status) rVctl 16 16 = 0 ∧ rdFld (failLoad s code tgt status) rVctl 19 19 = 0 ∧
    rdFld (failLoad s code tgt status) rVctl 15 0 = rdFld s rVctl 15 0 ∧
    (failLoad s code tgt status).crs = { s.crs with shadows := (failLoad s code tgt status).crs.shadows } ∧
    rd (failLoad s code tgt status) rLerr = BitVec.ofNat 32 (2 ^ 31 + code.num + tgt % 16 * 2 ^ 8 + status % 2 ^ 15 * 2 ^ 16) := by
  obtain ⟨t, ht, he⟩ := failLoad_regs s code tgt status
  generalize failLoad s code tgt status = u at he ⊢
  have herr {o : Nat} (h : o ≠ rLerr) (ho : o < 0x1000000) (hi lo : Nat) :
      rdFld u o hi lo = rdFld (setLstate (endLoadOrder t) .failed) o hi lo := by
    rw [rdFld_of_helm he ho, rdFld, storeErr, rd_wr_ne _ h, rdFld]
  have hctl {hi lo : Nat} (h : hi < 32) : rdFld u rVctl hi lo = rdFld (endLoadOrder t) rVctl hi lo :=
    (herr (by decide) (by decide) hi lo).trans (rdFld_setLstate_ne _ _ h (.inl (by decide)))
  have hcrs : t.crs = s.crs := by rcases ht with rfl | rfl <;> rfl
  refine ⟨?_, ?_, ?_, ?_, ?_, ?_⟩
  · exact (herr (by decide) (by decide) 2 0).trans (lstate_setLstate _ _)
  · exact (hctl (by decide)).trans (rdFld_endLoadOrder t).1
  · exact (hctl (by decide)).trans (rdFld_endLoadOrder t).2
  · rw [hctl (by decide), rdFld_endLoadOrder_ne t (by decide) (.inr (by decide))]
    rcases ht with rfl | rfl
    · rfl
    · exact rdFld_setFlag_off _ (by decide) (.inl (by decide))
  · rw [crs_of_helm he, ← hcrs]
    rfl
  · rw [rd_of_helm he (by decide), storeErr, rd_wr]

/-- What an order that is accepted leaves: its number, and either the state that it goes on to or FAILED, with its order bit. -/
structure Accepted (u : State) (v : BitVec 16) (viaLocal : Bool) (bit on : Nat) : Prop where
  incoming : u.crs.incoming = v
  via : u.crs.viaLocal = viaLocal
  number : rdFld u rVctl 15 0 = v.toNat
  outcome : lstate u = on ∧ rdFld u rVctl bit bit = 1 ∨ lstate u = 4 ∧ rdFld u rVctl bit bit = 0 ∧ u.sto.incMap = []

/-- An accepted order that runs on is at LOADING, its order bit set. -/
def started (s : State) (v : BitVec 16) (viaLocal : Bool) (bit : Nat) : State :=
  let s := setFlag (setLstate s .loading) rVctl bit
  { s with crs := { s.crs with incoming := v, viaLocal := viaLocal } }

/-- The version number, the order bit and LSTATE of an order that runs on. -/
theorem started_regs (s : State) (v : BitVec 16) (viaLocal : Bool) {bit : Nat} (hbit : bit = 16 ∨ bit = 19) :
    rdFld (started s v viaLocal bit) rVctl 15 0 = rdFld s rVctl 15 0 ∧ rdFld (started s v viaLocal bit) rVctl bit bit = 1 ∧
      lstate (started s v viaLocal bit) = 1 := by
  have hr (o hi lo : Nat) : rdFld (started s v viaLocal bit) o hi lo = rdFld (setFlag (setLstate s .loading) rVctl bit) o hi lo := by
    rw [rdFld, rdFld, rd, rd, started]
  rw [lstate, hr, hr, hr]
  refine ⟨?_, rdFld_setFlag_same _ _ (by omega), ?_⟩
  · rw [rdFld_setFlag_off _ (by decide) (.inr (.inr (by omega))), rdFld_setLstate_ne s .loading (by decide) (.inl (by decide))]
  · rw [rdFld_setFlag_off _ (by decide) (.inl (by decide)), ← lstate, lstate_setLstate]
    rfl

theorem accepted_fails {s t : State} {v : BitVec 16} {viaLocal : Bool} {bit : Nat} (hbit : bit = 16 ∨ bit = 19) (on : Nat)
    (hn : rdFld s rVctl 15 0 = v.toNat) (ht : helm t = helm (started s v viaLocal bit)) (code : StoErr) :
    Accepted (failLoad t code 0 0) v viaLocal bit on := by
  obtain ⟨hl, h16, h19, hv, hcrs, -⟩ := failLoad_spec t code 0 0
  have hnum : rdFld t rVctl 15 0 = v.toNat := by
    rw [rdFld_of_helm ht (by decide), (started_regs s v viaLocal hbit).1, hn]
  have hc := crs_of_helm ht
  refine ⟨by rw [hcrs, hc]; rfl, by rw [hcrs, hc]; rfl, hv.trans hnum, .inr ⟨hl, ?_, incMap_failLoad ..⟩⟩
  rcases hbit with rfl | rfl
  · exact h16
  · exact h19

theorem accepted_goes {s t : State} {v : BitVec 16} {viaLocal : Bool} {bit : Nat} (hbit : bit = 16 ∨ bit = 19)
    (hn : rdFld s rVctl 15 0 = v.toNat) (ht : helm t = helm (started s v viaLocal bit)) :
    Accepted t v viaLocal bit 1 := by
  obtain ⟨hnum, hset, hstate⟩ := started_regs s v viaLocal hbit
  have hc := crs_of_helm ht
  refine ⟨by rw [hc]; rfl, by rw [hc]; rfl, ?_, .inl ⟨?_, ?_⟩⟩
  · rw [rdFld_of_helm ht (by decide), hnum, hn]
  · rw [lstate, rdFld_of_helm ht (by decide), ← lstate, hstate]
  · rw [rdFld_of_helm ht (by decide), hset]

/-- The state with a new incoming map and no leaves yet. -/
theorem helm_sto (s : State) (x : Sto) : helm { s with sto := x } = helm s := by rw [helm_def, helm_def]

theorem startLoad_accepted {s : State} {v : BitVec 16} (hn : rdFld s rVctl 15 0 = v.toNat) :
    Accepted (startLoad s v) v false 16 1 := by
  have hmap := helm_readSmap (started s v false 16)
  have hfail (t : State) (ht : helm t = helm (started s v false 16)) : Accepted (failLoad t .plan 0 0) v false 16 1 :=
    accepted_fails (.inl rfl) 1 hn ht .plan
  unfold startLoad
  simp only [← started.eq_def]
  split
  · next es m _ _ =>
    split
    · next t ht =>
      split
      · exact hfail _ hmap
      · refine accepted_goes (.inl rfl) hn ?_
        rw [helm_foldl (fun s e => helm_readExtent ..), helm_connectAll, helm_sto]
        exact (helm_of_takeAreas ht).trans hmap
    · exact hfail _ hmap
  · exact hfail _ hmap

/-- LOCAL runs on at LOADING with shadow homing, else at VERIFYING (R86). -/
theorem startLocal_accepted {s : State} {v : BitVec 16} (hn : rdFld s rVctl 15 0 = v.toNat) :
    Accepted (startLocal s v) v true 19 (if shadowOn s then 1 else 2) := by
  have hmap := helm_readSmap (started s v true 19)
  have hfail (t : State) (ht : helm t = helm (started s v true 19)) (on : Nat) : Accepted (failLoad t .plan 0 0) v true 19 on :=
    accepted_fails (.inr rfl) on hn ht .plan
  unfold startLocal
  simp only [← started.eq_def]
  split
  · next m t hr =>
    rw [hr] at hmap
    split
    · exact hfail _ hmap _
    · split
      · exact hfail _ hmap _
      · next w hw =>
        have hs : helm { w with sto := { w.sto with incMap := m, leaves := [] } } = helm (started s v true 19) := by
          rw [helm_sto, helm_of_takeAreas hw, hmap]
        have hsh : shadowOn { w with sto := { w.sto with incMap := m, leaves := [] } } = shadowOn s := by
          rw [shadowOn, crs_of_helm hs, shadowOn]
          rfl
        have hgo := accepted_goes (.inr rfl) hn hs
        rw [hsh]
        split
        · exact hgo
        · refine ⟨hgo.incoming, hgo.via, ?_, .inl ⟨lstate_setLstate _ _, ?_⟩⟩
          · exact (rdFld_setLstate_ne _ _ (by decide) (.inl (by decide))).trans hgo.number
          · exact (rdFld_setLstate_ne _ _ (by decide) (.inl (by decide))).trans
              ((rdFld_of_helm hs (by decide) 19 19).trans (started_regs s v true (.inr rfl)).2.1)
  · next t hr =>
    rw [hr] at hmap
    exact hfail _ hmap _

/-! ## TURN and ABANDON (R83, R84, R416) -/

theorem rd_sendMsg_ne (s : State) (ty dst : Nat) (args : List Int) {o : Nat} (h : o ≠ rXcause) :
    rd (sendMsg s ty dst args) o = rd s o :=
  (stopWork_sendMsg (p := fun x => x ≠ rXcause) (fun hx => hx rfl) s ty dst args).words o h

theorem rd_sendVturn_ne (s : State) (t0 : Dword) {o : Nat} (h : o ≠ rXcause) : rd (sendVturn s t0) o = rd s o := by
  unfold sendVturn
  dsimp only
  refine foldl_keeps (P := fun t => rd t o = rd s o) (fun t m e => ?_) _ ?_
  · exact (rd_sendMsg_ne t _ _ _ h).trans e
  · rfl

/-- An armed turn stays armed, and the version READY. -/
theorem turn_ready {m : Master} (v : BitVec 16) {s : State} (hm : reachesModule m = true) (h : lstate s = 3) :
    ∃ u, Runs (.turn m v) s u ∧ rdFld u rVctl 17 17 = 1 ∧ lstate u = 3 := by
  have hl : lstate (ordered s v) = 3 := (lstate_ordered s v).trans h
  have hrun : exec (.turn m v) s = .next (if turnArmed (ordered s v) then ordered s v else
      if (setFlag (ordered s v) rVctl 17).crs.ext ∧ crossingMaster (setFlag (ordered s v) rVctl 17) then
        sendVturn (setFlag (ordered s v) rVctl 17) ((setFlag (ordered s v) rVctl 17).time + BitVec.ofNat 64 tick1ms)
      else setFlag (ordered s v) rVctl 17) := by
    show execTurn m v s = _
    rw [execTurn, versionOrder, if_pos hm, ← ordered, if_neg (by rw [inLstate, hl]; decide)]
  have hset : rdFld (setFlag (ordered s v) rVctl 17) rVctl 17 17 = 1 ∧ lstate (setFlag (ordered s v) rVctl 17) = 3 :=
    ⟨rdFld_setFlag_same _ _ (by decide), (rdFld_setFlag_off _ (by decide) (.inl (by decide))).trans hl⟩
  refine ⟨_, hrun, ?_⟩
  split
  · next ha => exact ⟨of_decide_eq_true ha, hl⟩
  · split
    · rw [rdFld, lstate, rdFld, rd_sendVturn_ne _ _ (by decide), rd_sendVturn_ne _ _ (by decide)]
      exact hset
    · exact hset

theorem turn_refused {m : Master} (v : BitVec 16) {s : State} (hm : reachesModule m = true) (h : lstate s ≠ 3) :
    Runs (.turn m v) s (refuseVersion (ordered s v) .turnNotReady) := by
  show execTurn m v s = _
  rw [execTurn, versionOrder, if_pos hm, ← ordered, if_pos (by simp [inLstate, lstate_ordered, LState.num, h])]

theorem turnArmed_ordered (s : State) (v : BitVec 16) : turnArmed (ordered s v) = (rdFld s rVctl 17 17 == 1) := by
  rw [turnArmed, rdFld_ordered_ne s v (by decide) (.inr (by decide))]

theorem abandon_refused {m : Master} (v : BitVec 16) {s : State} (hm : reachesModule m = true)
    (h : rdFld s rVctl 17 17 = 1) : Runs (.abandon m v) s (refuseVersion (ordered s v) .abandonLate) := by
  show execAbandon m v s = _
  rw [execAbandon, versionOrder, if_pos hm, ← ordered, if_pos (by rw [turnArmed_ordered, h]; rfl)]

/-- ABANDON before a turn is armed: the incoming version is given up. -/
theorem abandon_accepted {m : Master} (v : BitVec 16) {s : State} (hm : reachesModule m = true)
    (h : rdFld s rVctl 17 17 = 0) : ∃ u, Runs (.abandon m v) s u ∧ lstate u = 0 ∧
      (lstate s ≠ 0 → lstate s ≠ 4 → u.sto.incMap = [] ∧ rdFld u rVctl 16 16 = 0 ∧ rdFld u rVctl 19 19 = 0) := by
  have hrun : exec (.abandon m v) s = .next (if lstate s = 0 then ordered s v else if lstate s = 4 then setLstate (ordered s v) .idle
      else freeIncoming (dropCmds (setLstate (endLoadOrder (ordered s v)) .idle) .load)) := by
    show execAbandon m v s = _
    rw [execAbandon, versionOrder, if_pos hm, ← ordered, if_neg (by rw [turnArmed_ordered, h]; decide)]
    simp only [inLstate, lstate_ordered, LState.num, beq_iff_eq]
  refine ⟨_, hrun, ?_⟩
  split
  · next h0 => exact ⟨(lstate_ordered s v).trans h0, fun hne => absurd h0 hne⟩
  · split
    · next h4 => exact ⟨lstate_setLstate _ _, fun _ hne => absurd h4 hne⟩
    · have he : helm (freeIncoming (dropCmds (setLstate (endLoadOrder (ordered s v)) .idle) .load)) =
          helm (setLstate (endLoadOrder (ordered s v)) .idle) := by rw [helm_freeIncoming, helm_dropCmds]
      obtain ⟨h16, h19⟩ := rdFld_endLoadOrder (ordered s v)
      refine ⟨(rdFld_of_helm he (by decide) 2 0).trans (lstate_setLstate _ _), fun _ _ => ⟨incMap_freeIncoming _, ?_, ?_⟩⟩
      · exact (rdFld_of_helm he (by decide) 16 16).trans ((rdFld_setLstate_ne _ _ (by decide) (.inl (by decide))).trans h16)
      · exact (rdFld_of_helm he (by decide) 19 19).trans ((rdFld_setLstate_ne _ _ (by decide) (.inl (by decide))).trans h19)

/-- Settles O23: each order first writes INCOMING, and the work of a load leaves the module's registers alone, so that CRS.VCTL and
CRS.VSTAT read what the order, or its failure, put there last. -/
theorem versionOrders : Obligations.VersionOrders := by
  intro m v s hm refused
  refine ⟨fun i hi => ⟨fun h => ?_, fun h hr hv => ?_⟩, fun h hr h0 hl => ?_, turn_ready v hm, fun h => ?_, fun h => ?_,
    abandon_accepted v hm⟩
  · have hwhy : loadRefusal (ordered s v) v.toNat = some .loadBusy :=
      loadRefusal_busy _ (by rwa [lstate_ordered, retVer_ordered])
    exact ⟨_, load_refused v s hm hi hwhy, refused_ordered s v .loadBusy⟩
  · have hwhy : loadRefusal (ordered s v) v.toNat = some .badVersion := by
      refine loadRefusal_badVersion (by rwa [lstate_ordered]) (by rwa [retVer_ordered]) ?_
      rw [liveVer_ordered]
      exact hv.imp_left (congrArg BitVec.toNat)
    exact ⟨_, load_refused v s hm hi hwhy, refused_ordered s v .badVersion⟩
  · have hwhy : loadRefusal (ordered s v) v.toNat = none := by
      refine loadRefusal_none (by rwa [lstate_ordered]) (by rwa [retVer_ordered]) (fun e => h0 (BitVec.eq_of_toNat_eq e)) ?_
      rwa [liveVer_ordered]
    have hload := load_eq v s hm
    have hlocal := local_eq v s hm
    rw [hwhy] at hload hlocal
    have hL := startLoad_accepted (rdFld_ordered s v)
    have hV := startLocal_accepted (rdFld_ordered s v)
    exact ⟨⟨_, hload, hL.incoming, hL.via, hL.number, hL.outcome⟩, ⟨_, hlocal, hV.incoming, hV.via, hV.number, hV.outcome⟩⟩
  · exact ⟨_, turn_refused v hm h, refused_ordered s v .turnNotReady⟩
  · exact ⟨_, abandon_refused v hm h, refused_ordered s v .abandonLate⟩

end Sys2Proof.Laws
end

section
/-! The events that end the parts of a load (R83 steps 2 and 3, R86, R93, R94 step 4, R387, R567). -/

namespace Sys2Proof.Laws

open Sys2Proof Sys2Proof.Machine Sys2Proof.Claims

/-! ## Writes to a stack -/

theorem writeStack_eq (s : State) (l off : Nat) (bs : List Byte) (psn : Bool) :
    ∃ t, MarksOnly s t ∧ writeStack s l off bs psn = putBytes t (stackKey l off) bs :=
  ⟨_, marksOnly_foldl (fun s o => marksOnly_writeLine s l off bs.length psn o) _ s, rfl⟩

theorem MarksOnly.crs_eq {s t : State} (h : MarksOnly s t) : t.crs = s.crs := by rw [h]

theorem MarksOnly.lands_eq {s t : State} (h : MarksOnly s t) : t.lands = s.lands := by rw [h]

theorem crs_copyStack (s : State) (l off k dest n : Nat) : (copyStack s l off k dest n).crs = s.crs := by
  unfold copyStack
  refine foldl_keeps (P := fun t : State => t.crs = s.crs) (fun t i e => ?_) _ rfl
  dsimp only
  obtain ⟨w, hw, hput⟩ := writeStack_eq (readLine t l ((off + 64 * i) / 64 * 64)) k (dest + 64 * i)
    (stackData t l (off + 64 * i) (min 64 (n - 64 * i))).1 (stackData t l (off + 64 * i) (min 64 (n - 64 * i))).2
  rw [hput]
  show w.crs = _
  rw [hw.crs_eq, (marksOnly_readLine ..).crs_eq, e]

/-! ## The last slice, and the copies of LOCAL (R83 step 2, R86 step 2) -/

theorem inLstate_of {s : State} {x : LState} (h : lstate s = x.num) : inLstate s x = true := by rw [inLstate, h, beq_self_eq_true]

theorem lastSlice_runs {s : State} (h : lstate s = 1) (hv : s.crs.viaLocal = false) (hb : opBusy s .load = false) :
    Runs .lastSliceWritten s (setLstate (endOp s .load) .verifying) := by
  show execLastSliceWritten s = _
  rw [execLastSliceWritten, if_pos ⟨inLstate_of h, by rw [hv]; rfl, by rw [hb]; rfl⟩]

/-- The shadow slices of a version are all done. -/
theorem done_shadowsDone (s : State) (v : Nat) {x : Shadow} (hx : x ∈ (shadowsDone s v).crs.shadows) (hv : x.ver = v) :
    x.done = true := by
  obtain ⟨y, -, rfl⟩ := List.mem_map.mp hx
  split
  · rfl
  · next hne => rw [if_neg hne] at hv; exact absurd hv hne

theorem localCopy_runs {s : State} (h : lstate s = 1) (hv : s.crs.viaLocal = true)
    (hr : ∀ c ∈ localCopies s, copyReach s c.land c.off c.dest c.at' c.len = true) : ∃ t, helm t = helm s ∧
      Runs .localCopyComplete s (setLstate (shadowsDone t t.crs.incoming.toNat) .verifying) := by
  refine ⟨(localCopies s).foldl (fun s c => copyStack s c.land c.off c.dest c.at' c.len) s,
    helm_foldl (fun s c => helm_copyStack ..) _ s, ?_⟩
  show execLocalCopyComplete s = _
  have hall : ((localCopies s).all fun c => copyReach s c.land c.off c.dest c.at' c.len) = true := List.all_eq_true.mpr hr
  rw [execLocalCopyComplete]
  dsimp only
  rw [if_neg (by rw [inLstate_of h, hv, hall]; decide)]

/-! ## The digest (R83 step 3, R86 step 4, R597) -/

/-- The words of a number, from the low one on, give the number back. -/
theorem foldl_words (x n : Nat) :
    (upto n).foldl (fun a i => a + x / 2 ^ (32 * i) % 2 ^ 32 * 2 ^ (32 * i)) 0 = x % 2 ^ (32 * n) := by
  induction n with
  | zero => simp [upto, Nat.mod_one]
  | succ n ih =>
    rw [upto] at ih ⊢
    rw [List.range_succ, List.foldl_append, ih, Nat.mul_succ, pow_add, Nat.mod_mul, List.foldl_cons, List.foldl_nil,
      Nat.mul_comm (2 ^ (32 * n))]

theorem rd_foldl_wr (f : Nat → Word) (base n : Nat) {i : Nat} (h : i < n) (s : State) :
    rd ((upto n).foldl (fun s i => wr s (base + 4 * i) (f i)) s) (base + 4 * i) = f i := by
  induction n with
  | zero => omega
  | succ n ih =>
    rw [upto] at ih ⊢
    rw [List.range_succ, List.foldl_append, List.foldl_cons, List.foldl_nil]
    by_cases hi : i = n
    · rw [hi, rd_wr]
    · rw [rd_wr_ne _ (by omega), ih (by omega)]

/-- A digest written to CRS.VDIG reads back. -/
theorem vdig_setVdig (s : State) (d : BitVec 384) : vdig (setVdig s d) = d := by
  have hw (a i : Nat) (hi : i ∈ upto 12) : a + (rd (setVdig s d) (0x40140 + 4 * i)).toNat * 2 ^ (32 * i) =
      a + d.toNat / 2 ^ (32 * i) % 2 ^ 32 * 2 ^ (32 * i) := by
    rw [setVdig, rd_foldl_wr _ _ _ (List.mem_range.mp hi), BitVec.toNat_ofNat]
  rw [vdig, List.foldl_ext _ _ _ hw, foldl_words, Nat.mod_eq_of_lt d.isLt, BitVec.ofNat_toNat, BitVec.setWidth_eq]

theorem vdig_congr {s t : State} (h : ∀ i < 12, rd t (0x40140 + 4 * i) = rd s (0x40140 + 4 * i)) : vdig t = vdig s := by
  rw [vdig, vdig, List.foldl_ext _ _ _ fun a i hi => by rw [h i (List.mem_range.mp hi)]]

section
variable {s : State} (h : lstate s = 2)
include h

theorem digest_matches (hv : s.crs.viaLocal = false) (hd : rootOf (s.sto.leaves.filterMap fun e => e.2) = vdig s) :
    Runs .digestComplete s (versionReady (shadowsDone (setFlag (endLoadOrder s) rCkevt 1) s.crs.incoming.toNat)
      (rootOf (s.sto.leaves.filterMap fun e => e.2))) := by
  show execDigestComplete s = _
  rw [execDigestComplete, if_neg (by rw [inLstate_of h]; decide), if_neg (by rw [hv]; decide)]
  dsimp only
  rw [if_pos hd]

theorem digest_differs (hv : s.crs.viaLocal = false) (hd : rootOf (s.sto.leaves.filterMap fun e => e.2) ≠ vdig s) :
    Runs .digestComplete s (setFlag (failLoad s .digest 0 0) rVstat 3) := by
  show execDigestComplete s = _
  rw [execDigestComplete, if_neg (by rw [inLstate_of h]; decide), if_neg (by rw [hv]; decide)]
  dsimp only
  rw [if_neg hd]

theorem digest_local (hv : s.crs.viaLocal = true) (hr : imageReach s s.sto.incMap = true) :
    Runs .digestComplete s (versionReady (setVdig (endLoadOrder (imageRead s s.sto.incMap s.crs.incoming).2)
      (imageRoot (imageRead s s.sto.incMap s.crs.incoming).1)) (imageRoot (imageRead s s.sto.incMap s.crs.incoming).1)) := by
  show execDigestComplete s = _
  rw [execDigestComplete, if_neg (by rw [inLstate_of h]; decide), if_pos hv, if_neg (by rw [hr]; decide)]

end

theorem rd_versionReady (s : State) (d : BitVec 384) {o : Nat} (h : o ≠ rVstat) : rd (versionReady s d) o = rd s o := by
  rw [versionReady, setLstate, rd_wrFld_ne _ _ _ _ h, rd, rd]

theorem lstate_versionReady (s : State) (d : BitVec 384) : lstate (versionReady s d) = 3 := lstate_setLstate _ .ready

theorem incDig_versionReady (s : State) (d : BitVec 384) : (versionReady s d).crs.incDig = d := by
  unfold versionReady
  rfl

theorem vdig_versionReady (s : State) (d : BitVec 384) : vdig (versionReady (setVdig s d) d) = d := by
  rw [vdig_congr fun i _ => rd_versionReady (setVdig s d) d (by simp only [rVstat]; omega), vdig_setVdig]

/-! ## Reloads and shadow copies (R94 step 4, R567) -/

/-- A reload of the home whose reads have all been answered. -/
def reloaded (s : State) (l : Nat) (r : Reload) : Bool := r.home == l && !opBusy s (.reload r.home r.ver)

/-- The slices that a home's finished reloads stored are done, and the reloads are off the list. -/
def afterReloads (s t : State) (l : Nat) : State :=
  { t with
    sto := { t.sto with reloads := t.sto.reloads.filter fun r => !reloaded s l r }
    crs := { t.crs with shadows := t.crs.shadows.map fun x =>
      if ((s.sto.reloads.filter (reloaded s l)).any fun r => r.land == x.land && r.k == x.k) then { x with done := true } else x } }

theorem sliceReload_runs {s : State} {l : Fin 32} {r : Reload} (hr : r ∈ s.sto.reloads) (hd : reloaded s l.val r = true) :
    Runs (.sliceReloadComplete l) s (setStandIn (afterReloads s
      ((s.sto.reloads.filter (reloaded s l.val)).foldl (fun s r => endOp s (.reload r.home r.ver)) s) l.val) l.val) := by
  show execSliceReloadComplete l s = _
  unfold execSliceReloadComplete
  dsimp only
  rw [if_neg (by rw [Bool.not_eq_true', Bool.not_eq_false]; exact List.any_eq_true.mpr ⟨r, hr, hd⟩)]
  rfl

theorem setStandIn_rest (s : State) (l : Nat) : (setStandIn s l).sto = s.sto ∧ (setStandIn s l).crs = s.crs := by
  unfold setStandIn
  split
  · split <;> exact ⟨rfl, rfl⟩
  · exact ⟨rfl, rfl⟩

theorem afterReloads_done {s t : State} {l : Nat} {r : Reload} (hr : r ∈ s.sto.reloads) (hd : reloaded s l r = true) :
    r ∉ (afterReloads s t l).sto.reloads ∧
      ∀ x ∈ (afterReloads s t l).crs.shadows, x.land = r.land → x.k = r.k → x.done = true := by
  refine ⟨fun hin => ?_, fun x hx hl hk => ?_⟩
  · have h := (List.mem_filter.mp hin).2
    rw [hd] at h
    cases h
  · obtain ⟨y, -, rfl⟩ := List.mem_map.mp hx
    split
    · rfl
    · next hne =>
      rw [if_neg hne] at hl hk
      exact absurd (List.any_eq_true.mpr ⟨r, List.mem_filter.mpr ⟨hr, hd⟩, by simp [hl, hk]⟩) hne

theorem crs_setUse (s : State) (l k u : Nat) : (setUse s l k u).crs = s.crs := by
  rw [setUse]
  exact (regsOnly_wrFld ..).crs_eq

/-- The copy of a home's slice into an area of its holder. -/
def shadowCopied (s : State) (h k x j n : Nat) : State :=
  let s := setUse (copyStack s h (areaBase s h k) x (areaBase s x j) n) x j 1
  { s with crs := { s.crs with shadows := s.crs.shadows ++ [⟨x, j, h, liveVer s, true, false⟩] } }

theorem liveVer_of_helm {s t : State} (h : helm t = helm s) : liveVer t = liveVer s := rdFld_of_helm h (by decide) 15 0

theorem shadows_shadowCopied (s : State) (h k x j n : Nat) :
    (shadowCopied s h k x j n).crs.shadows = s.crs.shadows ++ [⟨x, j, h, liveVer s, true, false⟩] := by
  have hl : liveVer (setUse (copyStack s h (areaBase s h k) x (areaBase s x j) n) x j 1) = liveVer s :=
    liveVer_of_helm ((helm_setUse ..).trans (helm_copyStack ..))
  have hc : (setUse (copyStack s h (areaBase s h k) x (areaBase s x j) n) x j 1).crs = s.crs :=
    (crs_setUse ..).trans (crs_copyStack ..)
  unfold shadowCopied
  dsimp only
  rw [hl, hc]

/-- A shadow copy is made, or not. -/
theorem copyShadow_cases (s : State) (h slice : Nat) : copyShadow s h slice = s ∨
    ∃ k x j n, copyShadow s h slice = shadowCopied s h k x j n := by
  unfold copyShadow
  split
  · next x k _ _ =>
    dsimp only
    split
    · exact .inl rfl
    · next j _ =>
      split
      · exact .inl rfl
      · exact .inr ⟨k, x, j, _, rfl⟩
  · exact .inl rfl

/-- The slices that landings hold outlast further copies. -/
theorem mem_copyShadow {s : State} (h slice : Nat) {y : Shadow} (hy : y ∈ s.crs.shadows) :
    y ∈ (copyShadow s h slice).crs.shadows := by
  rcases copyShadow_cases s h slice with e | ⟨k, x, j, n, e⟩
  · rw [e]
    exact hy
  · rw [e, shadows_shadowCopied]
    exact List.mem_append_left _ hy

/-- The first missing shadow slice is copied. -/
theorem copyShadow_eq {s : State} {h n x k j : Nat} (hx : shadowHolder s h = some x) (hk : areaWith s h 1 homeAreas = some k)
    (hl : liveLand s h = true) (hno : hasShadow s x h (liveVer s) = false)
    (hj : (shadowAreas.find? fun j => areaUse s x j == 0 && sliceLen s.sto.liveMap n ≤ areaSize s x j) = some j)
    (hr : copyReach s h (areaBase s h k) x (areaBase s x j) (sliceLen s.sto.liveMap n) = true) :
    copyShadow s h n = shadowCopied s h k x j (sliceLen s.sto.liveMap n) := by
  unfold copyShadow
  rw [hx, hk]
  dsimp only
  rw [hj]
  dsimp only
  rw [if_neg (by rw [hl, hno, hr]; decide)]
  rfl

/-! ## The optimiser's result (R93) -/

theorem gradSlice_waits {l : Fin 32} (off : Nat) (data : List Byte) {s : State} (h : gradsComplete s l.val = false) :
    Runs (.gradientSliceComplete l off data) s s := by
  show execGradientSliceComplete l off data s = _
  unfold execGradientSliceComplete
  dsimp only
  rw [if_pos (by simp [h])]

/-- The home after the optimiser: its G32 rows are gone, and the FP32 rows made of them are there. -/
def optimised (s : State) (l : Nat) : State :=
  setLand s l { getLand s l with
    gradArea := []
    gradFp32 := (getLand s l).gradArea.map fun r => { r with rows := r.rows.zipIdx.map fun p => g32ToFp32 s r p.2 p.1 } }

theorem gradSlice_runs {l : Fin 32} {off : Nat} {data : List Byte} {s : State} {k : Nat} (hl : liveLand s l.val = true)
    (hon : arrayOn s l.val = true) (hne : (getLand s l.val).gradArea ≠ []) (h : gradsComplete s l.val = true)
    (hk : areaWith s l.val 0 homeAreas = some k) (hsize : off + data.length ≤ areaSize s l.val k)
    (hr : stackReach s l.val (areaBase s l.val k + off) data.length = true) :
    Runs (.gradientSliceComplete l off data) s
      (writeStack (optimised s l.val) l.val (areaBase s l.val k + off) data false) := by
  have hk' : areaWith (optimised s l.val) l.val 0 homeAreas = some k := hk
  show execGradientSliceComplete l off data s = _
  unfold execGradientSliceComplete
  dsimp only
  rw [if_neg (by simp [hl, hon, hne, h]), ← optimised, hk']
  dsimp only
  exact if_pos ⟨hsize, hr⟩

theorem sto_setFlag (s : State) (o i : Nat) : (setFlag s o i).sto = s.sto := rfl

/-- Settles O24: the registers of the module and the controller survive the copies and reads of a load, so that each event leaves the
state that it wrote last. -/
theorem loadEvents : Obligations.LoadEvents := by
  refine ⟨fun s h hv hb => ?_, fun s h hv hr => ?_, fun s h hv => ⟨fun hd => ?_, fun hd => ?_⟩, fun s h hv hr => ?_,
    fun l r s hr hl hb => ?_, fun h n rest x k j s hon hver hs hx hk hl hno hj hr => ?_,
    fun l off data s hl hon hne => ⟨gradSlice_waits off data, fun k h hk => ?_⟩⟩
  · exact ⟨_, lastSlice_runs h hv hb, lstate_setLstate _ _, rfl⟩
  · obtain ⟨t, ht, hrun⟩ := localCopy_runs h hv hr
    have hin : t.crs.incoming = s.crs.incoming := by rw [crs_of_helm ht]
    rw [hin] at hrun
    exact ⟨_, hrun, lstate_setLstate _ _, fun x hx hv => done_shadowsDone t _ hx hv⟩
  · exact ⟨_, digest_matches h hv hd, lstate_versionReady .., incDig_versionReady ..⟩
  · obtain ⟨hl, -, -, -, -, herr⟩ := failLoad_spec s .digest 0 0
    have hlerr : rd (setFlag (failLoad s .digest 0 0) rVstat 3) rLerr = BitVec.ofNat 32 (2 ^ 31 + 4) := by
      rw [rd_setFlag_ne _ _ (by decide), herr]
      rfl
    refine ⟨_, digest_differs h hv hd, ?_, rdFld_setFlag_same _ _ (by decide),
      (congrArg Sto.incMap (sto_setFlag ..)).trans (incMap_failLoad ..), ?_, ?_⟩
    · exact (rdFld_setFlag_off _ (by decide) (.inr (.inr (by decide)))).trans hl
    · show wfld (rd _ rLerr) 31 31 = 1
      rw [hlerr]
      decide
    · show wfld (rd _ rLerr) 7 0 = 0x04
      rw [hlerr]
      decide
  · exact ⟨_, digest_local h hv hr, lstate_versionReady ..,
      (vdig_versionReady ..).trans (incDig_versionReady ..).symm, incDig_versionReady ..⟩
  · have hd : reloaded s l.val r = true := by simp [reloaded, hl, hl ▸ hb]
    obtain ⟨hsto, hcrs⟩ := setStandIn_rest (afterReloads s
      ((s.sto.reloads.filter (reloaded s l.val)).foldl (fun s r => endOp s (.reload r.home r.ver)) s) l.val) l.val
    refine ⟨_, sliceReload_runs hr hd, ?_⟩
    rw [hsto, hcrs]
    exact afterReloads_done hr hd
  · have hrun : Runs .shadowCopyComplete s (rest.foldl (fun s h => copyShadow s h.1 h.2)
        (shadowCopied s h k x j (sliceLen s.sto.liveMap n))) := by
      show execShadowCopyComplete s = _
      rw [execShadowCopyComplete, if_neg (by rw [hon]; simpa using hver), hs, List.foldl_cons, copyShadow_eq hx hk hl hno hj hr]
    refine ⟨_, hrun, List.any_eq_true.mpr ⟨⟨x, j, h, liveVer s, true, false⟩, ?_, by simp⟩⟩
    refine foldl_keeps (P := fun t : State => _ ∈ t.crs.shadows) (fun t a hy => mem_copyShadow a.1 a.2 hy) rest ?_
    rw [shadows_shadowCopied]
    exact List.mem_append_right _ (List.mem_singleton.mpr rfl)
  · intro o hsize hr
    have hrun := gradSlice_runs hl hon hne h hk hsize hr
    obtain ⟨t, ht, hput⟩ := writeStack_eq (optimised s l.val) l.val o data false
    rw [hput] at hrun
    have hg : getLand (putBytes t (stackKey l.val o) data) l.val = getLand (optimised s l.val) l.val :=
      getLand_of_lands ht.lands_eq l.val
    refine ⟨_, hrun, ?_, getBytes_putBytes .., fun x hx => ?_, ?_⟩
    · rw [hg, optimised, getLand_setLand]
    · rw [getByte_putBytes_out _ _ _ hx, getByte, ht.mem_eq]
      rfl
    · rw [hg, optimised, getLand_setLand]

end Sys2Proof.Laws
end

section
/-! What a frame that is handed on leaves of the receiving side of the links: the ports, the frames that wait for the ones before
them, and the group sequences (R403, R407, R415). One frame lemma for each function of the model, in the model's order. -/

namespace Sys2Proof.Laws

open Sys2Proof Sys2Proof.Machine

/-! ## A release leaves links and generations alone -/

/-- GEN of every group of every landing. -/
def gensOf (t : Tab Landing) (l g : Nat) : BitVec 16 := (tget {} (tget {} t l).groups g).gen

theorem gensOf_lands (s : State) (l g : Nat) : gensOf s.lands l g = (getGroup s l g).gen := rfl

/-- The links, and the generations of the closure groups. It is irreducible so that `simp` rewrites by the frame lemmas below. -/
@[irreducible] def closing (s : State) : Xpt × (Nat → Nat → BitVec 16) := (s.xpt, gensOf s.lands)

theorem closing_def (s : State) : closing s = (s.xpt, gensOf s.lands) := by rw [closing]

/-- A record update: its left side is the state with its fields written out. -/
@[simp] theorem closing_mk {pending time edges mem poison uerr cerr regs latch heldLow threads cores lands trainCw trainCcw
    crs accs nextId sto xpt reqs qsets pcie hm pwr boot tap mgmt dbg served fetched nextReq fuses modnum free outs} :
    closing ⟨pending, time, edges, mem, poison, uerr, cerr, regs, latch, heldLow, threads, cores, lands, trainCw, trainCcw,
      crs, accs, nextId, sto, xpt, reqs, qsets, pcie, hm, pwr, boot, tap, mgmt, dbg, served, fetched, nextReq, fuses,
      modnum, free, outs⟩ = (xpt, gensOf lands) := closing_def _

@[simp] theorem closing_eta (s : State) : (s.xpt, gensOf s.lands) = closing s := (closing_def s).symm

@[simp] theorem closing_ite (c : Prop) [Decidable c] (a b : State) :
    closing (if c then a else b) = if c then closing a else closing b := apply_ite closing c a b

@[simp] theorem closing_foldl {α : Type} {f : State → α → State} (hf : ∀ s a, closing (f s a) = closing s) (xs : List α)
    (s : State) : closing (xs.foldl f s) = closing s :=
  foldl_keeps (P := fun t => closing t = closing s) (fun t a h => (hf t a).trans h) xs rfl

@[simp] theorem closing_wr (s : State) (o : Nat) (v : Word) : closing (wr s o v) = closing s := by simp [wr]

@[simp] theorem closing_wrFld (s : State) (o hi lo v : Nat) : closing (wrFld s o hi lo v) = closing s := closing_wr ..

@[simp] theorem closing_setFlag (s : State) (o i : Nat) : closing (setFlag s o i) = closing s := closing_wr ..

theorem closing_of_regsOnly {s t : State} (h : RegsOnly s t) : closing t = closing s := by
  rw [h]
  simp

@[simp] theorem closing_setThr (s : State) (w : ThreadRef) (t : Thread) : closing (setThr s w t) = closing s := by
  cases w <;> simp [setThr]

@[simp] theorem closing_setCore (s : State) (l c : Nat) (x : Core) : closing (setCore s l c x) = closing s := by
  simp [setCore]

@[simp] theorem closing_raiseFault (s : State) (w : ThreadRef) : closing (raiseFault s w) = closing s :=
  closing_of_regsOnly (regsOnly_raiseFault s w)

@[simp] theorem closing_withdrawTake (s : State) (w : ThreadRef) : closing (withdrawTake s w) = closing s := by
  unfold withdrawTake
  split <;> simp

@[simp] theorem closing_faultThread (s : State) (w : ThreadRef) (c : FCode) (i : Dword) (b : Bool) (pc : BitVec 15) :
    closing (faultThread s w c i b pc) = closing s := by
  simp [faultThread]

@[simp] theorem closing_raiseCore (s : State) (l c b : Nat) : closing (raiseCore s l c b) = closing s := by simp [raiseCore]

@[simp] theorem closing_advance (s : State) (w : ThreadRef) (n : Nat) : closing (advance s w n) = closing s := by
  unfold advance
  dsimp only
  split
  · simp
  · simp [pcEnd, preciseFault]

@[simp] theorem closing_setCtr (s : State) (l c n : Nat) (x : Ctr) : closing (setCtr s l c n x) = closing s := by
  simp [setCtr]

@[simp] theorem closing_chEvent (s : State) (l c b ctr : Nat) : closing (chEvent s l c b ctr) = closing s := by
  simp [chEvent]

@[simp] theorem closing_pairTest (s : State) (l c : Nat) (moved : List Nat) (w : Word) :
    closing (pairTest s l c moved w) = closing s := by
  simp [pairTest]

@[simp] theorem closing_pairTests (s : State) (l c : Nat) (moved : List Nat) :
    closing (pairTests s l c moved) = closing s := by
  simp [pairTests]

@[simp] theorem closing_rawAdd (s : State) (l c : Nat) (a : Machine.Add) (note : Bool) :
    closing (rawAdd s l c a note) = closing s := by
  simp [rawAdd]

@[simp] theorem closing_rawAdds (s : State) (l c : Nat) (seen : List Nat) (xs : List Machine.Add) :
    closing (rawAdds s l c seen xs) = closing s := by
  induction xs generalizing s seen with
  | nil => rfl
  | cons x xs ih => rw [rawAdds, ih, closing_rawAdd]

@[simp] theorem closing_moveCtrs (s : State) (l c : Nat) (xs : List Machine.Add) :
    closing (moveCtrs s l c xs) = closing s := by
  simp [moveCtrs]

@[simp] theorem closing_setCtrPart (s : State) (l c : Nat) (x : Tab Ctr × Word × Word) :
    closing (setCtrPart s l c x) = closing s := by
  simp [setCtrPart]

@[simp] theorem closing_noteMet (s : State) (l c : Nat) : closing (noteMet s l c) = closing s := by simp [noteMet]

@[simp] theorem closing_addMany (s : State) (l c : Nat) (xs : List Machine.Add) : closing (addMany s l c xs) = closing s := by
  simp [addMany]

theorem getGroup_setGroup (s : State) (l g : Nat) (x : Machine.Group) (l' g' : Nat) :
    getGroup (setGroup s l g x) l' g' = if l' = l ∧ g' = g then x else getGroup s l' g' := by
  unfold getGroup setGroup
  dsimp only
  by_cases hl : l' = l
  · subst hl
    rw [getLand_setLand]
    by_cases hg : g' = g
    · subst hg
      rw [if_pos ⟨rfl, rfl⟩, tget_tput_same]
    · rw [if_neg (by simp [hg]), tget_tput_ne _ hg]
  · rw [getLand_setLand_ne _ hl, if_neg (by simp [hl])]

/-- A group whose GEN is as it was. -/
theorem closing_setGroup (s : State) (l g : Nat) {x : Machine.Group} (h : x.gen = (getGroup s l g).gen) :
    closing (setGroup s l g x) = closing s := by
  rw [closing_def, closing_def]
  refine Prod.ext rfl (funext fun l' => funext fun g' => ?_)
  show (getGroup (setGroup s l g x) l' g').gen = (getGroup s l' g').gen
  rw [getGroup_setGroup]
  split
  · next e => rw [e.1, e.2]; exact h
  · rfl

theorem closing_of_arrive {s u : State} {l c t g : Nat} {sctr : BitVec 6} {sinc : BitVec 8}
    (h : Machine.arrive s l c t g sctr sinc = some u) : closing u = closing s := by
  unfold Machine.arrive at h
  dsimp only at h
  split at h
  · cases h
    exact (closing_setThr ..).trans (closing_setGroup s l g rfl)
  · split at h
    · cases h
      exact (closing_setThr ..).trans (closing_setGroup s l g rfl)
    · cases h

@[simp] theorem closing_unpark (s : State) (w : ThreadRef) : closing (unpark s w) = closing s := by simp [unpark]

@[simp] theorem closing_realignPair (s : State) (l c : Nat) (w : Word) : closing (realignPair s l c w) = closing s := by
  simp [realignPair]

@[simp] theorem closing_realign (s : State) (l c : Nat) : closing (realign s l c) = closing s := by simp [realign]

@[simp] theorem closing_countHeld (s : State) (l c g t : Nat) : closing (countHeld s l c g t) = closing s := by
  unfold countHeld
  dsimp only
  split
  · split
    · next h => rw [closing_advance, closing_unpark, closing_of_arrive h]
    · rfl
  · rfl

@[simp] theorem closing_releaseCore (s : State) (l g : Nat) (gen : BitVec 16) (clas : List Cla) (periodic : Bool)
    (c : Nat) :
    closing (releaseCore s l g gen clas periodic c) = closing s := by
  simp [releaseCore]

/-- A group once its generation has released. -/
def releasedGroup (x : Machine.Group) : Machine.Group :=
  { x with
    gen := x.gen + 1, now := x.next, next := [], clas := x.clas.filter fun a => a.gen != x.gen
    got := x.gotNext, gotNext := [], bar := x.barNext, barNext := false, sent := x.sentNext, sentNext := false }

/-- A release advances its group's GEN by 1, and no other, and sends nothing. -/
theorem releaseLanding_spec (s : State) (g : Nat) (periodic : Bool) (l : Nat) :
    (releaseLanding s g periodic l).xpt = s.xpt ∧
      ∀ l' g', (getGroup (releaseLanding s g periodic l) l' g').gen =
        if l' = l ∧ g' = g then (getGroup s l g).gen + 1 else (getGroup s l' g').gen := by
  have hc : closing (releaseLanding s g periodic l) = closing (setGroup s l g (releasedGroup (getGroup s l g))) :=
    closing_foldl (fun s c => closing_releaseCore ..) _ _
  rw [closing_def, closing_def, Prod.mk.injEq] at hc
  obtain ⟨hxpt, hg⟩ := hc
  refine ⟨hxpt, fun l' g' => ?_⟩
  rw [← gensOf_lands, hg, gensOf_lands, getGroup_setGroup]
  split <;> rfl

/-! ## The receiving side of the links -/

/-- The ports, the frames that wait for the ones before them, and the group sequences. It is irreducible so that `simp` rewrites by
the frame lemmas below. -/
@[irreducible] def rxSide (s : State) : Tab Port × List RxItem × Tab Nat := (s.xpt.ports, s.xpt.rxq, s.xpt.grx)

theorem rxSide_def (s : State) : rxSide s = (s.xpt.ports, s.xpt.rxq, s.xpt.grx) := by rw [rxSide]

/-- A record update: its left side is the state with its fields written out. -/
@[simp] theorem rxSide_mk {pending time edges mem poison uerr cerr regs latch heldLow threads cores lands trainCw trainCcw
    crs accs nextId sto xpt reqs qsets pcie hm pwr boot tap mgmt dbg served fetched nextReq fuses modnum free outs} :
    rxSide ⟨pending, time, edges, mem, poison, uerr, cerr, regs, latch, heldLow, threads, cores, lands, trainCw, trainCcw,
      crs, accs, nextId, sto, xpt, reqs, qsets, pcie, hm, pwr, boot, tap, mgmt, dbg, served, fetched, nextReq, fuses,
      modnum, free, outs⟩ = (xpt.ports, xpt.rxq, xpt.grx) := rxSide_def _

@[simp] theorem rxSide_eta (s : State) : (s.xpt.ports, s.xpt.rxq, s.xpt.grx) = rxSide s := (rxSide_def s).symm

@[simp] theorem rxSide_ite (c : Prop) [Decidable c] (a b : State) :
    rxSide (if c then a else b) = if c then rxSide a else rxSide b := apply_ite rxSide c a b

@[simp] theorem rxSide_foldl {α : Type} {f : State → α → State} (hf : ∀ s a, rxSide (f s a) = rxSide s) (xs : List α)
    (s : State) : rxSide (xs.foldl f s) = rxSide s :=
  foldl_keeps (P := fun t => rxSide t = rxSide s) (fun t a h => (hf t a).trans h) xs rfl

@[simp] theorem rxSide_wr (s : State) (o : Nat) (v : Word) : rxSide (wr s o v) = rxSide s := by simp [wr]

@[simp] theorem rxSide_wrFld (s : State) (o hi lo v : Nat) : rxSide (wrFld s o hi lo v) = rxSide s := rxSide_wr ..

@[simp] theorem rxSide_setFlag (s : State) (o i : Nat) : rxSide (setFlag s o i) = rxSide s := rxSide_wr ..

theorem rxSide_of_regsOnly {s t : State} (h : RegsOnly s t) : rxSide t = rxSide s := by
  rw [h]
  simp

@[simp] theorem rxSide_countUp (s : State) (o hi lo n : Nat) (c : Option (Nat × Nat)) :
    rxSide (countUp s o hi lo n c) = rxSide s := rxSide_of_regsOnly (regsOnly_countUp ..)

@[simp] theorem rxSide_setLand (s : State) (l : Nat) (x : Landing) : rxSide (setLand s l x) = rxSide s := by simp [setLand]

@[simp] theorem rxSide_pushFrame (s : State) (role tc : Nat) (f : Frame) : rxSide (pushFrame s role tc f) = rxSide s := by
  simp [pushFrame]

theorem rxSide_of_routeFrame {s t : State} {dst tc : Nat} {f : Frame} (h : routeFrame s dst tc f = some t) :
    rxSide t = rxSide s := by
  unfold routeFrame at h
  dsimp only at h
  split at h
  · cases h
  · cases h
    exact rxSide_pushFrame ..

theorem rxSide_of_routeMsg {s t : State} {dst tc : Nat} {f : Frame} (h : routeMsg s dst tc f = some t) :
    rxSide t = rxSide s := by
  unfold routeMsg at h
  split at h
  · exact rxSide_of_routeFrame h
  · dsimp only at h
    split at h
    · cases h
    · cases h
      exact rxSide_pushFrame ..

@[simp] theorem rxSide_sendMsg (s : State) (ty dst : Nat) (args : List Int) : rxSide (sendMsg s ty dst args) = rxSide s := by
  unfold sendMsg
  split
  · next h => exact rxSide_of_routeMsg h
  · simp

@[simp] theorem rxSide_sendAll (s : State) (ty : Nat) (args : List Int) : rxSide (sendAll s ty args) = rxSide s := by
  unfold sendAll
  split
  · rfl
  · refine rxSide_foldl (fun s r => ?_) _ s
    split <;> simp

@[simp] theorem rxSide_emptyTrains (s : State) : rxSide (emptyTrains s) = rxSide s := by simp [emptyTrains]

@[simp] theorem rxSide_abandonLap (s : State) : rxSide (abandonLap s) = rxSide s := by simp [abandonLap]

@[simp] theorem rxSide_setTSlot (s : State) (d : Dir) (k : Nat) (x : TSlot) : rxSide (setTSlot s d k x) = rxSide s := by
  cases d <;> simp [setTSlot]

@[simp] theorem rxSide_enterFerry (s : State) (f : Ferry) (hold : Word) : rxSide (enterFerry s f hold) = rxSide s := by
  unfold enterFerry
  dsimp only
  split <;> simp

@[simp] theorem rxSide_takeOffset (s : State) (off : Int) : rxSide (takeOffset s off) = rxSide s := by
  simp [takeOffset, setTime]

@[simp] theorem rxSide_followLower (s : State) : rxSide (followLower s) = rxSide s := by simp [followLower, setTime]

@[simp] theorem rxSide_onTime (s : State) (port src : Nat) (t1 t2 t3 t4 : Int) :
    rxSide (onTime s port src t1 t2 t3 t4) = rxSide s := by
  simp [onTime]

@[simp] theorem rxSide_openRing (s : State) : rxSide (openRing s) = rxSide s := by simp [openRing]

@[simp] theorem rxSide_spanRole (s : State) (m ring far flag : Nat) : rxSide (spanRole s m ring far flag) = rxSide s := by
  unfold spanRole
  dsimp only
  split
  · simp
  · split
    · simp
    · split <;> simp

@[simp] theorem rxSide_holdCut (s : State) : rxSide (holdCut s) = rxSide s := by simp [holdCut]

@[simp] theorem rxSide_learnCut (s : State) (m : Nat) : rxSide (learnCut s m) = rxSide s := by
  unfold learnCut
  split
  · rfl
  · dsimp only
    split
    · simp
    · split <;> simp

@[simp] theorem rxSide_sendCut (s : State) (m : Nat) : rxSide (sendCut s m) = rxSide s := by simp [sendCut]

@[simp] theorem rxSide_declareFailed (s : State) (m : Nat) : rxSide (declareFailed s m) = rxSide s := by simp [declareFailed]

@[simp] theorem rxSide_fence (s : State) : rxSide (fence s) = rxSide s := by simp [fence]

@[simp] theorem rxSide_takeArrival (s : State) (l g src mod : Nat) (gen : BitVec 16) (lmask ctl per : Word) :
    rxSide (takeArrival s l g src mod gen lmask ctl per) = rxSide s := by
  simp [takeArrival, setGroup, cgMismatch]

@[simp] theorem rxSide_onArrive (s : State) (src l g : Nat) (gen : BitVec 16) (lmask ctl per : Word) :
    rxSide (onArrive s src l g gen lmask ctl per) = rxSide s := by
  unfold onArrive
  split <;> simp

@[simp] theorem rxSide_releaseLanding (s : State) (g : Nat) (periodic : Bool) (l : Nat) :
    rxSide (releaseLanding s g periodic l) = rxSide s := by
  rw [rxSide_def, rxSide_def, (releaseLanding_spec ..).1]

@[simp] theorem rxSide_onRelease (s : State) (src g : Nat) (gen : BitVec 16) : rxSide (onRelease s src g gen) = rxSide s := by
  simp [onRelease]

@[simp] theorem rxSide_onHold (s : State) (src : Nat) (held boarding : Bool) :
    rxSide (onHold s src held boarding) = rxSide s := by
  simp [onHold]

@[simp] theorem rxSide_onVturn (s : State) (src : Nat) (version : BitVec 16) (t0 : Dword) :
    rxSide (onVturn s src version t0) = rxSide s := by
  simp [onVturn]

@[simp] theorem rxSide_onVturnAck (s : State) (src : Nat) (t0 : Dword) : rxSide (onVturnAck s src t0) = rxSide s := by
  simp [onVturnAck]

@[simp] theorem rxSide_onMctp (s : State) (src : Nat) (bs : List Byte) : rxSide (onMctp s src bs) = rxSide s := by
  unfold onMctp
  split
  · split
    · next h => exact rxSide_of_routeFrame h
    · simp
  · rfl

@[simp] theorem rxSide_countDrop (s : State) (p : Nat) : rxSide (countDrop s p) = rxSide s := by simp [countDrop]

@[simp] theorem rxSide_onMessage (s : State) (port ty src : Nat) (args : List Int) (bs : List Byte) :
    rxSide (onMessage s port ty src args bs) = rxSide s := by
  unfold onMessage
  split <;> simp

@[simp] theorem rxSide_sendResp (s : State) (q t : Trans) (rows : List (List Byte)) :
    rxSide (sendResp s q t rows) = rxSide s := by
  unfold sendResp
  split
  · next h => exact rxSide_of_routeFrame h
  · simp

@[simp] theorem rxSide_refuseFrame (s : State) (t : Trans) : rxSide (refuseFrame s t) = rxSide s := by simp [refuseFrame]

@[simp] theorem rxSide_frameRequest (s : State) (p ft : Nat) (t : Trans) (rows : List (List Byte)) :
    rxSide (frameRequest s p ft t rows) = rxSide s := by
  unfold frameRequest
  split <;> simp [newAccess]

@[simp] theorem rxSide_takeResp (s : State) (t : Trans) (rows : List (List Byte)) :
    rxSide (takeResp s t rows) = rxSide s := by
  unfold takeResp
  split <;> simp [Machine.answer]

@[simp] theorem rxSide_passOn (s : State) (tc ft : Nat) (t : Trans) (rows : List (List Byte)) :
    rxSide (passOn s tc ft t rows) = rxSide s := by
  unfold passOn
  dsimp only
  split
  · simp
  · split
    · next h => exact rxSide_of_routeFrame h
    · simp

@[simp] theorem rxSide_onAccess (s : State) (p tc ft : Nat) (t : Trans) (rows : List (List Byte)) :
    rxSide (onAccess s p tc ft t rows) = rxSide s := by
  simp [onAccess]

@[simp] theorem rxSide_onLost (s : State) (p tc ft : Nat) (t : Trans) : rxSide (onLost s p tc ft t) = rxSide s := by
  simp [onLost]

@[simp] theorem rxSide_onMsg (s : State) (p tc ty src dst : Nat) (args : List Int) (payload : List Byte) :
    rxSide (onMsg s p tc ty src dst args payload) = rxSide s := by
  unfold onMsg
  split
  · simp
  · split
    · simp
    · split
      · next h => exact rxSide_of_routeMsg h
      · simp

@[simp] theorem rxSide_handOn (s : State) (it : RxItem) : rxSide (handOn s it) = rxSide s := by
  unfold handOn
  split
  · rfl
  · split <;> simp

end Sys2Proof.Laws
end

section
/-! The arrival of a frame whose turn it is (R403, R407, R409): what the link part changes, and what the frame then does. -/

namespace Sys2Proof.Laws

open Sys2Proof Sys2Proof.Machine Sys2Proof.Claims

/-! ## Groups and routes -/

/-- The registers that say which groups there are, what their ports show, and where frames for a module go. -/
def linkReg (o : Nat) : Prop := o = rRing ∨ 0x51000 ≤ o ∨ ∃ q < 16, o = rPort q

/-- Groups, ports and routes are the same. -/
structure SameLinks (s t : State) : Prop where
  words : ∀ o, linkReg o → rd t o = rd s o
  met : ∀ p, (getPort t p).met = (getPort s p).met
  modnum : t.modnum = s.modnum

section
variable {s t : State} (h : SameLinks s t)
include h

theorem SameLinks.port_eq {p : Nat} (hp : p < 16) (hi lo : Nat) : rdFld t (rPort p) hi lo = rdFld s (rPort p) hi lo := by
  rw [rdFld, h.words _ (.inr (.inr ⟨p, hp, rfl⟩)), rdFld]

theorem SameLinks.ring_eq (hi lo : Nat) : rdFld t rRing hi lo = rdFld s rRing hi lo := by
  rw [rdFld, h.words _ (.inl rfl), rdFld]

theorem SameLinks.rolePorts_eq (r : Nat) : rolePorts t r = rolePorts s r := by
  unfold rolePorts upto
  refine List.filter_congr fun p hp => ?_
  rw [portRole, portRole, portEth, portEth, h.port_eq (List.mem_range.mp hp), h.port_eq (List.mem_range.mp hp)]

theorem SameLinks.groupDown_eq (r : Nat) : groupDown t r = groupDown s r := by
  have hany : ((rolePorts s r).any fun p => portState t p != 0) = (rolePorts s r).any fun p => portState s p != 0 := by
    rw [Bool.eq_iff_iff, List.any_eq_true, List.any_eq_true]
    refine exists_congr fun p => and_congr_right fun hp => ?_
    rw [portState, portState, h.port_eq (lt_of_mem_rolePorts hp)]
  rw [groupDown, groupDown, h.rolePorts_eq, hany]

theorem SameLinks.entryRole_eq (e : Nat) : entryRole t e = entryRole s e := by
  unfold entryRole bulkRole
  rw [h.ring_eq, h.ring_eq, h.rolePorts_eq]

theorem SameLinks.routeEntry_eq (m : Nat) : routeEntry t m = routeEntry s m := by
  unfold routeEntry
  rw [h.modnum, rdFld, h.words _ (.inr (.inl (by omega))), rdFld]

theorem SameLinks.roleTo_eq (m : Nat) : roleTo t m = roleTo s m := by
  rw [roleTo, roleTo, h.routeEntry_eq, h.entryRole_eq]

theorem SameLinks.fenced_eq : fenced t = fenced s := by rw [fenced, fenced, h.ring_eq]

theorem SameLinks.members_eq : members t = members s := by
  unfold members isMember
  simp only [h.routeEntry_eq]

theorem SameLinks.find_up_eq {ps : List Nat} (hps : ∀ p ∈ ps, p < 16) :
    (ps.find? fun p => portUp t p) = ps.find? fun p => portUp s p :=
  List.find?_congr fun p hp => by rw [portUp, portUp, portState, portState, h.port_eq (hps p hp)]

theorem SameLinks.farEnd_eq (r : Nat) : farEnd t r = farEnd s r := by
  unfold farEnd
  rw [h.rolePorts_eq, h.find_up_eq fun p hp => lt_of_mem_rolePorts hp]
  refine Option.map_congr fun p hp => ?_
  have hlt := lt_of_mem_rolePorts (List.mem_of_find?_eq_some hp)
  rw [portPeer, portPeer, h.port_eq hlt]

theorem SameLinks.liveRoles_eq : liveRoles t = liveRoles s := by
  unfold liveRoles
  simp only [h.groupDown_eq]

theorem SameLinks.peerOf_eq (r : Nat) : peerOf t r = peerOf s r := by
  have hps : ((rolePorts t r).filter fun p => (getPort t p).met) = (rolePorts s r).filter fun p => (getPort s p).met := by
    rw [h.rolePorts_eq]
    exact List.filter_congr fun p _ => by rw [h.met]
  have hlt : ∀ p ∈ (rolePorts s r).filter fun p => (getPort s p).met, p < 16 := fun p hp =>
    lt_of_mem_rolePorts (List.mem_of_mem_filter hp)
  unfold peerOf
  rw [hps]
  dsimp only
  rw [h.find_up_eq hlt]
  generalize List.filter _ _ = ps at hlt
  cases hf : ps.find? fun p => portUp s p with
  | some p =>
    dsimp only
    rw [portPeer, portPeer, h.port_eq (hlt p (List.mem_of_find?_eq_some hf))]
  | none =>
    dsimp only
    cases hh : ps.head? with
    | some p =>
      dsimp only
      rw [portPeer, portPeer, h.port_eq (hlt p (List.mem_of_mem_head? hh))]
    | none => rfl

theorem SameLinks.isNeighbour_eq (m : Nat) : isNeighbour t m = isNeighbour s m := by
  unfold isNeighbour
  simp only [h.peerOf_eq]

theorem SameLinks.msgRole_eq (m : Nat) : msgRole t m = msgRole s m := by
  unfold msgRole bulkRole
  simp only [h.isNeighbour_eq, h.groupDown_eq, h.peerOf_eq, h.rolePorts_eq, h.routeEntry_eq, h.entryRole_eq]

end

theorem SameLinks.refl (s : State) : SameLinks s s := ⟨fun _ _ => rfl, fun _ => rfl, rfl⟩

theorem SameLinks.trans {s t u : State} (h : SameLinks s t) (g : SameLinks t u) : SameLinks s u :=
  ⟨fun o ho => (g.words o ho).trans (h.words o ho), fun p => (g.met p).trans (h.met p), g.modnum.trans h.modnum⟩

/-! ## Queues of frames -/

theorem queueOf_pushFrame_same (s : State) (r tc : Nat) (f : Frame) :
    queueOf (pushFrame s r tc f) r tc = queueOf s r tc ++ [f] := by
  rw [queueOf, pushFrame, queueOf]
  dsimp only
  rw [tget_tput_same]

theorem queueOf_pushFrame_ne (s : State) {r tc r' tc' : Nat} (f : Frame) (htc : tc < 4) (htc' : tc' < 4)
    (h : r' ≠ r ∨ tc' ≠ tc) : queueOf (pushFrame s r tc f) r' tc' = queueOf s r' tc' := by
  rw [queueOf, pushFrame, queueOf]
  dsimp only
  rw [tget_tput_ne _ (by omega)]

theorem routeFrame_eq {s : State} {dst : Nat} (tc : Nat) (f : Frame) (hg : groupDown s (roleTo s dst) = false)
    (hf : fenced s = false ∨ tc = 3) : routeFrame s dst tc f = some (pushFrame s (roleTo s dst) tc f) := by
  unfold routeFrame
  dsimp only
  rw [← roleTo, if_neg]
  rintro (h | ⟨h, hne⟩)
  · rw [hg] at h
    cases h
  · rcases hf with hf | hf
    · rw [hf] at h
      cases h
    · exact hne hf

/-- A message that can go joins the queue of its group. -/
theorem sendMsg_eq {s : State} {dst : Nat} (ty : Nat) (args : List Int) (h : msgRouted s dst) :
    sendMsg s ty dst args = pushFrame s (msgRole s dst) 2 (msgTo s ty dst args) := by
  obtain ⟨hg, hf⟩ := h
  unfold sendMsg routeMsg
  rw [if_neg (by decide)]
  dsimp only
  rw [if_neg (by rw [hg, hf]; decide)]
  rfl

/-- A message goes, or is refused. -/
theorem sendMsg_cases (s : State) (ty dst : Nat) (args : List Int) :
    sendMsg s ty dst args = pushFrame s (msgRole s dst) 2 (msgTo s ty dst args) ∨
      sendMsg s ty dst args = setFlag s rXcause 7 := by
  unfold sendMsg routeMsg
  rw [if_neg (by decide)]
  dsimp only
  by_cases h : groupDown s (msgRole s dst) = true ∨ fenced s = true
  · rw [if_pos h]
    exact .inr rfl
  · rw [if_neg h]
    exact .inl rfl

/-! ## The arrival -/

/-- The state in which a frame is handed on: nothing but registers outside w, free values, the ports and the group sequences has
changed; the next link sequence number is expected. -/
structure Arrived (w : Nat → Prop) (p : Fin 16) (s a : State) : Prop where
  rest : a = { s with regs := a.regs, free := a.free, xpt := { s.xpt with ports := a.xpt.ports, grx := a.xpt.grx } }
  words : ∀ o, w o → rd a o = rd s o
  met : ∀ q, (getPort a q).met = (getPort s q).met
  exp : (getPort a p.val).exp = ((getPort s p.val).exp + 1) % 65536
  skip : (getPort a p.val).skip = false
  owed : (getPort a p.val).owed = (getPort s p.val).owed

/-- The frame as its group's queue names it. -/
def itemOf (s : State) (p : Fin 16) (k : LinkPart) (f : Frame) : RxItem :=
  ⟨portRole s p.val, k.tc.toNat, k.gseq.toNat, p.val, f⟩

theorem getPort_setPort (s : State) (p : Nat) (x : Port) : getPort (setPort s p x) p = x := by
  rw [getPort, setPort]
  dsimp only
  rw [tget_tput_same]

theorem getPort_setPort_ne (s : State) {p q : Nat} (x : Port) (h : q ≠ p) : getPort (setPort s p x) q = getPort s q := by
  rw [getPort, setPort]
  dsimp only
  rw [tget_tput_ne _ h, getPort]

theorem oweCredits_rest (s : State) (it : RxItem) :
    oweCredits s it = { s with xpt := { s.xpt with ports := (oweCredits s it).xpt.ports } } := by
  unfold oweCredits
  split <;> rfl

theorem oweCredits_port (s : State) (it : RxItem) (q : Nat) :
    getPort (oweCredits s it) q = { getPort s q with owed := (getPort (oweCredits s it) q).owed } := by
  unfold oweCredits
  split
  · rfl
  · by_cases hq : q = it.port
    · subst hq
      rw [getPort_setPort]
    · rw [getPort_setPort_ne _ _ hq]

theorem oweCredits_owed (s : State) {it : RxItem} (h : ∀ f, it.frame ≠ .loss f) :
    tget 0 (getPort (oweCredits s it) it.port).owed it.tc =
      tget 0 (getPort s it.port).owed it.tc + frameCredits it.frame := by
  unfold oweCredits
  split
  · next f hf => exact absurd hf (h f)
  · rw [getPort_setPort]
    dsimp only
    rw [tget_tput_same]

/-- What stands before the frame: its group expects it, and nothing of its group and class waits. -/
theorem inSequence_turn {s : State} {it : RxItem} (hg : it.gseq = tget 0 s.xpt.grx (rxKey it))
    (hq : ∀ x ∈ s.xpt.rxq, rxKey x ≠ rxKey it) : inSequence s it = deliverOne s it := by
  have hrx : (deliverOne s it).xpt.rxq = s.xpt.rxq := by
    unfold deliverOne
    dsimp only
    rw [oweCredits_rest]
    have h := rxSide_handOn { s with xpt := { s.xpt with grx := tput 0 (rxKey it) ((it.gseq + 1) % seqMod) s.xpt.grx } } it
    rw [rxSide_def, rxSide_mk, Prod.mk.injEq, Prod.mk.injEq] at h
    exact h.2.1
  have hdrain (n : Nat) : drainRx n (deliverOne s it) (rxKey it) = deliverOne s it := by
    cases n with
    | zero => rfl
    | succ n =>
      have hnone : ((deliverOne s it).xpt.rxq.find? fun x => rxKey x == rxKey it &&
          x.gseq == tget 0 (deliverOne s it).xpt.grx (rxKey it)) = none := by
        rw [hrx, List.find?_eq_none]
        intro x hx
        simp [hq x hx]
      rw [drainRx, hnone]
  unfold inSequence
  dsimp only
  rw [if_pos hg, hdrain]

/-- The frame handed on, with its credits owed. -/
theorem deliverOne_eq (s : State) (it : RxItem) : deliverOne s it = oweCredits (handOn
    { s with xpt := { s.xpt with grx := tput 0 (rxKey it) ((it.gseq + 1) % seqMod) s.xpt.grx } } it) it := rfl

theorem regsBut_countFec (s : State) (p : Nat) (f : Frame) {o : Nat} (h : o ≠ rPort p + 0xc) :
    rd (countFec s p f) o = rd s o := by
  unfold countFec
  dsimp only
  rw [rd_countUp_ne _ h (by rintro co b ⟨⟩)]
  rfl

theorem countFec_rest (s : State) (p : Nat) (f : Frame) :
    countFec s p f = { s with regs := (countFec s p f).regs, free := s.free + 1 } := by
  unfold countFec
  dsimp only
  rw [regsOnly_countUp]

/-- The port once it has taken a frame of the sequence. -/
def afterLink (x : Port) (k : LinkPart) : Port :=
  { takeLink x k with exp := (k.lseq.toNat + 1) % seqMod, got := true, skip := false }

/-- The state in which a frame of a group is handed on. -/
def handing (t : State) (p : Fin 16) (k : LinkPart) (it : RxItem) : State :=
  { setPort t p.val (afterLink (getPort t p.val) k) with
    xpt := { (setPort t p.val (afterLink (getPort t p.val) k)).xpt with
      grx := tput 0 (rxKey it) ((it.gseq + 1) % seqMod) t.xpt.grx } }

/-! ## Frames reported lost (R408) -/

theorem countLost_words (t : State) (p : Nat) {o : Nat} (h8 : o ≠ rPort p + 8) (hc : o ≠ rXcause) :
    rd (countLost t p) o = rd t o := by
  rw [countLost, rd_setFlag_ne _ _ hc, rd_countUp_ne _ h8 (by rintro co b ⟨⟩)]

theorem counted_countLost (t : State) (p : Fin 16) : counted t (countLost t p.val) (rPort p.val + 8) 7 0 := by
  rw [counted, countLost, rdFld_setFlag_off _ (by decide) (.inl (by simp only [rPort, rXcause]; omega)),
    rdFld_countUp_same _ (by decide) (by rintro co b ⟨⟩)]

theorem countLost_rest (t : State) (p : Nat) : RegsOnly t (countLost t p) := (regsOnly_countUp ..).trans (regsOnly_setFlag ..)

theorem countLost_setPort (t : State) (p q : Nat) (x : Port) : countLost (setPort t p x) q = setPort (countLost t q) p x := rfl

/-! ## Frames whose turn it is -/

section
variable {s : State} {p : Fin 16} {k : LinkPart} (h : comes s p k)
include h

/-- From a state that differs in registers and free values alone. -/
theorem arrived_handing {w : Nat → Prop} {t : State} (ht : t = { s with regs := t.regs, free := t.free })
    (hw : ∀ o, w o → rd t o = rd s o) (it : RxItem) : Arrived w p s (handing t p k it) := by
  obtain ⟨-, -, hseq, -, -, -⟩ := h
  have hport (q : Nat) : getPort t q = getPort s q := by rw [ht, getPort, getPort]
  have hh (q : Nat) : getPort (handing t p k it) q = if q = p.val then afterLink (getPort s p.val) k else getPort s q := by
    by_cases hq : q = p.val
    · rw [if_pos hq, hq, ← hport]
      exact getPort_setPort ..
    · rw [if_neg hq, ← hport]
      exact getPort_setPort_ne _ _ hq
  refine ⟨?_, fun o ho => hw o ho, fun q => ?_, ?_, ?_, ?_⟩
  · rw [handing, ht]
    rfl
  · rw [hh]
    split
    · next e => rw [e]; rfl
    · rfl
  · rw [hh, if_pos rfl, ← hseq]
    rfl
  · rw [hh, if_pos rfl]
    rfl
  · rw [hh, if_pos rfl]
    rfl

/-- The group has its turn at this frame. -/
theorem inSequence_comes {t : State} (ht : t = { s with regs := t.regs, free := t.free }) (f : Frame) :
    inSequence (setPort t p.val (afterLink (getPort t p.val) k)) (itemOf s p k f) =
      oweCredits (handOn (handing t p k (itemOf s p k f)) (itemOf s p k f)) (itemOf s p k f) := by
  obtain ⟨-, -, -, hg, -, hq⟩ := h
  have hx : (setPort t p.val (afterLink (getPort t p.val) k)).xpt.grx = s.xpt.grx := by rw [ht]; rfl
  have hrx : (setPort t p.val (afterLink (getPort t p.val) k)).xpt.rxq = s.xpt.rxq := by rw [ht]; rfl
  rw [inSequence_turn, deliverOne_eq]
  · rfl
  · rw [hx]
    exact hg
  · rw [hrx]
    exact hq

/-- A frame of the link's sequence whose turn it is. -/
theorem receive_comes (f : Frame) : ∃ a, Arrived (fun o => o ≠ rPort p.val + 0xc) p s a ∧
    receive s p.val k f = oweCredits (handOn a (itemOf s p k f)) (itemOf s p k f) := by
  have hrest : ({ countFec s p.val f with free := (countFec s p.val f).free + 1 } : State) =
      { s with regs := (countFec s p.val f).regs, free := s.free + 1 + 1 } := by rw [countFec_rest]
  have hport : getPort (countFec s p.val f) p.val = getPort s p.val := by rw [countFec_rest]; rfl
  have hrole : portRole (countFec s p.val f) p.val = portRole s p.val := by
    rw [portRole, rdFld, regsBut_countFec _ _ _ (by omega), portRole, rdFld]
  refine ⟨_, arrived_handing h (t := { countFec s p.val f with free := (countFec s p.val f).free + 1 }) hrest
    (fun o ho => regsBut_countFec s p.val f ho) (itemOf s p k f), ?_⟩
  rw [← inSequence_comes h (t := { countFec s p.val f with free := (countFec s p.val f).free + 1 }) hrest f]
  obtain ⟨hup, hok, hseq, -, -, -⟩ := h
  unfold receive
  dsimp only
  rw [if_neg (by rw [hup]; decide), if_neg (by rw [hok]; decide), hport, if_pos (.inl hseq)]
  have hrole' (x : Port) : portRole (setPort { countFec s p.val f with free := (countFec s p.val f).free + 1 } p.val x) p.val =
      portRole s p.val := hrole
  rw [show (getPort { countFec s p.val f with free := (countFec s p.val f).free + 1 } p.val) = getPort s p.val from hport]
  unfold itemOf
  rw [← hrole' (afterLink (getPort s p.val) k)]
  rfl

/-- A frame reported lost whose turn it is. -/
theorem loss_comes (ft : BitVec 4) (t : Trans) :
    ∃ a, Arrived (fun o => o ≠ rPort p.val + 0xc ∧ o ≠ rPort p.val + 8 ∧ o ≠ rXcause) p s a ∧
      counted s a (rPort p.val + 8) 7 0 ∧
      exec (.loss p k ft t) s = .next (handOn a (itemOf s p k (.loss (.acc ft.toNat t [])))) := by
  generalize hf : Frame.loss (.acc ft.toNat t []) = f
  have hcrest := countFec_rest s p.val f
  have hcwords {o : Nat} (ho : o ≠ rPort p.val + 0xc) : rd (countFec s p.val f) o = rd s o := regsBut_countFec s p.val f ho
  have hrole : portRole (countFec s p.val f) p.val = portRole s p.val := by
    rw [portRole, rdFld, hcwords (by omega), portRole, rdFld]
  have hup' : slipUp (countFec s p.val f) p.val = slipUp s p.val := by
    simp only [slipUp, portUp, portState, portEth, rdFld, hcwords (o := rPort p.val) (by omega)]
  have hport : getPort (countFec s p.val f) p.val = getPort s p.val := by rw [hcrest]; rfl
  have hrun : exec (.loss p k ft t) s = .next (inSequence (setPort (countLost (countFec s p.val f) p.val) p.val
      (afterLink (getPort (countFec s p.val f) p.val) k)) (itemOf s p k f)) := by
    obtain ⟨hup, hok, hseq, -, -, -⟩ := h
    show execLoss p k ft t s = _
    unfold execLoss
    dsimp only
    rw [hf, if_pos hup, if_neg (by rw [hup', hup]; decide), if_neg (by rw [hok]; decide),
      if_neg (by rw [hport]; exact fun hn => hn.1 hseq), ← countLost_setPort, itemOf, ← hrole]
    rfl
  generalize countFec s p.val f = c at hcrest hcwords hrun hrole hport
  have hlrest : countLost c p.val = { s with regs := (countLost c p.val).regs, free := (countLost c p.val).free } := by
    rw [countLost_rest c p.val, hcrest]
  have hlport : getPort (countLost c p.val) p.val = getPort c p.val := by rw [countLost_rest c p.val]; rfl
  refine ⟨_, arrived_handing h hlrest (fun o ho => ?_) (itemOf s p k f), ?_, ?_⟩
  · rw [countLost_words _ _ ho.2.1 ho.2.2, hcwords ho.1]
  · have hc := counted_countLost c p
    rw [counted, rdFld, rdFld, hcwords (by omega)] at hc
    exact hc
  · rw [hrun, ← hlport, inSequence_comes h hlrest f]
    subst hf
    rfl

end

end Sys2Proof.Laws
end

section
/-! What RESP, FERRY, IDLE, LOSS and reserved frames do when their turn comes (R98, R317, R318, R405 to R409). -/

namespace Sys2Proof.Laws

open Sys2Proof Sys2Proof.Machine Sys2Proof.Claims

/-! ## The state in which a frame is handed on -/

/-- A frame that is handed on leaves the ports alone. -/
theorem getPort_handOn (a : State) (it : RxItem) (q : Nat) : getPort (handOn a it) q = getPort a q := by
  have hr := rxSide_handOn a it
  rw [rxSide_def, rxSide_def, Prod.mk.injEq] at hr
  rw [getPort, getPort, hr.1]

section
variable {w : Nat → Prop} {p : Fin 16} {s a : State} (h : Arrived w p s a)
include h

theorem Arrived.accs_eq : a.accs = s.accs := by rw [h.rest]
theorem Arrived.nextId_eq : a.nextId = s.nextId := by rw [h.rest]
theorem Arrived.mem_eq : a.mem = s.mem := by rw [h.rest]
theorem Arrived.crs_eq : a.crs = s.crs := by rw [h.rest]
theorem Arrived.lands_eq : a.lands = s.lands := by rw [h.rest]
theorem Arrived.fuses_eq : a.fuses = s.fuses := by rw [h.rest]
theorem Arrived.modnum_eq : a.modnum = s.modnum := by rw [h.rest]
theorem Arrived.txq_eq : a.xpt.txq = s.xpt.txq := by rw [h.rest]
theorem Arrived.train_eq : a.trainCw = s.trainCw ∧ a.trainCcw = s.trainCcw := by
  constructor <;> rw [h.rest]

theorem Arrived.queueOf_eq (r tc : Nat) : queueOf a r tc = queueOf s r tc := by rw [queueOf, h.txq_eq, queueOf]

theorem Arrived.sameLinks
    (hw : ∀ o, o ≠ rPort p.val + 0xc → o ≠ rPort p.val + 8 → o ≠ rPort p.val + 4 → o ≠ rXcause → w o) : SameLinks s a := by
  refine ⟨fun o ho => h.words o (hw o ?_ ?_ ?_ ?_), h.met, h.modnum_eq⟩ <;> rcases ho with rfl | ho | ⟨q, hq, rfl⟩ <;>
    simp only [rPort, rRing, rXcause] <;> omega

theorem Arrived.exp_owed (it : RxItem) (it' : RxItem) :
    (getPort (oweCredits (handOn a it) it') p.val).exp = ((getPort s p.val).exp + 1) % 65536 := by
  rw [oweCredits_port, getPort_handOn, h.exp]

/-- The link has taken the frame. -/
theorem Arrived.taken {k : LinkPart} {f : Frame} {n : Nat} (hl : ∀ g, f ≠ .loss g) (hn : frameBytes f = 64 + n) :
    taken s (oweCredits (handOn a (itemOf s p k f)) (itemOf s p k f)) p k n := by
  refine ⟨h.exp_owed .., by rw [oweCredits_port, getPort_handOn, h.skip], ?_⟩
  have ho := oweCredits_owed (handOn a (itemOf s p k f)) (it := itemOf s p k f) hl
  rw [getPort_handOn] at ho
  refine ho.trans ?_
  rw [← h.owed]
  show _ + frameCredits f = _
  rw [frameCredits, hn]
  rfl

end

theorem accs_oweCredits (s : State) (it : RxItem) : (oweCredits s it).accs = s.accs := by rw [oweCredits_rest]
theorem txq_oweCredits (s : State) (it : RxItem) : (oweCredits s it).xpt.txq = s.xpt.txq := by rw [oweCredits_rest]

theorem queueOf_oweCredits (s : State) (it : RxItem) (r tc : Nat) : queueOf (oweCredits s it) r tc = queueOf s r tc := by
  rw [queueOf, txq_oweCredits, queueOf]

theorem rd_oweCredits (s : State) (it : RxItem) (o : Nat) : rd (oweCredits s it) o = rd s o := by
  rw [rd, oweCredits_rest, rd]

/-! ## Accesses -/

theorem endsAs_congr {s t : State} (h : t.accs = s.accs) {id : Nat} {r : AResult} (he : endsAs s id r) : endsAs t id r := by
  obtain ⟨b, hb, hr⟩ := he
  exact ⟨b, by rw [findAccess, h, ← findAccess, hb], hr⟩

theorem findAccess_of_awaiting {s : State} {tag : BitVec 16} {x : Access} (h : awaiting s tag = some x) :
    ∃ b, findAccess s x.id = some b := by
  refine Option.isSome_iff_exists.mp (List.find?_isSome.mpr ⟨x, List.mem_of_find?_eq_some h, ?_⟩)
  rw [beq_self_eq_true]

section
variable {s : State} {t : Trans} {x : Access} (h : awaiting s t.tag = some x)
include h

/-- A RESP for an access of scalar data. -/
theorem takeResp_scalar (hk : isScalar x.kind = true) (rows : List (List Byte)) : endsAs (takeResp s t rows) x.id
    ⟨if codeStatus t.status = .ok ∧ (t.poison != 0) = true then .poison else codeStatus t.status,
      leBytes (accLen x) t.data.toNat, t.poison != 0⟩ := by
  obtain ⟨b, hb⟩ := findAccess_of_awaiting h
  unfold takeResp
  rw [h]
  dsimp only
  rw [if_pos hk]
  exact endsAs_answer hb _

/-- A RESP for an access of a row. -/
theorem takeResp_row (hk : isScalar x.kind = false) (rows : List (List Byte)) : endsAs (takeResp s t rows) x.id
    ⟨codeStatus t.status, fitTo 0 512 (rows.getD 0 []), t.poison != 0⟩ := by
  obtain ⟨b, hb⟩ := findAccess_of_awaiting h
  unfold takeResp
  rw [h]
  dsimp only
  rw [if_neg (by rw [hk]; decide)]
  exact endsAs_answer hb _

end

theorem rd_takeResp (s : State) (t : Trans) (rows : List (List Byte)) (o : Nat) : rd (takeResp s t rows) o = rd s o := by
  unfold takeResp
  split
  · rfl
  · dsimp only
    split <;> rfl

/-! ## Frames that are handed on in a module that is not fenced -/

section
variable {a : State} (hf : fenced a = false) (role tc gseq port : Nat)
include hf

theorem handOn_resp (t : Trans) (rows : List (List Byte)) (hm : gaMod t.addr = a.modnum.toNat) :
    handOn a ⟨role, tc, gseq, port, .acc 4 t rows⟩ = takeResp a t rows := by
  unfold handOn
  rw [if_neg (by rw [hf]; rintro ⟨⟨⟩, -⟩)]
  dsimp only
  rw [if_neg (by rintro ⟨⟨⟩, -⟩), if_pos rfl, onAccess, if_neg (by simp [hm]), if_pos rfl]

/-- A lost RESP of this module. -/
theorem handOn_lostResp (t : Trans) (hm : gaMod t.addr = a.modnum.toNat) :
    handOn a ⟨role, tc, gseq, port, .loss (.acc 4 t [])⟩ = takeResp a { t with status := 5 } [] := by
  unfold handOn
  rw [if_neg (by rw [hf]; rintro ⟨⟨⟩, -⟩)]
  dsimp only
  unfold onLost
  dsimp only
  rw [if_neg (by decide), if_pos rfl, onAccess, if_neg (by simp [hm]), if_pos rfl]
  rfl

/-- A lost WRITE of rows, as LOSS reports it, or as a WRITE with STATUS LOST carries it. -/
theorem handOn_lostRows {f : Frame} {t : Trans} (hrows : rowsTrans t)
    (hi : f = .loss (.acc 2 t []) ∨ (∃ rows, f = .acc 2 t rows) ∧ t.status = 5) :
    handOn a ⟨role, tc, gseq, port, f⟩ = onAccess a port tc 2 (lostRows t) (List.replicate t.nrows []) := by
  have hlost : onLost a port tc 2 t = onAccess a port tc 2 (lostRows t) (List.replicate t.nrows []) := by
    unfold onLost
    dsimp only
    rw [if_pos rfl, if_neg (by have := hrows.1; omega), Nat.min_eq_right hrows.2]
    rfl
  unfold handOn
  rw [if_neg (by rw [hf]; rintro ⟨⟨⟩, -⟩)]
  rcases hi with rfl | ⟨⟨rows, rfl⟩, hs⟩
  · exact hlost
  · dsimp only
    rw [if_pos ⟨rfl, by rw [hs]; rfl⟩, hlost]

end

/-- Zero rows with poison at their target. -/
theorem onAccess_lostRows {a : State} {t : Trans} (hrows : rowsTrans t) (hm : gaMod t.addr = a.modnum.toNat) (p : Fin 16) (tc : Nat) :
    (onAccess a p.val tc 2 (lostRows t) (List.replicate t.nrows [])).accs = a.accs ++ [frameAccess a p (lostRows t)
      (.writeRow ((List.range t.nrows).flatMap fun _ => fitTo 0 512 []) false)] ∧
    ∀ o, rd (onAccess a p.val tc 2 (lostRows t) (List.replicate t.nrows [])) o = rd a o := by
  have hk : frameKind 2 (lostRows t) (List.replicate t.nrows []) =
      some (.writeRow ((List.range t.nrows).flatMap fun _ => fitTo 0 512 []) false) := by
    have h0 : (lostRows t).nrows = t.nrows := rfl
    obtain ⟨h1, h64⟩ := hrows
    unfold frameKind
    dsimp only
    rw [h0, if_neg (by decide), if_neg (by omega), if_neg (by omega), if_pos rfl]
    congr 2
    unfold upto
    refine List.flatMap_congr fun i hi => ?_
    rw [List.getD_eq_getElem?_getD, List.getElem?_replicate, if_pos (List.mem_range.mp hi)]
    rfl
  rw [onAccess, if_neg (by simpa [lostRows] using hm), if_neg (by decide), frameRequest, hk]
  exact ⟨rfl, fun _ => rfl⟩

/-- A frame for another module goes on, one boundary further. -/
theorem onAccess_passes {a : State} {t : Trans} (hm : gaMod t.addr ≠ a.modnum.toNat) (hh : t.hops < 16)
    (hg : groupDown a (roleTo a (gaMod t.addr)) = false) (hf : fenced a = false) (p tc ft : Nat) (rows : List (List Byte)) :
    onAccess a p tc ft t rows = pushFrame a (roleTo a (gaMod t.addr)) tc (.acc ft { t with hops := t.hops + 1 } rows) := by
  rw [onAccess, if_pos hm]
  unfold passOn
  dsimp only
  rw [if_neg (by omega), routeFrame_eq tc _ hg (.inl hf)]

/-- What a lost WRITE of rows leaves once its turn comes, in this module and on its way to another. -/
theorem Arrived.lostRows {w : Nat → Prop} {p : Fin 16} {s a : State} (h : Arrived w p s a) (hl : SameLinks s a)
    (hf : fenced s = false) {t : Trans} (hrows : rowsTrans t) {f : Frame} (k : LinkPart)
    (hi : f = .loss (.acc 2 t []) ∨ (∃ rows, f = .acc 2 t rows) ∧ t.status = 5) :
    (gaMod t.addr = s.modnum.toNat →
      (handOn a (itemOf s p k f)).accs = s.accs ++ [frameAccess s p (lostRows t)
        (.writeRow ((List.range t.nrows).flatMap fun _ => fitTo 0 512 []) false)] ∧
      ∀ o, rd (handOn a (itemOf s p k f)) o = rd a o) ∧
    (gaMod t.addr ≠ s.modnum.toNat → t.hops < 16 → groupDown s (roleTo s (gaMod t.addr)) = false →
      (handOn a (itemOf s p k f)).accs = s.accs ∧
      queueOf (handOn a (itemOf s p k f)) (roleTo s (gaMod t.addr)) k.tc.toNat =
        queueOf s (roleTo s (gaMod t.addr)) k.tc.toNat ++
          [.acc 2 { lostRows t with hops := t.hops + 1 } (List.replicate t.nrows [])]) := by
  have hfa : fenced a = false := hl.fenced_eq.trans hf
  rw [itemOf, handOn_lostRows hfa _ _ _ _ hrows hi]
  refine ⟨fun hm => ?_, fun hm hh hg => ?_⟩
  · obtain ⟨haccs, hrd⟩ := onAccess_lostRows hrows (by rw [h.modnum_eq]; exact hm) p k.tc.toNat
    refine ⟨haccs.trans ?_, hrd⟩
    rw [h.accs_eq, frameAccess, frameAccess, h.nextId_eq]
  · have hgo := onAccess_passes (a := a) (t := Claims.lostRows t) (by rw [h.modnum_eq]; exact hm) hh
      (by rw [hl.roleTo_eq, hl.groupDown_eq]; exact hg) hfa p.val k.tc.toNat 2 (List.replicate t.nrows [])
    rw [hgo, hl.roleTo_eq]
    exact ⟨h.accs_eq, (queueOf_pushFrame_same ..).trans (by rw [h.queueOf_eq]; rfl)⟩

theorem handOn_ferry {a : State} (hf : fenced a = false) (role tc gseq port : Nat) (f : Ferry) (hold : Word) :
    handOn a ⟨role, tc, gseq, port, .ferry f hold⟩ = if a.crs.ext then enterFerry a f hold else a := by
  unfold handOn
  rw [if_neg (by rw [hf]; rintro ⟨⟨⟩, -⟩)]

/-- A ferry takes the first free slot at the edge. -/
theorem enterFerry_takes {a : State} {f : Ferry} (hold : Word)
    (hfree : ∃ n < slotCount a, atEdge a f.dir (getTSlot a f.dir n) = true ∧ (getTSlot a f.dir n).ferry = none) :
    ∃ n, (getTSlot a f.dir n).ferry = none ∧ (getTSlot (enterFerry a f hold) f.dir n).ferry = some f ∧
      (getTSlot (enterFerry a f hold) f.dir n).hold = hold := by
  obtain ⟨n, hn, hedge, hnone⟩ := hfree
  have hsome : ((upto ((train a f.dir).length + 1 + 4 * a.crs.nc)).find? fun k =>
      atEdge a f.dir (getTSlot a f.dir k) && (getTSlot a f.dir k).ferry.isNone).isSome = true := by
    refine List.find?_isSome.mpr ⟨n, List.mem_range.mpr ?_, by rw [hedge, hnone]; rfl⟩
    rw [slotCount] at hn
    omega
  obtain ⟨k, hk⟩ := Option.isSome_iff_exists.mp hsome
  have hfreek := List.find?_some hk
  rw [Bool.and_eq_true, Option.isNone_iff_eq_none] at hfreek
  refine ⟨k, hfreek.2, ?_⟩
  unfold enterFerry
  dsimp only
  rw [hk]
  dsimp only
  rw [getTSlot_setTSlot]
  exact ⟨rfl, rfl⟩

/-! ## IDLE (R409) -/

/-- The frames that a LACK covers leave the replay buffer. -/
theorem sent_takeLink {x : Port} {k : LinkPart} {pre : List Sent} {e : Sent} {post : List Sent} (hv : k.ackv = true)
    (hs : x.sent = pre ++ e :: post) (he : e.lseq = k.lack.toNat) (hpre : ∀ y ∈ pre, y.lseq ≠ k.lack.toNat) :
    (takeLink x k).sent = post := by
  have hfind : x.sent.findIdx? (fun e => e.lseq == k.lack.toNat) = some pre.length := by
    rw [hs, List.findIdx?_append, List.findIdx?_eq_none_iff.mpr fun y hy => by simpa using hpre y hy, Option.none_or,
      List.findIdx?_cons, if_pos (by simp [he])]
    simp
  unfold takeLink
  dsimp only
  rw [if_pos hv, hfind, hs]
  simp

theorem sent_takeLink_noAck {x : Port} {k : LinkPart} (hv : k.ackv = false) : (takeLink x k).sent = x.sent := by
  unfold takeLink
  dsimp only
  rw [if_neg (by rw [hv]; decide)]

theorem idle_runs {p : Fin 16} {k : LinkPart} {s : State} (hup : slipUp s p.val = true) (hok : k.crcOk = true)
    (hskip : (getPort s p.val).skip = false) :
    Runs (.idle p k) s (setPort (countFec s p.val .idle) p.val (takeLink (getPort s p.val) k)) := by
  have hport : getPort (countFec s p.val .idle) p.val = getPort s p.val := by rw [countFec_rest]; rfl
  show execIdle p k s = _
  unfold execIdle receiveCtl
  dsimp only
  rw [if_neg (by rw [hup]; decide), if_neg (by rw [hok]; decide), hport, if_neg (by rw [hskip]; decide)]

/-! ## Frames of a reserved type (R405) -/

/-- A count of the port leaves its groups as they were. -/
theorem comes_countUp {s : State} {p : Fin 16} {k : LinkPart} (h : comes s p k) :
    comes (countUp s (rPort p.val + 4) 15 0 1 none) p k := by
  have hw {o : Nat} (ho : o ≠ rPort p.val + 4) : rd (countUp s (rPort p.val + 4) 15 0 1 none) o = rd s o :=
    rd_countUp_ne s ho (by rintro co b ⟨⟩)
  have hrole : portRole (countUp s (rPort p.val + 4) 15 0 1 none) p.val = portRole s p.val := by
    rw [portRole, rdFld, hw (by omega), portRole, rdFld]
  have hup : slipUp (countUp s (rPort p.val + 4) 15 0 1 none) p.val = slipUp s p.val := by
    simp only [slipUp, portUp, portState, portEth, rdFld, hw (o := rPort p.val) (by omega)]
  have hfence : fenced (countUp s (rPort p.val + 4) 15 0 1 none) = fenced s := by
    rw [fenced, rdFld, hw (by simp only [rPort, rRing]; omega), fenced, rdFld]
  have hx : (countUp s (rPort p.val + 4) 15 0 1 none).xpt = s.xpt := by rw [regsOnly_countUp]
  obtain ⟨h1, h2, h3, h4, h5, h6⟩ := h
  refine ⟨hup.trans h1, h2, ?_, ?_, hfence.trans h5, ?_⟩
  · rw [getPort, hx]
    exact h3
  · rw [groupKey, hrole, hx]
    exact h4
  · rw [groupKey, hrole, hx]
    exact h6

/-- Settles O32: each frame is handed on in a state that differs from the one before in registers of the port, free values and the
link's own sequences alone; what it does there is one lemma per frame. -/
theorem otherFrames : Obligations.OtherFrames := by
  refine ⟨fun p k t rows x s h hm hx => ?resp, fun i p k t s h hrows hi => ?lost, fun p k f hold s h => ?ferry,
    fun p k ft s h => ?reserved, fun p k s hup hok hskip => ?idle⟩
  case resp =>
    obtain ⟨a, ha, hrun⟩ := receive_comes h (.acc 4 t rows)
    obtain ⟨b, hb, hcount, hloss⟩ := loss_comes h 4 t
    have hlinks := ha.sameLinks fun _ h12 _ _ _ => h12
    have hlinks' := hb.sameLinks fun _ h12 h8 _ hx => ⟨h12, h8, hx⟩
    have hfence : fenced s = false := h.2.2.2.2.1
    have hxa : awaiting a t.tag = some x := by rw [awaiting, ha.accs_eq]; exact hx
    have hxb : awaiting b t.tag = some x := by rw [awaiting, hb.accs_eq]; exact hx
    have hend {r : AResult} (he : endsAs (takeResp a t rows) x.id r) :
        endsAs (oweCredits (handOn a (itemOf s p k (.acc 4 t rows))) (itemOf s p k (.acc 4 t rows))) x.id r := by
      refine endsAs_congr (accs_oweCredits ..) ?_
      rw [itemOf, handOn_resp (hlinks.fenced_eq.trans hfence) _ _ _ _ _ _ (by rw [ha.modnum_eq]; exact hm)]
      exact he
    have htaken := ha.taken (k := k) (f := .acc 4 t rows) (n := 512 * rows.length) (fun g hg => by cases hg) rfl
    have hrunR : Runs (.resp p k t rows) s _ := congrArg Host.Outcome.next hrun
    refine ⟨fun hp hk => ⟨_, hrunR, htaken, hend ?_⟩, fun hp hk hst => ⟨_, hrunR, hend ?_⟩, fun hk => ⟨_, hrunR, htaken, hend ?_⟩, ?_⟩
    · have := takeResp_scalar hxa hk rows
      rwa [hp, if_neg (by simp)] at this
    · have := takeResp_scalar hxa hk rows
      rwa [if_pos ⟨hst, by simpa using hp⟩, show (t.poison != 0) = true by simpa using hp] at this
    · exact takeResp_row hxa hk rows
    · have he := handOn_lostResp (hlinks'.fenced_eq.trans hfence) (portRole s p.val) k.tc.toNat k.gseq.toNat p.val t
        (by rw [hb.modnum_eq]; exact hm)
      have hexp : (getPort (handOn b (itemOf s p k (.loss (.acc 4 t [])))) p.val).exp = ((getPort s p.val).exp + 1) % 65536 := by
        rw [getPort_handOn, hb.exp]
      have hc : counted s (handOn b (itemOf s p k (.loss (.acc 4 t [])))) (rPort p.val + 8) 7 0 := by
        rw [counted, rdFld, itemOf, he, rd_takeResp]
        exact hcount
      cases hk : isScalar x.kind with
      | true => exact ⟨_, _, _, hloss, he ▸ takeResp_scalar (t := { t with status := 5 }) hxb hk [], hc, hexp⟩
      | false => exact ⟨_, _, _, hloss, he ▸ takeResp_row (t := { t with status := 5 }) hxb hk [], hc, hexp⟩
  case lost =>
    have hfence : fenced s = false := h.2.2.2.2.1
    rcases hi with rfl | ⟨⟨rows, rfl⟩, hs⟩
    · obtain ⟨a, ha, hcount, hloss⟩ := loss_comes h 2 t
      rw [show (2 : BitVec 4).toNat = 2 from rfl] at hloss
      have hrun : Runs (.loss p k 2 t) s _ := hloss
      obtain ⟨hhere, hon⟩ := ha.lostRows (ha.sameLinks fun _ h12 h8 _ hx => ⟨h12, h8, hx⟩) hfence hrows k (.inl rfl)
      refine ⟨fun hm => ⟨_, hrun, fun _ => ?_, (hhere hm).1⟩, fun hm hh hg => ⟨_, hrun, hon hm hh hg⟩⟩
      rw [counted, rdFld, (hhere hm).2]
      exact hcount
    · obtain ⟨a, ha, hrec⟩ := receive_comes h (.acc 2 t rows)
      have hrun : Runs (.write p k t rows) s _ := congrArg Host.Outcome.next hrec
      obtain ⟨hhere, hon⟩ := ha.lostRows (ha.sameLinks fun _ h12 _ _ _ => h12) hfence hrows k (.inr ⟨⟨rows, rfl⟩, hs⟩)
      refine ⟨fun hm => ⟨_, hrun, fun hi => (nomatch hi), ?_⟩, fun hm hh hg => ⟨_, hrun, ?_⟩⟩
      · rw [accs_oweCredits, (hhere hm).1]
      · rw [accs_oweCredits, queueOf_oweCredits]
        exact hon hm hh hg
  case ferry =>
    obtain ⟨a, ha, hrun⟩ := receive_comes h (.ferry f hold)
    have hfence : fenced a = false := (ha.sameLinks fun _ h12 _ _ _ => h12).fenced_eq.trans h.2.2.2.2.1
    have hrunF : Runs (.ferry p k ⟨f, hold⟩) s _ := congrArg Host.Outcome.next hrun
    have hon := handOn_ferry hfence (portRole s p.val) k.tc.toNat k.gseq.toNat p.val f hold
    have htaken := ha.taken (k := k) (f := .ferry f hold) (n := 512 * f.hdr.rows) (fun g hg => by cases hg) rfl
    refine ⟨fun he => ⟨_, hrunF, ?_, ?_⟩, fun hfree he => ?_⟩
    · rw [oweCredits_rest, itemOf, hon, ha.crs_eq, if_neg (by rw [he]; decide)]
      exact ha.train_eq.1
    · rw [oweCredits_rest, itemOf, hon, ha.crs_eq, if_neg (by rw [he]; decide)]
      exact ha.train_eq.2
    · have hslot (d : Dir) (n : Nat) : getTSlot a d n = getTSlot s d n := by
        cases d
        · rw [getTSlot, ha.train_eq.1, getTSlot]
        · rw [getTSlot, ha.train_eq.2, getTSlot]
      have hnext (d : Dir) (l : Nat) : nextLive a d l = nextLive s d l :=
        nextLive_congr ha.fuses_eq (fun k => by rw [getLand, ha.lands_eq, getLand]) (by rw [ha.crs_eq]) d l
      have hedge (n : Nat) : atEdge a f.dir (getTSlot a f.dir n) = atEdge s f.dir (getTSlot s f.dir n) := by
        unfold atEdge
        simp only [hslot, ha.crs_eq, hnext]
      obtain ⟨m, hm, hedgem, hfreem⟩ := hfree
      obtain ⟨n, hnone, hin, hhold⟩ := enterFerry_takes (a := a) (f := f) hold
        ⟨m, by rwa [slotCount, ha.crs_eq], (hedge m).trans hedgem, by rwa [hslot]⟩
      refine ⟨_, n, hrunF, htaken, hslot f.dir n ▸ hnone, ?_⟩
      have hu : getTSlot (oweCredits (handOn a (itemOf s p k (.ferry f hold))) (itemOf s p k (.ferry f hold))) f.dir n =
          getTSlot (enterFerry a f hold) f.dir n := by
        rw [oweCredits_rest, itemOf, hon, ha.crs_eq, if_pos he]
        cases f.dir <;> rfl
      rw [hu]
      exact ⟨hin, hhold⟩
  case reserved =>
    obtain ⟨a, ha, hrun⟩ := receive_comes (comes_countUp h) .idle
    have hexec : execReservedFrame p k ft s = .next (receive (countUp s (rPort p.val + 4) 15 0 1 none) p.val k .idle) := by
      rw [execReservedFrame, if_pos ⟨h.1, h.2.1⟩]
    have hrunI : Runs (.reservedFrame p k ft) s _ := hexec.trans (congrArg Host.Outcome.next hrun)
    have hx : (countUp s (rPort p.val + 4) 15 0 1 none).xpt = s.xpt := by rw [regsOnly_countUp]
    have hon (it : RxItem) (hi : it.frame = .idle) : handOn a it = a := by
      unfold handOn
      rw [hi]
      split <;> rfl
    refine ⟨_, hrunI, ?_, ?_, ?_⟩
    · rw [counted, rdFld, rd_oweCredits, hon _ rfl, ha.words _ (by omega), ← rdFld,
        rdFld_countUp_same _ (by decide) (by rintro co b ⟨⟩)]
    · rw [accs_oweCredits, hon _ rfl, ha.accs_eq, regsOnly_countUp]
    · rw [ha.exp_owed, getPort, hx, getPort]
  case idle =>
    refine ⟨_, idle_runs hup hok hskip, fun o ho => ?_, ?_, fun hv => ?_, fun pre e post hv hs he hpre => ?_⟩
    · exact regsBut_countFec s p.val .idle ho
    · rw [getPort_setPort]
      exact tget_tput_same ..
    · rw [getPort_setPort, sent_takeLink_noAck hv]
    · rw [getPort_setPort, sent_takeLink hv hs he hpre]

end Sys2Proof.Laws
end

section
/-! What each message does at its destination (R100, R344, R412, R414 to R421, R442). -/

namespace Sys2Proof.Laws

open Sys2Proof Sys2Proof.Machine Sys2Proof.Claims

/-! ## Time (R417, R418) -/

theorem inTime_setTime (s : State) (x y : TimeSt) : inTime (setTime s x) y = (x.num == y.num) := by
  rw [inTime, setTime, rdFld_wrFld_same _ _ (by decide) (by cases x <;> decide)]

theorem rd_setTime_ne (s : State) (x : TimeSt) {o : Nat} (h : o ≠ rTstat) : rd (setTime s x) o = rd s o :=
  rd_wrFld_ne s _ _ _ h

/-- What a measured offset leaves before the first lock is looked for: the offset shown, one exchange more. -/
def measured (s : State) (off : Int) : State :=
  let n := Int.tdiv (-off) 20
  { wr s rToff (BitVec.ofInt 32 off) with xpt := { s.xpt with slew := n, rate := n, exch := s.xpt.exch + 1 } }

theorem measured_inTime (s : State) (off : Int) (x : TimeSt) : inTime (measured s off) x = inTime s x := by
  rw [inTime, rdFld, show rd (measured s off) rTstat = rd s rTstat from rd_wr_ne s (by decide) _, inTime, rdFld]

/-- A lock: TSTATE, and the count set forward at the first one. -/
def lockTime (s : State) (off : Int) : State :=
  let n := Int.tdiv (-off) 20
  let s := setTime s .locked
  if s.xpt.stepped then s
  else
    let s := { s with xpt := { s.xpt with stepped := true } }
    if 0 < n then { s with time := s.time + BitVec.ofNat 64 n.toNat, xpt := { s.xpt with slew := 0 } } else s

theorem takeOffset_eq (s : State) (off : Int) : takeOffset s off =
    let t := if inTime (measured s off) .holdover then setTime (measured s off) .acquiring else measured s off
    if inTime t .acquiring ∧ lockExchanges ≤ t.xpt.exch then lockTime t off else t := rfl

theorem lockTime_keeps (s : State) (off : Int) : (∀ o, o ≠ rTstat → rd (lockTime s off) o = rd s o) ∧
    (lockTime s off).xpt.exch = s.xpt.exch ∧ inTime (lockTime s off) .locked = true := by
  have hw (o : Nat) (ho : o ≠ rTstat) : rd (setTime s .locked) o = rd s o := rd_setTime_ne s .locked ho
  have hl : inTime (setTime s .locked) .locked = true := by rw [inTime_setTime]; rfl
  unfold lockTime
  dsimp only
  split
  · exact ⟨hw, rfl, hl⟩
  · split <;> exact ⟨hw, rfl, hl⟩

/-- XPT.TOFF shows the offset, an exchange counts, and the 32nd one locks. -/
theorem takeOffset_spec (s : State) (off : Int) : rd (takeOffset s off) rToff = BitVec.ofInt 32 off ∧
    (takeOffset s off).xpt.exch = s.xpt.exch + 1 ∧
    (inTime s .acquiring = true → 32 ≤ s.xpt.exch + 1 → inTime (takeOffset s off) .locked = true) := by
  rw [takeOffset_eq]
  generalize ht : (if inTime (measured s off) .holdover then setTime (measured s off) .acquiring else measured s off) = t
  have hm : rd (measured s off) rToff = BitVec.ofInt 32 off := rd_wr ..
  have hkeeps : rd t rToff = BitVec.ofInt 32 off ∧ t.xpt.exch = s.xpt.exch + 1 := by
    subst ht
    split
    · exact ⟨(rd_setTime_ne _ _ (by decide)).trans hm, rfl⟩
    · exact ⟨hm, rfl⟩
  obtain ⟨htoff, hexch⟩ := hkeeps
  obtain ⟨hlw, hle, hll⟩ := lockTime_keeps t off
  dsimp only
  refine ⟨?_, ?_, fun hacq h32 => ?_⟩
  · split
    · rw [hlw _ (by decide), htoff]
    · exact htoff
  · split
    · rw [hle, hexch]
    · exact hexch
  · have hta : inTime t .acquiring = true := by
      subst ht
      have h3 : rdFld s rTstat 1 0 = 1 := by simpa [inTime, TimeSt.num] using hacq
      rw [if_neg (by rw [measured_inTime, inTime, h3]; decide), measured_inTime, hacq]
    rw [if_pos ⟨hta, by rw [hexch]; exact h32⟩]
    exact hll

/-- A module that is not the time master follows no other. -/
theorem followLower_eq {s : State} (h : timeMaster s = false) : followLower s = { s with free := s.free + 1 } := by
  unfold followLower
  dsimp only
  rw [if_neg]
  rintro ⟨hm, -⟩
  rw [show timeMaster { s with free := s.free + 1 } = timeMaster s from rfl, h] at hm
  cases hm

/-! ## Cut-outs (R420, R421) -/

/-- The registers from the route entries on. -/
def routeWords (t : Tab Word) (o : Nat) : Word := tget (resetWord (0x51000 + o)) t (0x51000 + o)

/-- The module's number, the modules that it has declared failed, and the registers from the route entries on. It is irreducible so
that `simp` rewrites by the frame lemmas below. -/
@[irreducible] def routeView (s : State) : BitVec 11 × List Nat × (Nat → Word) :=
  (s.modnum, s.xpt.declared, routeWords s.regs)

theorem routeView_def (s : State) : routeView s = (s.modnum, s.xpt.declared, routeWords s.regs) := by
  rw [routeView]

/-- A record update: its left side is the state with its fields written out. -/
@[simp] theorem routeView_mk {pending time edges mem poison uerr cerr regs latch heldLow threads cores lands trainCw trainCcw
    crs accs nextId sto xpt reqs qsets pcie hm pwr boot tap mgmt dbg served fetched nextReq fuses modnum free outs} :
    routeView ⟨pending, time, edges, mem, poison, uerr, cerr, regs, latch, heldLow, threads, cores, lands, trainCw, trainCcw,
      crs, accs, nextId, sto, xpt, reqs, qsets, pcie, hm, pwr, boot, tap, mgmt, dbg, served, fetched, nextReq, fuses,
      modnum, free, outs⟩ = (modnum, xpt.declared, routeWords regs) := routeView_def _

@[simp] theorem routeView_eta (s : State) :
    (s.modnum, s.xpt.declared, routeWords s.regs) = routeView s := (routeView_def s).symm

theorem routeView_foldl {α : Type} {f : State → α → State} (hf : ∀ s a, routeView (f s a) = routeView s) (xs : List α)
    (s : State) : routeView (xs.foldl f s) = routeView s :=
  foldl_keeps (P := fun t => routeView t = routeView s) (fun t a h => (hf t a).trans h) xs rfl

theorem routeView_setFlag (s : State) {o : Nat} (i : Nat) (h : o < 0x51000) : routeView (setFlag s o i) = routeView s := by
  rw [routeView_def, routeView_def]
  refine congrArg (fun f => (s.modnum, s.xpt.declared, f)) (funext fun x => ?_)
  exact rd_setFlag_ne s (o := o) (x := 0x51000 + x) i (by omega)

@[simp] theorem routeView_pushFrame (s : State) (role tc : Nat) (f : Frame) :
    routeView (pushFrame s role tc f) = routeView s := by
  simp [pushFrame]

theorem routeView_sendMsg (s : State) (ty dst : Nat) (args : List Int) : routeView (sendMsg s ty dst args) = routeView s := by
  rcases sendMsg_cases s ty dst args with h | h <;> rw [h]
  · exact routeView_pushFrame ..
  · exact routeView_setFlag _ _ (by decide)

theorem routeView_sendAll (s : State) (ty : Nat) (args : List Int) : routeView (sendAll s ty args) = routeView s := by
  unfold sendAll
  split
  · rfl
  · refine routeView_foldl (fun s r => ?_) _ s
    split <;> simp

theorem routeView_sendCut (s : State) (m : Nat) : routeView (sendCut s m) = routeView s :=
  (routeView_foldl (fun _ _ => routeView_sendMsg ..) _ _).trans (routeView_sendAll ..)

theorem routeView_openRing (s : State) : routeView (openRing s) = routeView s :=
  (routeView_setFlag _ _ (by decide)).trans (routeView_setFlag _ _ (by decide))

theorem routeView_spanRole (s : State) (m ring far flag : Nat) : routeView (spanRole s m ring far flag) = routeView s := by
  have hflag : routeView (setFlag s rRing flag) = routeView s := routeView_setFlag _ _ (by decide)
  unfold spanRole
  dsimp only
  generalize (if (rdFld s rRing flag flag == 1) = true then far else ring) = r
  generalize (if (rdFld s rRing flag flag == 1) = true then none else peerOf s far) = q
  split
  · rfl
  · cases q with
    | none => exact routeView_openRing s
    | some k =>
      dsimp only
      split
      · exact (routeView_pushFrame ..).trans hflag
      · exact routeView_openRing s

theorem routeView_setLand (s : State) (l : Nat) (x : Landing) : routeView (setLand s l x) = routeView s := by simp [setLand]

theorem routeView_abandonLap (s : State) : routeView (abandonLap s) = routeView s := by
  have he : routeView (emptyTrains s) = routeView s := (routeView_foldl (fun _ _ => routeView_setLand ..) _ _).trans (by simp)
  unfold abandonLap
  dsimp only
  split
  · exact (routeView_setFlag _ _ (by decide)).trans ((by simp : _ = routeView (emptyTrains s)).trans he)
  · exact he

theorem routeEntry_of_routeView {s t : State} (h : routeView t = routeView s) (m : Nat) : routeEntry t m = routeEntry s m := by
  rw [routeView_def, routeView_def, Prod.mk.injEq, Prod.mk.injEq] at h
  obtain ⟨hmod, -, hreg⟩ := h
  have hw : rd t (0x51000 + 4 * (m / 8)) = rd s (0x51000 + 4 * (m / 8)) := congrFun hreg _
  rw [routeEntry, routeEntry, hmod, rdFld, rdFld, hw]

theorem declared_of_routeView {s t : State} (h : routeView t = routeView s) : t.xpt.declared = s.xpt.declared := by
  rw [routeView_def, routeView_def, Prod.mk.injEq, Prod.mk.injEq] at h
  exact h.2.1

/-- The route entry of a module is written as 0xF. -/
def cutEntry (s : State) (m : Nat) : State :=
  wrFld (setFlag s rXcause 3) (0x51000 + 4 * (m / 8)) (4 * (m % 8) + 3) (4 * (m % 8)) 0xf

/-- What is given up with a module that is cut out. -/
theorem routeView_giveUp (s : State) (notices : List Notice) (rel wd : List Unacked) : routeView { s with
    crs := { s.crs with notices := notices }
    xpt := { s.xpt with clRel := rel, wdogs := wd } } = routeView s := by
  simp

theorem routeView_learnCut {s : State} {m : Nat} (h : routeEntry s m ≠ 0xf) :
    routeView (learnCut s m) = routeView (cutEntry s m) := by
  unfold learnCut
  rw [if_neg h]
  dsimp only
  rw [← cutEntry]
  generalize cutEntry s m = c
  have hlap : routeView (if c.crs.ext = true then holdCut (abandonLap c) else c) = routeView c := by
    split
    · exact (by simp [holdCut] : _ = routeView (abandonLap c)).trans (routeView_abandonLap c)
    · rfl
  generalize (if c.crs.ext = true then holdCut (abandonLap c) else c) = x at hlap
  rw [apply_ite routeView, routeView_openRing, ite_self, routeView_spanRole, routeView_spanRole]
  exact (routeView_giveUp ..).trans hlap

/-- A module that is cut out has no route. -/
theorem routeEntry_learnCut (s : State) {m : Nat} (hm : m ≠ s.modnum.toNat) : routeEntry (learnCut s m) m = 0xf := by
  by_cases h : routeEntry s m = 0xf
  · rw [learnCut, if_pos h, h]
  · rw [routeEntry_of_routeView (routeView_learnCut h), routeEntry, if_neg (by exact hm), cutEntry,
      rdFld_wrFld_same _ _ (by omega) (by rw [show 4 * (m % 8) + 3 + 1 - 4 * (m % 8) = 4 by omega]; decide)]
    rfl

theorem declared_learnCut (s : State) (m : Nat) : (learnCut s m).xpt.declared = s.xpt.declared := by
  by_cases h : routeEntry s m = 0xf
  · rw [learnCut, if_pos h]
  · rw [declared_of_routeView (routeView_learnCut h)]
    rfl

/-- A neighbour that is declared failed, for the first time. -/
theorem declareFailed_spec {s : State} {m : Nat} (hm : m ≠ s.modnum.toNat) (hd : m ∉ s.xpt.declared) :
    m ∈ (declareFailed s m).xpt.declared ∧ routeEntry (declareFailed s m) m = 0xf := by
  unfold declareFailed
  rw [if_neg (by simp [hm, hd])]
  dsimp only
  generalize ht : ({ s with xpt := { s.xpt with declared := s.xpt.declared ++ [m], cuts := s.xpt.cuts ++ [(m, s.time)] } } : State) = t
  have hview : routeView (sendCut (setFlag t rXcause 3) m) = routeView t :=
    (routeView_sendCut ..).trans (routeView_setFlag _ _ (by decide))
  have hmod : (sendCut (setFlag t rXcause 3) m).modnum = s.modnum := by
    rw [routeView_def, routeView_def, Prod.mk.injEq] at hview
    rw [hview.1, ← ht]
  refine ⟨?_, routeEntry_learnCut _ (by rw [hmod]; exact hm)⟩
  rw [declared_learnCut, declared_of_routeView hview, ← ht]
  simp

/-! ## Closures (R344) -/

/-- A release at several landings advances GEN of the group once at each. -/
theorem gen_foldl_release (g l : Nat) {ls : List Nat} (hn : ls.Nodup) (s : State) :
    (getGroup (ls.foldl (fun s l => releaseLanding s g (cgPeriodic s l g) l) s) l g).gen =
      if l ∈ ls then (getGroup s l g).gen + 1 else (getGroup s l g).gen := by
  induction ls generalizing s with
  | nil => rfl
  | cons j ls ih =>
    obtain ⟨hj, hn⟩ := List.nodup_cons.mp hn
    have hg := (releaseLanding_spec s g (cgPeriodic s j g) j).2 l g
    rw [List.foldl_cons, ih hn, hg]
    by_cases hl : l = j
    · subst hl
      rw [if_neg hj, if_pos ⟨rfl, rfl⟩, if_pos List.mem_cons_self]
    · simp only [List.mem_cons, hl, false_or, false_and, if_false]

theorem bit_toNat {w : Nat} (m : BitVec w) (j : Nat) : bit m.toNat j = m.getLsbD j := by
  simp [bit, BitVec.getLsbD, Nat.testBit, Nat.and_comm 1, Nat.and_one_is_mod]

theorem nodup_liveLands (s : State) : (liveLands s).Nodup := List.Nodup.filter _ List.nodup_range

theorem lands_sendMsg (s : State) (ty dst : Nat) (args : List Int) : (sendMsg s ty dst args).lands = s.lands := by
  rcases sendMsg_cases s ty dst args with h | h <;> rw [h] <;> rfl

theorem mem_acked {xs : List Unacked} {src g : Nat} {gen : BitVec 16} (n : Unacked) :
    n ∈ acked xs src g gen ↔ n ∈ xs ∧ ¬ (n.g = g ∧ n.gen = gen.toNat ∧ n.mod = src) := by
  rw [acked, List.mem_filter, Bool.not_eq_true', ← Bool.not_eq_true]
  simp [and_assoc]

/-! ## A message that comes -/

section
variable {p : Fin 16} {s a : State} (h : Arrived (fun o => o ≠ rPort p.val + 0xc) p s a)
include h

theorem Arrived.links : SameLinks s a := h.sameLinks fun _ h12 _ _ _ => h12

theorem Arrived.port_words {o : Nat} (ho : o < 0x50100 ∨ 0x51000 ≤ o) : rd a o = rd s o :=
  h.words o (by simp only [rPort]; omega)

theorem Arrived.inTime_eq (x : TimeSt) : inTime a x = inTime s x := by
  rw [inTime, rdFld, h.port_words (.inl (by decide)), inTime, rdFld]

theorem Arrived.timeMaster_eq : timeMaster a = timeMaster s := by
  rw [timeMaster, rdFld, h.port_words (.inl (by decide)), timeMaster, rdFld]

theorem Arrived.parentPort_eq : parentPort a = parentPort s := by
  rw [parentPort, rdFld, h.port_words (.inl (by decide)), parentPort, rdFld]

theorem Arrived.fromParent_eq (src : Nat) : fromParent a p.val src = fromParent s p.val src := by
  have hlt : parentPort s < 2 ^ (19 + 1 - 16) := Nat.mod_lt _ (Nat.two_pow_pos _)
  simp only [fromParent, timePeer, portRole, portPeer, h.timeMaster_eq, h.inTime_eq, h.parentPort_eq, h.links.port_eq hlt,
    h.links.port_eq p.isLt]
  rfl

theorem Arrived.cg_eq (l g : Nat) : cgLmask a l g = cgLmask s l g ∧ cgCtl a l g = cgCtl s l g ∧ cgPer a l g = cgPer s l g := by
  refine ⟨h.port_words (.inr ?_), h.port_words (.inr ?_), h.port_words (.inr ?_)⟩ <;> simp only [cgBase, lcBase] <;> omega

theorem Arrived.getGroup_eq (l g : Nat) : getGroup a l g = getGroup s l g := by
  rw [getGroup, getLand, h.lands_eq, getGroup, getLand]

theorem Arrived.liveLand_eq (l : Nat) : liveLand a l = liveLand s l :=
  liveLand_congr h.fuses_eq (fun k => by rw [getLand, h.lands_eq, getLand]) l

theorem Arrived.liveLands_eq : liveLands a = liveLands s :=
  liveLands_congr h.fuses_eq fun k => by rw [getLand, h.lands_eq, getLand]

theorem Arrived.msgRouted {m : Nat} (hm : msgRouted s m) : msgRouted a m := by
  rw [Claims.msgRouted, h.links.msgRole_eq, h.links.groupDown_eq, h.links.fenced_eq]
  exact hm

theorem Arrived.sends {m : Nat} (hm : Claims.msgRouted s m) (ty : Nat) (args : List Int) :
    queueOf (sendMsg a ty m args) (msgRole s m) 2 = queueOf s (msgRole s m) 2 ++ [msgTo s ty m args] := by
  rw [sendMsg_eq ty args (h.msgRouted hm), h.links.msgRole_eq, queueOf_pushFrame_same, h.queueOf_eq, msgTo, h.modnum_eq, msgTo]

theorem Arrived.hmRuns_eq : hmRuns a = hmRuns s := by
  have hb : a.boot = s.boot := by rw [h.rest]
  rw [hmRuns, domState, rdFld, h.port_words (.inl (by decide)), hb, hmRuns, domState, rdFld]

end

/-- A message frame is handed to the port with its fields. -/
theorem exec_message {i : Instr} {h : MsgHead} {ty : Nat} {args : List Int} {bs : List Byte}
    (hi : msgRow i = some (h, ty, args, bs)) (s : State) : exec i s = .next (recvMsg s h ty args bs) := by
  unfold msgRow at hi
  split at hi
  case h_15 => cases hi
  all_goals
    cases hi
    rfl

/-- The state with other ports. -/
def withPorts (s : State) (x : Tab Port) : State := { s with xpt := { s.xpt with ports := x } }

theorem queueOf_withPorts (s : State) (x : Tab Port) (r tc : Nat) : queueOf (withPorts s x) r tc = queueOf s r tc := rfl
theorem rd_withPorts (s : State) (x : Tab Port) (o : Nat) : rd (withPorts s x) o = rd s o := rfl
theorem exch_withPorts (s : State) (x : Tab Port) : (withPorts s x).xpt.exch = s.xpt.exch := rfl
theorem inTime_withPorts (s : State) (x : Tab Port) (y : TimeSt) : inTime (withPorts s x) y = inTime s y := rfl
theorem getGroup_withPorts (s : State) (x : Tab Port) (l g : Nat) : getGroup (withPorts s x) l g = getGroup s l g := rfl

theorem handOn_msg {a : State} (hf : fenced a = false) (role tc gseq port ty src dst : Nat) (args : List Int) (bs : List Byte) :
    handOn a ⟨role, tc, gseq, port, .msg ty src dst args bs⟩ = onMsg a port tc ty src dst args bs := by
  unfold handOn
  rw [if_neg (by rw [hf]; rintro ⟨⟨⟩, -⟩)]

/-- A message for this module does its work in a state that differs from the one before in the port alone, which then owes its
credits. -/
theorem message_runs {i : Instr} {h : MsgHead} {ty : Nat} {args : List Int} {bs : List Byte} {s : State}
    (hi : msgRow i = some (h, ty, args, bs)) (hc : msgComes s h) (ht : (msgTypeOf ty).isNone = false) :
    ∃ a x, Arrived (fun o => o ≠ rPort h.port.val + 0xc) h.port s a ∧
      Runs i s (withPorts (onMessage a h.port.val ty h.src.toNat args bs) x) := by
  obtain ⟨hcomes, hdst⟩ := hc
  obtain ⟨a, ha, hrun⟩ := receive_comes hcomes (.msg ty h.src.toNat h.dst.toNat args bs)
  have hon : handOn a (itemOf s h.port h.link (.msg ty h.src.toNat h.dst.toNat args bs)) =
      onMessage a h.port.val ty h.src.toNat args bs := by
    rw [itemOf, handOn_msg (ha.links.fenced_eq.trans hcomes.2.2.2.2.1), onMsg, if_neg (by rw [ht]; decide), if_pos]
    rw [ha.modnum_eq]
    exact hdst.imp (congrArg BitVec.toNat) (congrArg BitVec.toNat)
  rw [hon, oweCredits_rest] at hrun
  exact ⟨a, _, ha, (exec_message hi s).trans (congrArg Host.Outcome.next hrun)⟩

section
variable {s : State} {h : MsgHead} (hc : msgComes s h)
include hc

/-- TIME from a neighbour that is not the time parent asks for an answer. -/
theorem time_answered (a b c d : Int) (hm : timeMaster s = false) (hp : fromParent s h.port.val h.src.toNat = false)
    (hr : msgRouted s h.src.toNat) : ∃ u, Runs (.time h a b c d) s u ∧
      queueOf u (msgRole s h.src.toNat) 2 = queueOf s (msgRole s h.src.toNat) 2 ++ [msgTo s 1 h.src.toNat [a, b, c]] := by
  obtain ⟨t, x, ht, hrun⟩ := message_runs (i := .time h a b c d) rfl hc rfl
  refine ⟨_, hrun, ?_⟩
  have hon : onMessage t h.port.val 1 h.src.toNat [a, b, c, d] [] =
      sendMsg { t with free := t.free + 1 } 1 h.src.toNat [a, b, c] := by
    show onTime t h.port.val h.src.toNat a b c d = _
    rw [onTime, ht.fromParent_eq, hp, if_neg (by decide), followLower_eq (by rw [ht.timeMaster_eq, hm])]
  rw [queueOf_withPorts, hon]
  have ht' : Arrived (fun o => o ≠ rPort h.port.val + 0xc) h.port s { t with free := t.free + 1 } :=
    ⟨by rw [ht.rest], ht.words, ht.met, ht.exp, ht.skip, ht.owed⟩
  exact ht'.sends hr 1 _

/-- TIME from the time parent closes an exchange. -/
theorem time_measured (a b c d : Int) (hp : fromParent s h.port.val h.src.toNat = true) :
    ∃ u, Runs (.time h a b c d) s u ∧ rd u 0x50014 = BitVec.ofInt 32 (((a - b) + (d - c)) / 2) ∧ u.xpt.exch = s.xpt.exch + 1 ∧
      (inTime s .acquiring = true → 32 ≤ s.xpt.exch + 1 → inTime u .locked = true) := by
  obtain ⟨t, x, ht, hrun⟩ := message_runs (i := .time h a b c d) rfl hc rfl
  have hon : onMessage t h.port.val 1 h.src.toNat [a, b, c, d] [] = takeOffset t (timeOffset a b c d) := by
    show onTime t h.port.val h.src.toNat a b c d = _
    rw [onTime, ht.fromParent_eq, hp, if_pos rfl]
  have hexch : t.xpt.exch = s.xpt.exch := by rw [ht.rest]
  obtain ⟨htoff, he, hlock⟩ := takeOffset_spec t (timeOffset a b c d)
  rw [ht.inTime_eq, hexch] at hlock
  rw [hexch] at he
  refine ⟨_, hrun, ?_⟩
  rw [rd_withPorts, exch_withPorts, inTime_withPorts, hon]
  exact ⟨htoff, he, hlock⟩

theorem heartbeat_taken : ∃ u, Runs (.heartbeat h) s u ∧ regsBut s u h.port ∧ u.crs = s.crs ∧ u.lands = s.lands ∧
    taken s u h.port h.link 0 := by
  obtain ⟨hcomes, hdst⟩ := hc
  obtain ⟨a, ha, hrun⟩ := receive_comes hcomes (.msg 2 h.src.toNat h.dst.toNat [] [])
  have hon : handOn a (itemOf s h.port h.link (.msg 2 h.src.toNat h.dst.toNat [] [])) = a := by
    rw [itemOf, handOn_msg (ha.links.fenced_eq.trans hcomes.2.2.2.2.1), onMsg, if_neg (by decide), if_pos]
    · rfl
    · rw [ha.modnum_eq]
      exact hdst.imp (congrArg BitVec.toNat) (congrArg BitVec.toNat)
  refine ⟨_, (exec_message (i := .heartbeat h) rfl s).trans (congrArg Host.Outcome.next hrun), ?_, ?_, ?_,
    ha.taken (fun g hg => by cases hg) rfl⟩
  · intro o ho
    rw [rd_oweCredits, hon, ha.words o ho]
  · rw [oweCredits_rest, hon, ha.crs_eq]
  · rw [oweCredits_rest, hon, ha.lands_eq]

theorem hold_noted (x y : Bool) : ∃ u, Runs (.hold h x y) s u ∧
    u.crs.notices = (s.crs.notices.filter fun n => n.mod ≠ h.src.toNat) ++ [⟨h.src.toNat, x, y⟩] := by
  obtain ⟨t, ports, ht, hrun⟩ := message_runs (i := .hold h x y) rfl hc rfl
  refine ⟨_, hrun, ?_⟩
  have hb (b : Bool) : (b2n b == 1) = b := by cases b <;> rfl
  show (t.crs.notices.filter fun n => n.mod != h.src.toNat) ++ [⟨h.src.toNat, b2n x == 1, b2n y == 1⟩] = _
  rw [hb, hb, ht.crs_eq]
  congr 1
  refine List.filter_congr fun n _ => ?_
  rw [Bool.eq_iff_iff, bne_iff_ne, decide_eq_true_iff]

theorem arrival_taken (l : Fin 32) (g : Fin 16) {k : Nat} {m c p : Word} (hk : ((liveLands s).find? fun j => m.getLsbD j) = some k)
    (hm : m = cgLmask s k g.val) (hctl : c = cgCtl s k g.val) (hper : p = cgPer s k g.val) :
    ∃ u, Runs (.clArrive h l g (getGroup s k g.val).gen m c p) s u ∧
      (getGroup u k g.val).got = (getGroup s k g.val).got ++ [(l.val, h.src.toNat)] := by
  obtain ⟨t, ports, ht, hrun⟩ := message_runs (i := .clArrive h l g (getGroup s k g.val).gen m c p) rfl hc rfl
  refine ⟨_, hrun, ?_⟩
  obtain ⟨hlm, hct, hpe⟩ := ht.cg_eq k g.val
  have hon : onMessage t h.port.val 4 h.src.toNat [(l.val : Int), (g.val : Int), ((getGroup s k g.val).gen.toNat : Int),
      (m.toNat : Int), (c.toNat : Int), (p.toNat : Int)] [] =
        setGroup t k g.val { getGroup t k g.val with got := (getGroup t k g.val).got ++ [(l.val, h.src.toNat)] } := by
    show onArrive t h.src.toNat l.val g.val (BitVec.ofNat 16 (getGroup s k g.val).gen.toNat) (word m.toNat) (word c.toNat)
      (word p.toNat) = _
    rw [onArrive, word, word, word, BitVec.ofNat_toNat, BitVec.ofNat_toNat, BitVec.ofNat_toNat, BitVec.ofNat_toNat,
      BitVec.setWidth_eq, BitVec.setWidth_eq, BitVec.setWidth_eq, BitVec.setWidth_eq, ht.liveLands_eq]
    rw [funext (bit_toNat m), hk]
    dsimp only
    rw [takeArrival, if_neg (by rw [hlm, hct, hpe, ← hm, ← hctl, ← hper]; simp), if_pos (by rw [ht.getGroup_eq])]
  rw [getGroup_withPorts, hon, getGroup_setGroup, if_pos ⟨rfl, rfl⟩, ht.getGroup_eq]

theorem release_taken (g : Fin 16) (gen : BitVec 16) : ∃ u, Runs (.clRelease h g gen) s u ∧ ∀ l, liveLand s l = true →
    cgEn s l g.val = true → cgSys s l g.val = true → cgMasterMod s l g.val = h.src.toNat → (getGroup s l g.val).gen = gen →
      (getGroup u l g.val).gen = gen + 1 := by
  obtain ⟨t, ports, ht, hrun⟩ := message_runs (i := .clRelease h g gen) rfl hc rfl
  refine ⟨_, hrun, fun l hl hen hsys hmas hgen => ?_⟩
  have hon : onMessage t h.port.val 5 h.src.toNat [(g.val : Int), (gen.toNat : Int)] [] =
      onRelease t h.src.toNat g.val (BitVec.ofNat 16 gen.toNat) := rfl
  rw [getGroup_withPorts, hon, BitVec.ofNat_toNat, BitVec.setWidth_eq, onRelease]
  have hctl := (ht.cg_eq l g.val).2.1
  have hmaster : cgMasterMod t l g.val = cgMasterMod s l g.val := by
    rw [cgMasterMod, cgMods, cgSys, hctl, ht.links.members_eq, ht.modnum_eq, cgMasterMod, cgMods, cgSys]
  rw [getGroup, getLand, lands_sendMsg, ← getLand, ← getGroup, gen_foldl_release _ _ (List.Nodup.filter _ (nodup_liveLands t)),
    if_pos, ht.getGroup_eq, hgen]
  refine List.mem_filter.mpr ⟨mem_liveLands.mpr (by rw [ht.liveLand_eq, hl]), ?_⟩
  rw [cgEn, cgSys, hctl, ← cgEn, ← cgSys, hen, hsys, hmaster, hmas, ht.getGroup_eq, hgen, beq_self_eq_true, beq_self_eq_true]
  rfl

theorem acks_taken (g : Fin 16) (gen : BitVec 16) :
    (∃ u, Runs (.clAck h g gen) s u ∧
      ∀ n, n ∈ u.xpt.clRel ↔ n ∈ s.xpt.clRel ∧ ¬ (n.g = g.val ∧ n.gen = gen.toNat ∧ n.mod = h.src.toNat)) ∧
    (∃ u, Runs (.wdogAck h g gen) s u ∧
      ∀ n, n ∈ u.xpt.wdogs ↔ n ∈ s.xpt.wdogs ∧ ¬ (n.g = g.val ∧ n.gen = gen.toNat ∧ n.mod = h.src.toNat)) := by
  obtain ⟨t, ports, ht, hrun⟩ := message_runs (i := .clAck h g gen) rfl hc rfl
  obtain ⟨t', ports', ht', hrun'⟩ := message_runs (i := .wdogAck h g gen) rfl hc rfl
  have hrel : t.xpt.clRel = s.xpt.clRel := by rw [ht.rest]
  have hwd : t'.xpt.wdogs = s.xpt.wdogs := by rw [ht'.rest]
  refine ⟨⟨_, hrun, fun n => ?_⟩, _, hrun', fun n => ?_⟩
  · show n ∈ acked t.xpt.clRel h.src.toNat g.val (BitVec.ofNat 16 gen.toNat) ↔ _
    rw [BitVec.ofNat_toNat, BitVec.setWidth_eq, mem_acked, hrel]
  · show n ∈ acked t'.xpt.wdogs h.src.toNat g.val (BitVec.ofNat 16 gen.toNat) ↔ _
    rw [BitVec.ofNat_toNat, BitVec.setWidth_eq, mem_acked, hwd]

theorem wdog_answered (g : Fin 16) (gen : BitVec 16) (hr : msgRouted s h.src.toNat) : ∃ u, Runs (.wdog h g gen) s u ∧
    queueOf u (msgRole s h.src.toNat) 2 = queueOf s (msgRole s h.src.toNat) 2 ++
      [msgTo s 0xc h.src.toNat [(g.val : Int), (gen.toNat : Int)]] := by
  obtain ⟨t, ports, ht, hrun⟩ := message_runs (i := .wdog h g gen) rfl hc rfl
  have hon : onMessage t h.port.val 0xa h.src.toNat [(g.val : Int), (gen.toNat : Int)] [] =
      sendMsg t 0xc h.src.toNat [(g.val : Int), (gen.toNat : Int)] := rfl
  exact ⟨_, hrun, by rw [queueOf_withPorts, hon, ht.sends hr]⟩

theorem vturn_taken (t0 : Dword) (he : s.crs.ext = true) (hturn : turnArmed s = true) :
    ∃ u, Runs (.vturn h s.crs.incoming t0) s u ∧ u.crs.turnT0.toNat = max s.crs.turnT0.toNat t0.toNat := by
  obtain ⟨t, ports, ht, hrun⟩ := message_runs (i := .vturn h s.crs.incoming t0) rfl hc rfl
  refine ⟨_, hrun, ?_⟩
  have harmed : turnArmed t = true := by
    rw [turnArmed, rdFld, ht.port_words (.inl (by decide)), ← rdFld, ← turnArmed, hturn]
  have hcrs (x : State) (ty dst : Nat) (args : List Int) : (sendMsg x ty dst args).crs = x.crs := by
    rcases sendMsg_cases x ty dst args with h | h <;> rw [h] <;> rfl
  show (onVturn t h.src.toNat (BitVec.ofNat 16 s.crs.incoming.toNat) (BitVec.ofNat 64 t0.toNat)).crs.turnT0.toNat = _
  rw [BitVec.ofNat_toNat, BitVec.setWidth_eq, BitVec.ofNat_toNat, BitVec.setWidth_eq, onVturn,
    if_pos ⟨by rw [ht.crs_eq, he], harmed, by rw [ht.crs_eq]⟩]
  dsimp only
  rw [hcrs, ht.crs_eq]
  dsimp only
  split <;> omega

theorem vturnAck_taken : ∃ u, Runs (.vturnAck h s.crs.turnT0) s u ∧ h.src.toNat ∈ u.xpt.vturnGot := by
  obtain ⟨t, ports, ht, hrun⟩ := message_runs (i := .vturnAck h s.crs.turnT0) rfl hc rfl
  refine ⟨_, hrun, ?_⟩
  show h.src.toNat ∈ (onVturnAck t h.src.toNat (BitVec.ofNat 64 s.crs.turnT0.toNat)).xpt.vturnGot
  rw [BitVec.ofNat_toNat, BitVec.setWidth_eq, onVturnAck, if_pos (by rw [ht.crs_eq])]
  exact mem_sadd ..

/-- FAULT from a neighbour cuts it out; from another module it is passed over. -/
theorem fault_taken (hs : h.src.toNat ≠ s.modnum.toNat) (hd : h.src.toNat ∉ s.xpt.declared) :
    (isNeighbour s h.src.toNat = true →
      ∃ u, Runs (.fault h) s u ∧ h.src.toNat ∈ u.xpt.declared ∧ routeEntry u h.src.toNat = 0xf) ∧
    (isNeighbour s h.src.toNat = false → ∃ u, Runs (.fault h) s u ∧ regsBut s u h.port ∧ h.src.toNat ∉ u.xpt.declared) := by
  obtain ⟨t, ports, ht, hrun⟩ := message_runs (i := .fault h) rfl hc rfl
  have hon : onMessage t h.port.val 9 h.src.toNat [] [] =
      if isNeighbour s h.src.toNat then declareFailed t h.src.toNat else t := by
    rw [← ht.links.isNeighbour_eq]
    rfl
  have hdt : h.src.toNat ∉ t.xpt.declared := by rw [ht.rest]; exact hd
  rw [hon] at hrun
  refine ⟨fun hn => ⟨_, hrun, ?_⟩, fun hn => ⟨_, hrun, ?_⟩⟩
  · rw [if_pos hn]
    exact declareFailed_spec (by rw [ht.modnum_eq]; exact hs) hdt
  · rw [if_neg (by rw [hn]; decide)]
    exact ⟨ht.words, hdt⟩

/-- CUTOUT fences this module, or cuts out the one that it names. -/
theorem cutout_taken (m : BitVec 11) : ∃ u, Runs (.cutout h m) s u ∧
    if m.toNat = s.modnum.toNat then fenced u = true ∧ rdFld u 0x5000c 5 5 = 1 else routeEntry u m.toNat = 0xf := by
  obtain ⟨t, ports, ht, hrun⟩ := message_runs (i := .cutout h m) rfl hc rfl
  have hon : onMessage t h.port.val 0xb h.src.toNat [(m.toNat : Int)] [] =
      if m.toNat = s.modnum.toNat then fence t else learnCut t m.toNat := by
    rw [← ht.modnum_eq]
    rfl
  rw [hon] at hrun
  refine ⟨_, hrun, ?_⟩
  split
  · refine ⟨?_, rdFld_setFlag_same _ _ (by decide)⟩
    show (rdFld (fence t) rRing 25 25 == 1) = true
    rw [fence, rdFld_setFlag_off _ (by decide) (.inl (by decide)), rdFld_setFlag_same _ _ (by decide)]
    rfl
  · next hm => exact routeEntry_learnCut t (by rw [ht.modnum_eq]; exact hm)

/-- An MCTP packet that is the monitor's own affair, or that has no type, is not answered here. -/
theorem mctp_taken {bs : List Byte}
    (hb : ∀ ty, mctpType bs = some ty → hmRuns s = false ∨ ty = 0 ∨ ty = 5 ∨ ty = 1 ∧ pldmType bs ≠ 0) :
    ∃ u, Runs (.mctpPacket (.tc3 h) bs) s u ∧ regsBut s u h.port ∧ u.mem = s.mem ∧ u.xpt.txq = s.xpt.txq := by
  obtain ⟨t, ports, ht, hrun⟩ := message_runs (i := .mctpPacket (.tc3 h) bs) rfl hc rfl
  have hon : onMessage t h.port.val 0x100 h.src.toNat [] bs = t := by
    have hnone : (if hmRuns t then mctpReply bs else none) = none := by
      rw [ht.hmRuns_eq]
      cases hty : mctpType bs with
      | none => rw [mctpReply, hty]; exact ite_self _
      | some ty =>
        rcases hb ty hty with hm | rfl | rfl | ⟨rfl, hp⟩
        · rw [if_neg (by rw [hm]; decide)]
        · rw [mctpReply, hty]; exact ite_self _
        · rw [mctpReply, hty]; exact ite_self _
        · rw [mctpReply, hty, if_neg hp]; exact ite_self _
    show onMctp t h.src.toNat bs = t
    rw [onMctp, hnone]
  rw [hon] at hrun
  exact ⟨_, hrun, ht.words, ht.mem_eq, ht.txq_eq⟩

/-- An MCTP packet that the monitor does not take is answered over TC3. -/
theorem mctp_answered {bs : List Byte} {ty : Nat} (hty : mctpType bs = some ty) (hm : hmRuns s = true)
    (hb : ty ∉ [0, 1, 5] ∨ ty = 1 ∧ pldmType bs = 0) (hr : routed s h.src.toNat) :
    ∃ u, Runs (.mctpPacket (.tc3 h) bs) s u ∧ queueOf u (roleTo s h.src.toNat) 3 = queueOf s (roleTo s h.src.toNat) 3 ++
      [.msg 0x100 s.modnum.toNat h.src.toNat [] (if ty = 1 then Config.pldmBase bs else Config.mctpUnsupported bs)] := by
  obtain ⟨t, ports, ht, hrun⟩ := message_runs (i := .mctpPacket (.tc3 h) bs) rfl hc rfl
  have hreply : mctpReply bs = some (if ty = 1 then Config.pldmBase bs else Config.mctpUnsupported bs) := by
    rcases hb with hn | ⟨rfl, hp⟩
    · simp only [List.mem_cons, List.not_mem_nil, or_false, not_or] at hn
      rw [mctpReply, hty, if_neg hn.2.1]
      split
      · next e => cases e; exact absurd rfl hn.2.1
      · next e => cases e; rw [if_neg (by omega)]
      · next e => cases e
    · rw [mctpReply, hty, if_pos hp]
      rfl
  obtain ⟨hg, hf⟩ := hr
  refine ⟨_, hrun, ?_⟩
  have hon : onMessage t h.port.val 0x100 h.src.toNat [] bs = onMctp t h.src.toNat bs := rfl
  rw [queueOf_withPorts, hon, onMctp, ht.hmRuns_eq, if_pos hm, hreply]
  dsimp only
  rw [routeFrame_eq 3 _ (by rw [ht.links.roleTo_eq, ht.links.groupDown_eq]; exact hg) (.inr rfl)]
  dsimp only
  rw [ht.links.roleTo_eq, queueOf_pushFrame_same, ht.queueOf_eq, ht.modnum_eq]

end

/-- A message for another module goes on, to the group of its class. -/
theorem message_passes {i : Instr} {h : MsgHead} {ty : Nat} {args : List Int} {bs : List Byte} {s : State}
    (hi : msgRow i = some (h, ty, args, bs)) (hc : comes s h.port h.link) (hd : h.dst ≠ s.modnum) (h7 : h.dst ≠ 0x7ff)
    (ht : (msgTypeOf ty).isSome = true)
    (hg : groupDown s (if h.link.tc = 2 then msgRole s h.dst.toNat else roleTo s h.dst.toNat) = false) :
    ∃ u, Runs i s u ∧ taken s u h.port h.link bs.length ∧
      queueOf u (if h.link.tc = 2 then msgRole s h.dst.toNat else roleTo s h.dst.toNat) h.link.tc.toNat =
        queueOf s (if h.link.tc = 2 then msgRole s h.dst.toNat else roleTo s h.dst.toNat) h.link.tc.toNat ++
          [.msg ty h.src.toNat h.dst.toNat args bs] := by
  obtain ⟨a, ha, hrun⟩ := receive_comes hc (.msg ty h.src.toNat h.dst.toNat args bs)
  have hf : fenced a = false := ha.links.fenced_eq.trans hc.2.2.2.2.1
  refine ⟨_, (exec_message hi s).trans (congrArg Host.Outcome.next hrun), ha.taken (fun g hg => by cases hg) rfl, ?_⟩
  rw [queueOf_oweCredits, itemOf, handOn_msg hf, onMsg, if_neg (by rw [Option.isNone_eq_false_iff.mpr ht]; decide), if_neg]
  · by_cases htc : h.link.tc = 2
    · rw [if_pos htc] at hg ⊢
      rw [routeMsg, htc, if_neg (by decide)]
      dsimp only
      rw [ha.links.msgRole_eq, ha.links.groupDown_eq, hg, hf, if_neg (by decide)]
      exact (queueOf_pushFrame_same ..).trans (by rw [ha.queueOf_eq])
    · rw [if_neg htc] at hg ⊢
      rw [routeMsg, if_pos (show h.link.tc.toNat ≠ 2 from fun e => htc (BitVec.eq_of_toNat_eq e)),
        routeFrame_eq _ _ (by rw [ha.links.roleTo_eq, ha.links.groupDown_eq]; exact hg) (.inl hf)]
      dsimp only
      rw [ha.links.roleTo_eq, queueOf_pushFrame_same, ha.queueOf_eq]
  · rw [ha.modnum_eq]
    exact not_or.mpr ⟨fun e => hd (BitVec.eq_of_toNat_eq e), fun e => h7 (BitVec.eq_of_toNat_eq e)⟩

/-- A message of a reserved type is dropped and counted. -/
theorem reservedMsgtype_dropped {h : MsgHead} {ty : BitVec 16} {s : State} (hc : comes s h.port h.link)
    (ht : ty.toNat = 0 ∨ 0xd ≤ ty.toNat ∧ ty.toNat ≠ 0x100) : ∃ u, Runs (.reservedMsgtype h ty) s u ∧
      counted s u (rPort h.port.val + 8) 31 24 ∧ u.crs = s.crs ∧ u.xpt.txq = s.xpt.txq := by
  obtain ⟨a, ha, hrun⟩ := receive_comes hc (.msg ty.toNat h.src.toNat h.dst.toNat [] [])
  have hnone : (msgTypeOf ty.toNat).isNone = true := by
    rw [Option.isNone_iff_eq_none, msgTypeOf, List.find?_eq_none]
    intro x _
    cases x <;> simp only [MsgType.num, beq_iff_eq] <;> omega
  have hon : handOn a (itemOf s h.port h.link (.msg ty.toNat h.src.toNat h.dst.toNat [] [])) = countDrop a h.port.val := by
    rw [itemOf, handOn_msg (ha.links.fenced_eq.trans hc.2.2.2.2.1), onMsg, if_pos hnone]
  refine ⟨_, (exec_message (i := .reservedMsgtype h ty) rfl s).trans (congrArg Host.Outcome.next hrun), ?_, ?_, ?_⟩
  · rw [counted, rdFld, rd_oweCredits, hon, ← rdFld, countDrop, rdFld_countUp_same _ (by decide) (by rintro co b ⟨⟩), rdFld,
      ha.words _ (by omega), rdFld]
  · rw [oweCredits_rest, hon, countDrop, regsOnly_countUp]
    exact ha.crs_eq
  · rw [txq_oweCredits, hon, countDrop, regsOnly_countUp]
    exact ha.txq_eq

/-- Settles O35, one lemma for each message. -/
theorem messages : Obligations.Messages :=
  ⟨fun _ _ _ _ _ _ hi hc hd h7 ht hg => message_passes hi hc hd h7 ht hg,
    fun _ _ _ hc ht => reservedMsgtype_dropped hc ht,
    fun _ _ hc => ⟨fun a b c d hm hp hr => time_answered hc a b c d hm hp hr, fun a b c d hp => time_measured hc a b c d hp,
      heartbeat_taken hc, hold_noted hc, fun l g _ _ _ _ hk hm hctl hper => arrival_taken hc l g hk hm hctl hper, release_taken hc,
      fun g gen => ⟨(acks_taken hc g gen).1, (acks_taken hc g gen).2, wdog_answered hc g gen⟩, vturn_taken hc, vturnAck_taken hc,
      fault_taken hc, cutout_taken hc, fun _ hb => mctp_taken hc hb, fun _ _ hty hm hb hr => mctp_answered hc hty hm hb hr⟩⟩

end Sys2Proof.Laws
end

section
/-! What the message timers send (R100, R415 to R420). -/

namespace Sys2Proof.Laws

open Sys2Proof Sys2Proof.Machine Sys2Proof.Claims

/-! ## Work that only sends -/

/-- Nothing has changed but XPT.CAUSE and the queues of frames, and no frame has left them. -/
structure Sends (s t : State) : Prop where
  rest : t = { s with regs := t.regs, xpt := { s.xpt with txq := t.xpt.txq } }
  words : ∀ o, o ≠ rXcause → rd t o = rd s o
  keeps : ∀ r tc f, f ∈ queueOf s r tc → f ∈ queueOf t r tc

theorem Sends.refl (s : State) : Sends s s := ⟨rfl, fun _ _ => rfl, fun _ _ _ h => h⟩

theorem Sends.trans {s t u : State} (h : Sends s t) (g : Sends t u) : Sends s u :=
  ⟨by rw [g.rest, h.rest], fun o ho => (g.words o ho).trans (h.words o ho), fun r tc f hf => g.keeps r tc f (h.keeps r tc f hf)⟩

theorem Sends.links {s t : State} (h : Sends s t) : SameLinks s t := by
  refine ⟨fun o ho => h.words o ?_, fun p => by rw [h.rest, getPort, getPort], by rw [h.rest]⟩
  rcases ho with rfl | ho | ⟨q, hq, rfl⟩ <;> simp only [rRing, rPort, rXcause] <;> omega

theorem Sends.crs_eq {s t : State} (h : Sends s t) : t.crs = s.crs := by rw [h.rest]

theorem Sends.foldl {α : Type} {f : State → α → State} (hf : ∀ s a, Sends s (f s a)) (xs : List α) (s : State) :
    Sends s (xs.foldl f s) :=
  foldl_keeps (P := fun t => Sends s t) (fun t a h => h.trans (hf t a)) xs (.refl s)

/-- What one step of a fold puts into a queue is there at the end. -/
theorem Sends.mem_foldl {α : Type} {f : State → α → State} (hf : ∀ s a, Sends s (f s a)) {xs : List α} {x : α} (hx : x ∈ xs)
    {s : State} {m : Frame} {r tc : Nat} (hm : ∀ t, Sends s t → m ∈ queueOf (f t x) r tc) : m ∈ queueOf (xs.foldl f s) r tc := by
  induction xs generalizing s with
  | nil => cases hx
  | cons y ys ih =>
    rw [List.foldl_cons]
    rcases List.mem_cons.mp hx with rfl | hx
    · exact (Sends.foldl hf ys _).keeps r tc m (hm s (.refl s))
    · exact ih hx fun t ht => hm t ((hf s y).trans ht)

theorem sends_pushFrame (s : State) (r tc : Nat) (f : Frame) : Sends s (pushFrame s r tc f) := by
  refine ⟨rfl, fun _ _ => rfl, fun r' tc' g hg => ?_⟩
  rw [queueOf, pushFrame]
  dsimp only
  by_cases hk : 4 * r' + tc' = 4 * r + tc
  · rw [hk, tget_tput_same]
    rw [queueOf, hk] at hg
    exact List.mem_append_left _ hg
  · rw [tget_tput_ne _ hk]
    exact hg

theorem sends_sendMsg (s : State) (ty dst : Nat) (args : List Int) : Sends s (sendMsg s ty dst args) := by
  rcases sendMsg_cases s ty dst args with h | h <;> rw [h]
  · exact sends_pushFrame ..
  · exact ⟨rfl, fun o ho => rd_setFlag_ne _ _ ho, fun _ _ _ hf => hf⟩

theorem msgTo_eq {s t : State} (h : t.modnum = s.modnum) (ty m : Nat) (args : List Int) : msgTo t ty m args = msgTo s ty m args := by
  rw [msgTo, h, msgTo]

/-- A message that can be sent is in the queue of its group once it has been. -/
theorem SameLinks.mem_sendMsg {s t : State} (h : SameLinks s t) {m : Nat} (hm : msgRouted s m) (ty : Nat) (args : List Int) :
    msgTo s ty m args ∈ queueOf (sendMsg t ty m args) (msgRole s m) 2 := by
  have ht : msgRouted t m := by
    rw [msgRouted, h.msgRole_eq, h.groupDown_eq, h.fenced_eq]
    exact hm
  rw [sendMsg_eq ty args ht, h.msgRole_eq, queueOf_pushFrame_same, msgTo_eq h.modnum]
  exact List.mem_append_right _ (List.mem_singleton_self _)

/-! ## A message on every group -/

/-- A message to the far end of a group. -/
def sendFar (ty : Nat) (args : List Int) (s : State) (r : Nat) : State :=
  match farEnd s r with
  | some m => pushFrame s r 2 (msgTo s ty m args)
  | none => s

theorem sends_sendFar (ty : Nat) (args : List Int) (s : State) (r : Nat) : Sends s (sendFar ty args s r) := by
  unfold sendFar
  split
  · exact sends_pushFrame ..
  · exact .refl s

theorem queueOf_sendFar_ne {ty : Nat} {args : List Int} {s : State} {r r' : Nat} (h : r' ≠ r) :
    queueOf (sendFar ty args s r) r' 2 = queueOf s r' 2 := by
  unfold sendFar
  split
  · exact queueOf_pushFrame_ne s _ (by decide) (by decide) (.inl h)
  · rfl

theorem queueOf_foldl_sendFar_out {ty : Nat} {args : List Int} {r : Nat} {rs : List Nat} (h : r ∉ rs) (s : State) :
    queueOf (rs.foldl (sendFar ty args) s) r 2 = queueOf s r 2 := by
  induction rs generalizing s with
  | nil => rfl
  | cons q rs ih =>
    obtain ⟨hq, hr⟩ := not_or.mp (mt List.mem_cons.mpr h)
    rw [List.foldl_cons, ih hr, queueOf_sendFar_ne hq]

theorem queueOf_foldl_sendFar {ty : Nat} {args : List Int} {r : Nat} {rs : List Nat} (hn : rs.Nodup) (h : r ∈ rs) {s : State} {m : Nat}
    (hm : farEnd s r = some m) : queueOf (rs.foldl (sendFar ty args) s) r 2 = queueOf s r 2 ++ [msgTo s ty m args] := by
  induction rs generalizing s with
  | nil => cases h
  | cons q rs ih =>
    obtain ⟨hq, hn⟩ := List.nodup_cons.mp hn
    rw [List.foldl_cons]
    rcases List.mem_cons.mp h with rfl | hr
    · rw [queueOf_foldl_sendFar_out hq, sendFar, hm]
      exact queueOf_pushFrame_same ..
    · have hne : r ≠ q := fun e => hq (e ▸ hr)
      have hl := (sends_sendFar ty args s q).links
      rw [ih hn hr (by rw [hl.farEnd_eq, hm]), queueOf_sendFar_ne hne, msgTo_eq hl.modnum]

theorem sendAll_eq {s : State} (hf : fenced s = false) (ty : Nat) (args : List Int) :
    sendAll s ty args = (liveRoles s).foldl (sendFar ty args) s := by
  unfold sendAll
  rw [if_neg (by rw [hf]; decide)]
  rfl

theorem sends_sendAll (s : State) (ty : Nat) (args : List Int) : Sends s (sendAll s ty args) := by
  cases hf : fenced s with
  | true =>
    rw [sendAll, if_pos hf]
    exact .refl s
  | false =>
    rw [sendAll_eq hf]
    exact Sends.foldl (sends_sendFar ty args) _ s

theorem toAll_sendAll {s : State} (hf : fenced s = false) (ty : Nat) (args : List Int) : toAll s (sendAll s ty args) ty args := by
  intro r hr m hm
  rw [sendAll_eq hf]
  exact queueOf_foldl_sendFar (List.Nodup.filter _ List.nodup_range) hr hm

/-! ## Cut-outs and notices, again (R344, R420) -/

theorem sends_sendCut (s : State) (m : Nat) : Sends s (sendCut s m) :=
  (sends_sendAll ..).trans (Sends.foldl (fun _ _ => sends_sendMsg ..) _ _)

/-- A cut-out goes to the far end of every group. -/
theorem SameLinks.mem_sendCut {s t : State} (h : SameLinks s t) (hf : fenced s = false) {r m : Nat} (hr : r ∈ liveRoles s)
    (hm : farEnd s r = some m) (c : Nat) : msgTo s 0xb m [(c : Int)] ∈ queueOf (sendCut t c) r 2 := by
  have hall : msgTo s 0xb m [(c : Int)] ∈ queueOf (sendAll t 0xb [(c : Int)]) r 2 := by
    rw [toAll_sendAll (h.fenced_eq.trans hf) 0xb _ r (by rw [h.liveRoles_eq]; exact hr) m (by rw [h.farEnd_eq, hm]), msgTo_eq h.modnum]
    exact List.mem_append_right _ (List.mem_singleton_self _)
  exact (Sends.foldl (fun _ _ => sends_sendMsg ..) _ (sendAll t 0xb [(c : Int)])).keeps r 2 _ hall

/-- Every notice that can be sent is sent again. -/
theorem mem_resend {s : State} {xs : List Unacked} {x : Unacked} (hx : x ∈ xs) (hm : msgRouted s x.mod) (ty : Nat) :
    msgTo s ty x.mod [(x.g : Int), (x.gen : Int)] ∈ queueOf (resend s ty xs) (msgRole s x.mod) 2 :=
  Sends.mem_foldl (fun _ _ => sends_sendMsg ..) hx fun _ ht => ht.links.mem_sendMsg hm ty _

/-- The cut-outs that are still repeated, sent from the state that lists no other. -/
theorem cutouts_repeated {s : State} (hf : fenced s = false) : ∃ u, Runs .cutoutRepeat s u ∧
    (∀ c, c ∈ u.xpt.cuts ↔ c ∈ s.xpt.cuts ∧ s.time.toNat < c.2.toNat + 200000) ∧
    ∀ c ∈ s.xpt.cuts, s.time.toNat < c.2.toNat + 200000 → ∀ r ∈ liveRoles s, ∀ m, farEnd s r = some m →
      msgTo s 0xb m [(c.1 : Int)] ∈ queueOf u r 2 := by
  have hmem (c : Nat × Dword) : c ∈ (s.xpt.cuts.filter fun c => decide (s.time.toNat < c.2.toNat + tick1ms)) ↔
      c ∈ s.xpt.cuts ∧ s.time.toNat < c.2.toNat + 200000 := by
    rw [List.mem_filter, decide_eq_true_iff, tick1ms]
  generalize hcuts : (s.xpt.cuts.filter fun c => decide (s.time.toNat < c.2.toNat + tick1ms)) = cuts at hmem
  have hrun : Runs .cutoutRepeat s
      (cuts.foldl (fun s c => sendCut s c.1) { s with xpt := { s.xpt with cuts := cuts } }) := by
    subst hcuts
    rfl
  have hstep (t : State) (c : Nat × Dword) : Sends t (sendCut t c.1) := sends_sendCut t c.1
  have hsame : SameLinks s { s with xpt := { s.xpt with cuts := cuts } } := ⟨fun _ _ => rfl, fun _ => rfl, rfl⟩
  refine ⟨_, hrun, fun c => ?_, fun c hc ht r hr m hm => ?_⟩
  · rw [(Sends.foldl hstep cuts _).rest, ← hmem]
  · exact Sends.mem_foldl hstep ((hmem c).mpr ⟨hc, ht⟩) fun t hs => (hsame.trans hs.links).mem_sendCut hf hr hm c.1

/-! ## Holds and turns (R100, R416) -/

/-- The modules that a notice goes to. -/
def others (s : State) : List Nat := (members s).filter fun m => m ≠ s.modnum.toNat

theorem mem_others {s : State} {m : Nat} (hm : m ∈ members s) (hne : m ≠ s.modnum.toNat) : m ∈ others s :=
  List.mem_filter.mpr ⟨hm, decide_eq_true hne⟩

/-- A message to each of some modules. -/
def sendEach (s : State) (ty : Nat) (args : List Int) (ms : List Nat) : State := ms.foldl (fun s m => sendMsg s ty m args) s

theorem sends_sendEach (s : State) (ty : Nat) (args : List Int) (ms : List Nat) : Sends s (sendEach s ty args ms) :=
  Sends.foldl (f := fun s m => sendMsg s ty m args) (fun _ _ => sends_sendMsg ..) ms s

theorem SameLinks.mem_sendEach {s t : State} (h : SameLinks s t) {m : Nat} (hm : msgRouted s m) {ms : List Nat} (hms : m ∈ ms)
    (ty : Nat) (args : List Int) : msgTo s ty m args ∈ queueOf (sendEach t ty args ms) (msgRole s m) 2 :=
  Sends.mem_foldl (f := fun s m => sendMsg s ty m args) (fun _ _ => sends_sendMsg ..) hms fun _ ht =>
    (h.trans ht.links).mem_sendMsg hm ty args

/-- The state in which a hold notice goes out. -/
def holdNoted (s : State) : State := { s with crs := { s.crs with lastHold := anyHold s, lastBoard := bhold s } }

theorem sendHold_eq (s : State) :
    sendHold s = sendEach (holdNoted s) 3 [(b2n (anyHold s) : Int), (b2n (bhold s) : Int)] (others s) := rfl

theorem hold_sent {s : State} (he : s.crs.ext = true) : ∃ u, Runs .holdNoticeTimer s u ∧ u.crs.lastHold = anyHold s ∧
    u.crs.lastBoard = bhold s ∧ ∀ m ∈ members s, m ≠ s.modnum.toNat → msgRouted s m →
      msgTo s 0x3 m [(b2n (anyHold s) : Int), (b2n (bhold s) : Int)] ∈ queueOf u (msgRole s m) 2 := by
  have hrun : Runs .holdNoticeTimer s (sendHold s) := by
    show execHoldNoticeTimer s = _
    rw [execHoldNoticeTimer, if_pos he]
  have hsame : SameLinks s (holdNoted s) := ⟨fun _ _ => rfl, fun _ => rfl, rfl⟩
  rw [sendHold_eq] at hrun
  refine ⟨_, hrun, ?_, ?_, fun m hm hne hr => hsame.mem_sendEach hr (mem_others hm hne) 3 _⟩
  · rw [(sends_sendEach ..).crs_eq, holdNoted]
  · rw [(sends_sendEach ..).crs_eq, holdNoted]

/-- The state in which a turn point goes out. -/
def turnNoted (s : State) (t0 : Dword) : State :=
  { s with crs := { s.crs with turnT0 := t0 }, xpt := { s.xpt with vturnGot := [] } }

theorem sendVturn_eq (s : State) (t0 : Dword) :
    sendVturn s t0 = sendEach (turnNoted s t0) 7 [(s.crs.incoming.toNat : Int), (t0.toNat : Int)] (others s) := by
  have hstep (t : State) (k : Nat) (ht : t.crs.incoming = s.crs.incoming) :
      sendMsg t 7 k [(t.crs.incoming.toNat : Int), (t0.toNat : Int)] =
        sendMsg t 7 k [(s.crs.incoming.toNat : Int), (t0.toNat : Int)] := by rw [ht]
  have hfold (ks : List Nat) (t : State) (ht : t.crs.incoming = s.crs.incoming) :
      ks.foldl (fun s k => sendMsg s 7 k [(s.crs.incoming.toNat : Int), (t0.toNat : Int)]) t =
        sendEach t 7 [(s.crs.incoming.toNat : Int), (t0.toNat : Int)] ks := by
    induction ks generalizing t with
    | nil => rfl
    | cons k ks ih =>
      rw [List.foldl_cons, hstep t k ht, ih _ (by rw [(sends_sendMsg ..).crs_eq, ht])]
      rfl
  exact hfold (others s) (turnNoted s t0) rfl

theorem vturn_sent {s : State} {t0 : Dword} (he : s.crs.ext = true) (hmas : crossingMaster s = true) (harm : turnArmed s = true)
    (hmiss : ∃ m ∈ members s, m ≠ s.modnum.toNat ∧ m ∉ s.xpt.vturnGot) (ht : s.time.toNat + 200000 ≤ t0.toNat)
    (hlt : s.crs.turnT0.toNat < t0.toNat) : ∃ u, Runs (.vturnAckTimeout t0) s u ∧ u.crs.turnT0 = t0 ∧ u.xpt.vturnGot = [] ∧
      ∀ m ∈ members s, m ≠ s.modnum.toNat → msgRouted s m →
        msgTo s 0x7 m [(s.crs.incoming.toNat : Int), (t0.toNat : Int)] ∈ queueOf u (msgRole s m) 2 := by
  have hrun : Runs (.vturnAckTimeout t0) s (sendVturn s t0) := by
    obtain ⟨m, hm, hne, hgot⟩ := hmiss
    have hany : ((members s).any fun m => m ≠ s.modnum.toNat ∧ !s.xpt.vturnGot.contains m) = true :=
      List.any_eq_true.mpr ⟨m, hm, by simp [hne, hgot]⟩
    show execVturnAckTimeout t0 s = _
    unfold execVturnAckTimeout
    rw [if_pos ⟨he, hmas, harm, hany, ht, hlt⟩]
  have hsame : SameLinks s (turnNoted s t0) := ⟨fun _ _ => rfl, fun _ => rfl, rfl⟩
  rw [sendVturn_eq] at hrun
  refine ⟨_, hrun, ?_, ?_, fun m hm hne hr => hsame.mem_sendEach hr (mem_others hm hne) 7 _⟩
  · rw [(sends_sendEach ..).crs_eq, turnNoted]
  · rw [(sends_sendEach ..).rest, turnNoted]

/-! ## The time parent (R417, R418) -/

theorem mem_of_bestPath {xs : List (Nat × Nat)} {y : Nat × Nat} (h : bestPath xs = some y) : y ∈ xs := by
  induction xs generalizing y with
  | nil => cases h
  | cons x xs ih =>
    unfold bestPath at h
    cases hb : bestPath xs with
    | none =>
      rw [hb] at h
      cases h
      exact List.mem_cons_self
    | some z =>
      rw [hb] at h
      dsimp only at h
      split at h <;> cases h
      · exact List.mem_cons_of_mem _ (ih hb)
      · exact List.mem_cons_self

/-- A path leads through a port of a group that is not down. -/
theorem port_of_bestPath {s : State} {best port : Nat} (h : bestPath (timePaths s) = some (best, port)) :
    port < 16 ∧ groupDown s (portRole s port) = false := by
  obtain ⟨r, hr, hp⟩ := List.mem_filterMap.mp (mem_of_bestPath h)
  obtain ⟨p, hfind, hpair⟩ := Option.map_eq_some_iff.mp hp
  cases hpair
  have hmem := List.mem_of_find?_eq_some hfind
  have hrole := (List.mem_filter.mp hmem).2
  rw [Bool.and_eq_true, beq_iff_eq] at hrole
  have hlive := (List.mem_filter.mp hr).2
  exact ⟨lt_of_mem_rolePorts hmem, by rw [hrole.1]; simpa using hlive⟩

theorem sameLinks_wrFld_tstat (s : State) (hi lo v : Nat) : SameLinks s (wrFld s rTstat hi lo v) := by
  refine ⟨fun o ho => rd_wrFld_ne s _ _ _ ?_, fun _ => rfl, rfl⟩
  rcases ho with rfl | ho | ⟨q, hq, rfl⟩ <;> simp only [rRing, rPort, rTstat] <;> omega

theorem inTime_wrFld {s : State} {hi lo : Nat} (v : Nat) (h : 1 < lo) (x : TimeSt) : inTime (wrFld s rTstat hi lo v) x = inTime s x := by
  rw [inTime, rdFld_wrFld_ne _ _ (by decide) (.inr (.inl h)), inTime]

/-- The exchanges are counted anew. -/
def noExchange (s : State) : State := { s with xpt := { s.xpt with exch := 0 } }

theorem parentPort_noExchange (s : State) : parentPort (noExchange s) = parentPort s := rfl
theorem inTime_noExchange (s : State) (x : TimeSt) : inTime (noExchange s) x = inTime s x := rfl
theorem sameLinks_noExchange (s : State) : SameLinks s (noExchange s) := ⟨fun _ _ => rfl, fun _ => rfl, rfl⟩

theorem takeParent_eq (s : State) (port hops : Nat) :
    takeParent s port hops = noExchange (setTime (wrFld (wrFld s rTstat 19 16 port) rTstat 12 8 hops) .acquiring) := rfl

/-- A time parent that is taken. -/
theorem takeParent_spec (s : State) {port : Nat} (hp : port < 16) (hops : Nat) : parentPort (takeParent s port hops) = port ∧
    (∀ x, inTime (takeParent s port hops) x = (TimeSt.acquiring.num == x.num)) ∧ (takeParent s port hops).xpt.exch = 0 ∧
    SameLinks s (takeParent s port hops) := by
  rw [takeParent_eq]
  refine ⟨?_, fun x => ?_, rfl, ?_⟩
  · rw [parentPort_noExchange, parentPort, setTime, rdFld_wrFld_ne _ _ (by decide) (.inr (.inr (by decide))),
      rdFld_wrFld_ne _ _ (by decide) (.inr (.inr (by decide))), rdFld_wrFld_same _ _ (by decide) (by omega)]
  · rw [inTime_noExchange, inTime_setTime]
  · exact (((sameLinks_wrFld_tstat s 19 16 port).trans (sameLinks_wrFld_tstat _ 12 8 hops)).trans
      (sameLinks_wrFld_tstat _ 1 0 TimeSt.acquiring.num)).trans (sameLinks_noExchange _)

/-- The parent that the nearest path gives, and the state of time alignment. -/
theorem findParent_spec {s : State} {best port : Nat} (h : bestPath (timePaths s) = some (best, port)) :
    parentPort (findParent s) = port ∧ inTime (findParent s) .free = false ∧ inTime (findParent s) .holdover = false ∧
      SameLinks s (findParent s) ∧
      (port ≠ parentPort s ∨ inTime s .free = true → inTime (findParent s) .acquiring = true ∧ (findParent s).xpt.exch = 0) := by
  have hp := (port_of_bestPath h).1
  unfold findParent
  rw [h]
  dsimp only
  generalize hs : ({ s with free := s.free + 1 } : State) = t
  have hpar : parentPort t = parentPort s := by subst hs; rfl
  have hin (x : TimeSt) : inTime t x = inTime s x := by subst hs; rfl
  have hlinks : SameLinks s t := by subst hs; exact ⟨fun _ _ => rfl, fun _ => rfl, rfl⟩
  by_cases hkeep : port = parentPort t ∧ (inTime t .acquiring = true ∨ inTime t .locked = true)
  · rw [if_pos hkeep]
    have hnot : inTime t .free = false ∧ inTime t .holdover = false := by
      rcases hkeep.2 with hk | hk <;>
      · rw [inTime, beq_iff_eq] at hk
        simp only [inTime, hk]
        decide
    refine ⟨?_, (inTime_wrFld _ (by decide) _).trans hnot.1, (inTime_wrFld _ (by decide) _).trans hnot.2,
      hlinks.trans (sameLinks_wrFld_tstat ..), fun hne => ?_⟩
    · rw [parentPort, rdFld_wrFld_ne _ _ (by decide) (.inr (.inr (by decide)))]
      exact hkeep.1.symm
    · rcases hne with hne | hne
      · exact absurd (hkeep.1.trans hpar) hne
      · rw [← hin, hnot.1] at hne
        cases hne
  · rw [if_neg hkeep]
    obtain ⟨hport, hst, hexch, hl⟩ := takeParent_spec t hp best
    exact ⟨hport, hst .free, hst .holdover, hlinks.trans hl, fun _ => ⟨hst .acquiring, hexch⟩⟩

theorem txq_takeParent (s : State) (port hops : Nat) : (takeParent s port hops).xpt.txq = s.xpt.txq := rfl

theorem txq_findParent (s : State) : (findParent s).xpt.txq = s.xpt.txq := by
  unfold findParent
  split
  · dsimp only
    split
    · rfl
    · exact txq_takeParent ..
  · rfl

theorem findParent_none {s : State} (h : bestPath (timePaths s) = none) : findParent s = s := by
  unfold findParent
  rw [h]

/-- An exchange on the link to the parent. -/
theorem exchange_sent {s : State} (phy : Int) (hm : timeMaster s = false) (hh : inTime s .holdover = false)
    (hfree : inTime (findParent s) .free = false) (hhold : inTime (findParent s) .holdover = false) (hl : SameLinks s (findParent s))
    (hf : fenced s = false) (hlt : parentPort (findParent s) < 16)
    (hg : groupDown s (portRole s (parentPort (findParent s))) = false) :
    Runs (.timeExchange phy) s (pushFrame (findParent s) (portRole s (parentPort (findParent s))) 2
      (.msg 1 s.modnum.toNat (timePeer (findParent s)) [phy] [])) := by
  have hrole : portRole (findParent s) (parentPort (findParent s)) = portRole s (parentPort (findParent s)) := by
    rw [portRole, hl.port_eq hlt, portRole]
  show execTimeExchange phy s = _
  unfold execTimeExchange
  dsimp only
  rw [if_neg (show ¬ timeMaster s = true by rw [hm]; decide), if_neg (show ¬ inTime s .holdover = true by rw [hh]; decide), hrole,
    if_neg, hl.modnum]
  rw [hfree, hhold, hl.groupDown_eq, hg, hl.fenced_eq, hf]
  decide

theorem timePeer_eq {s t : State} (hl : SameLinks s t) {p : Nat} (hp : parentPort t = p) (hlt : p < 16) (h7 : portPeer s p ≠ 0x7ff) :
    timePeer t = portPeer s p := by
  have hpeer : portPeer t p = portPeer s p := by rw [portPeer, hl.port_eq hlt, portPeer]
  unfold timePeer
  rw [hp, hpeer]
  dsimp only
  rw [if_neg h7]

theorem parentPort_pushFrame (s : State) (r tc : Nat) (f : Frame) : parentPort (pushFrame s r tc f) = parentPort s := rfl
theorem inTime_pushFrame (s : State) (r tc : Nat) (f : Frame) (x : TimeSt) : inTime (pushFrame s r tc f) x = inTime s x := rfl

theorem parentPort_lt (s : State) : parentPort s < 16 :=
  show parentPort s < 2 ^ (19 + 1 - 16) from Nat.mod_lt _ (Nat.two_pow_pos _)

/-- TIME_EXCHANGE of a module that is not in HOLDOVER. -/
theorem timeExchange_spec (phy : Int) {s : State} (hm : timeMaster s = false) (hh : inTime s .holdover = false)
    (hf : fenced s = false) :
    (∀ best port, bestPath (timePaths s) = some (best, port) → ∃ u, Runs (.timeExchange phy) s u ∧ parentPort u = port ∧
      (port ≠ parentPort s ∨ inTime s .free = true → inTime u .acquiring = true ∧ u.xpt.exch = 0) ∧
      (portPeer s port ≠ 0x7ff →
        queueOf u (portRole s port) 2 = queueOf s (portRole s port) 2 ++ [msgTo s 0x1 (portPeer s port) [phy]])) ∧
    (bestPath (timePaths s) = none → inTime s .free = false → groupDown s (portRole s (parentPort s)) = false →
      portPeer s (parentPort s) ≠ 0x7ff → ∃ u, Runs (.timeExchange phy) s u ∧
        queueOf u (portRole s (parentPort s)) 2 = queueOf s (portRole s (parentPort s)) 2 ++
          [msgTo s 0x1 (portPeer s (parentPort s)) [phy]]) ∧
    (bestPath (timePaths s) = none → inTime s .free = true → Runs (.timeExchange phy) s s) := by
  refine ⟨fun best port hb => ?_, fun hb hfree hg h7 => ?_, fun hb hfree => ?_⟩
  · obtain ⟨hport, hfree, hhold, hl, hacq⟩ := findParent_spec hb
    obtain ⟨hlt, hg⟩ := port_of_bestPath hb
    have hrun := exchange_sent phy hm hh hfree hhold hl hf (by rw [hport]; exact hlt) (by rw [hport]; exact hg)
    rw [hport] at hrun
    have hq (r : Nat) : queueOf (findParent s) r 2 = queueOf s r 2 := by rw [queueOf, txq_findParent, queueOf]
    refine ⟨_, hrun, ?_, fun hne => ?_, fun h7 => ?_⟩
    · rw [parentPort_pushFrame, hport]
    · rw [inTime_pushFrame]
      exact hacq hne
    rw [queueOf_pushFrame_same, hq, timePeer_eq hl hport hlt h7, msgTo]
  · have hrun := exchange_sent phy hm hh (by rw [findParent_none hb, hfree]) (by rw [findParent_none hb, hh])
      (by rw [findParent_none hb]; exact .refl s) hf (parentPort_lt _) (by rw [findParent_none hb]; exact hg)
    rw [findParent_none hb] at hrun
    exact ⟨_, hrun, by rw [queueOf_pushFrame_same, timePeer_eq (.refl s) rfl (parentPort_lt s) h7, msgTo]⟩
  · show execTimeExchange phy s = _
    unfold execTimeExchange
    dsimp only
    rw [if_neg (show ¬ timeMaster s = true by rw [hm]; decide), findParent_none hb, ite_self, if_pos (.inl hfree)]

/-- TIME_PARENT_LOSS. -/
theorem timeParentLoss_spec {s : State} (hm : timeMaster s = false) (hfree : inTime s .free = false) :
    (∃ u, Runs (.timeParentLoss none) s u ∧ inTime u .holdover = true ∧ rdFld u 0x5000c 6 6 = 1 ∧ u.xpt.rate = s.xpt.rate) ∧
    (∀ p h, ∃ u, Runs (.timeParentLoss (some (p, h))) s u ∧ inTime u .acquiring = true ∧ parentPort u = p.val) := by
  have hif : ¬ (timeMaster s = true ∨ inTime s .free = true) := by
    rw [hm, hfree]
    decide
  constructor
  · have hrun : Runs (.timeParentLoss none) s
        (setFlag { setTime s .holdover with xpt := { s.xpt with rateAt := s.edges + edges1ms } } rXcause 6) := by
      show execTimeParentLoss none s = _
      rw [execTimeParentLoss, if_neg hif]
    refine ⟨_, hrun, ?_, rdFld_setFlag_same _ _ (by decide), rfl⟩
    rw [inTime, rdFld, rd_setFlag_ne _ _ (by decide)]
    exact inTime_setTime s .holdover .holdover
  · intro p hops
    have hrun : Runs (.timeParentLoss (some (p, hops))) s (takeParent s p.val hops.toNat) := by
      show execTimeParentLoss (some (p, hops)) s = _
      rw [execTimeParentLoss, if_neg hif]
    obtain ⟨hport, hst, -, -⟩ := takeParent_spec s p.isLt hops.toNat
    exact ⟨_, hrun, hst .acquiring, hport⟩

/-- Settles O36: the timers only send, so that what one step of them puts into a queue is there at the end. -/
theorem messageTimers : Obligations.MessageTimers := by
  refine ⟨fun s hf => ⟨⟨_, rfl, toAll_sendAll hf 2 []⟩, fun hfatal => ⟨sendAll s 9 [], ?_, toAll_sendAll hf 9 []⟩, fun hfatal => ?_, ?_, ?_,
    fun x hx hr => ⟨_, rfl, mem_resend hx hr 5⟩, fun x hx hr => ⟨_, rfl, mem_resend hx hr 0xa⟩, hold_sent,
    fun t0 he hmas harm hmiss ht hlt => vturn_sent he hmas harm hmiss ht hlt⟩,
    fun phy s hm hh hf => timeExchange_spec phy hm hh hf, fun s hm hfree => timeParentLoss_spec hm hfree⟩
  · show execFaultRepeat s = _
    rw [execFaultRepeat, if_pos hfatal]
  · show execFaultRepeat s = _
    rw [execFaultRepeat, if_neg (by rw [hfatal]; decide)]
  · obtain ⟨u, hrun, hcuts, -⟩ := cutouts_repeated hf
    exact ⟨u, hrun, hcuts⟩
  · intro c hc ht
    obtain ⟨u, hrun, -, hsent⟩ := cutouts_repeated hf
    exact ⟨u, hrun, hsent c hc ht⟩

end Sys2Proof.Laws
end

section
/-! A DMA error in a queue set that is closing (R440, R455, R484). -/

namespace Sys2Proof.Laws

open Sys2Proof Sys2Proof.Machine Sys2Proof.Claims

/-- A request whose DMA fails. -/
def failingReq : Req := { uid := 4, q := 5, tenant := 0x40, raw := [], input := [] }

/-- Queue set 5 is enabled, is to reset once its last record is posted (R484), and no record waits. -/
def closingQueue : State := { setQs (wr {} (rQs 5 0) 1) 5 { closing := true } with reqs := [failingReq] }

/-- The board takes the record of the failed request, and the request is there to fail. -/
theorem closingQueue_open : boardOpen closingQueue 5 ∧
    (closingQueue.reqs.find? fun x => x.uid == failingReq.uid && x.q == 5) = some failingReq := by
  simp only [boardOpen]
  decide +kernel

/-- The record of the failed request is the last one, so that the queue set resets (R455), which ends the halt of the DMA error. -/
theorem closingQueue_resets : ∃ u, Runs (.hostDmaCompletion 5 (some failingReq.uid) true) closingQueue u ∧
    (getQs u 5).halted = false := by
  refine ⟨_, rfl, ?_⟩
  decide +kernel

/-- Refutes O41: its clause on a DMA error speaks of every queue set whose board is open. Nothing in it rules out one that is closing
and has no record waiting, which `resetAfterKill` itself resets at once; there the reset that follows the failed request's record
leaves the queue set not halted. -/
theorem not_queueEntries : ¬ Obligations.QueueEntries := by
  rintro ⟨-, -, hrecords, -⟩
  obtain ⟨hopen, hfind⟩ := closingQueue_open
  obtain ⟨u, hrun, -, hhalted, -⟩ := (hrecords 5 failingReq closingQueue hopen rfl).2 hfind
  obtain ⟨v, hrun', hv⟩ := closingQueue_resets
  have huv : u = v := Host.Outcome.next.inj (hrun.symm.trans hrun')
  rw [huv] at hhalted
  exact absurd (hv.symm.trans hhalted) (by decide)

end Sys2Proof.Laws
end

section
/-! What the loss of a landing leaves of the records of losses: GLB.CAUSE, GLB.LFAIL, GLB.ERRSTAT and the codes of lost landings, two
bits of CRS.CAUSE, the landing's job, the requests and the jobs (R94, R97, R540, R543). One frame lemma for each function of the
model, in the model's order. -/

namespace Sys2Proof.Laws

open Sys2Proof Sys2Proof.Machine

/-! ## The records -/

/-- GLB.CAUSE, GLB.LFAIL, GLB.ERRSTAT and GLB.LCODE. -/
def tollReg (o : Nat) : Bool := o == 0x30 || o == 0x50 || o == 0x58 || (decide (0x60 ≤ o) && decide (o < 0x80))

/-- A word of the register table. -/
def wordAt (t : Tab Word) (o : Nat) : Word := tget (resetWord o) t o

/-- The records of losses. -/
structure Toll where
  word : Nat → Word
  closed : Nat
  opened : Nat
  bind : Nat
  reqs : List Req
  jobs : List Job

/-- The records of losses, with the job of landing l. It is irreducible so that `simp` rewrites by the frame lemmas below. -/
@[irreducible] def toll (l : Nat) (s : State) : Toll :=
  ⟨wordsOf tollReg s.regs, wfld (wordAt s.regs rCrsCause) 2 2, wfld (wordAt s.regs rCrsCause) 3 3,
    wfld (wordAt s.regs (rBind l)) 9 0, s.reqs, s.hm.jobs⟩

theorem toll_def (l : Nat) (s : State) : toll l s =
    ⟨wordsOf tollReg s.regs, wfld (wordAt s.regs rCrsCause) 2 2, wfld (wordAt s.regs rCrsCause) 3 3,
      wfld (wordAt s.regs (rBind l)) 9 0, s.reqs, s.hm.jobs⟩ := by rw [toll]

section
variable (l : Nat)

/-- A record update: its left side is the state with its fields written out. -/
@[simp] theorem toll_mk {pending time edges mem poison uerr cerr regs latch heldLow threads cores lands trainCw trainCcw
    crs accs nextId sto xpt reqs qsets pcie hm pwr boot tap mgmt dbg served fetched nextReq fuses modnum free outs} :
    toll l ⟨pending, time, edges, mem, poison, uerr, cerr, regs, latch, heldLow, threads, cores, lands, trainCw, trainCcw,
      crs, accs, nextId, sto, xpt, reqs, qsets, pcie, hm, pwr, boot, tap, mgmt, dbg, served, fetched, nextReq, fuses,
      modnum, free, outs⟩ =
    ⟨wordsOf tollReg regs, wfld (wordAt regs rCrsCause) 2 2, wfld (wordAt regs rCrsCause) 3 3, wfld (wordAt regs (rBind l)) 9 0,
      reqs, hm.jobs⟩ := toll_def ..

@[simp] theorem toll_eta (s : State) :
    (⟨wordsOf tollReg s.regs, wfld (wordAt s.regs rCrsCause) 2 2, wfld (wordAt s.regs rCrsCause) 3 3,
      wfld (wordAt s.regs (rBind l)) 9 0, s.reqs, s.hm.jobs⟩ : Toll) = toll l s := (toll_def l s).symm

@[simp] theorem toll_ite (c : Prop) [Decidable c] (a b : State) :
    toll l (if c then a else b) = if c then toll l a else toll l b := apply_ite (toll l) c a b

@[simp] theorem toll_foldl {α : Type} {f : State → α → State} (hf : ∀ s a, toll l (f s a) = toll l s) (xs : List α) (s : State) :
    toll l (xs.foldl f s) = toll l s :=
  foldl_keeps (P := fun t => toll l t = toll l s) (fun t a h => (hf t a).trans h) xs rfl

/-- Registers whose words are not recorded. -/
def untold (l o : Nat) : Prop := tollReg o = false ∧ o ≠ rCrsCause ∧ o ≠ rBind l

theorem wordAt_tput {o p : Nat} (h : p ≠ o) (v : Word) (t : Tab Word) : wordAt (tput (resetWord o) o v t) p = wordAt t p :=
  tget_tput_other _ _ h _ _

theorem toll_wr (s : State) {o : Nat} (h : untold l o) (v : Word) : toll l (wr s o v) = toll l s := by
  obtain ⟨ht, hc, hb⟩ := h
  rw [wr, toll_mk, wordsOf_tput ht, wordAt_tput (Ne.symm hc), wordAt_tput (Ne.symm hb), toll_eta]

theorem toll_wrFld (s : State) {o : Nat} (h : untold l o) (hi lo v : Nat) : toll l (wrFld s o hi lo v) = toll l s := toll_wr l s h _

theorem toll_setFlag (s : State) {o : Nat} (h : untold l o) (i : Nat) : toll l (setFlag s o i) = toll l s := toll_wr l s h _

theorem tollReg_false {o : Nat} (h : 0x80 ≤ o) : tollReg o = false := by
  simp only [tollReg, Bool.or_eq_false_iff, Bool.and_eq_false_iff, beq_eq_false_iff_ne, decide_eq_false_iff_not]
  omega

/-- A field of a register of a landing, above the job that it names. -/
theorem toll_wrFld_high (s : State) {o : Nat} (h : 0x1000000 ≤ o) {hi lo : Nat} (hl : 9 < lo) (v : Nat) :
    toll l (wrFld s o hi lo v) = toll l s := by
  have hb : wfld (wordAt (wrFld s o hi lo v).regs (rBind l)) 9 0 = wfld (wordAt s.regs (rBind l)) 9 0 :=
    rdFld_wrFld_ne (p := rBind l) s v (by decide) (.inr (.inl hl))
  rw [toll_def, hb, wrFld, wr]
  dsimp only
  rw [wordsOf_tput (tollReg_false (by omega)), wordAt_tput (by rw [rCrsCause]; omega), toll_eta]

/-- The registers of the module that work on the way to a loss writes. -/
theorem untold_module : ∀ o ∈ [rXcause, rVctl, rVstat, rCkevt, rLerr, rCerr, rCkstat, 0x80010], untold l o := by
  have hb : 0x1000000 ≤ rBind l := by rw [rBind, lcBase]; omega
  intro o ho
  have h : 0x80 ≤ o ∧ o < 0x1000000 ∧ o ≠ rCrsCause := by
    revert o
    decide
  exact ⟨tollReg_false h.1, h.2.2, by omega⟩

theorem untold_port (p : Nat) (hp : p < 72) : untold l (rPd p) := by
  have hb : 0x1000000 ≤ rBind l := by rw [rBind, lcBase]; omega
  refine ⟨tollReg_false ?_, ?_, ?_⟩ <;> simp only [rPd, rCrsCause] <;> omega

/-- The flags of CRS.CAUSE that are not recorded. -/
@[simp] theorem toll_setFlag_abandon (s : State) : toll l (setFlag s rCrsCause 1) = toll l s := by
  have hc (i : Nat) (hi : i < 32) (h : 1 < i) : wfld (wordAt (setFlag s rCrsCause 1).regs rCrsCause) i i = wfld (wordAt s.regs rCrsCause) i i :=
    rdFld_setFlag_off (p := rCrsCause) s hi (.inr (.inl h))
  rw [toll_def, hc 2 (by decide) (by decide), hc 3 (by decide) (by decide), setFlag, wr]
  dsimp only
  rw [wordsOf_tput (by decide), wordAt_tput (by rw [rBind, lcBase, rCrsCause]; omega), toll_eta]

@[simp] theorem toll_setLand (s : State) (k : Nat) (x : Landing) : toll l (setLand s k x) = toll l s := by simp [setLand]

@[simp] theorem toll_emit (s : State) (o : Out) : toll l (emit s o) = toll l s := by simp [emit]

@[simp] theorem toll_scrubRange (s : State) (k n : Nat) : toll l (scrubRange s k n) = toll l s := by simp [scrubRange]

/-! ## Messages and holds -/

@[simp] theorem toll_sendMsg (s : State) (ty dst : Nat) (args : List Int) : toll l (sendMsg s ty dst args) = toll l s := by
  rcases sendMsg_cases s ty dst args with h | h <;> rw [h]
  · simp [pushFrame]
  · exact toll_setFlag l s (untold_module l _ (by decide)) 7

@[simp] theorem toll_sendAll (s : State) (ty : Nat) (args : List Int) : toll l (sendAll s ty args) = toll l s := by
  unfold sendAll
  split
  · rfl
  · refine toll_foldl l (fun s r => ?_) _ s
    split <;> simp [pushFrame]

@[simp] theorem toll_noticeHold (s : State) : toll l (noticeHold s) = toll l s := by simp [noticeHold, sendHold]

@[simp] theorem toll_updHold (s : State) (k : Nat) : toll l (updHold s k) = toll l s := by simp [updHold]

@[simp] theorem toll_updHolds (s : State) : toll l (updHolds s) = toll l s := by simp [updHolds]

/-! ## The crossing -/

@[simp] theorem toll_emptyTrains (s : State) : toll l (emptyTrains s) = toll l s := by simp [emptyTrains]

@[simp] theorem toll_abandonLap (s : State) : toll l (abandonLap s) = toll l s := by simp [abandonLap]

@[simp] theorem toll_endStep (s : State) : toll l (endStep s) = toll l s := by simp [endStep]

@[simp] theorem toll_clearCredit (s : State) : toll l (clearCredit s) = toll l s := by simp [clearCredit]

@[simp] theorem toll_setStandIn (s : State) (home : Nat) : toll l (setStandIn s home) = toll l s := by
  unfold setStandIn
  split <;> simp

/-! ## Areas and storage -/

@[simp] theorem toll_setUse (s : State) (k j u : Nat) : toll l (setUse s k j u) = toll l s :=
  toll_wrFld_high l s (by rw [rArea, lcBase]; omega) (by decide) u

@[simp] theorem toll_changeUse (s : State) (u v : Nat) : toll l (changeUse s u v) = toll l s := by simp [changeUse]

@[simp] theorem toll_sendPacket (s : State) (t : Nat) (o : Nat → Out) : toll l (sendPacket s t o) = toll l s := by
  simp [sendPacket]

@[simp] theorem toll_pump (s : State) (t : Nat) : toll l (pump s t) = toll l s := by simp [pump, sendNvme]

@[simp] theorem toll_issueNvme (s : State) (use : NvUse) (tgt op nsid slba blocks : Nat) (fua : Bool) (data : List Byte) :
    toll l (issueNvme s use tgt op nsid slba blocks fua data) = toll l s := by
  simp [issueNvme, addNvme]

@[simp] theorem toll_connect (s : State) (t : Nat) : toll l (connect s t) = toll l s := by simp [connect, addNvme]

@[simp] theorem toll_dropCmds (s : State) (o : NvOp) : toll l (dropCmds s o) = toll l s := by simp [dropCmds]

@[simp] theorem toll_storeErr_load (s : State) (code tgt status : Nat) : toll l (storeErr s rLerr code tgt status) = toll l s :=
  toll_wr l s (untold_module l _ (by decide)) _

@[simp] theorem toll_setLstate (s : State) (x : LState) : toll l (setLstate s x) = toll l s :=
  toll_wrFld l s (untold_module l _ (by decide)) ..

@[simp] theorem toll_freeIncoming (s : State) : toll l (freeIncoming s) = toll l s := by simp [freeIncoming]

@[simp] theorem toll_endLoadOrder (s : State) : toll l (endLoadOrder s) = toll l s :=
  (toll_wrFld l _ (untold_module l _ (by decide)) ..).trans (toll_wrFld l s (untold_module l _ (by decide)) ..)

@[simp] theorem toll_failLoad (s : State) (code : StoErr) (tgt status : Nat) : toll l (failLoad s code tgt status) = toll l s := by
  have h := toll_setFlag l s (untold_module l rCkevt (by decide)) 1
  simp [failLoad, h]

@[simp] theorem toll_startReload (s : State) (home v : Nat) : toll l (startReload s home v) = toll l s := by
  unfold startReload
  split
  · simp
  · split
    · split <;> simp [readSlice, connectAll]
    · simp

@[simp] theorem toll_freeShadows (s : State) (p : Shadow → Bool) : toll l (freeShadows s p) = toll l s := by simp [freeShadows]

@[simp] theorem toll_dropReloads (s : State) (p : Reload → Bool) : toll l (dropReloads s p) = toll l s := by simp [dropReloads]

@[simp] theorem toll_giveLauncher (s : State) (home : Nat) (failed : Bool) : toll l (giveLauncher s home failed) = toll l s := by
  unfold giveLauncher
  split
  · simp
  · split <;> simp

@[simp] theorem toll_giveLaunchers (s : State) (k : Nat) (other : Option Nat) (failed : Bool) :
    toll l (giveLaunchers s k other failed) = toll l s := by
  cases other <;> simp [giveLaunchers]

@[simp] theorem toll_leaveCrossing (s : State) (k : Nat) : toll l (leaveCrossing s k) = toll l s := by
  simp [leaveCrossing, markOut]

@[simp] theorem toll_failCk (s : State) (code : StoErr) (tgt status : Nat) : toll l (failCk s code tgt status) = toll l s := by
  have hflag (s : State) : toll l (setFlag s rCkevt 0) = toll l s := toll_setFlag l s (untold_module l _ (by decide)) 0
  have horder (s : State) : toll l (clearCkOrder s) = toll l s := toll_wrFld l s (untold_module l _ (by decide)) ..
  have hstate (s : State) (x : CkState) : toll l (setCkState s x) = toll l s := toll_wrFld l s (untold_module l _ (by decide)) ..
  have herr (s : State) (c t n : Nat) : toll l (storeErr s rCerr c t n) = toll l s := toll_wr l s (untold_module l _ (by decide)) _
  simp [failCk, endCk, setCk, hflag, horder, hstate, herr]

@[simp] theorem toll_failOp (s : State) (o : NvOp) (code : StoErr) (tgt status : Nat) : toll l (failOp s o code tgt status) = toll l s := by
  unfold failOp
  split <;> simp [failReload]

@[simp] theorem toll_loseConnection (s : State) (t : Nat) : toll l (loseConnection s t) = toll l s := by
  simp [loseConnection, loseOp, dropQp]

@[simp] theorem toll_dropIncoming (s : State) (ls : List Nat) : toll l (dropIncoming s ls) = toll l s := by
  have h := toll_wrFld l s (untold_module l rVctl (by decide)) 17 17 0
  simp [dropIncoming, h]

/-! ## Domains that leave ON -/

/-- A change of register words above those recorded. -/
theorem toll_filterMap (s : State) {f : Nat × Word → Option (Nat × Word)} (hf : ∀ e x, f e = some x → x.1 = e.1)
    (hp : ∀ o v, o < 0x1000000 ∨ o = rBind l → f (o, v) = some (o, v)) (hm : Hm) (hj : hm.jobs = s.hm.jobs) :
    toll l { s with regs := s.regs.filterMap f, hm := hm } = toll l s := by
  have hw (o : Nat) (ho : o < 0x1000000 ∨ o = rBind l) : wordAt (s.regs.filterMap f) o = wordAt s.regs o :=
    tget_filterMap_same _ hf (fun v => hp o v ho) _
  have hlow {o : Nat} (ho : tollReg o = true) : o < 0x1000000 := by
    by_contra hn
    rw [tollReg_false (by omega)] at ho
    cases ho
  rw [toll_mk, wordsOf_filterMap hf (fun o v ho => hp o v (.inl (hlow ho))), hw _ (.inl (by decide)), hw _ (.inr rfl), hj, toll_eta]

@[simp] theorem toll_loseLeaves (s : State) (k : Nat) (hk : k < 32) : toll l (loseLeaves s k) = toll l s := by
  have h (f : Nat → Word → Word) : toll l (mapCoreRegs s k f) = toll l s := by
    refine toll_filterMap l s (fun e x h => ?_) (fun o v h => ?_) _ rfl
    · split at h
      · dsimp only at h
        split at h <;> cases h
        rfl
      · cases h
        rfl
    · rw [if_neg]
      simp only [coreBase, lcBase, rBind] at h ⊢
      omega
  simp [loseLeaves, h]

@[simp] theorem toll_resetWins (s : State) (hl : l < 32) : toll l (resetWins s l) = toll l s := by
  refine toll_filterMap l s (fun e x h => ?_) (fun o v h => ?_) _ rfl
  · split at h
    · split at h
      · split at h <;> cases h
        rfl
      · cases h
    · cases h
      rfl
  · rw [if_neg]
    simp only [winBase, if_pos hl, lcBase, rBind] at h ⊢
    omega

theorem wordAt_dropRegs (s : State) (lo n o : Nat) :
    wordAt (dropRegs s lo n).regs o = if lo ≤ o ∧ o < lo + n then resetWord o else wordAt s.regs o := tget_tclear ..

/-- Registers that are dropped, those of the module not among them. -/
theorem toll_dropRegs (s : State) {lo : Nat} (hlo : 0x1000000 ≤ lo) (n : Nat) : toll l (dropRegs s lo n) =
    { toll l s with bind := if lo ≤ rBind l ∧ rBind l < lo + n then wfld (resetWord (rBind l)) 9 0 else (toll l s).bind } := by
  have hlow {o : Nat} (ho : o < 0x1000000) : wordAt (dropRegs s lo n).regs o = wordAt s.regs o := by
    rw [wordAt_dropRegs, if_neg (by omega)]
  have hwords : wordsOf tollReg (dropRegs s lo n).regs = wordsOf tollReg s.regs := by
    funext o
    unfold wordsOf
    split
    · next ho =>
      refine hlow (?_ : o < 0x1000000)
      by_contra hn
      rw [tollReg_false (by omega)] at ho
      cases ho
    · rfl
  rw [toll_def, toll_def, hwords, hlow (by decide), wordAt_dropRegs]
  dsimp only [dropRegs]
  split <;> rfl

theorem toll_dropRegs_off (s : State) {lo : Nat} (hlo : 0x1000000 ≤ lo) (n : Nat) (hb : rBind l < lo ∨ lo + n ≤ rBind l) :
    toll l (dropRegs s lo n) = toll l s := by
  rw [toll_dropRegs l s hlo, if_neg (by omega)]

/-- A landing at reset has no job. -/
theorem bind_reset : ∀ l < 32, wfld (resetWord (rBind l)) 9 0 = 0 := by decide

@[simp] theorem toll_arrayOff (s : State) : toll l (arrayOff s l) = toll l s := by
  have h (t : State) : toll l (dropRegs t (coreBase l 0) 0x40000) = toll l t :=
    toll_dropRegs_off l t (by rw [coreBase, lcBase]; omega) _ (.inl (by simp only [rBind, coreBase, lcBase]; omega))
  simp [arrayOff, grantGroups, dropArrivals, orphanAccs, h]

/-! ## A landing of which nothing is left to lose -/

/-- Requests and job of the landing are gone, and GLB.LFAIL has its bit. -/
structure Toll.Gone (l : Nat) (x : Toll) : Prop where
  reqs : ∀ r ∈ x.reqs, r.st = .active → r.land = l → r.lost = true
  jobs : ∀ j ∈ x.jobs, l ∉ j.lands
  failed : wfld (x.word 0x50) l l = 1
  bind : x.bind = 0

section
variable {l}

theorem toll_word {o : Nat} (h : tollReg o = true) (s : State) : (toll l s).word o = rd s o := by
  rw [toll_def]
  exact if_pos h

theorem toll_reqs (s : State) : (toll l s).reqs = s.reqs := by rw [toll_def]
theorem toll_jobs (s : State) : (toll l s).jobs = s.hm.jobs := by rw [toll_def]

variable {s : State} (hl : l < 32) (h : (toll l s).Gone l)

include h in
theorem loseReqs_gone : loseReqs s l = s := by
  have hid : (s.reqs.map fun r => if r.st = .active ∧ r.land = l then { r with lost := true } else r) = s.reqs := by
    refine (List.map_congr_left fun r hr => ?_).trans (List.map_id _)
    split
    · next hc =>
      have hlost := h.reqs r (by rwa [toll_reqs]) hc.1 hc.2
      rw [← hlost]
      rfl
    · rfl
  rw [loseReqs, mapReqs, hid]

include hl h in
theorem toll_arrayLeaves : toll l (arrayLeaves s l) = toll l s := by
  have hleaves : toll l (loseLeaves s l) = toll l s := toll_loseLeaves l s l hl
  have hreqs : loseReqs (loseLeaves s l) l = loseLeaves s l := loseReqs_gone (by rw [hleaves]; exact h)
  rw [arrayLeaves, hreqs]
  simp [hleaves]

include h in
theorem killForReset_gone : killForReset s l = s := by
  have hnone : (s.hm.jobs.find? fun j => j.lands.contains l && !j.dying) = none := by
    refine List.find?_eq_none.mpr fun j hj => ?_
    have hout := h.jobs j (by rwa [toll_jobs])
    simp [hout]
  rw [killForReset, hnone]

include h in
theorem toll_storageReset : toll l (storageReset s l) = toll l s := by
  have hdrop : toll l (dropReloads (dropIncoming s [l]) fun r => r.land == l) = toll l s := by simp
  have hfail : landFailed (dropReloads (dropIncoming s [l]) fun r => r.land == l) l = true := by
    rw [landFailed, rdFld, ← toll_word (l := l) (by decide), hdrop, h.failed]
    rfl
  simp [storageReset, hfail]

include hl h in
theorem toll_uncoreLeaves (sref : Bool) : toll l (uncoreLeaves s l sref) = toll l s := by
  have hb : (toll l s).bind = 0 := h.bind
  have hwins : toll l (resetWins (storageReset s l) l) = toll l s := (toll_resetWins l _ hl).trans (toll_storageReset h)
  have hlow : toll l (dropRegs (resetWins (storageReset s l) l) (lcBase l) 0x30000) = toll l s := by
    rw [toll_dropRegs l _ (by rw [lcBase]; omega), if_pos (by simp only [rBind]; omega), bind_reset l hl, hwins, ← hb]
  have hhigh (t : State) : toll l (dropRegs t (lcBase l + 0x34000) 0xcc000) = toll l t :=
    toll_dropRegs_off l t (by rw [lcBase]; omega) _ (.inl (by simp only [rBind]; omega))
  have hsref (t : State) : toll l (setFlag (setFlag t (scBase l 0) 25) (scBase l 1) 25) = toll l t := by
    rw [setFlag, ← wput_bit_one, setFlag, ← wput_bit_one]
    exact (toll_wrFld_high l _ (by rw [scBase, lcBase]; omega) (by decide) 1).trans
      (toll_wrFld_high l t (by rw [scBase, lcBase]; omega) (by decide) 1)
  unfold uncoreLeaves
  dsimp only
  rw [killForReset_gone h]
  simp only [toll_noticeHold, toll_mk, toll_eta, toll_setLand, toll_ite, hsref, loseStacks, toll_scrubRange, ite_self, hhigh, hlow]

include hl h in
/-- The two domains of the landing forced OFF. -/
theorem toll_setDom : toll l (setDom s l 0) = toll l s ∧ toll l (setDom s (32 + l) 0) = toll l s := by
  have hpd (d : Nat) (hd : d < 72) (t : State) (hi lo v : Nat) : toll l (wrFld t (rPd d) hi lo v) = toll l t :=
    toll_wrFld l t (untold_port l d hd) hi lo v
  have hwr (d : Nat) (hd : d < 72) : (toll l (wrFld s (rPd d) 3 2 0)).Gone l := by rw [hpd d hd]; exact h
  constructor
  · rw [setDom]
    dsimp only
    split
    · rfl
    · rw [if_neg (by decide), if_pos rfl, toll_arrayOff]
      split
      · rw [toll_arrayLeaves hl (hwr l (by omega)), hpd l (by omega)]
      · exact hpd l (by omega) ..
  · rw [setDom]
    dsimp only
    split
    · rfl
    · rw [if_neg (by omega), if_pos (by omega), if_neg (by decide), Nat.add_sub_cancel_left]
      split
      · rw [toll_uncoreLeaves hl (hwr _ (by omega)), hpd _ (by omega)]
      · exact hpd _ (by omega) ..

include hl h in
theorem toll_forceLandOff : toll l (forceLandOff s l) = toll l s := by
  have hforce {t : State} {d : Nat} (hd : d < 72) (ht : (toll l t).Gone l) (hdom : ∀ x : State, (toll l x).Gone l →
      toll l (setDom x d 0) = toll l x) : toll l (forceDom t d 0) = toll l t := by
    have hp : toll l (setPwr t { t.pwr with goal := tput none d none t.pwr.goal }) = toll l t := by simp [setPwr]
    rw [forceDom, toll_wrFld l _ (untold_port l d hd), hdom _ (by rw [hp]; exact ht), hp]
  have hsref : toll l (setSref s (32 + l) false) = toll l s := by
    have hsc (t : State) (i v : Nat) : toll l (wrFld t (scBase l i) 25 25 v) = toll l t :=
      toll_wrFld_high l t (by rw [scBase, lcBase]; omega) (by decide) v
    rw [setSref, if_pos (by omega), Nat.add_sub_cancel_left, hsc, hsc, toll_wrFld l s (untold_port l _ (by omega))]
  have h1 : toll l (forceDom (setSref s (32 + l) false) l 0) = toll l s :=
    (hforce (by omega) (by rw [hsref]; exact h) fun x hx => (toll_setDom hl hx).1).trans hsref
  have h2 : toll l (forceDom (forceDom (setSref s (32 + l) false) l 0) (32 + l) 0) = toll l s :=
    (hforce (by omega) (by rw [h1]; exact h) fun x hx => (toll_setDom hl hx).2).trans h1
  rw [forceLandOff, loseStacks, toll_scrubRange, h2]

end

end

end Sys2Proof.Laws
end

section
/-! The loss of a landing (R94, R97, R540, R543). -/

namespace Sys2Proof.Laws

open Sys2Proof Sys2Proof.Machine Sys2Proof.Claims

/-! ## The records that a loss writes -/

section
variable (l : Nat)

/-- A recorded word written. -/
theorem toll_wr_word (s : State) {o : Nat} (h : tollReg o = true) (v : Word) :
    toll l (wr s o v) = { toll l s with word := fun p => if p = o then v else (toll l s).word p } := by
  have hlt : o < 0x80 := by
    by_contra hn
    rw [tollReg_false (by omega)] at h
    cases h
  have hw : wordsOf tollReg (tput (resetWord o) o v s.regs) = fun p => if p = o then v else wordsOf tollReg s.regs p := by
    funext p
    by_cases hp : p = o
    · subst hp
      simp [wordsOf, h]
    · simp [wordsOf, tget_tput_other _ _ hp, hp]
  rw [wr, toll_mk, hw, wordAt_tput (by rw [rCrsCause]; omega), wordAt_tput (by rw [rBind, lcBase]; omega), toll_def]

theorem toll_setFlag_word (s : State) {o : Nat} (h : tollReg o = true) (i : Nat) : toll l (setFlag s o i) =
    { toll l s with word := fun p => if p = o then wset ((toll l s).word o) i else (toll l s).word p } := by
  rw [setFlag, toll_wr_word l s h, toll_word h]

/-- CRS.CAUSE says that the crossing closed, or opened. -/
theorem toll_setFlag_closed (s : State) : toll l (setFlag s rCrsCause 2) = { toll l s with closed := 1 } := by
  have h2 : wfld (wordAt (setFlag s rCrsCause 2).regs rCrsCause) 2 2 = 1 := rdFld_setFlag_same s rCrsCause (by decide)
  have h3 : wfld (wordAt (setFlag s rCrsCause 2).regs rCrsCause) 3 3 = wfld (wordAt s.regs rCrsCause) 3 3 :=
    rdFld_setFlag_ne s rCrsCause (by decide)
  rw [toll_def, h2, h3, setFlag, wr]
  dsimp only
  rw [wordsOf_tput (by decide), wordAt_tput (by rw [rBind, lcBase, rCrsCause]; omega), toll_def]

theorem toll_setFlag_opened (s : State) : toll l (setFlag s rCrsCause 3) = { toll l s with opened := 1 } := by
  have h3 : wfld (wordAt (setFlag s rCrsCause 3).regs rCrsCause) 3 3 = 1 := rdFld_setFlag_same s rCrsCause (by decide)
  have h2 : wfld (wordAt (setFlag s rCrsCause 3).regs rCrsCause) 2 2 = wfld (wordAt s.regs rCrsCause) 2 2 :=
    rdFld_setFlag_ne s rCrsCause (by decide)
  rw [toll_def, h2, h3, setFlag, wr]
  dsimp only
  rw [wordsOf_tput (by decide), wordAt_tput (by rw [rBind, lcBase, rCrsCause]; omega), toll_def]

/-- A cut-out closes the crossing where its neighbours are live. -/
theorem toll_cutLanding (s : State) (k : Nat) (failed : Bool) :
    toll l (cutLanding s k failed) = if canSpan s k then { toll l s with closed := 1 } else toll l s := by
  rw [cutLanding_eq]
  by_cases hc : canSpan s k = true
  · simp only [hc, if_pos]
    rw [toll_ite, toll_giveLaunchers, ite_self, toll_setFlag_closed, toll_leaveCrossing]
  · simp [hc]

/-- A module-fatal error of a landing that opens the crossing: its record, and GLB.CAUSE.FATAL. -/
theorem toll_moduleFatal (s : State) (unit : Nat) : ∃ w, toll l (moduleFatal s 3 unit) = { toll l s with word := w } ∧
    (∀ o, o ≠ 0x30 → o ≠ 0x58 → w o = (toll l s).word o) ∧ wfld (w 0x30) 0 0 = wfld ((toll l s).word 0x30) 0 0 ∧
    wfld (w 0x58) 6 6 = 1 := by
  by_cases hf : fatal s = true
  · refine ⟨(toll l s).word, ?_, fun _ _ _ => rfl, rfl, ?_⟩
    · rw [moduleFatal, if_pos hf]
    · rw [toll_word (by decide)]
      exact beq_iff_eq.mp hf
  · have hstage (t : State) : toll l (setStage t 0xf) = toll l t :=
      toll_wrFld l t ⟨by decide, by decide, by rw [rBootstat, rBind, lcBase]; omega⟩ ..
    have hbit (x : Word) (u : Nat) : wfld ((x &&& 0x3f) ||| BitVec.ofNat 32 (2 ^ 6 + 3 * 2 ^ 8 + u * 2 ^ 16)) 6 6 = 1 := by
      rw [wfld_bit, BitVec.getLsbD_or, BitVec.getLsbD_and, BitVec.getLsbD_ofNat]
      have h6 : (2 ^ 6 + 3 * 2 ^ 8 + u * 2 ^ 16).testBit 6 = true := by
        rw [Nat.testBit_eq_decide_div_mod_eq, decide_eq_true_iff]
        omega
      rw [h6]
      cases x.getLsbD 6 <;> rfl
    have hboot (t : State) (b : Boot) : toll l (sendFault { t with boot := b }) = toll l t := by
      rw [sendFault, toll_sendAll, toll_mk, toll_eta]
    have hrun : toll l (moduleFatal s 3 unit) = toll l (setFlag (setStage (wr s rErrstat
        ((rd s rErrstat &&& 0x3f) ||| BitVec.ofNat 32 (2 ^ 6 + 3 * 2 ^ 8 + unit * 2 ^ 16))) 0xf) 0x30 2) := by
      unfold moduleFatal
      rw [if_neg hf]
      exact hboot ..
    rw [toll_setFlag_word l _ (by decide), hstage, toll_wr_word l s (by decide)] at hrun
    refine ⟨_, hrun, fun o h30 h58 => ?_, ?_, ?_⟩
    · dsimp only
      rw [if_neg h30, if_neg (by exact h58)]
    · dsimp only
      rw [if_pos rfl, if_neg (by decide), wfld_bit, getLsbD_wset, wfld_bit]
      simp
    · dsimp only
      rw [if_neg (by decide), if_pos (by decide), hbit]

/-- A landing leaves its job. -/
theorem toll_releaseLand (s : State) : toll l (releaseLand s l) = { toll l s with
    bind := 0
    jobs := s.hm.jobs.map fun j =>
      { j with lands := j.lands.filter fun x => x ≠ l, sealed := j.sealed.filter fun x => x ≠ l } } := by
  have hb : 0x1000000 ≤ rBind l := by rw [rBind, lcBase]; omega
  have hlow (t : State) (v : Word) : toll l (wr t (rBind l) v) = { toll l t with bind := wfld v 9 0 } := by
    have hw : wordAt (wr t (rBind l) v).regs (rBind l) = v := rd_wr ..
    rw [toll_def, hw, wr]
    dsimp only
    rw [wordsOf_tput (tollReg_false (by omega)), wordAt_tput (by rw [rCrsCause]; omega), toll_def]
  have hjob (t : State) : toll l (wrFld t (rBind l) 9 0 0) = { toll l t with bind := 0 } := by
    rw [wrFld, hlow, wfld_wput_same _ (by decide) (by decide)]
  rw [releaseLand, toll_wrFld_high l _ hb (by decide), hjob, setJobs, toll_mk, toll_def]

theorem toll_loseReqs (s : State) (k : Nat) : toll l (loseReqs s k) = { toll l s with
    reqs := s.reqs.map fun r => if r.st = .active ∧ r.land = k then { r with lost := true } else r } := by
  rw [loseReqs, mapReqs, toll_mk, toll_def]

end

/-! ## What a loss leaves -/

/-- The marks of a lost landing l: GLB.LFAIL, the codes as they were, GLB.CAUSE, its requests, and how the crossing took it. -/
structure Marked (l : Nat) (s : State) (x : Toll) : Prop where
  failed : wfld (x.word 0x50) l l = 1
  codes : ∀ o, 0x60 ≤ o → x.word o = (toll l s).word o
  cause : wfld (x.word 0x30) 0 0 = 1
  reqs : ∀ r ∈ x.reqs, r.st = .active → r.land = l → r.lost = true
  closed : liveLand s l = true → canSpan s l = true → x.closed = 1
  opened : liveLand s l = true → canSpan s l = false → wfld (x.word 0x58) 6 6 = 1 ∧ x.opened = 1 ∧ x.closed = (toll l s).closed

/-- GLB.CAUSE and GLB.LFAIL with the marks of a lost landing. -/
def lossWord (l : Nat) (w : Nat → Word) (p : Nat) : Word :=
  if p = 0x30 then wset (w 0x30) 0 else if p = rLfail then wset (w rLfail) l else w p

theorem toll_marks (l : Nat) (t : State) :
    toll l (setFlag (setFlag t rLfail l) 0x30 0) = { toll l t with word := lossWord l (toll l t).word } := by
  rw [toll_setFlag_word l _ (by decide), toll_setFlag_word l _ (by decide)]
  rfl

theorem lossWord_codes {l o : Nat} (w : Nat → Word) (h : 0x60 ≤ o) : lossWord l w o = w o := by
  rw [lossWord, if_neg (by omega), if_neg (by rw [rLfail]; omega)]

theorem lossWord_marks {l : Nat} (hl : l < 32) (w : Nat → Word) :
    wfld (lossWord l w 0x50) l l = 1 ∧ wfld (lossWord l w 0x30) 0 0 = 1 := by
  have hset (v : Word) {i : Nat} (hi : i < 32) : wfld (wset v i) i i = 1 := by
    rw [wfld_bit, getLsbD_wset]
    simp [hi]
  exact ⟨hset _ hl, hset _ (by decide)⟩

/-- A landing out of the crossing, before GLB.LFAIL. -/
theorem toll_lostReqs (s : State) (l : Nat) :
    toll l (if liveLand (loseReqs s l) l then cutLanding (loseReqs s l) l true else loseReqs s l) =
      if liveLand s l = true ∧ canSpan s l = true then { toll l (loseReqs s l) with closed := 1 } else toll l (loseReqs s l) := by
  have hlive : liveLand (loseReqs s l) l = liveLand s l := rfl
  have hspan : canSpan (loseReqs s l) l = canSpan s l := rfl
  rw [toll_ite, toll_cutLanding, hlive, hspan]
  by_cases h1 : liveLand s l = true <;> by_cases h2 : canSpan s l = true <;> simp [h1, h2]

theorem marked_markLost (s : State) {l : Nat} (hl : l < 32) : Marked l s (toll l (markLost s l)) := by
  have hreqs : ∀ r ∈ (toll l (loseReqs s l)).reqs, r.st = .active → r.land = l → r.lost = true := by
    rw [toll_loseReqs]
    intro r hr hst hland
    obtain ⟨q, -, rfl⟩ := List.mem_map.mp hr
    by_cases hc : q.st = .active ∧ q.land = l
    · rw [if_pos hc]
    · rw [if_neg hc] at hst hland
      exact absurd ⟨hst, hland⟩ hc
  have hword : (toll l (loseReqs s l)).word = (toll l s).word := by rw [toll_loseReqs]
  have hclosed : (toll l (loseReqs s l)).closed = (toll l s).closed := by rw [toll_loseReqs]
  have ht := toll_lostReqs s l
  generalize hx : toll l (loseReqs s l) = x at hreqs hword hclosed ht
  dsimp only [markLost]
  generalize (if liveLand (loseReqs s l) l then cutLanding (loseReqs s l) l true else loseReqs s l) = t at ht
  have htw : (toll l t).word = (toll l s).word := by rw [ht, ← hword]; split <;> rfl
  have htr : (toll l t).reqs = x.reqs := by rw [ht]; split <;> rfl
  obtain ⟨hfail, hcause⟩ := lossWord_marks hl (toll l t).word
  have hcodes {o : Nat} (ho : 0x60 ≤ o) : lossWord l (toll l t).word o = (toll l s).word o := by rw [lossWord_codes _ ho, htw]
  by_cases hopen : liveLand s l = true ∧ canSpan s l = false
  · obtain ⟨hlive, hspan⟩ := hopen
    obtain ⟨w, hw, hother, h30, h58⟩ := toll_moduleFatal l (setFlag (setFlag (setFlag t rLfail l) 0x30 0) rCrsCause 3) l
    rw [toll_setFlag_opened, toll_marks] at hw hother h30
    have htx : toll l t = x := by rw [ht, if_neg (by rw [hspan]; rintro ⟨-, ⟨⟩⟩)]
    rw [if_pos (by rw [hlive, hspan]; rfl), hw]
    exact ⟨(congrArg (fun v => wfld v l l) (hother 0x50 (by decide) (by decide))).trans hfail,
      fun o ho => (hother o (by omega) (by omega)).trans (hcodes ho), h30.trans hcause, htr ▸ hreqs,
      fun _ hc => absurd (hspan.symm.trans hc) (by decide), fun _ _ => ⟨h58, rfl, (congrArg Toll.closed htx).trans hclosed⟩⟩
  · have hshut : ¬ (liveLand s l && !canSpan s l) = true := by
      rw [Bool.and_eq_true, Bool.not_eq_true']
      exact hopen
    rw [if_neg hshut, toll_marks]
    refine ⟨hfail, fun o ho => hcodes ho, hcause, htr ▸ hreqs, fun h1 h2 => ?_, fun h1 h2 => absurd ⟨h1, h2⟩ hopen⟩
    show (toll l t).closed = 1
    rw [ht, if_pos ⟨h1, h2⟩]

/-- A lost landing is out of the crossing. -/
theorem out_markLost (s : State) {l : Nat} (h : liveLand s l = true ∨ (getLand s l).out = true) :
    (parts (markLost s l)).1.out l = true := by
  have hf : steadyReg rLfail = true := by decide
  have hout : (parts (if liveLand (loseReqs s l) l then cutLanding (loseReqs s l) l true else loseReqs s l)).1.out l = true := by
    have hlive : liveLand (loseReqs s l) l = liveLand s l := rfl
    rw [hlive]
    split
    · rw [steady_cutLanding]
      simp [Steady.cut]
    · next hn =>
      rw [parts_loseReqs, ← out_eq_steady]
      exact h.resolve_left hn
  dsimp only [markLost]
  generalize (if liveLand (loseReqs s l) l then cutLanding (loseReqs s l) l true else loseReqs s l) = t at hout
  split <;> simp [hf, hout]

/-- Both domains of a lost landing are OFF, and it is out of the crossing. -/
theorem landingFatal_off {s : State} {l : Nat} (hl : l < 32) {code : Nat} (ha : absentLand s l = false) (hd : landDead s l = false) :
    domState (landingFatal s l code) l = 0 ∧ domState (landingFatal s l code) (32 + l) = 0 ∧
      (getLand (landingFatal s l code) l).out = true := by
  have hsteady : (parts (landingFatal s l code)).1 =
      (parts (forceLandOff (releaseLand (markLost (noteLost s l code) l) l) l)).1 := by
    rw [landingFatal_eq, if_neg (by simp [ha, hd])]
  rw [steady_forceLandOff _ hl, steady_releaseLand] at hsteady
  rw [domState_eq_steady _ (by omega), domState_eq_steady _ (by omega), out_eq_steady, hsteady]
  simp only [rPd]
  refine ⟨?_, ?_, ?_⟩
  · simp (disch := omega) only [Steady.fld_aim, Steady.fld_put_same, Steady.fld_put_ne]
  · simp (disch := omega) only [Steady.fld_put_same, Steady.fld_put_ne]
  · simp only [Steady.rest_put, Steady.rest_aim]
    refine out_markLost _ ?_
    have hlive : liveLand (noteLost s l code) l = liveLand s l := rfl
    cases hout : (getLand s l).out with
    | true => exact .inr hout
    | false => exact .inl (hlive.trans (by simp [liveLand, hl, ha, hout]))

/-- An error of a landing that is present and has something left to lose. -/
theorem landingLost_of_error {s : State} {l : Nat} (hl : l < 32) {code : Nat} (hcode : code < 2 ^ 8) (ha : absentLand s l = false)
    (hd : landDead s l = false) : landingLost s (landingFatal s l code) l code := by
  have hnot : ¬ (absentLand s l = true ∨ landDead s l = true) := by simp [ha, hd]
  have hmark := marked_markLost (noteLost s l code) hl
  have hgone : (toll l (releaseLand (markLost (noteLost s l code) l) l)).Gone l := by
    rw [toll_releaseLand]
    refine ⟨hmark.reqs, fun j hj hin => ?_, hmark.failed, rfl⟩
    obtain ⟨i, -, rfl⟩ := List.mem_map.mp hj
    simpa using (List.mem_filter.mp hin).2
  have htoll : toll l (landingFatal s l code) = toll l (releaseLand (markLost (noteLost s l code) l) l) := by
    rw [landingFatal_eq, if_neg hnot, toll_forceLandOff hl hgone]
  have hword {o : Nat} (ho : tollReg o = true) (hi lo : Nat) : rdFld (landingFatal s l code) o hi lo =
      wfld ((toll l (markLost (noteLost s l code) l)).word o) hi lo := by
    rw [rdFld, ← toll_word (l := l) ho, htoll, toll_releaseLand]
  have hcross : rdFld (landingFatal s l code) 0x40008 2 2 = (toll l (markLost (noteLost s l code) l)).closed ∧
      rdFld (landingFatal s l code) 0x40008 3 3 = (toll l (markLost (noteLost s l code) l)).opened := by
    have h2 : rdFld (landingFatal s l code) 0x40008 2 2 = (toll l (landingFatal s l code)).closed := by rw [toll_def]; rfl
    have h3 : rdFld (landingFatal s l code) 0x40008 3 3 = (toll l (landingFatal s l code)).opened := by rw [toll_def]; rfl
    rw [h2, h3, htoll, toll_releaseLand]
    exact ⟨rfl, rfl⟩
  obtain ⟨hdom, hdom', hout⟩ := landingFatal_off hl (code := code) ha hd
  refine ⟨?_, ?_, ?_, hdom, hdom', ?_, liveLand_false_of_out hout, ?_, fun off hoff => ?_, fun h1 h2 => ?_, fun h1 h2 => ?_⟩
  · rw [landFailed, hword (by decide), hmark.failed]
    rfl
  · have hreg : tollReg (0x60 + 4 * (l / 4)) = true := by
      simp only [tollReg, Bool.or_eq_true, Bool.and_eq_true, decide_eq_true_eq]
      omega
    have hnote : rdFld (noteLost s l code) (0x60 + 4 * (l / 4)) (8 * (l % 4) + 7) (8 * (l % 4)) = code := by
      rw [noteLost, rdFld_wrFld_ne _ _ (by omega) (.inl (by omega))]
      exact rdFld_wrFld_same s _ (by omega) (by rw [show 8 * (l % 4) + 7 + 1 - 8 * (l % 4) = 8 by omega]; exact hcode)
    rw [hword hreg, hmark.codes _ (by omega), toll_word hreg]
    exact hnote
  · rw [hword (by decide), hmark.cause]
  · have hbind : bindJob (landingFatal s l code) l = (toll l (landingFatal s l code)).bind := by rw [toll_def]; rfl
    rw [hbind, htoll, hgone.bind]
  · intro r hr
    refine hgone.reqs r ?_
    rw [← htoll, toll_reqs]
    exact hr
  · rw [landingFatal_eq, if_neg hnot, forceLandOff, loseStacks, getByte_scrubRange, if_pos]
    simp only [stackKey, memKey]
    omega
  · rw [hcross.1]
    exact hmark.closed h1 h2
  · obtain ⟨hfatal, hopened, hclosed⟩ := hmark.opened h1 h2
    refine ⟨?_, by rw [hcross.2, hopened], ?_⟩
    · rw [fatal, hword (by decide), hfatal]
      rfl
    · have hs : (toll l (noteLost s l code)).closed = rdFld s 0x40008 2 2 := by
        have hn : (toll l (noteLost s l code)).closed = rdFld (noteLost s l code) 0x40008 2 2 := by rw [toll_def]; rfl
        rw [hn, noteLost, rdFld_wrFld_ne _ _ (by decide) (.inl (by decide))]
        exact rdFld_wrFld_ne s _ (by decide) (.inl (by omega))
      rw [hcross.1, hclosed, hs]

/-- What is left of a failed landing whose domains are OFF, and whose rejoin no one has ordered. -/
theorem landDead_iff (s : State) (l : Nat) : landDead s l = true ↔ landFailed s l = true ∧ tget false s.boot.rejoins l = false ∧
    rdFld s 0x54 l l = 0 ∧ domState s l = 0 ∧ domState s (32 + l) = 0 := by
  simp [landDead, and_assoc]

theorem lostLandings : LostLandings := by
  intro l s
  have hno {code : Nat} (h : absentLand s l.val = true ∨ landDead s l.val = true) : landingFatal s l.val code = s := by
    rw [landingFatal, if_pos h]
  refine ⟨fun ha hn => ?_, fun hf h54 hj h1 h2 code => ?_, fun code hc => ?_, fun hd => ?_, fun hlive => ?_⟩
  · have hd : landDead s l.val = false := by
      rw [← Bool.not_eq_true, landDead_iff]
      rintro ⟨hf, hj, h54, h1, h2⟩
      rcases hn with h | h | h | h | h
      · exact absurd (hf.symm.trans h) (by decide)
      · exact h h54
      · exact absurd (hj.symm.trans h) (by decide)
      · exact h h1
      · exact h h2
    refine ⟨fun code h1 h6 => ⟨_, ?_, landingLost_of_error l.isLt (by omega) ha hd⟩, fun hin hon => ⟨_, ?_, landingLost_of_error l.isLt (by decide) ha hd⟩,
      fun hlive => ⟨_, ?_, landingLost_of_error l.isLt (by decide) ha hd⟩⟩
    · show execLandingFatal l code s = _
      rw [execLandingFatal, if_pos ⟨h1, h6⟩]
    · show execDeckhandHeartbeatTimeout l s = _
      rw [execDeckhandHeartbeatTimeout, if_pos ⟨by simpa using hin, hon⟩]
    · show execNoHeaderTimeout l s = _
      rw [execNoHeaderTimeout, if_pos hlive]
  · show execLandingFatal l code s = _
    rw [execLandingFatal, hno (.inr ((landDead_iff s l.val).mpr ⟨hf, hj, h54, h1, h2⟩)), ite_self]
  · show execLandingFatal l code s = _
    rw [execLandingFatal]
    rcases hc with rfl | hc | hc
    · rw [if_neg (by decide)]
    · rw [if_neg (by omega)]
    · rw [hno (.inl hc), ite_self]
  · show execDeckhandHeartbeatTimeout l s = _
    rw [execDeckhandHeartbeatTimeout, if_neg (by simp [hd])]
  · show execNoHeaderTimeout l s = _
    rw [execNoHeaderTimeout, if_neg (by rw [hlive]; decide)]

end Sys2Proof.Laws
end

section
/-! The rejoin of a landing (R544, R545). -/

namespace Sys2Proof.Laws

open Sys2Proof Sys2Proof.Machine Sys2Proof.Claims

/-! ## Copies between stacks -/

theorem stackKey_add (l off i : Nat) : stackKey l (off + i) = stackKey l off + i := by
  simp only [stackKey, memKey]
  omega

theorem getD_getBytes (s : State) (k : Nat) {n j : Nat} (h : j < n) : (getBytes s k n).getD j 0 = getByte s (k + j) := by
  simp [getBytes, tread, upto, getByte, h]

/-- One line of a copy. -/
def copyLine (l off k dest n : Nat) (s : State) (i : Nat) : State :=
  let d := stackData s l (off + 64 * i) (min 64 (n - 64 * i))
  writeStack (readLine s l ((off + 64 * i) / 64 * 64)) k (dest + 64 * i) d.1 d.2

theorem copyStack_eq (s : State) (l off k dest n : Nat) :
    copyStack s l off k dest n = (List.range (ceilDiv n 64)).foldl (copyLine l off k dest n) s := rfl

/-- The first m lines of a copy have been made. -/
structure CopiedLines (s t : State) (src dst n m : Nat) : Prop where
  threads : t.threads = s.threads
  source : ∀ i < n, getByte t (src + i) = getByte s (src + i)
  target : ∀ j < n, j < 64 * m → getByte t (dst + j) = getByte s (src + j)

theorem copyLine_mem (l off k dest n : Nat) (s : State) (i : Nat) : (copyLine l off k dest n s i).threads = s.threads ∧
    ∀ a, getByte (copyLine l off k dest n s i) a =
      if stackKey k dest + 64 * i ≤ a ∧ a < stackKey k dest + 64 * i + min 64 (n - 64 * i) then
        getByte s (stackKey l off + (a - stackKey k dest)) else getByte s a := by
  have hread : MarksOnly s (readLine s l ((off + 64 * i) / 64 * 64)) := marksOnly_readLine ..
  obtain ⟨t, ht, hput⟩ := writeStack_eq (readLine s l ((off + 64 * i) / 64 * 64)) k (dest + 64 * i)
    (stackData s l (off + 64 * i) (min 64 (n - 64 * i))).1 (stackData s l (off + 64 * i) (min 64 (n - 64 * i))).2
  have hmarks : MarksOnly s t := hread.trans ht
  have hline : copyLine l off k dest n s i = putBytes t (stackKey k (dest + 64 * i))
      (getBytes s (stackKey l (off + 64 * i)) (min 64 (n - 64 * i))) := hput
  have hlen : (getBytes s (stackKey l (off + 64 * i)) (min 64 (n - 64 * i))).length = min 64 (n - 64 * i) := by
    simp [getBytes, tread, upto]
  have hbyte (a : Nat) : getByte t a = getByte s a := by rw [hmarks, getByte, getByte]
  rw [hline, stackKey_add, stackKey_add]
  rw [stackKey_add] at hlen
  refine ⟨by rw [hmarks]; rfl, fun a => ?_⟩
  split
  · next ha =>
    rw [getByte_putBytes_in _ _ _ ha.1 (by rw [hlen]; exact ha.2), getD_getBytes _ _ (by omega)]
    exact congrArg (getByte s) (by omega)
  · next ha => rw [getByte_putBytes_out _ _ _ (by rw [hlen]; omega), hbyte]

theorem copiedLines {s : State} {l off k dest n : Nat} (hdis : ∀ i < n, ∀ j < n, stackKey l off + i ≠ stackKey k dest + j) (m : Nat) :
    CopiedLines s ((List.range m).foldl (copyLine l off k dest n) s) (stackKey l off) (stackKey k dest) n m := by
  induction m with
  | zero => exact ⟨rfl, fun _ _ => rfl, fun j _ hj => absurd hj (by omega)⟩
  | succ m ih =>
    rw [List.range_succ, List.foldl_append, List.foldl_cons, List.foldl_nil]
    generalize (List.range m).foldl (copyLine l off k dest n) s = t at ih
    obtain ⟨hthreads, hbyte⟩ := copyLine_mem l off k dest n t m
    refine ⟨hthreads.trans ih.threads, fun i hi => ?_, fun j hj hjm => ?_⟩
    · rw [hbyte, if_neg, ih.source i hi]
      rintro ⟨h1, h2⟩
      exact hdis i hi (stackKey l off + i - stackKey k dest) (by omega) (by omega)
    · rw [hbyte]
      split
      · next ha => rw [Nat.add_sub_cancel_left, ih.source j hj]
      · next ha => exact ih.target j hj (by omega)

/-- A copy between areas that do not meet leaves the bytes of the one in the other. -/
theorem getByte_copyStack {s : State} {l off k dest n : Nat} (hdis : ∀ i < n, ∀ j < n, stackKey l off + i ≠ stackKey k dest + j)
    {j : Nat} (hj : j < n) : getByte (copyStack s l off k dest n) (stackKey k dest + j) = getByte s (stackKey l off + j) :=
  (copiedLines hdis _).target j hj (by rw [ceilDiv]; omega)

theorem threads_copyStack (s : State) (l off k dest n : Nat) : (copyStack s l off k dest n).threads = s.threads := by
  rw [copyStack_eq]
  exact foldl_keeps (P := fun t : State => t.threads = s.threads) (fun t i h => (copyLine_mem l off k dest n t i).1.trans h) _ rfl

/-! ## The order (R545) -/

theorem maskBits_one : ∀ l : Fin 32, maskBits 32 (BitVec.ofNat 32 (2 ^ l.val)).toNat = [l.val] := by decide

theorem rejoinBad_iff (s : State) (l : Nat) : rejoinBad s l = true ↔ rejoinRefused s l := by
  simp only [rejoinBad, rejoinRefused, Bool.or_eq_true, Bool.not_eq_true', beq_iff_eq, or_assoc]
  rfl

theorem setFlag_eq (s : State) (o i : Nat) : setFlag s o i = wrFld s o i i 1 := by rw [setFlag, ← wput_bit_one, wrFld]

theorem rejoin_ordered {m : Master} {l : Fin 32} {s : State} (hm : reachesModule m = true) (hj : rdFld s 0x54 l.val l.val = 0) :
    exec (.rejoin m (.ofNat 32 (2 ^ l.val))) s = .next (if rejoinBad s l.val then
      wrFld (setFlag s rErrstat 0) rErrstat 5 1 l.val else setFlag s 0x54 l.val) := by
  have hno : rejoining s l.val = false := by
    rw [rejoining, hj]
    rfl
  show execRejoin m _ s = _
  rw [execRejoin, if_neg (by rw [hm]; decide), maskBits_one, List.filter_cons_of_pos (by rw [hno]; rfl), List.filter_nil,
    List.foldl_cons, List.foldl_nil]

/-! ## The copies (R544) -/

theorem threads_setUse (s : State) (l k u : Nat) : (setUse s l k u).threads = s.threads := by
  rw [setUse]
  exact (regsOnly_wrFld ..).threads_eq

theorem getByte_setUse (s : State) (l k u a : Nat) : getByte (setUse s l k u) a = getByte s a := by
  rw [setUse]
  exact (regsOnly_wrFld ..).getByte_eq a

/-- The landing with its home slice, where there is a live version. -/
def homeTaken (s : State) (l : Nat) : State := if liveVer s = 0 then s else takeHome s l

/-- The landing with its shadow slice too. -/
def slicesTaken (s : State) (l : Nat) : State :=
  if liveVer (homeTaken s l) ≠ 0 ∧ shadowOn (homeTaken s l) then takeShadow (homeTaken s l) l else homeTaken s l

theorem crs_homeTaken (s : State) (l : Nat) : (homeTaken s l).crs = s.crs := by
  unfold homeTaken takeHome
  split
  · rfl
  · split
    · exact (crs_setUse ..).trans (crs_copyStack ..)
    · rfl

theorem threads_slicesTaken (s : State) (l : Nat) : (slicesTaken s l).threads = s.threads := by
  have hhome : (homeTaken s l).threads = s.threads := by
    unfold homeTaken takeHome
    split
    · rfl
    · split
      · rw [threads_setUse, threads_copyStack]
      · rfl
  unfold slicesTaken takeShadow
  split
  · split
    · dsimp only
      rw [threads_setUse, threads_copyStack, hhome]
    · exact hhome
  · exact hhome

/-- Everything that the rejoin copies is there, and can be reached. -/
def copiesReady (s : State) (l : Nat) : Bool :=
  (liveVer s == 0 || ((homeBack s l).isSome && (!shadowOn s || (shadowBack s l).isSome))) &&
    (rejoinCopies s l).all fun c => copyReach s c.land c.off c.dest c.at' c.len

theorem copiesReady_iff (s : State) (l : Nat) : copiesReady s l = true ↔
    (liveVer s ≠ 0 → (homeBack s l).isSome = true ∧ (shadowOn s = true → (shadowBack s l).isSome = true)) ∧
      ∀ c ∈ rejoinCopies s l, copyReach s c.land c.off c.dest c.at' c.len = true := by
  rw [copiesReady, Bool.and_eq_true, List.all_eq_true, Bool.or_eq_true, Bool.and_eq_true, Bool.or_eq_true, beq_iff_eq,
    Bool.not_eq_true']
  refine and_congr_left fun _ => ?_
  by_cases hv : liveVer s = 0
  · simp [hv]
  · cases hs : shadowOn s <;> simp [hv]

theorem rejoinCopy_eq (l : Fin 32) (s : State) : exec (.rejoinCopyComplete l) s =
    if !rejoining s l.val ∨ tget false s.boot.rejoins l.val ∨ !uncoreOn s l.val ∨ !arrayOn s l.val ∨ !copiesReady s l.val then .next s
    else .next { slicesTaken s l.val with
      boot := { (slicesTaken s l.val).boot with rejoins := tput false l.val true (slicesTaken s l.val).boot.rejoins } } := rfl

theorem areaBase_lt (s : State) (l k : Nat) : areaBase s l k < 2 ^ 40 := by
  have h : rdFld s (rArea l k) 27 0 < 2 ^ (27 + 1 - 0) := Nat.mod_lt _ (Nat.two_pow_pos _)
  rw [areaBase]
  omega

theorem areaSize_lt (s : State) (l k : Nat) : areaSize s l k < 2 ^ 40 := by
  have h : rdFld s (rArea l k + 4) 27 0 < 2 ^ (27 + 1 - 0) := Nat.mod_lt _ (Nat.two_pow_pos _)
  rw [areaSize]
  omega

/-- Areas of two landings do not meet. -/
theorem areas_apart {a b off off' n : Nat} (h : a ≠ b) (ho : off < 2 ^ 40) (ho' : off' < 2 ^ 40) (hn : n < 2 ^ 40) :
    ∀ i < n, ∀ j < n, stackKey a off + i ≠ stackKey b off' + j := by
  intro i hi j hj
  simp only [stackKey, memKey]
  omega

/-- The home slice of the landing, byte for byte. -/
theorem homeSlice_taken {s : State} {l : Nat} {x : Shadow} {h : Nat × Nat} {k : Nat} (hv : liveVer s ≠ 0) (hs : shadowOn s = false)
    (hx : s.crs.shadows.find? (fun x => x.home == l && x.ver == liveVer s && x.done) = some x) (hne : x.land ≠ l)
    (hh : (homeSlices s).find? (fun h => h.1 == l) = some h)
    (hk : homeAreas.find? (fun k => areaUse s l k == 0 && sliceLen s.sto.liveMap h.2 ≤ areaSize s l k) = some k) {j : Nat}
    (hj : j < sliceLen s.sto.liveMap h.2) :
    getByte (slicesTaken s l) (stackKey l (areaBase s l k + j)) = getByte s (stackKey x.land (areaBase s x.land x.k + j)) := by
  have hback : homeBack s l =
      some (⟨x.land, areaBase s x.land x.k, l, areaBase s l k, sliceLen s.sto.liveMap h.2⟩, k) := by
    unfold homeBack
    dsimp only
    rw [hx, hh]
    dsimp only
    rw [hk]
    rfl
  have hshadow : shadowOn (homeTaken s l) = false := by
    rw [shadowOn, crs_homeTaken, ← shadowOn, hs]
  have hsize := List.find?_some hk
  rw [Bool.and_eq_true, decide_eq_true_iff] at hsize
  have hlen : sliceLen s.sto.liveMap h.2 < 2 ^ 40 := lt_of_le_of_lt hsize.2 (areaSize_lt s l k)
  rw [slicesTaken, if_neg (by rw [hshadow]; rintro ⟨-, ⟨⟩⟩), homeTaken, if_neg hv, takeHome, hback]
  dsimp only
  rw [stackKey_add, stackKey_add, getByte_setUse]
  exact getByte_copyStack (areas_apart hne (areaBase_lt ..) (areaBase_lt ..) hlen) hj

theorem rejoins : Rejoins := by
  intro l s
  have hidle (h : rdFld s 0x54 l.val l.val = 0) : exec (.rejoinCopyComplete l) s = .next s := by
    rw [rejoinCopy_eq, if_pos (.inl (by rw [rejoining, h]; rfl))]
  refine ⟨fun m hm hj => ⟨fun hbad => ?_, fun hgood => ?_⟩, fun m v hm => ?_, fun hj hnot hu ha => ⟨fun hc => ?_, fun hthere hreach => ?_⟩, hidle⟩
  · refine (rejoin_ordered hm hj).trans ?_
    rw [if_pos ((rejoinBad_iff s l.val).mpr hbad), setFlag_eq]
    rfl
  · refine (rejoin_ordered hm hj).trans ?_
    rw [if_neg (mt (rejoinBad_iff s l.val).mp hgood), setFlag_eq]
  · show execRejoin m v s = _
    rw [execRejoin, if_pos (by rw [hm]; rfl)]
  · have hno : copiesReady s l.val = false := by
      rw [← Bool.not_eq_true, copiesReady_iff]
      rintro ⟨h1, h2⟩
      rcases hc with hc | ⟨c, hin, hc⟩
      · exact hc h1
      · exact hc (h2 c hin)
    refine (rejoinCopy_eq l s).trans ?_
    rw [if_pos (.inr (.inr (.inr (.inr (by rw [hno]; rfl)))))]
  · have hready : copiesReady s l.val = true := (copiesReady_iff s l.val).mpr ⟨hthere, hreach⟩
    have hrun := rejoinCopy_eq l s
    rw [if_neg (by rw [rejoining, hj, hnot, hu, ha, hready]; decide)] at hrun
    refine ⟨_, hrun, tget_tput_same (α := Bool) false l.val true (slicesTaken s l.val).boot.rejoins, threads_slicesTaken s l.val, fun hv => ?_, fun x h k hv hs hx hne hh hk j hlt => ?_⟩
    · have hsame : homeTaken s l.val = s := by rw [homeTaken, if_pos hv]
      show (slicesTaken s l.val).mem = s.mem
      rw [slicesTaken, hsame, if_neg (fun hc => hc.1 hv)]
    · exact homeSlice_taken hv hs hx hne hh hk hlt

/-- Settles O51: the loss of a landing by the records that it writes and that nothing after it touches, its rejoin by the bytes of
its copies. -/
theorem landingLoss : Obligations.LandingLoss := ⟨lostLandings, rejoins⟩

end Sys2Proof.Laws
end

section
/-! A post to a thread: accepted, refused, overruled, or another master's (R106, R107, R112, R113). -/

namespace Sys2Proof.Laws

open Sys2Proof Sys2Proof.Machine Sys2Proof.Claims

theorem coreThr_eq (l : Fin 32) (c : Fin 256) (n : Nat) :
    coreThr l.val c.val n = .core l c ⟨n % 16, Nat.mod_lt _ (by decide)⟩ := by
  simp only [coreThr, Nat.mod_eq_of_lt l.isLt, Nat.mod_eq_of_lt c.isLt]

@[simp] theorem coreThr_val (l : Fin 32) (c : Fin 256) (t : Fin 16) : coreThr l.val c.val t.val = .core l c t := by
  simp only [coreThr_eq, Nat.mod_eq_of_lt t.isLt]

/-! ## The refusal and its record -/

/-- The model's refusal is the one that R113's order gives. -/
theorem postRefusal_eq_postWhy (s : State) (l : Fin 32) (c : Fin 256) (t : Fin 16) (kill : Bool) :
    postRefusal s l.val c.val (getThr s (.core l c t)) kill = postWhy s l c t kill := by
  cases kill <;> simp [postRefusal, postWhy]

theorem postWhy_lt (s : State) (l : Fin 32) (c : Fin 256) (t : Fin 16) (kill : Bool) : postWhy s l c t kill < 8 := by
  unfold postWhy
  dsimp only
  split_ifs <;> decide

/-- A refusal is recorded in LC.TPSTAT and nowhere else. -/
theorem refusePost_spec (s : State) (l : Nat) {why : Nat} (h : why < 8) :
    (refusePost s l why).threads = s.threads ∧ (refusePost s l why).mem = s.mem ∧
      rdFld (refusePost s l why) (rTpstat l) 0 0 = 1 ∧ rdFld (refusePost s l why) (rTpstat l) 3 1 = why := by
  have hregs : RegsOnly s (refusePost s l why) := (regsOnly_wrFld s (rTpstat l) 3 1 why).trans (regsOnly_setFlag ..)
  refine ⟨hregs.threads_eq, hregs.mem_eq, rdFld_setFlag_same _ _ (by decide), ?_⟩
  rw [refusePost, rdFld_setFlag_off _ (by decide) (.inr (.inl (by decide))), rdFld_wrFld_same _ _ (by decide) h]

/-! ## What a post does -/

section
variable {s : State} {m : Master} {l : Fin 32} {c : Fin 256} {t : Fin 16} {kill met : Bool} {new : Thread → Thread}
  (hl : absentLand s l.val = false) (hd : domState s (32 + l.val) ≠ 0)
include hl hd

/-- A post of another master is counted (R106). -/
theorem post_of_other (hm : mayPost m l.val = false) :
    post s m l.val c.val t.val kill new met = countUp s (rTpstat l.val) 23 16 1 none := by
  simp [post, hl, hd, hm]

/-- A post that met the harbourmaster's is overruled (R107). -/
theorem post_overruled (hm : mayPost m l.val = true) (hmet : (met && m != .hm) = true) :
    post s m l.val c.val t.val kill new met = refusePost s l.val 4 := by
  rw [post, if_neg (by simp [hl, hd]), if_neg (by simp [hm]), if_pos hmet]

variable (hm : mayPost m l.val = true) (hmet : (met && m != .hm) = false)
include hm hmet

theorem post_accepted (h : postWhy s l c t kill = 0) :
    post s m l.val c.val t.val kill new met = setThr s (.core l c t) (new (getThr s (.core l c t))) := by
  rw [post, if_neg (by simp [hl, hd]), if_neg (by simp [hm]), if_neg (by simp [hmet]), coreThr_val]
  simp only [postRefusal_eq_postWhy, h]

theorem post_refused (h : postWhy s l c t kill ≠ 0) :
    post s m l.val c.val t.val kill new met = refusePost s l.val (postWhy s l c t kill) := by
  rw [post, if_neg (by simp [hl, hd]), if_neg (by simp [hm]), if_neg (by simp [hmet]), coreThr_val]
  simp only [postRefusal_eq_postWhy]

end

/-! ## Who may post -/

theorem mayPost_deckhand (l : Fin 32) : mayPost (.deckhand l) l.val = true := by simp [mayPost]

theorem mayPost_eq_false {m : Master} {l : Fin 32} (h1 : m ≠ .hm) (h2 : m ≠ .deckhand l) : mayPost m l.val = false := by
  cases m with
  | hm => exact absurd rfl h1
  | deckhand d =>
    have hne : d ≠ l := fun e => h2 (congrArg Master.deckhand e)
    simpa [mayPost, Fin.val_inj] using hne
  | _ => rfl

/-! ## The posted thread -/

/-- s1 the argument, s2 landing and core, s3 the thread, every other register zero (R112). -/
theorem getReg_postedThread (l c t : Nat) (prio : BitVec 2) (entry : BitVec 15) (arg : Word) (on : Bool) (r : BitVec 5) :
    getReg (postedThread l c t prio entry arg on) r =
      if r = 1 then arg.setWidth 64 else if r = 2 then .ofNat 64 (256 * l + c) else if r = 3 then .ofNat 64 t else 0 := by
  have hne {q : BitVec 5} (h : r ≠ q) : r.toNat ≠ q.toNat := fun e => h (BitVec.eq_of_toNat_eq e)
  unfold getReg postedThread
  dsimp only
  by_cases h0 : r = 0
  · subst h0
    rfl
  rw [if_neg h0]
  by_cases h1 : r = 1
  · subst h1
    exact tget_tput_same ..
  rw [if_neg h1, tget_tput_ne (k := 1) 0 (hne h1)]
  by_cases h2 : r = 2
  · subst h2
    rw [Nat.mul_comm 256 l]
    exact tget_tput_same ..
  rw [if_neg h2, tget_tput_ne (k := 2) 0 (hne h2)]
  by_cases h3 : r = 3
  · subst h3
    exact tget_tput_same ..
  rw [if_neg h3, tget_tput_ne (k := 3) 0 (hne h3), tget_nil]

/-! ## The commands -/

theorem exec_taskPost (m : Master) (l : Fin 32) (c : Fin 256) (t : Fin 16) (prio : BitVec 2) (entry : BitVec 15) (arg : Word)
    (met : Bool) (s : State) :
    exec (.taskPost m l c t prio entry arg met) s = .next (post s m l.val c.val t.val false
      (fun _ => postedThread l.val c.val t.val prio entry arg (arrayOn s l.val)) met) := rfl

theorem exec_killPost (m : Master) (l : Fin 32) (c : Fin 256) (t : Fin 16) (prio : BitVec 2) (entry : BitVec 15) (arg : Word)
    (met : Bool) (s : State) :
    exec (.killPost m l c t prio entry arg met) s = .next (post s m l.val c.val t.val true clearedThread met) := rfl

/-- Settles O8: a post of a master that may post sets its thread or records a refusal; one of another is counted. -/
theorem posts : Obligations.Posts := by
  intro m l c t prio entry arg s w refused hl hd
  have hwhy {i : Instr} {why : Nat} (h : why < 8) (hi : exec i s = .next (refusePost s l.val why)) : refused i why :=
    ⟨_, hi, refusePost_spec s l.val h⟩
  refine ⟨fun met hwho => ?_, ?_, fun h1 h2 met kill => ?_⟩
  · have hm : mayPost m l.val = true := by
      rcases hwho with rfl | ⟨rfl, -⟩
      · rfl
      · exact mayPost_deckhand l
    have hmet : (met && m != .hm) = false := by
      rcases hwho with rfl | ⟨-, rfl⟩
      · simp
      · rfl
    refine ⟨fun h => ?_, fun h => ?_, fun h => ?_, fun h => ?_⟩
    · have hrun := (exec_taskPost m l c t prio entry arg met s).trans
        (congrArg Host.Outcome.next (post_accepted hl hd hm hmet h))
      refine ⟨_, hrun, fun hon => ?_, fun hon => ?_, rfl, rfl, rfl, rfl, rfl, rfl, fun r => getReg_postedThread ..⟩
      · simp [postedThread, arrayOn, hon]
      · simp [postedThread, arrayOn, hon]
    · have hrun := (exec_killPost m l c t prio entry arg met s).trans
        (congrArg Host.Outcome.next (post_accepted hl hd hm hmet h))
      exact ⟨_, hrun, rfl, rfl, rfl, rfl, rfl, rfl, rfl⟩
    · exact hwhy (postWhy_lt ..) (by rw [exec_taskPost, post_refused hl hd hm hmet h])
    · exact hwhy (postWhy_lt ..) (by rw [exec_killPost, post_refused hl hd hm hmet h])
  · rintro rfl
    have hm := mayPost_deckhand l
    exact ⟨hwhy (by decide) (by rw [exec_taskPost, post_overruled hl hd hm rfl]),
      hwhy (by decide) (by rw [exec_killPost, post_overruled hl hd hm rfl])⟩
  · have hm := mayPost_eq_false h1 h2
    have hregs : RegsOnly s (countUp s (rTpstat l.val) 23 16 1 none) := regsOnly_countUp ..
    refine ⟨_, ?_, hregs.threads_eq, hregs.mem_eq, rdFld_countUp_same s (by decide) nofun⟩
    cases kill with
    | true => rw [if_pos rfl, Runs, exec_killPost, post_of_other hl hd hm]
    | false => rw [if_neg (by decide), Runs, exec_taskPost, post_of_other hl hd hm]

end Sys2Proof.Laws
end

section
/-! What an issue and a fault leave of threads, cores and landings: the frame of the tile registers (R110, R150, R163,
R165). -/

namespace Sys2Proof.Laws

open Sys2Proof Sys2Proof.Machine Sys2Proof.Claims

/-! ## The other threads and the memories -/

section
variable {s t : State} {w : ThreadRef}

theorem othersKept_of_eq (hthr : t.threads = s.threads) (hmem : t.mem = s.mem) : othersKept s t w :=
  ⟨fun u _ => by rw [getThr, hthr, getThr], hmem⟩

theorem othersKept_setThr (h : othersKept s t w) (x : Thread) : othersKept s (setThr t w x) w :=
  ⟨fun u hu => (getThr_setThr_ne t hu x).trans (h.1 u hu), h.2⟩

theorem othersKept_setCore (h : othersKept s t w) (l c : Nat) (x : Core) : othersKept s (setCore t l c x) w := h

theorem othersKept_preciseFault (h : othersKept s t w) (code : FCode) (info : Dword) :
    othersKept s (preciseFault t w code info) w :=
  ⟨fun u hu => (getThr_faultThread_ne t w code info false _ hu).trans (h.1 u hu), (preciseFault_mem ..).trans h.2⟩

theorem othersKept_trans {u : State} (h : othersKept s t w) (g : othersKept t u w) : othersKept s u w :=
  ⟨fun v hv => (g.1 v hv).trans (h.1 v hv), g.2.trans h.2⟩

end

/-! ## The fetch -/

section
variable (s : State) (w : ThreadRef)

@[simp] theorem getThr_fetched (v : ThreadRef) : getThr (fetched s w) v = getThr s v := by
  rw [fetched, getThr_correctWord, getThr_noteRun]

theorem fetched_lands : (fetched s w).lands = s.lands := by
  obtain ⟨-, -, -, hlands, -⟩ := correctWord_spec (noteRun s w) w (unitBase (localKey w (4 * (getThr s w).pc.toNat)))
  rw [fetched, hlands]
  cases w <;> rfl

theorem getLand_fetched (l : Nat) : getLand (fetched s w) l = getLand s l := by rw [getLand, fetched_lands, getLand]

theorem othersKept_fetched : othersKept s (fetched s w) w :=
  ⟨fun u _ => getThr_fetched s w u, by rw [fetched, correctWord_mem, noteRun_mem]⟩

/-- The fetch notes the thread's turn in its core, and nothing of the core's takes (R110). -/
theorem takeQ_fetched (l : Fin 32) (c : Fin 256) (t : Fin 16) :
    (getCore (fetched s (.core l c t)) l.val c.val).takeQ = (getCore s l.val c.val).takeQ := by
  obtain ⟨-, -, hcores, -⟩ := correctWord_spec (noteRun s (.core l c t)) (.core l c t)
    (unitBase (localKey (.core l c t) (4 * (getThr s (.core l c t)).pc.toNat)))
  rw [fetched, getCore, hcores, ← getCore, noteRun, getCore_setCore]

end

theorem not_fault_of_mayIssue {s : State} {w : ThreadRef} (h : mayIssue s w = true) : (getThr s w).st ≠ .fault := by
  simp only [mayIssue, canIssue, Bool.and_eq_true, beq_iff_eq] at h
  obtain ⟨⟨⟨⟨hready, -⟩, -⟩, -⟩, -⟩ := h
  rw [hready]
  decide

/-! ## Faults -/

section
variable (s : State) (w : ThreadRef) (code : FCode) (info : Dword)

theorem faultThread_lands (d : Bool) (pc : BitVec 15) : (faultThread s w code info d pc).lands = s.lands := by
  unfold faultThread
  dsimp only
  split
  · split <;> rfl
  · rw [(regsOnly_raiseFault ..).lands_eq]
    cases w <;> rfl

/-- A fault withdraws a take of its own core alone (R117). -/
theorem getCore_faultThread_ne {l : Fin 32} {c : Fin 256} {t : Fin 16} {l' c' : Nat} (h : coreKey l' c' ≠ coreKey l.val c.val)
    (d : Bool) (pc : BitVec 15) : getCore (faultThread s (.core l c t) code info d pc) l' c' = getCore s l' c' := by
  unfold faultThread
  dsimp only
  split
  · split <;> rfl
  · rw [getCore, (regsOnly_raiseFault ..).cores_eq, ← getCore, withdrawTake, getCore_setCore_ne _ h, getCore_of_setThr]

/-- A thread that is not in FAULT takes the fault as R165 gives it. -/
theorem faults_preciseFault {t : State} {n : Nat} (hthr : getThr t w = getThr s w) (hst : (getThr s w).st ≠ .fault)
    (hn : code.num = .ofNat 8 n) : faults s (preciseFault t w code info) w n info := by
  have hst' : (getThr t w).st ≠ .fault := by rwa [hthr]
  refine ⟨?_, ?_⟩
  · rw [preciseFault, getThr_faultThread t w code info false _ hst', hthr, hn]
  · rw [preciseFault, faultThread, if_neg hst']
    cases w with
    | core l c t => exact rdFld_setFlag_same _ _ (by decide)
    | deckhand l => exact rdFld_setFlag_same _ _ (by decide)

end

end Sys2Proof.Laws
end

section
/-! The tile queue: TQTAKE, TQDONE, the grants of a chain and the steal delay (R117, R119, R120). -/

namespace Sys2Proof.Laws

open Sys2Proof Sys2Proof.Machine Sys2Proof.Claims

/-! ## TQTAKE and TQDONE (R117) -/

section
variable {s : State} {l : Fin 32} {c : Fin 256} {t : Fin 16}

theorem exec_tqtake {w : ThreadRef} (h : fetches s w) (sd : BitVec 5) :
    exec (.tqtake w sd) s = .next (takeTile (fetched s w) w sd (wordI 0x12 ⟨sd, 0, 0x020⟩)) :=
  congrArg Host.Outcome.next (issue_runs s w _ _ h.1 h.2)

theorem exec_tqdone {w : ThreadRef} (h : fetches s w) (sa : BitVec 5) :
    exec (.tqdone w sa) s =
      .next (doneTile (fetched s w) w (getReg (getThr s w) sa) (wordI 0x13 ⟨0, sa, 0x021⟩)) := by
  rw [← getThr_fetched s w w]
  exact congrArg Host.Outcome.next (issue_runs s w _ _ h.1 h.2)

/-- A take without a tile waits behind its core's other takes. -/
theorem takeTile_waits (sd : BitVec 5) (word : Word) (h : (getThr s (.core l c t)).tile = none) :
    takeTile s (.core l c t) sd word =
      setCore (setThr s (.core l c t) { getThr s (.core l c t) with st := .wait, wait := .tile sd }) l.val c.val
        { getCore s l.val c.val with takeQ := (getCore s l.val c.val).takeQ ++ [t.val] } := by
  simp only [takeTile, h]
  rfl

theorem takeTile_held (sd : BitVec 5) (word : Word) {h : Dword} (hh : (getThr s (.core l c t)).tile = some h) :
    takeTile s (.core l c t) sd word = preciseFault s (.core l c t) .tileHeld h := by
  simp only [takeTile, hh]

theorem doneTile_foreign {v : Dword} (word : Word) (h : (getThr s (.core l c t)).tile ≠ some v) :
    doneTile s (.core l c t) v word = preciseFault s (.core l c t) .tqHandle v := if_pos h

/-- The state with the thread's tile completed (R116, R117). -/
def tileDone (s : State) (l : Fin 32) (w : ThreadRef) (v : Dword) : State :=
  setThr (setLand s l.val { getLand s l.val with tiles := (getLand s l.val).tiles.eraseP (hasHandle v) }) w
    { getThr s w with tile := none }

theorem doneTile_held {v : Dword} (word : Word) (h : (getThr s (.core l c t)).tile = some v) :
    doneTile s (.core l c t) v word =
      advance (releaseSlots (tileDone s l (.core l c t) v) l.val) (.core l c t) 1 := if_neg (not_not_intro h)

/-- Releasing slots is work at a ring stop: no thread and no memory takes part. -/
theorem othersKept_releaseSlots (s : State) (l : Nat) (w : ThreadRef) :
    othersKept s (releaseSlots s l) w ∧ getThr (releaseSlots s l) w = getThr s w := by
  have hrest := (stopWork_releaseSlots (p := fun _ => False) id s l).rest
  have hthr : (releaseSlots s l).threads = s.threads := by rw [hrest]
  exact ⟨othersKept_of_eq hthr (by rw [hrest]), by rw [getThr, hthr, getThr]⟩

/-- A TQTAKE without a tile waits. -/
theorem tqtake_waits (sd : BitVec 5) (hf : fetches s (.core l c t)) (hno : (getThr s (.core l c t)).tile = none) :
    ∃ u, Runs (.tqtake (.core l c t) sd) s u ∧
      getThr u (.core l c t) = { getThr s (.core l c t) with st := .wait, wait := .tile sd } ∧
      (getCore u l.val c.val).takeQ = (getCore s l.val c.val).takeQ ++ [t.val] ∧ othersKept s u (.core l c t) := by
  have hrun := exec_tqtake hf sd
  rw [takeTile_waits _ _ (by rw [getThr_fetched, hno]), getThr_fetched] at hrun
  refine ⟨_, hrun, ?_, ?_, othersKept_setCore (othersKept_setThr (othersKept_fetched ..) _) _ _ _⟩
  · rw [getThr_of_setCore, getThr_setThr]
  · rw [getCore_setCore, takeQ_fetched]

/-- A TQTAKE with a tile faults. -/
theorem tqtake_faults (sd : BitVec 5) {h : Dword} (hf : fetches s (.core l c t))
    (hh : (getThr s (.core l c t)).tile = some h) :
    ∃ u, Runs (.tqtake (.core l c t) sd) s u ∧ faults s u (.core l c t) 0x10 h ∧ othersKept s u (.core l c t) := by
  have hrun := exec_tqtake hf sd
  rw [takeTile_held _ _ (by rw [getThr_fetched, hh])] at hrun
  exact ⟨_, hrun, faults_preciseFault s _ .tileHeld h (getThr_fetched ..) (not_fault_of_mayIssue hf.1) rfl,
    othersKept_preciseFault (othersKept_fetched ..) _ _⟩

/-- A TQDONE of the held handle completes its tile. -/
theorem tqdone_completes (sa : BitVec 5) (hi : issues s (.core l c t))
    (hh : (getThr s (.core l c t)).tile = some (getReg (getThr s (.core l c t)) sa)) :
    ∃ u, Runs (.tqdone (.core l c t) sa) s u ∧
      getThr u (.core l c t) =
        { getThr s (.core l c t) with tile := none, pc := .ofNat 15 (nextPc (getThr s (.core l c t))) } ∧
      (getLand u l.val).tiles = (getLand s l.val).tiles.eraseP (hasHandle (getReg (getThr s (.core l c t)) sa)) ∧
      othersKept s u (.core l c t) := by
  obtain ⟨hmay, hfetch, hpc⟩ := hi
  have hrun := exec_tqdone ⟨hmay, hfetch⟩ sa
  rw [doneTile_held _ (by rw [getThr_fetched, hh])] at hrun
  generalize hd : tileDone (fetched s _) l _ (getReg (getThr s _) sa) = d at hrun
  obtain ⟨hrel, hrelThr⟩ := othersKept_releaseSlots d l.val (.core l c t)
  have hdThr : getThr d (.core l c t) = { getThr s (.core l c t) with tile := none } := by
    rw [← hd, tileDone, getThr_setThr, getThr_fetched]
  have hdTiles : (getLand d l.val).tiles =
      (getLand s l.val).tiles.eraseP (hasHandle (getReg (getThr s (.core l c t)) sa)) := by
    rw [← hd, tileDone, getLand_of_setThr, getLand_setLand, getLand_fetched]
  have hdKept : othersKept s d (.core l c t) := by
    rw [← hd]
    exact othersKept_setThr (othersKept_fetched ..) _
  rw [advance_ok _ _ 1 (by rw [hrelThr, hdThr]; exact hpc), hrelThr, hdThr] at hrun
  refine ⟨_, hrun, getThr_setThr .., ?_, othersKept_setThr (othersKept_trans hdKept hrel) _⟩
  rw [getLand_of_setThr, (releaseSlots_queues d l.val).2, hdTiles]

/-- A TQDONE of another handle faults. -/
theorem tqdone_faults (sa : BitVec 5) (hf : fetches s (.core l c t))
    (hno : (getThr s (.core l c t)).tile ≠ some (getReg (getThr s (.core l c t)) sa)) :
    ∃ u, Runs (.tqdone (.core l c t) sa) s u ∧ faults s u (.core l c t) 0x0f (getReg (getThr s (.core l c t)) sa) ∧
      (getLand u l.val).tiles = (getLand s l.val).tiles ∧ othersKept s u (.core l c t) := by
  have hrun := exec_tqdone hf sa
  rw [doneTile_foreign _ (by rw [getThr_fetched]; exact hno)] at hrun
  refine ⟨_, hrun, faults_preciseFault s _ .tqHandle _ (getThr_fetched ..) (not_fault_of_mayIssue hf.1) rfl, ?_,
    othersKept_preciseFault (othersKept_fetched ..) _ _⟩
  rw [preciseFault, getLand, faultThread_lands, ← getLand, getLand_fetched]

end

/-! ## One grant (R117, R120) -/

/-- Every tile of the number is taken: it is not offered again. -/
def tileTaken (s : State) (l n : Nat) : Prop := ∀ y ∈ (getLand s l).tiles, y.num = n → y.taken = true

/-- The tiles with tile x taken. -/
def tilesTaken (x : Tile) (ts : List Tile) : List Tile := ts.map fun u => if u.num = x.num then { u with taken := true } else u

/-- The landing with a tile handed to a core, a steal counted in LC.TQSTAT (R119). -/
def tileHanded (s : State) (l c : Nat) (x : Tile) : State :=
  let t := setLand s l { getLand s l with tiles := tilesTaken x (getLand s l).tiles }
  if c = ownerCore x.tg x.lane then t else countUp t (lcBase l + 0x88) 31 0 1 none

/-- The core's oldest take is served and leaves its order. -/
def takeServed (s : State) (l c : Nat) (rest : List Nat) (x : Tile) : State :=
  setCore (tileHanded s l c x) l c { getCore s l c with takeQ := rest }

/-- What a grant of tile x to thread n of a core leaves. -/
def granted (s : State) (l c n : Nat) (rest : List Nat) (sd : BitVec 5) (x : Tile) : State :=
  let w := coreThr l c n
  advance (dst (setThr (takeServed s l c rest x) w
    { getThr s w with st := .ready, wait := .none, tile := some (handleFor x c) }) w sd (handleFor x c)) w 1

section
variable (s : State) (l c : Nat) (x : Tile)

theorem regsOnly_tileHanded :
    RegsOnly (setLand s l { getLand s l with tiles := tilesTaken x (getLand s l).tiles }) (tileHanded s l c x) := by
  unfold tileHanded
  dsimp only
  split
  · exact .refl _
  · exact regsOnly_countUp ..

theorem tiles_tileHanded : (getLand (tileHanded s l c x) l).tiles = tilesTaken x (getLand s l).tiles := by
  rw [getLand, (regsOnly_tileHanded s l c x).lands_eq, ← getLand, getLand_setLand]

/-- A tile that is handed out is taken, and so is every one that was. -/
theorem tileTaken_tileHanded {n : Nat} (h : n = x.num ∨ tileTaken s l n) : tileTaken (tileHanded s l c x) l n := by
  intro y hy hn
  rw [tiles_tileHanded, tilesTaken, List.mem_map] at hy
  obtain ⟨z, hz, rfl⟩ := hy
  by_cases hx : z.num = x.num
  · rw [if_pos hx]
  · rw [if_neg hx] at hn ⊢
    exact (h.resolve_left fun e => hx (hn.trans e)) z hz hn

variable (rest : List Nat)

theorem getThr_takeServed (w : ThreadRef) : getThr (takeServed s l c rest x) w = getThr s w := by
  rw [takeServed, getThr_of_setCore, (regsOnly_tileHanded s l c x).getThr_eq, getThr_of_setLand]

theorem getCore_tileHanded (l' c' : Nat) : getCore (tileHanded s l c x) l' c' = getCore s l' c' := by
  rw [getCore, (regsOnly_tileHanded s l c x).cores_eq, ← getCore, getCore_of_setLand]

end

/-- The model's grant, where there is a take that meets a tile. -/
theorem grantTile_serves {s : State} {l c n : Nat} {rest : List Nat} {sd : BitVec 5} {x : Tile}
    (hq : (getCore s l c).takeQ = n :: rest) (hw : (getThr s (coreThr l c n)).wait = .tile sd)
    (hp : pickTile s l c = some x) (ha : arrayOn s l = true) : grantTile l s c = granted s l c n rest sd x := by
  have hcore : getCore (tileHanded s l c x) l c = getCore s l c := getCore_tileHanded ..
  have hthr : getThr (takeServed s l c rest x) (coreThr l c n) = getThr s (coreThr l c n) := getThr_takeServed ..
  rw [granted, ← hthr, takeServed, ← hcore]
  unfold grantTile
  simp only [hq, hw, hp, ha]
  rfl

/-- A core's turn in a TILE_GRANT leaves the state, or grants one tile. -/
theorem grantTile_cases (l : Nat) (s : State) (c : Nat) :
    grantTile l s c = s ∨ ∃ n rest sd x, grantTile l s c = granted s l c n rest sd x := by
  cases hq : (getCore s l c).takeQ with
  | nil => exact .inl (by simp only [grantTile, hq])
  | cons n rest =>
    cases hp : pickTile s l c with
    | none => exact .inl (by simp only [grantTile, hq, hp])
    | some x =>
      cases ha : arrayOn s l with
      | false => exact .inl (by simp only [grantTile, hq, hp, ha]; split <;> rfl)
      | true =>
        cases hw : (getThr s (coreThr l c n)).wait with
        | tile sd => exact .inr ⟨n, rest, sd, x, grantTile_serves hq hw hp ha⟩
        | _ => exact .inl (by simp only [grantTile, hq, hp, hw])

/-- A grant whose thread stays inside scalar memory. -/
theorem granted_spec {s : State} {l : Fin 32} {c : Fin 256} {t : Fin 16} (rest : List Nat) (sd : BitVec 5) (x : Tile)
    (hpc : (getThr s (.core l c t)).pc.toNat + 1 < 32768) :
    let u := granted s l.val c.val t.val rest sd x
    getThr u (.core l c t) =
      stepped { getThr s (.core l c t) with st := .ready, wait := .none, tile := some (handleFor x c.val) } sd
        (handleFor x c.val) (nextPc (getThr s (.core l c t))) ∧
      (getCore u l.val c.val).takeQ = rest ∧ tileTaken u l.val x.num ∧ othersKept s u (.core l c t) := by
  have hregs := regsOnly_tileHanded s l.val c.val x
  have hkept : othersKept s (takeServed s l.val c.val rest x) (.core l c t) :=
    othersKept_setCore (othersKept_of_eq hregs.threads_eq hregs.mem_eq) _ _ _
  have hu : granted s l.val c.val t.val rest sd x = setThr (takeServed s l.val c.val rest x) (.core l c t)
      (stepped { getThr s (.core l c t) with st := .ready, wait := .none, tile := some (handleFor x c.val) } sd
        (handleFor x c.val) (nextPc (getThr s (.core l c t)))) := by
    rw [granted]
    dsimp only
    rw [coreThr_val, dst, getThr_setThr, advance_ok _ _ 1 (by rw [getThr_setThr, setReg_pc]; exact hpc), getThr_setThr,
      setThr_setThr, setThr_setThr, setReg_pc]
    rfl
  intro u
  rw [show u = _ from hu]
  refine ⟨getThr_setThr .., ?_, ?_, othersKept_setThr hkept _⟩
  · rw [getCore_of_setThr, takeServed, getCore_setCore]
  · exact tileTaken_tileHanded s l.val c.val x (.inl rfl)

/-! ## The grants of a chain, in ascending core number (R120) -/

/-- What the turns of other cores leave of core c: its threads, its takes, and which tiles are taken. -/
structure TurnsKept (l : Fin 32) (c : Fin 256) (s t : State) : Prop where
  thr : ∀ n : Fin 16, getThr t (.core l c n) = getThr s (.core l c n)
  takes : (getCore t l.val c.val).takeQ = (getCore s l.val c.val).takeQ
  taken : ∀ n, tileTaken s l.val n → tileTaken t l.val n

theorem core_ne {l : Fin 32} {c e : Fin 256} (h : e ≠ c) (n k : Fin 16) : ThreadRef.core l c k ≠ .core l e n := by
  rintro ⟨⟩
  exact h rfl

theorem coreKey_ne {l : Fin 32} {c e : Fin 256} (h : e ≠ c) : coreKey l.val c.val ≠ coreKey l.val e.val := by
  rw [coreKey, coreKey, ne_eq, Nat.add_left_cancel_iff, Fin.val_inj]
  exact h.symm

theorem turnsKept_advance {l : Fin 32} {c e : Fin 256} (he : e ≠ c) (n : Fin 16) (s : State) (m : Nat) :
    TurnsKept l c s (advance s (.core l e n) m) := by
  unfold advance
  dsimp only
  split
  · exact ⟨fun k => getThr_setThr_ne s (core_ne he n k) _, rfl, fun _ h => h⟩
  · refine ⟨fun k => ?_, ?_, fun k h => ?_⟩
    · rw [pcEnd, preciseFault, getThr_faultThread_ne _ _ _ _ _ _ (core_ne he n k)]
      rfl
    · rw [pcEnd, preciseFault, getCore_faultThread_ne _ _ _ (coreKey_ne he)]
      rfl
    · rw [pcEnd, preciseFault, tileTaken, getLand, faultThread_lands]
      exact h

/-- A turn of another core. -/
theorem turnsKept_grantTile {l : Fin 32} {c e : Fin 256} (he : e ≠ c) (s : State) :
    TurnsKept l c s (grantTile l.val s e.val) := by
  rcases grantTile_cases l.val s e.val with h | ⟨n, rest, sd, x, h⟩
  · rw [h]
    exact ⟨fun _ => rfl, rfl, fun _ ht => ht⟩
  rw [h, granted, coreThr_eq]
  dsimp only
  generalize (⟨n % 16, _⟩ : Fin 16) = n'
  generalize hd : dst _ _ _ _ = d
  obtain ⟨hthr, htakes, htaken⟩ := turnsKept_advance he n' d 1
  refine ⟨fun k => (hthr k).trans ?_, htakes.trans ?_, fun k ht => htaken k ?_⟩
  · rw [← hd, dst, getThr_setThr_ne _ (core_ne he n' k), getThr_setThr_ne _ (core_ne he n' k), getThr_takeServed]
  · rw [← hd, dst, getCore_of_setThr, getCore_of_setThr, takeServed, getCore_setCore_ne _ (coreKey_ne he), getCore_tileHanded]
  · rw [← hd]
    exact tileTaken_tileHanded s l.val e.val x (.inr ht)

theorem TurnsKept.trans {l : Fin 32} {c : Fin 256} {s t u : State} (h : TurnsKept l c s t) (g : TurnsKept l c t u) :
    TurnsKept l c s u :=
  ⟨fun n => (g.thr n).trans (h.thr n), g.takes.trans h.takes, fun n hn => g.taken n (h.taken n hn)⟩

theorem turnsKept_fold {l : Fin 32} {c : Fin 256} {xs : List Nat} (h : ∀ e ∈ xs, e ≠ c.val ∧ e < 256) (s : State) :
    TurnsKept l c s (xs.foldl (grantTile l.val) s) :=
  List.foldlRecOn (motive := TurnsKept l c s) _ _ ⟨fun _ => rfl, rfl, fun _ ht => ht⟩
    fun t ht e he =>
      ht.trans (turnsKept_grantTile (e := ⟨e, (h e he).2⟩) (fun hc => (h e he).1 (congrArg Fin.val hc)) t)

/-- Turns of cores without a take. -/
theorem fold_grantTile_idle {l : Nat} {xs : List Nat} {s : State} (h : ∀ e ∈ xs, (getCore s l e).takeQ = []) :
    xs.foldl (grantTile l) s = s :=
  List.foldlRecOn (motive := fun t => t = s) _ _ rfl fun t ht e he => by
    rw [ht]
    simp only [grantTile, h e he]

/-- The cores of core k's chain up to k. -/
def chainUpTo (k : Nat) : List Nat := (upto (k / 16 + 1)).map fun i => 16 * i + k % 16

theorem mem_chainUpTo {k c : Nat} : c ∈ chainUpTo k ↔ c ≤ k ∧ c % 16 = k % 16 := by
  simp only [chainUpTo, upto, List.mem_map, List.mem_range]
  constructor
  · rintro ⟨i, hi, rfl⟩
    omega
  · intro h
    exact ⟨c / 16, by omega, by omega⟩

theorem chainUpTo_ascends (k : Nat) : (chainUpTo k).Pairwise (· < ·) := by
  rw [chainUpTo, List.pairwise_map]
  exact List.pairwise_lt_range.imp fun h => by omega

/-- A core's turn comes after those of the lower ones of its chain, and before those of the higher ones. -/
theorem chainUpTo_split {k c : Nat} (hc : c ≤ k) (hm : c % 16 = k % 16) : ∃ pre post, chainUpTo k = pre ++ c :: post ∧
    (∀ e ∈ pre, e < c ∧ e % 16 = c % 16) ∧ ∀ e ∈ post, c < e ∧ e ≤ k := by
  obtain ⟨pre, post, he⟩ := List.append_of_mem (mem_chainUpTo.mpr ⟨hc, hm⟩)
  have hin {e : Nat} (h : e ∈ pre ++ c :: post) : e ≤ k ∧ e % 16 = k % 16 := mem_chainUpTo.mp (he ▸ h)
  have hasc := chainUpTo_ascends k
  rw [he, List.pairwise_append, List.pairwise_cons] at hasc
  obtain ⟨-, ⟨hpost, -⟩, hpre⟩ := hasc
  refine ⟨pre, post, he, fun e h => ⟨hpre e h c List.mem_cons_self, ?_⟩, fun e h => ⟨hpost e h, ?_⟩⟩
  · rw [hm]
    exact (hin (List.mem_append_left _ h)).2
  · exact (hin (List.mem_append_right _ (List.mem_cons_of_mem _ h))).1

/-- Settles O18: a take waits or faults, a completion erases its tile or faults, the turns of a chain's cores before the first
with a take do nothing and those after it leave it alone, and the steal delay marks its tile. -/
theorem tileQueue : Obligations.TileQueue := by
  refine ⟨fun l c t sd s => ⟨tqtake_waits sd, fun _ => tqtake_faults sd, tqdone_completes, tqdone_faults⟩, ?_,
    fun l n s => ?_⟩
  · intro k d t rest sd x s l c w hle hmod hidle hq hw hp ha hpc h
    obtain ⟨pre, post, hsplit, hpre, hpost⟩ := chainUpTo_split hle hmod
    have hserve : grantTile l s c = granted s l c t.val rest sd x :=
      grantTile_serves hq (by rw [coreThr_val]; exact hw) hp ha
    have hrun : exec (.tileGrant k) s = .next (post.foldl (grantTile l) (granted s l c t.val rest sd x)) := by
      show Host.Outcome.next ((chainUpTo k.core.val).foldl (grantTile l) s) = _
      rw [hsplit, List.foldl_append, fold_grantTile_idle fun e he => hidle e (hpre e he).1 (hpre e he).2, List.foldl_cons,
        hserve]
    obtain ⟨hthr, htakes, htaken, hkept⟩ := granted_spec rest sd x hpc
    have hlater : TurnsKept k.land d (granted s l c t.val rest sd x)
        (post.foldl (grantTile l) (granted s l c t.val rest sd x)) :=
      turnsKept_fold (fun e he => ⟨(hpost e he).1.ne', (hpost e he).2.trans_lt k.core.isLt⟩) _
    refine ⟨_, hrun, (hlater.thr t).trans hthr, hlater.takes.trans htakes, hlater.taken _ htaken, fun hlast => ?_⟩
    have hnone : post = [] := List.eq_nil_iff_forall_not_mem.mpr fun e he => by
      have hgt := hpost e he
      rw [← hlast] at hgt
      exact absurd hgt.1 (not_lt.mpr hgt.2)
    rw [hnone]
    exact hkept
  · show execStealDelayExpiry l n s = _
    simp [execStealDelayExpiry]

end Sys2Proof.Laws
end

section
/-! The fetch of an instruction and its fault: what an issue leaves of the state before its body runs, and the record
of a fault (R110, R136, R150, R163, R165). -/

namespace Sys2Proof.Laws

open Sys2Proof Sys2Proof.Machine Sys2Proof.Claims

/-! ## The fetch -/

section
variable (s : State) (w : ThreadRef)

theorem marksOnly_correctWord (k : Nat) : MarksOnly s (correctWord s w k) := by
  unfold correctWord
  split
  · cases w with
    | core l c t => exact (marksOnly_freshCheck s k).trans (regsOnly_countCore ..).marksOnly
    | deckhand l => exact marksOnly_freshCheck s k
  · exact .refl s

/-- t differs from s in what a fetch may change: the turns of cores, check bits, register words, the free counter. -/
def FetchOnly (s t : State) : Prop :=
  t = { s with cores := t.cores, free := t.free, poison := t.poison, uerr := t.uerr, cerr := t.cerr, regs := t.regs }

theorem MarksOnly.fetchOnly {s t : State} (h : MarksOnly s t) : FetchOnly s t := by
  unfold MarksOnly at h
  rw [h]
  rfl

theorem FetchOnly.trans {s t u : State} (h : FetchOnly s t) (g : FetchOnly t u) : FetchOnly s u := by
  unfold FetchOnly at *
  rw [h] at g
  exact g

theorem fetchOnly_noteRun : FetchOnly s (noteRun s w) := by cases w <;> rfl

theorem fetchOnly_fetched : FetchOnly s (fetched s w) :=
  (fetchOnly_noteRun s w).trans (marksOnly_correctWord ..).fetchOnly

theorem fetchOnly_cmdFetched : FetchOnly s (cmdFetched s w) :=
  (fetchOnly_fetched s w).trans (marksOnly_correctWord ..).fetchOnly

end

section
variable {s t : State} (h : FetchOnly s t)
include h

theorem FetchOnly.threads_eq : t.threads = s.threads := by rw [h]
theorem FetchOnly.mem_eq : t.mem = s.mem := by rw [h]
theorem FetchOnly.lands_eq : t.lands = s.lands := by rw [h]
theorem FetchOnly.accs_eq : t.accs = s.accs := by rw [h]
theorem FetchOnly.nextId_eq : t.nextId = s.nextId := by rw [h]
theorem FetchOnly.time_eq : t.time = s.time := by rw [h]
theorem FetchOnly.edges_eq : t.edges = s.edges := by rw [h]
theorem FetchOnly.fuses_eq : t.fuses = s.fuses := by rw [h]
theorem FetchOnly.modnum_eq : t.modnum = s.modnum := by rw [h]

theorem FetchOnly.getThr_eq (w : ThreadRef) : getThr t w = getThr s w := by rw [getThr, h.threads_eq, getThr]
theorem FetchOnly.getLand_eq (l : Nat) : getLand t l = getLand s l := by rw [getLand, h.lands_eq, getLand]

theorem FetchOnly.othersKept (w : ThreadRef) : othersKept s t w := othersKept_of_eq h.threads_eq h.mem_eq

end

section
variable {s : State} {w : ThreadRef}

/-- An issue whose word can be fetched: ILLEGAL for a bad field, else the body, in the fetched state. -/
theorem issue_fetches (h : fetches s w) (bad : Bool) (word : Word) (body : State → State) :
    issue s w bad word body =
      if bad then preciseFault (fetched s w) w .illegal (word.setWidth 64) else body (fetched s w) := by
  cases bad with
  | true => exact issue_illegal s w word body h.1 h.2
  | false => exact issue_runs s w word body h.1 h.2

theorem issues_fetches (h : issues s w) : fetches s w := ⟨h.1, h.2.1⟩

theorem issues_nextPc (h : issues s w) : nextPc (getThr s w) < 32768 := h.2.2

/-- A thread that issues is READY, held by nothing and not yielding (R110). -/
theorem idle_of_mayIssue (h : mayIssue s w = true) :
    (getThr s w).st = .ready ∧ (getThr s w).hold = .none ∧ (getThr s w).yielding = false := by
  simp only [mayIssue, canIssue, Bool.and_eq_true, beq_iff_eq, Bool.not_eq_true'] at h
  obtain ⟨⟨⟨⟨hready, hhold⟩, hyield⟩, -⟩, -⟩ := h
  exact ⟨hready, hhold, hyield⟩

theorem mayIssue_of_hold (h : (getThr s w).hold ≠ .none) : mayIssue s w = false := by
  simp [mayIssue, canIssue, h]

theorem mayIssue_of_yielding (h : (getThr s w).yielding = true) : mayIssue s w = false := by
  simp [mayIssue, canIssue, h]

end

/-! ## Faults -/

/-- A thread with a precise fault in its record (R163, R165). -/
def faulted (t : Thread) (code : Nat) (info : Dword) : Thread :=
  { t with
    st := .fault, wait := .none, hold := .none, yielding := false, fcode := .ofNat 8 code, deferred := false,
    more := false, fpc := t.pc, info := info }

/-- A precise fault of a thread that differs from what it was in what the record replaces alone. -/
theorem faults_preciseFault_of_record {s t : State} {w : ThreadRef} {code : FCode} {info : Dword} {n : Nat}
    (hst : (getThr t w).st ≠ .fault) (hn : code.num = .ofNat 8 n)
    (hrec : faulted (getThr t w) n info = faulted (getThr s w) n info) : faults s (preciseFault t w code info) w n info := by
  obtain ⟨hthr, hcause⟩ := faults_preciseFault (s := t) (w := w) (code := code) (info := info) rfl hst hn
  exact ⟨hthr.trans hrec, hcause⟩

/-- A fault starts and ends no access. -/
theorem faultThread_accs (s : State) (w : ThreadRef) (code : FCode) (info : Dword) (d : Bool) (pc : BitVec 15) :
    (faultThread s w code info d pc).accs = s.accs := by
  unfold faultThread
  dsimp only
  split
  · split <;> rfl
  · rw [(regsOnly_raiseFault ..).marksOnly.accs_eq]
    cases w <;> rfl

theorem preciseFault_accs (s : State) (w : ThreadRef) (code : FCode) (info : Dword) :
    (preciseFault s w code info).accs = s.accs := faultThread_accs ..

end Sys2Proof.Laws
end

section
/-! The words of scalar instructions as numbers, and the rows of the arithmetic instructions (R135, R136, R142, R144,
R145, R147). -/

namespace Sys2Proof.Laws

open Sys2Proof Sys2Proof.Machine Sys2Proof.Claims

/-! ## Words as numbers (R135) -/

theorem toNat_append_eq {m n : Nat} (x : BitVec m) (y : BitVec n) : (x ++ y).toNat = x.toNat * 2 ^ n + y.toNat := by
  rw [BitVec.toNat_append, ← Nat.shiftLeft_add_eq_or_of_lt y.isLt, Nat.shiftLeft_eq]

theorem toNat_wordR (op : BitVec 6) (f : RForm) (fn : BitVec 6) :
    (wordR op f fn).toNat = regWord op.toNat fn.toNat f := by
  simp only [wordR, toNat_append_eq, regWord]
  omega

theorem toNat_wordI (op : BitVec 6) (f : IForm) : (wordI op f).toNat = immWord op.toNat f := by
  simp only [wordI, toNat_append_eq, immWord]
  omega

/-! ## One register written -/

/-- The body of an instruction that writes one register from the thread's registers. -/
def writeReg (w : ThreadRef) (r : BitVec 5) (g : Thread → Dword) (s : State) : State :=
  advance (dst s w r (g (getThr s w))) w 1

/-- Inside scalar memory a written register steps the thread. -/
theorem advance_dst {s : State} {w : ThreadRef} (r : BitVec 5) (v : Dword) (h : nextPc (getThr s w) < 32768) :
    advance (dst s w r v) w 1 = setThr s w (stepped (getThr s w) r v (nextPc (getThr s w))) := by
  rw [advance_ok _ _ _ (by rw [dst, getThr_setThr, setReg_pc]; exact h), dst, getThr_setThr, setThr_setThr, setReg_pc]
  rfl

/-- An instruction runs as its row says: the word, ILLEGAL where a field is bad, else its register written. -/
def RowRuns (i : Instr) : Row → Prop
  | (w, r, ok, v, g) => ∃ word : Word, word.toNat = v ∧ ∀ s, exec i s = .next (issue s w (!ok) word (writeReg w r g))

/-- The body of an instruction counts where its fields are right alone. -/
theorem issue_congr {s : State} {w : ThreadRef} {bad : Bool} (word : Word) {body body' : State → State}
    (h : bad = false → ∀ t, body t = body' t) : issue s w bad word body = issue s w bad word body' := by
  cases bad with
  | true => rfl
  | false => rw [funext (h rfl)]

section
variable {i : Instr} {w : ThreadRef} {m : Dword → Dword → Dword} {g : Thread → Dword}

theorem rowRuns_aluR {f : RForm} {fn : BitVec 6} (he : ∀ s, exec i s = .next (aluR s w f fn m))
    (h : ∀ t, m (getReg t f.sa) (getReg t f.sb) = g t) :
    RowRuns i (w, f.sd, decide (f.sc = 0), regWord 0x00 fn.toNat f, g) := by
  refine ⟨_, toNat_wordR 0x00 f fn, fun s => (he s).trans (congrArg Host.Outcome.next ?_)⟩
  have hbad : (f.sc != 0) = !decide (f.sc = 0) := rfl
  rw [aluR, hbad]
  exact issue_congr _ fun _ t => by rw [writeReg, ← h]; rfl

theorem rowRuns_aluI {f : IForm} {op : BitVec 6} {bad ok : Bool} {imm : Dword}
    (he : ∀ s, exec i s = .next (aluI s w f op bad m imm)) (hok : bad = !ok)
    (h : ok = true → ∀ t, m (getReg t f.sa) imm = g t) : RowRuns i (w, f.sd, ok, immWord op.toNat f, g) := by
  refine ⟨_, toNat_wordI op f, fun s => (he s).trans (congrArg Host.Outcome.next ?_)⟩
  rw [aluI, hok]
  exact issue_congr _ fun hb t => by rw [writeReg, ← h (by simpa using hb)]; rfl

end

/-! ## The operations as arithmetic (R144) -/

theorem truth_eq {p : Prop} [Decidable p] {b : Bool} (h : b = true ↔ p) : flag64 b = Claims.truth p := by
  unfold flag64 Claims.truth
  exact if_congr h rfl rfl

section
variable (a b : Dword)

theorem add_eq_ofNat : a + b = .ofNat 64 (a.toNat + b.toNat) := by
  simp [BitVec.ofNat_add]

theorem sub_eq_ofInt : a - b = .ofInt 64 ((a.toNat : Int) - b.toNat) := by
  rw [Int.sub_eq_add_neg, BitVec.ofInt_add, BitVec.ofInt_neg, BitVec.sub_eq_add_neg]
  simp

theorem mul_eq_ofNat : a * b = .ofNat 64 (a.toNat * b.toNat) := by
  simp [BitVec.ofNat_mul]

theorem fShl_eq : fShl a b = .ofNat 64 (a.toNat * 2 ^ (b.toNat % 64)) := by
  apply BitVec.eq_of_toNat_eq
  rw [fShl, BitVec.toNat_shiftLeft, Nat.shiftLeft_eq, BitVec.toNat_ofNat]

theorem fShr_eq : fShr a b = .ofNat 64 (a.toNat / 2 ^ (b.toNat % 64)) := by
  have h : a.toNat / 2 ^ (b.toNat % 64) < 2 ^ 64 := (Nat.div_le_self ..).trans_lt a.isLt
  apply BitVec.eq_of_toNat_eq
  rw [fShr, BitVec.toNat_ushiftRight, Nat.shiftRight_eq_div_pow, BitVec.toNat_ofNat, Nat.mod_eq_of_lt h]

theorem fSra_eq : fSra a b = .ofInt 64 (a.toInt / 2 ^ (b.toNat % 64)) := by
  rw [fSra, BitVec.sshiftRight, Int.shiftRight_eq_div_pow]
  norm_cast

theorem fMulhu_eq : fMulhu a b = .ofNat 64 (a.toNat * b.toNat / 2 ^ 64) := by
  have h : a.toNat * b.toNat < 2 ^ 128 := by
    calc a.toNat * b.toNat < 2 ^ 64 * 2 ^ 64 := Nat.mul_lt_mul'' a.isLt b.isLt
      _ = 2 ^ 128 := by norm_num
  apply BitVec.eq_of_toNat_eq
  simp only [fMulhu, BitVec.extractLsb'_toNat, BitVec.toNat_mul, BitVec.toNat_setWidth, BitVec.toNat_ofNat,
    Nat.shiftRight_eq_div_pow]
  rw [Nat.mod_eq_of_lt (a := a.toNat) (by omega), Nat.mod_eq_of_lt (a := b.toNat) (by omega), Nat.mod_eq_of_lt h]

theorem fMulh_eq : fMulh a b = .ofInt 64 (a.toInt * b.toInt / 2 ^ 64) := by
  have h : a.signExtend 128 * b.signExtend 128 = .ofInt 128 (a.toInt * b.toInt) := by
    rw [BitVec.ofInt_mul]; rfl
  rw [fMulh, h]
  apply BitVec.eq_of_toNat_eq
  rw [BitVec.extractLsb'_toNat, BitVec.toNat_ofInt, BitVec.toNat_ofInt, Nat.shiftRight_eq_div_pow]
  generalize a.toInt * b.toInt = x
  omega

theorem fCmpeq_eq : fCmpeq a b = Claims.truth (a = b) := truth_eq beq_iff_eq
theorem fCmpne_eq : fCmpne a b = Claims.truth (a ≠ b) := truth_eq bne_iff_ne
theorem fCmplt_eq : fCmplt a b = Claims.truth (a.toInt < b.toInt) := truth_eq (by simp [BitVec.slt])
theorem fCmpltu_eq : fCmpltu a b = Claims.truth (a.toNat < b.toNat) := truth_eq (by simp [BitVec.ult])
theorem fCmpge_eq : fCmpge a b = Claims.truth (a.toInt ≥ b.toInt) := truth_eq (by simp [BitVec.slt])
theorem fCmpgeu_eq : fCmpgeu a b = Claims.truth (a.toNat ≥ b.toNat) := truth_eq (by simp [BitVec.ult])

end

end Sys2Proof.Laws
end

section
/-! The arithmetic instructions run as their rows say: O1 (R136, R142, R144, R145). -/

namespace Sys2Proof.Laws

open Sys2Proof Sys2Proof.Machine Sys2Proof.Claims

/-! ## Register forms (R144) -/

theorem aluRow_runs {i : Instr} {x : Row} (h : aluRow i = some x) : RowRuns i x := by
  unfold aluRow at h
  split at h <;> cases h
  case h_1 => exact rowRuns_aluR (fn := 0x01) (fun _ => rfl) fun _ => add_eq_ofNat ..
  case h_2 => exact rowRuns_aluR (fn := 0x02) (fun _ => rfl) fun _ => sub_eq_ofInt ..
  case h_3 => exact rowRuns_aluR (fn := 0x03) (fun _ => rfl) fun _ => rfl
  case h_4 => exact rowRuns_aluR (fn := 0x04) (fun _ => rfl) fun _ => rfl
  case h_5 => exact rowRuns_aluR (fn := 0x05) (fun _ => rfl) fun _ => rfl
  case h_6 => exact rowRuns_aluR (fn := 0x06) (fun _ => rfl) fun _ => fShl_eq ..
  case h_7 => exact rowRuns_aluR (fn := 0x07) (fun _ => rfl) fun _ => fShr_eq ..
  case h_8 => exact rowRuns_aluR (fn := 0x08) (fun _ => rfl) fun _ => fSra_eq ..
  case h_9 => exact rowRuns_aluR (fn := 0x09) (fun _ => rfl) fun _ => mul_eq_ofNat ..
  case h_10 => exact rowRuns_aluR (fn := 0x0a) (fun _ => rfl) fun _ => fMulh_eq ..
  case h_11 => exact rowRuns_aluR (fn := 0x0b) (fun _ => rfl) fun _ => fMulhu_eq ..
  case h_12 => exact rowRuns_aluR (fn := 0x0c) (fun _ => rfl) fun _ => fCmpeq_eq ..
  case h_13 => exact rowRuns_aluR (fn := 0x0d) (fun _ => rfl) fun _ => fCmpne_eq ..
  case h_14 => exact rowRuns_aluR (fn := 0x0e) (fun _ => rfl) fun _ => fCmplt_eq ..
  case h_15 => exact rowRuns_aluR (fn := 0x0f) (fun _ => rfl) fun _ => fCmpltu_eq ..
  case h_16 => exact rowRuns_aluR (fn := 0x10) (fun _ => rfl) fun _ => fCmpge_eq ..
  case h_17 => exact rowRuns_aluR (fn := 0x11) (fun _ => rfl) fun _ => fCmpgeu_eq ..
  case h_18 w f => exact ⟨_, toNat_wordR 0x00 f 0x12, fun _ => rfl⟩

/-! ## Immediate forms (R142, R145) -/

section
variable (i : BitVec 16)

theorem toInt_sextImm : (sextImm i).toInt = i.toInt := BitVec.toInt_signExtend_of_le (by decide)

theorem toNat_setWidth_imm : (i.setWidth 64).toNat = i.toNat := by
  rw [BitVec.toNat_setWidth, Nat.mod_eq_of_lt (by have := i.isLt; omega)]

variable (a : Dword)

theorem add_sextImm : a + sextImm i = .ofInt 64 (a.toInt + i.toInt) := by
  rw [BitVec.ofInt_add, BitVec.ofInt_toInt]
  rfl

theorem mul_sextImm : a * sextImm i = .ofInt 64 (a.toInt * i.toInt) := by
  rw [BitVec.ofInt_mul, BitVec.ofInt_toInt]
  rfl

theorem fCmpeq_sextImm : fCmpeq a (sextImm i) = Claims.truth (a.toInt = i.toInt) :=
  truth_eq (by rw [beq_iff_eq, ← BitVec.toInt_inj, toInt_sextImm])

theorem fCmpne_sextImm : fCmpne a (sextImm i) = Claims.truth (a.toInt ≠ i.toInt) :=
  truth_eq (by rw [bne_iff_ne, ne_eq, ← BitVec.toInt_inj, toInt_sextImm])

variable {i}

/-- The shift count of a shift by an immediate below 64. -/
theorem count_imm (h : i.toNat < 64) : (i.setWidth 64).toNat % 64 = i.toNat := by
  rw [toNat_setWidth_imm, Nat.mod_eq_of_lt h]

end

theorem badShift_eq (f : IForm) : badShift f = !decide (f.imm.toNat < 64) := by
  have h : f.imm.extractLsb' 6 10 = 0 ↔ f.imm.toNat < 64 := by
    rw [← BitVec.toNat_inj, BitVec.extractLsb'_toNat, Nat.shiftRight_eq_div_pow]
    have := f.imm.isLt
    show f.imm.toNat / 2 ^ 6 % 2 ^ 10 = 0 ↔ _
    omega
  show (!decide (f.imm.extractLsb' 6 10 = 0)) = _
  rw [decide_eq_decide.mpr h]

/-- SA[4:2] of LIH is zero where SA is below 4. -/
theorem badQuarter_eq (f : IForm) : (f.sa.extractLsb' 2 3 != 0) = !decide (f.sa.toNat < 4) := by
  have h : f.sa.extractLsb' 2 3 = 0 ↔ f.sa.toNat < 4 := by
    rw [← BitVec.toNat_inj, BitVec.extractLsb'_toNat, Nat.shiftRight_eq_div_pow]
    have := f.sa.isLt
    show f.sa.toNat / 2 ^ 2 % 2 ^ 3 = 0 ↔ _
    omega
  show (!decide (f.sa.extractLsb' 2 3 = 0)) = _
  rw [decide_eq_decide.mpr h]

/-- A half-word inserted, as masks of numbers (R145). -/
theorem insertHalf_eq (v : Dword) (q : Nat) (imm : BitVec 16) :
    insertHalf v q imm =
      (v &&& ~~~(.ofNat 64 (0xffff * 2 ^ (16 * q)))) ||| .ofNat 64 (imm.toNat * 2 ^ (16 * q)) := by
  have hsh (x : Dword) (n : Nat) : x <<< n = .ofNat 64 (x.toNat * 2 ^ n) := by
    apply BitVec.eq_of_toNat_eq
    rw [BitVec.toNat_shiftLeft, Nat.shiftLeft_eq, BitVec.toNat_ofNat]
  rw [insertHalf, hsh, hsh, toNat_setWidth_imm]
  rfl

theorem immRow_runs {i : Instr} {x : Row} (h : immRow i = some x) : RowRuns i x := by
  unfold immRow at h
  split at h <;> cases h
  case h_1 => exact rowRuns_aluI (op := 0x01) (fun _ => rfl) rfl fun _ _ => add_sextImm ..
  case h_2 => exact rowRuns_aluI (op := 0x02) (fun _ => rfl) rfl fun _ _ => by rw [BitVec.ofNat_toNat]
  case h_3 => exact rowRuns_aluI (op := 0x03) (fun _ => rfl) rfl fun _ _ => by rw [BitVec.ofNat_toNat]
  case h_4 => exact rowRuns_aluI (op := 0x04) (fun _ => rfl) rfl fun _ _ => by rw [BitVec.ofNat_toNat]
  case h_5 w f =>
    refine rowRuns_aluI (op := 0x05) (fun _ => rfl) (badShift_eq f) fun hok _ => ?_
    rw [fShl_eq, count_imm (of_decide_eq_true hok)]
  case h_6 w f =>
    refine rowRuns_aluI (op := 0x06) (fun _ => rfl) (badShift_eq f) fun hok _ => ?_
    rw [fShr_eq, count_imm (of_decide_eq_true hok)]
  case h_7 w f =>
    refine rowRuns_aluI (op := 0x07) (fun _ => rfl) (badShift_eq f) fun hok _ => ?_
    rw [fSra_eq, count_imm (of_decide_eq_true hok)]
  case h_8 => exact rowRuns_aluI (op := 0x08) (fun _ => rfl) rfl fun _ _ => mul_sextImm ..
  case h_9 => exact rowRuns_aluI (op := 0x09) (fun _ => rfl) rfl fun _ _ => fCmpeq_sextImm ..
  case h_10 => exact rowRuns_aluI (op := 0x0a) (fun _ => rfl) rfl fun _ _ => fCmpne_sextImm ..
  case h_11 => exact rowRuns_aluI (op := 0x0b) (fun _ => rfl) rfl fun _ _ => by rw [fCmplt_eq, toInt_sextImm]
  case h_12 => exact rowRuns_aluI (op := 0x0c) (fun _ => rfl) rfl fun _ _ => fCmpltu_eq ..
  case h_13 => exact rowRuns_aluI (op := 0x0d) (fun _ => rfl) rfl fun _ _ => by rw [fCmpge_eq, toInt_sextImm]
  case h_14 => exact rowRuns_aluI (op := 0x0e) (fun _ => rfl) rfl fun _ _ => fCmpgeu_eq ..
  case h_15 w f => exact ⟨_, toNat_wordI 0x10 f, fun _ => rfl⟩
  case h_16 w f =>
    refine ⟨_, toNat_wordI 0x11 f, fun s => congrArg Host.Outcome.next ?_⟩
    rw [badQuarter_eq]
    refine issue_congr _ fun hb t => ?_
    have hq : f.sa.toNat < 4 := by simpa using hb
    rw [writeReg, Nat.mod_eq_of_lt hq, insertHalf_eq]
    rfl

/-! ## What a row gives -/

theorem rowRuns_result {i : Instr} {w : ThreadRef} {r : BitVec 5} {v : Nat} {g : Thread → Dword} {s : State}
    (h : RowRuns i (w, r, true, v, g)) (hi : issues s w) :
    Runs i s (setThr (fetched s w) w (stepped (getThr s w) r (g (getThr s w)) (nextPc (getThr s w)))) := by
  obtain ⟨word, -, hexec⟩ := h
  rw [Runs, hexec, issue_fetches (issues_fetches hi), Bool.not_true, if_neg Bool.false_ne_true, writeReg,
    advance_dst _ _ (by rw [getThr_fetched]; exact issues_nextPc hi), getThr_fetched]

theorem rowRuns_illegal {i : Instr} {w : ThreadRef} {r : BitVec 5} {v : Nat} {g : Thread → Dword} {s : State}
    (h : RowRuns i (w, r, false, v, g)) (hf : fetches s w) :
    ∃ t, Runs i s t ∧ faults s t w 0x01 (.ofNat 64 v) ∧ t.mem = s.mem := by
  obtain ⟨word, rfl, hexec⟩ := h
  refine ⟨_, by rw [Runs, hexec, issue_fetches hf, Bool.not_false, if_pos rfl], ?_, ?_⟩
  · rw [BitVec.ofNat_toNat]
    exact faults_preciseFault s w .illegal _ (getThr_fetched ..) (not_fault_of_mayIssue hf.1) rfl
  · rw [preciseFault_mem, (fetchOnly_fetched s w).mem_eq]

theorem scalarResult_of {row : Instr → Option Row} (h : ∀ i x, row i = some x → RowRuns i x) : scalarResult row := by
  rintro i w r ok v g s hr rfl hi
  exact rowRuns_result (h _ _ hr) hi

theorem scalarIllegal_of {row : Instr → Option Row} (h : ∀ i x, row i = some x → RowRuns i x) : scalarIllegal row := by
  rintro i w r ok v g s hr rfl hf
  exact rowRuns_illegal (h _ _ hr) hf

/-- Settles O1: every row of the two tables runs as it says, which gives its result and its ILLEGAL. -/
theorem scalarArithmetic : Obligations.ScalarArithmetic :=
  ⟨scalarResult_of fun _ _ => aluRow_runs, scalarResult_of fun _ _ => immRow_runs,
    scalarIllegal_of fun _ _ => aluRow_runs, scalarIllegal_of fun _ _ => immRow_runs⟩

end Sys2Proof.Laws
end

section
/-! The special registers: what MFS reads, what MTS writes, and the numbers that fault: O2 (R138 to R140). -/

namespace Sys2Proof.Laws

open Sys2Proof Sys2Proof.Machine Sys2Proof.Claims

/-! ## Values (R138) -/

/-- A sum of the powers of two that a predicate picks has its bits. -/
theorem foldl_pow_bits (p : Nat → Bool) (n : Nat) :
    (List.range n).foldl (fun a j => if p j then a + 2 ^ j else a) 0 < 2 ^ n ∧
      ∀ j, ((List.range n).foldl (fun a j => if p j then a + 2 ^ j else a) 0).testBit j = (decide (j < n) && p j) := by
  induction n with
  | zero => simp
  | succ n ih =>
    rw [List.range_succ, List.foldl_append]
    generalize (List.range n).foldl (fun a j => if p j then a + 2 ^ j else a) 0 = x at ih
    obtain ⟨hlt, hbits⟩ := ih
    have hsum : x + 2 ^ n = 2 ^ n * 1 + x := by omega
    have hpow : 2 ^ (n + 1) = 2 * 2 ^ n := by omega
    simp only [List.foldl_cons, List.foldl_nil]
    cases hp : p n with
    | false =>
      refine ⟨by simp only [Bool.false_eq_true, if_false]; omega, fun j => ?_⟩
      rw [if_neg Bool.false_ne_true, hbits]
      by_cases hj : j = n
      · simp [hj, hp]
      · rw [decide_eq_decide.mpr (by omega : j < n ↔ j < n + 1)]
    | true =>
      refine ⟨by rw [if_pos rfl]; omega, fun j => ?_⟩
      rw [if_pos rfl, hsum, Nat.testBit_two_pow_mul_add _ hlt, hbits]
      by_cases hj : j < n
      · simp [hj, Nat.lt_succ_of_lt hj]
      · rw [if_neg hj]
        by_cases hjn : j = n
        · simp [hjn, hp]
        · have hone : (1 : Nat) < 2 ^ (j - n) := Nat.one_lt_two_pow (by omega)
          simp [Nat.testBit_lt_two_pow hone, show ¬ j < n + 1 by omega]

theorem getLsbD_acMask (s : State) (l i : Nat) {j : Nat} (h : j < 64) :
    (acMask s l i).getLsbD j = coreActive s l (64 * i + j) := by
  rw [acMask, upto, BitVec.getLsbD_ofNat, (foldl_pow_bits (fun j => coreActive s l (64 * i + j)) 64).2]
  simp [h]

/-- The fields of TID: thread, core, landing and module. -/
theorem tid_fields {t c l m : Nat} (ht : t < 2 ^ 4) (hc : c < 2 ^ 8) (hl : l < 2 ^ 5) (hm : m < 2 ^ 11) :
    let v : Dword := .ofNat 64 (t + c * 2 ^ 4 + l * 2 ^ 12 + m * 2 ^ 17)
    dfld v 27 17 = m ∧ dfld v 63 28 = 0 ∧ dfld v 3 0 = t ∧ dfld v 11 4 = c ∧ dfld v 16 12 = l := by
  simp only [dfld, bits, Nat.shiftRight_eq_div_pow, BitVec.toNat_ofNat]
  omega

variable {s t : State} {w : ThreadRef}

theorem tid_value (h : FetchOnly s t) : sprValue s w 0 (tidOf t w) := by
  have hm : t.modnum = s.modnum := h.modnum_eq
  have hmod := s.modnum.isLt
  cases w with
  | core l c n =>
    obtain ⟨h1, h2, h3, h4, h5⟩ := tid_fields n.isLt c.isLt l.isLt hmod
    rw [sprValue, if_pos rfl, tidOf, hm]
    exact ⟨h1, h2, h3, h4, h5⟩
  | deckhand l =>
    obtain ⟨h1, h2, h3, -, h5⟩ := tid_fields (t := 0) (by decide)
      (Nat.mod_lt (Config.freeDword t.free).toNat (by decide : 0 < 2 ^ 8)) l.isLt hmod
    rw [Nat.zero_add] at h1 h2 h3 h5
    rw [sprValue, if_pos rfl, tidOf, hm]
    exact ⟨h1, h2, h3, h5⟩

theorem coreActive_congr (h : t.fuses = s.fuses) (l c : Nat) : coreActive t l c = coreActive s l c := by
  rw [coreActive, absentLand, h, ← absentLand, ← coreActive]

/-- A read of each readable special register after a fetch (R138). -/
theorem sprRead_value (h : FetchOnly s t) {n : Nat} (hn : readableSpr n) :
    ∃ v, sprRead t w n = some v ∧ sprValue s w n v := by
  have hthr : getThr t w = getThr s w := h.getThr_eq w
  rcases hn with rfl | ⟨h4, h9⟩ | ⟨h10, h12⟩
  · exact ⟨_, rfl, tid_value h⟩
  · obtain h7 | rfl | rfl : n ≤ 7 ∨ n = 8 ∨ n = 9 := by omega
    · refine ⟨acMask t (thrLand w) (n - 4), ?_, ?_⟩
      · rw [sprRead, if_neg (by omega), if_pos ⟨h4, h7⟩]
      · unfold sprValue
        rw [if_neg (by omega), if_pos h7]
        intro j hj
        rw [getLsbD_acMask _ _ _ hj, coreActive_congr h.fuses_eq]
    · refine ⟨_, rfl, ?_⟩
      show cycleOf t (thrLand w) = _
      rw [cycleOf, h.edges_eq, h.getLand_eq]
    · exact ⟨_, rfl, h.time_eq⟩
  · obtain rfl | rfl | rfl : n = 0x10 ∨ n = 0x11 ∨ n = 0x12 := by omega
    · refine ⟨_, rfl, ?_⟩
      show ((getThr t w).prio.setWidth 64).toNat = _
      rw [hthr, BitVec.toNat_setWidth, Nat.mod_eq_of_lt (by have := (getThr s w).prio.isLt; omega)]
    · exact ⟨_, rfl, congrArg Thread.syncset hthr⟩
    · exact ⟨_, rfl, by show BitVec.ofNat 64 (getThr t w).posted.length = _; rw [hthr]⟩

theorem sprRead_none {n : Nat} (hn : ¬ readableSpr n) : sprRead t w n = none := by
  simp only [readableSpr, not_or] at hn
  obtain ⟨h0, h4, h10⟩ := hn
  rw [sprRead, if_neg h0, if_neg (by omega), if_neg (by omega), if_neg (by omega), if_neg (by omega), if_neg (by omega),
    if_neg (by omega)]

/-! ## MFS and MTS -/

/-- IMM[15:12] is zero for a number of 12 bits. -/
theorem high_zero {n : BitVec 16} (h : n.toNat < 2 ^ 12) : n.extractLsb' 12 4 = 0 := by
  apply BitVec.eq_of_toNat_eq
  rw [BitVec.extractLsb'_toNat, Nat.shiftRight_eq_div_pow, Nat.div_eq_of_lt h]
  rfl

theorem exec_mfs (hf : fetches s w) (sd : BitVec 5) {n : BitVec 16} (h : n.toNat < 2 ^ 12) (h20 : n.toNat ≠ 0x20)
    (h21 : ¬ (n.toNat = 0x21 ∧ isDeckhand w = true)) :
    (∀ v, sprRead (fetched s w) w n.toNat = some v →
      ∃ u, FetchOnly s u ∧ exec (.mfs w ⟨sd, 0, n⟩) s = .next (advance (dst u w sd v) w 1)) ∧
    (sprRead (fetched s w) w n.toNat = none →
      exec (.mfs w ⟨sd, 0, n⟩) s = .next (preciseFault (fetched s w) w .spr (.ofNat 64 n.toNat))) := by
  have hrun : exec (.mfs w ⟨sd, 0, n⟩) s = execMfs w ⟨sd, 0, n⟩ s := rfl
  rw [hrun, execMfs, high_zero h, issue_fetches hf]
  simp only [bne_self_eq_false, Bool.or_self, Bool.false_eq_true, if_false, h20, h21]
  refine ⟨fun v hv => ⟨_, ?_, by rw [hv]⟩, fun hv => by rw [hv]⟩
  split
  · exact (fetchOnly_fetched s w).trans rfl
  · exact fetchOnly_fetched s w

theorem specialRegisterReads : SpecialRegisterReads := by
  intro w sd n s hn hi
  have hlt : n < 2 ^ 12 ∧ n ≠ 0x20 ∧ n ≠ 0x21 := by unfold readableSpr at hn; omega
  have hnat : (BitVec.ofNat 16 n).toNat = n := Nat.mod_eq_of_lt (by omega)
  obtain ⟨v, hread, hv⟩ := sprRead_value (w := w) (fetchOnly_fetched s w) hn
  obtain ⟨u, hkept, hrun⟩ := (exec_mfs (issues_fetches hi) sd (n := .ofNat 16 n) (by omega) (by omega) (by omega)).1 v
    (by rw [hnat]; exact hread)
  rw [advance_dst _ _ (by rw [hkept.getThr_eq]; exact issues_nextPc hi), hkept.getThr_eq] at hrun
  exact ⟨v, _, hv, hrun, getThr_setThr .., othersKept_setThr (hkept.othersKept w) _⟩

/-- MTS of a number of 12 bits: its SD and IMM[15:12] are zero, so that the number alone decides (R138, R139). -/
theorem exec_mts (hf : fetches s w) (sa : BitVec 5) {n : BitVec 16} (h : n.toNat < 2 ^ 12) :
    (n.toNat = 0x10 → exec (.mts w ⟨0, sa, n⟩) s = .next (writePrio (fetched s w) w (getReg (getThr s w) sa))) ∧
    (n.toNat = 0x11 → exec (.mts w ⟨0, sa, n⟩) s =
      .next (advance (setThr (fetched s w) w { getThr s w with syncset := getReg (getThr s w) sa }) w 1)) ∧
    (n.toNat ≠ 0x10 → n.toNat ≠ 0x11 → n.toNat ≠ 0x21 → isDeckhand w = false →
      exec (.mts w ⟨0, sa, n⟩) s = .next (preciseFault (fetched s w) w .spr (.ofNat 64 n.toNat))) := by
  have hrun : exec (.mts w ⟨0, sa, n⟩) s = execMts w ⟨0, sa, n⟩ s := rfl
  rw [hrun, execMts, high_zero h, issue_fetches hf]
  simp only [bne_self_eq_false, Bool.or_self, Bool.false_eq_true, if_false, src, getThr_fetched]
  refine ⟨fun hn => by rw [if_pos hn], fun hn => ?_, fun h10 h11 h21 hd => ?_⟩
  · rw [if_neg (by omega), if_pos hn]
  · rw [if_neg h10, if_neg h11, if_neg h21, if_neg (by simp [hd])]

/-- A thread that was set goes on to its next word. -/
theorem advance_setThr (u : State) (w : ThreadRef) (t : Thread) (h : nextPc t < 32768) :
    advance (setThr u w t) w 1 = setThr u w { t with pc := .ofNat 15 (nextPc t) } := by
  rw [advance_ok _ _ _ (by rw [getThr_setThr]; exact h), getThr_setThr, setThr_setThr]
  rfl

theorem writePrio_fetched (v : Dword) (h : nextPc (getThr s w) < 32768) :
    writePrio (fetched s w) w v =
      setThr (fetched s w) w { getThr s w with prio := v.setWidth 2, pc := .ofNat 15 (nextPc (getThr s w)) } := by
  rw [writePrio, getThr_fetched]
  exact advance_setThr _ _ _ h

theorem exec_tprio (hf : fetches s w) (sa : BitVec 5) :
    exec (.tprio w sa) s = .next (writePrio (fetched s w) w (getReg (getThr s w) sa)) := by
  rw [← getThr_fetched s w w]
  exact congrArg Host.Outcome.next (issue_fetches hf false _ _)

/-- A precise fault in the fetched state of a thread that can issue (R163). -/
theorem fault_fetched (hf : fetches s w) {code : FCode} {n : Nat} (hn : code.num = .ofNat 8 n) (info : Dword) :
    faults s (preciseFault (fetched s w) w code info) w n info ∧
      othersKept s (preciseFault (fetched s w) w code info) w :=
  ⟨faults_preciseFault s w code info (getThr_fetched ..) (not_fault_of_mayIssue hf.1) hn,
    othersKept_preciseFault (othersKept_fetched s w) code info⟩

theorem specialRegisterWrites : SpecialRegisterWrites := by
  intro w sa sd n s
  have hnat : (n.setWidth 16).toNat = n.toNat := by
    rw [BitVec.toNat_setWidth, Nat.mod_eq_of_lt (by have := n.isLt; omega)]
  have hlt : (n.setWidth 16).toNat < 2 ^ 12 := hnat ▸ n.isLt
  have hinfo : BitVec.ofNat 64 (n.setWidth 16).toNat = n.setWidth 64 := by rw [hnat, BitVec.ofNat_toNat]
  have hne {m : BitVec 12} (h : n ≠ m) : (n.setWidth 16).toNat ≠ m.toNat := by
    rw [hnat]
    exact fun e => h (BitVec.eq_of_toNat_eq e)
  refine ⟨fun hi => ?_, fun hf hd => ⟨fun hn h20 => ?_, fun h10 h11 h21 => ?_⟩⟩
  · have hf := issues_fetches hi
    have hpc := issues_nextPc hi
    refine ⟨?_, ?_, ?_⟩
    · rw [Runs, (exec_mts hf sa (n := 0x010) (by decide)).1 rfl, writePrio_fetched _ hpc]
    · rw [Runs, exec_tprio hf, writePrio_fetched _ hpc]
    · rw [Runs, (exec_mts hf sa (n := 0x011) (by decide)).2.1 rfl]
      exact congrArg Host.Outcome.next (advance_setThr _ _ _ hpc)
  · have hrun := (exec_mfs hf sd hlt (hne h20) fun h => hd h.2).2 (sprRead_none (hnat ▸ hn))
    rw [hinfo] at hrun
    obtain ⟨hfault, -, hmem⟩ := fault_fetched hf (code := .spr) rfl (n.setWidth 64)
    exact ⟨_, hrun, hfault, hmem⟩
  · have hrun := (exec_mts hf sa hlt).2.2 (hne h10) (hne h11) (hne h21) (Bool.eq_false_iff.mpr hd)
    rw [hinfo] at hrun
    obtain ⟨hfault, -, hmem⟩ := fault_fetched hf (code := .spr) rfl (n.setWidth 64)
    exact ⟨_, hrun, hfault, hmem⟩

/-- Settles O2, the reads and the writes by one lemma each. -/
theorem specialRegisters : Obligations.SpecialRegisters := ⟨specialRegisterReads, specialRegisterWrites⟩

end Sys2Proof.Laws
end

section
/-! Local memory: the checks of a local access in their order, loads, and stores with their frame: O3 (R148, R150). -/

namespace Sys2Proof.Laws

open Sys2Proof Sys2Proof.Machine Sys2Proof.Claims

/-! ## Uncorrectable words -/

theorem RegsOnly.uerr_eq {s t : State} (h : RegsOnly s t) : t.uerr = s.uerr := by rw [h]

theorem uncorrectable_freshCheck (s : State) (k u : Nat) :
    uncorrectable (freshCheck s k) u = (uncorrectable s u && decide (u ≠ k)) := by
  rw [Bool.eq_iff_iff]
  simp [uncorrectable, freshCheck, sdel]

/-- A correction of a word that is not uncorrectable leaves what is. -/
theorem uncorrectable_correctWord {s : State} (w : ThreadRef) {k : Nat} (h : uncorrectable s k = false) (u : Nat) :
    uncorrectable (correctWord s w k) u = uncorrectable s u := by
  have hfresh : uncorrectable (freshCheck s k) u = uncorrectable s u := by
    rw [uncorrectable_freshCheck]
    by_cases hu : u = k
    · rw [hu, h]
      rfl
    · simp [hu]
  unfold correctWord
  split
  · cases w with
    | core l c t =>
      show ((countCore (freshCheck s k) l.val c.val 0x3c8 15 0 1 8).uerr).contains u = _
      rw [(regsOnly_countCore ..).uerr_eq]
      exact hfresh
    | deckhand l => exact hfresh
  · rfl

theorem uncorrectable_noteRun (s : State) (w : ThreadRef) (u : Nat) :
    uncorrectable (noteRun s w) u = uncorrectable s u := by cases w <;> rfl

/-- The fetch of a word that can be fetched leaves what is uncorrectable. -/
theorem uncorrectable_fetched {s : State} {w : ThreadRef} (h : fetches s w) (u : Nat) :
    uncorrectable (fetched s w) u = uncorrectable s u := by
  have hword : uncorrectable s (unitBase (localKey w (4 * (getThr s w).pc.toNat))) = false := h.2
  rw [fetched, uncorrectable_correctWord w (by rw [uncorrectable_noteRun, hword]), uncorrectable_noteRun]

/-! ## Bytes as numbers -/

theorem getByte_congr_mem {s t : State} (h : t.mem = s.mem) (k : Nat) : getByte t k = getByte s k := by
  rw [getByte, h, getByte]

theorem getNat_eq_leValue (s : State) (k n : Nat) : getNat s k n = leValue s k n := by
  induction n generalizing k with
  | zero => rfl
  | succ n ih =>
    have hbytes : getBytes s k (n + 1) = getByte s k :: getBytes s (k + 1) n := by
      simp only [getBytes, tread, upto, List.range_succ_eq_map, List.map_cons, List.map_map, Nat.add_zero]
      congr 1
      exact List.map_congr_left fun i _ => congrArg (tget 0 s.mem) (Nat.add_right_comm k i 1)
    rw [getNat, hbytes, leNat, ← getNat, ih, leValue]

theorem getNat_congr {s t : State} (h : t.mem = s.mem) (k n : Nat) : getNat t k n = getNat s k n := by
  rw [getNat, getBytes, h, ← getBytes, ← getNat]

theorem getD_leBytes (n x : Nat) {j : Nat} (h : j < n) : ((leBytes n x).getD j 0).toNat = x / 256 ^ j % 256 := by
  induction n generalizing x j with
  | zero => omega
  | succ n ih =>
    cases j with
    | zero => simp [leBytes]
    | succ j =>
      rw [leBytes, List.getD_cons_succ, ih _ (by omega), Nat.div_div_eq_div_mul, Nat.pow_succ']

/-! ## The checks in their order (R148) -/

/-- A local access after its fetch: the checks, LOCAL_ECC where it looks at the word, then the access itself. -/
def checked (w : ThreadRef) (x : Dword) (n : Nat) (ecc : Bool) (access : State → State) (s : State) : State :=
  if 0x20000 ≤ x.toNat then preciseFault s w .localRange x
  else if x.toNat % n ≠ 0 then preciseFault s w .localAlign x
  else if ecc = true ∧ uncorrectable s (unitBase (localKey w x.toNat)) = true then preciseFault s w .localEcc x
  else access s

/-- What a load does once its checks pass. -/
def loads (w : ThreadRef) (r : BitVec 5) (x : Dword) (n : Nat) (ext : Nat → Dword) (s : State) : State :=
  let t := correctWord s w (unitBase (localKey w x.toNat))
  advance (dst t w r (ext (getNat t (localKey w x.toNat) n))) w 1

/-- The check bits of the word that a store changes: a part is read first, a whole word is new (R150). -/
def storeMark (w : ThreadRef) (n u : Nat) (s : State) : State := if n < 8 then correctWord s w u else freshCheck s u

/-- What a store does once its checks pass. -/
def stores (w : ThreadRef) (r : BitVec 5) (x : Dword) (n : Nat) (s : State) : State :=
  let t := storeMark w n (unitBase (localKey w x.toNat)) s
  advance (putBytes t (localKey w x.toNat) (leBytes n (getReg (getThr t w) r).toNat)) w 1

section
variable {i : Instr} {s : State} {w : ThreadRef} {r : BitVec 5} {a : Thread → Dword} {n : Nat}

theorem localLoad_eq (hf : fetches s w) (f : IForm) (op : BitVec 6) (n : Nat) (ext : Nat → Dword) :
    localLoad s w f op n ext =
      checked w (addrOf f (getThr s w)) n true (loads w f.sd (addrOf f (getThr s w)) n ext) (fetched s w) := by
  have haddr : localAddr (fetched s w) w f = addrOf f (getThr s w) := by
    rw [localAddr, src, getThr_fetched]
    rfl
  rw [localLoad, issue_fetches hf, if_neg Bool.false_ne_true]
  dsimp only
  simp only [haddr, checked, true_and]
  rfl

theorem localStore_eq (hf : fetches s w) (f : IForm) (op : BitVec 6) (n : Nat) :
    localStore s w f op n =
      checked w (addrOf f (getThr s w)) n (decide (n < 8)) (stores w f.sd (addrOf f (getThr s w)) n) (fetched s w) := by
  have haddr : localAddr (fetched s w) w f = addrOf f (getThr s w) := by
    rw [localAddr, src, getThr_fetched]
    rfl
  rw [localStore, issue_fetches hf, if_neg Bool.false_ne_true]
  dsimp only
  simp only [haddr, checked, decide_eq_true_eq]
  rfl

theorem loadRow_runs {ext : Nat → Dword} (h : loadRow i = some ((w, r, a, n), ext)) (hf : fetches s w) :
    Runs i s (checked w (a (getThr s w)) n true (loads w r (a (getThr s w)) n ext) (fetched s w)) := by
  unfold loadRow at h
  split at h <;> cases h
  case h_1 f => exact congrArg Host.Outcome.next (localLoad_eq hf f 0x14 8 zext64)
  case h_2 f => exact congrArg Host.Outcome.next (localLoad_eq hf f 0x15 4 sext32)
  case h_3 f => exact congrArg Host.Outcome.next (localLoad_eq hf f 0x16 4 zext64)
  case h_4 f => exact congrArg Host.Outcome.next (localLoad_eq hf f 0x17 2 zext64)
  case h_5 f => exact congrArg Host.Outcome.next (localLoad_eq hf f 0x18 1 zext64)

theorem storeRow_runs (h : storeRow i = some (w, r, a, n)) (hf : fetches s w) :
    Runs i s (checked w (a (getThr s w)) n (decide (n < 8)) (stores w r (a (getThr s w)) n) (fetched s w)) := by
  unfold storeRow at h
  split at h <;> cases h
  case h_1 f => exact congrArg Host.Outcome.next (localStore_eq hf f 0x19 8)
  case h_2 f => exact congrArg Host.Outcome.next (localStore_eq hf f 0x1a 4)
  case h_3 f => exact congrArg Host.Outcome.next (localStore_eq hf f 0x1b 2)
  case h_4 f => exact congrArg Host.Outcome.next (localStore_eq hf f 0x1c 1)

theorem storeRow_size (h : storeRow i = some (w, r, a, n)) : n = 8 ∨ n < 8 := by
  unfold storeRow at h
  split at h <;> cases h <;> decide

/-! ## Loads and stores (R148, R150) -/

theorem checked_passes (hf : fetches s w) {x : Dword} {ecc : Bool} (h : localOk s w x.toNat n (!ecc))
    (access : State → State) : checked w x n ecc access (fetched s w) = access (fetched s w) := by
  obtain ⟨hrange, halign, hecc⟩ := h
  rw [checked, if_neg (by omega), if_neg (not_not_intro halign), if_neg]
  rintro ⟨rfl, hbad⟩
  rw [uncorrectable_fetched hf] at hbad
  simp [hbad] at hecc

theorem loads_fetched (hi : issues s w) (r : BitVec 5) (x : Dword) (n : Nat) (ext : Nat → Dword) :
    loads w r x n ext (fetched s w) = setThr (correctWord (fetched s w) w (unitBase (localKey w x.toNat))) w
      (stepped (getThr s w) r (ext (leValue s (localKey w x.toNat) n)) (nextPc (getThr s w))) := by
  have hthr (k : Nat) : getThr (correctWord (fetched s w) w k) w = getThr s w := by
    rw [getThr_correctWord, getThr_fetched]
  rw [loads, advance_dst _ _ (by rw [hthr]; exact issues_nextPc hi), hthr,
    getNat_congr ((correctWord_mem ..).trans (fetchOnly_fetched s w).mem_eq), getNat_eq_leValue]

theorem localLoads : LocalLoads := by
  intro i w r a n ext s h hi hok
  have hrun := loadRow_runs h (issues_fetches hi)
  rw [checked_passes (issues_fetches hi) (ecc := true) hok, loads_fetched hi] at hrun
  exact hrun

theorem fetchOnly_storeMark (w : ThreadRef) (n u : Nat) (s : State) : FetchOnly s (storeMark w n u s) := by
  unfold storeMark
  split
  · exact (marksOnly_correctWord ..).fetchOnly
  · exact (marksOnly_freshCheck ..).fetchOnly

theorem stores_fetched (hi : issues s w) (r : BitVec 5) (x : Dword) (n : Nat) :
    let t := storeMark w n (unitBase (localKey w x.toNat)) (fetched s w)
    stores w r x n (fetched s w) =
      setThr (putBytes t (localKey w x.toNat) (leBytes n (getReg (getThr s w) r).toNat)) w
        { getThr s w with pc := .ofNat 15 (nextPc (getThr s w)) } := by
  intro t
  have hthr : getThr t w = getThr s w :=
    ((fetchOnly_fetched s w).trans (fetchOnly_storeMark ..)).getThr_eq w
  show advance (putBytes t _ (leBytes n (getReg (getThr t w) r).toNat)) w 1 = _
  rw [hthr, advance_ok _ _ _ (by rw [getThr_of_putBytes, hthr]; exact issues_nextPc hi), getThr_of_putBytes, hthr]
  rfl

theorem localStores : LocalStores := by
  intro i w r a n s h hi hok k
  have hwhole : (n == 8) = !decide (n < 8) := by
    rcases storeRow_size h with rfl | hn
    · rfl
    · rw [decide_eq_true hn]
      exact beq_false_of_ne (by omega)
  have hrun := storeRow_runs h (issues_fetches hi)
  rw [checked_passes (issues_fetches hi) (hwhole ▸ hok), stores_fetched hi] at hrun
  have hfetch := (fetchOnly_fetched s w).trans (fetchOnly_storeMark w n (unitBase k) (fetched s w))
  generalize hbs : leBytes n (getReg (getThr s w) r).toNat = bs at hrun
  have hlen : bs.length = n := by rw [← hbs, length_leBytes]
  refine ⟨_, hrun, fun j hj => ?_, fun x hx => ?_, getThr_setThr .., fun u hu => ?_, ?_⟩
  · rw [getByte_of_setThr, getByte_putBytes_in _ _ _ (by omega) (by omega), Nat.add_sub_cancel_left, ← hbs,
      getD_leBytes _ _ hj]
  · rw [getByte_of_setThr, getByte_putBytes_out _ _ _ (by omega), getByte_congr_mem hfetch.mem_eq]
  · rw [getThr_setThr_ne _ hu, getThr_of_putBytes, hfetch.getThr_eq]
  · rintro rfl
    show uncorrectable (freshCheck (fetched s w) (unitBase k)) (unitBase k) = false
    simp [uncorrectable_freshCheck]

/-! ## Faults (R148) -/

/-- The first check that fails faults with its code and the address. -/
theorem checked_faults (hf : fetches s w) (x : Dword) (n : Nat) (ecc : Bool) (access : State → State) :
    let t := checked w x n ecc access (fetched s w)
    (0x20000 ≤ x.toNat → t = preciseFault (fetched s w) w .localRange x) ∧
    (x.toNat < 0x20000 → x.toNat % n ≠ 0 → t = preciseFault (fetched s w) w .localAlign x) ∧
    (x.toNat < 0x20000 → x.toNat % n = 0 → ecc = true → uncorrectable s (unitBase (localKey w x.toNat)) = true →
      t = preciseFault (fetched s w) w .localEcc x) := by
  refine ⟨fun h => if_pos h, fun h halign => ?_, fun h halign hecc hbad => ?_⟩
  · rw [checked, if_neg (by omega), if_pos halign]
  · rw [checked, if_neg (by omega), if_neg (not_not_intro halign), uncorrectable_fetched hf, if_pos ⟨hecc, hbad⟩]

theorem localFaults : LocalFaults := by
  intro i w r a n s load h hf x f
  obtain ⟨ecc, access, hrun, hecc⟩ : ∃ ecc access, Runs i s (checked w x n ecc access (fetched s w)) ∧
      (load = true ∨ n < 8 → ecc = true) := by
    cases load with
    | true =>
      rw [if_pos rfl, Option.map_eq_some_iff] at h
      obtain ⟨⟨y, ext⟩, hrow, rfl⟩ := h
      exact ⟨true, _, loadRow_runs hrow hf, fun _ => rfl⟩
    | false => exact ⟨_, _, storeRow_runs h hf, fun hn => decide_eq_true (hn.resolve_left Bool.false_ne_true)⟩
  obtain ⟨hrange, halign, hbad⟩ := checked_faults hf x n ecc access
  have hfault {code : FCode} {m : Nat} (hm : code.num = .ofNat 8 m)
      (ht : checked w x n ecc access (fetched s w) = preciseFault (fetched s w) w code x) : f m := by
    obtain ⟨hrec, -, hmem⟩ := fault_fetched hf hm x
    exact ⟨_, ht ▸ hrun, hrec, hmem⟩
  exact ⟨fun h1 => hfault (code := .localRange) rfl (hrange h1), fun h1 h2 => hfault (code := .localAlign) rfl (halign h1 h2),
    fun h1 h2 h3 h4 => hfault (code := .localEcc) rfl (hbad h1 h2 (hecc h3) h4)⟩

end

/-- Settles O3: the loads, the stores, and the checks in their order, one lemma for each. -/
theorem localMemory : Obligations.LocalMemory := ⟨localLoads, localStores, localFaults⟩

end Sys2Proof.Laws
end

section
/-! Branches, CALL and RET, and the end of scalar memory: O4 (R146, R147). -/

namespace Sys2Proof.Laws

open Sys2Proof Sys2Proof.Machine Sys2Proof.Claims

/-! ## Targets (R146) -/

/-- The model adds the low 15 bits of the offset, which wraps as R146 says. -/
theorem target_eq (t : Thread) (off : BitVec 16) : target t off = .ofNat 15 (branchTo t off) := by
  apply BitVec.eq_of_toNat_eq
  rw [target, branchTo, BitVec.toNat_add, BitVec.toNat_setWidth, BitVec.toNat_ofNat, BitVec.toInt_eq_toNat_cond]
  have := t.pc.isLt
  have := off.isLt
  split <;> omega

/-- A thread that has branched to p, with the link register written where there is one. -/
def landed (t : Thread) (link : Option (BitVec 5)) (p : Nat) : Thread :=
  match link with
  | some r => stepped t r (.ofNat 64 (nextPc t)) p
  | none => { t with pc := .ofNat 15 p }

section
variable {i : Instr} {s : State} {w : ThreadRef}

/-- A branch in the fetched state: taken to a target, or falling through. -/
def BranchRuns (i : Instr) (s : State) (w : ThreadRef) (link : Option (BitVec 5)) (next : Thread → Option Nat) : Prop :=
  (∀ p, next (getThr s w) = some p → Runs i s (setThr (fetched s w) w (landed (getThr s w) link p))) ∧
    (next (getThr s w) = none → Runs i s (advance (fetched s w) w 1))

theorem branchRuns_taken {link : Option (BitVec 5)} {off : BitVec 16}
    (h : Runs i s (setThr (fetched s w) w (landed (getThr s w) link (branchTo (getThr s w) off)))) :
    BranchRuns i s w link fun t => some (branchTo t off) :=
  ⟨fun p hp => by cases hp; exact h, nofun⟩

theorem branchRuns_cond (hf : fetches s w) {f : IForm} {op : BitVec 6} {cond : Dword → Dword → Bool}
    {p : Dword → Dword → Prop} [∀ a b, Decidable (p a b)] (he : exec i s = .next (branch s w f op cond))
    (hp : ∀ a b, cond a b = true ↔ p a b) : BranchRuns i s w none (condTo f p) := by
  rw [branch, issue_fetches hf, if_neg Bool.false_ne_true, src, src, getThr_fetched] at he
  by_cases hc : p (getReg (getThr s w) f.sd) (getReg (getThr s w) f.sa)
  · rw [if_pos ((hp _ _).mpr hc), target_eq, jump, getThr_fetched] at he
    refine ⟨fun q hq => ?_, fun hq => ?_⟩
    · rw [condTo, if_pos hc] at hq
      cases hq
      exact he
    · rw [condTo, if_pos hc] at hq
      cases hq
  · rw [if_neg (mt (hp _ _).mp hc)] at he
    refine ⟨fun q hq => ?_, fun _ => he⟩
    rw [condTo, if_neg hc] at hq
    cases hq

theorem exec_br (hf : fetches s w) (imm : BitVec 16) :
    Runs (.br w ⟨0, 0, imm⟩) s (setThr (fetched s w) w (landed (getThr s w) none (branchTo (getThr s w) imm))) := by
  rw [landed, ← target_eq, ← getThr_fetched s w w]
  exact congrArg Host.Outcome.next (issue_fetches hf false _ _)

theorem exec_call (hf : fetches s w) (sd : BitVec 5) (imm : BitVec 16) :
    Runs (.call w ⟨sd, 0, imm⟩) s
      (setThr (fetched s w) w (landed (getThr s w) (some sd) (branchTo (getThr s w) imm))) := by
  have hrun : Runs (.call w ⟨sd, 0, imm⟩) s (jump (dst (fetched s w) w sd
      (.ofNat 64 ((getThr (fetched s w) w).pc.toNat + 1))) w (target (getThr (fetched s w) w) imm)) :=
    congrArg Host.Outcome.next (issue_fetches hf false _ _)
  rw [jump, dst, getThr_setThr, setThr_setThr, getThr_fetched, target_eq] at hrun
  exact hrun

theorem branchRow_runs {link : Option (BitVec 5)} {next : Thread → Option Nat}
    (h : branchRow i = some (w, true, link, next)) (hf : fetches s w) : BranchRuns i s w link next := by
  unfold branchRow at h
  split at h <;> simp only [Option.some.injEq, Prod.mk.injEq, decide_eq_true_eq, reduceCtorEq] at h
  case h_1 w f =>
    obtain ⟨rfl, ⟨hsd, hsa⟩, rfl, rfl⟩ := h
    obtain ⟨sd, sa, imm⟩ := f
    subst hsd hsa
    exact branchRuns_taken (exec_br hf imm)
  case h_2 w f =>
    obtain ⟨rfl, hsa, rfl, rfl⟩ := h
    obtain ⟨sd, sa, imm⟩ := f
    subst hsa
    exact branchRuns_taken (exec_call hf sd imm)
  all_goals obtain ⟨rfl, -, rfl, rfl⟩ := h
  case h_3 => exact branchRuns_cond hf (op := 0x28) rfl fun _ _ => beq_iff_eq
  case h_4 => exact branchRuns_cond hf (op := 0x29) rfl fun _ _ => bne_iff_ne
  case h_5 => exact branchRuns_cond hf (op := 0x2a) rfl fun _ _ => by simp [BitVec.slt]
  case h_6 => exact branchRuns_cond hf (op := 0x2b) rfl fun _ _ => by simp [BitVec.slt]
  case h_7 => exact branchRuns_cond hf (op := 0x2c) rfl fun _ _ => by simp [BitVec.ult]
  case h_8 => exact branchRuns_cond hf (op := 0x2d) rfl fun _ _ => by simp [BitVec.ult]

/-! ## RET -/

theorem exec_ret (hf : fetches s w) (sa : BitVec 5) :
    Runs (.ret w ⟨0, sa, 0, 0⟩) s
      (if getReg (getThr s w) sa >>> 15 ≠ 0 then preciseFault (fetched s w) w .illegal (getReg (getThr s w) sa)
      else jump (fetched s w) w ((getReg (getThr s w) sa).setWidth 15)) := by
  rw [← getThr_fetched s w w]
  exact congrArg Host.Outcome.next (issue_fetches hf false _ _)

/-- A value of more than 15 bits. -/
theorem shift15_ne_zero (v : Dword) : v >>> 15 ≠ 0 ↔ 32768 ≤ v.toNat := by
  rw [ne_eq, ← BitVec.toNat_inj, BitVec.toNat_ushiftRight, Nat.shiftRight_eq_div_pow]
  show ¬ v.toNat / 2 ^ 15 = 0 ↔ _
  omega

end

theorem branches : Branches := by
  refine ⟨fun i w ok link next s h hok hf => ?_, fun w sa s hf => ?_⟩
  · subst hok
    obtain ⟨htaken, hfalls⟩ := branchRow_runs h hf
    refine ⟨fun p hp => ?_, fun hn hpc => ?_⟩
    · have hrun := htaken p hp
      cases link
      · exact hrun
      · exact hrun
    · have hrun := hfalls hn
      rw [advance_ok _ _ _ (by rw [getThr_fetched]; exact hpc), getThr_fetched] at hrun
      exact hrun
  · have hrun := exec_ret hf sa
    refine ⟨fun hv => ?_, fun hv => ?_⟩
    · rw [if_neg (by rw [shift15_ne_zero]; omega), jump, getThr_fetched, ← BitVec.ofNat_toNat] at hrun
      exact hrun
    · rw [if_pos ((shift15_ne_zero _).mpr hv)] at hrun
      obtain ⟨hfault, -, hmem⟩ := fault_fetched hf (code := .illegal) rfl (getReg (getThr s w) sa)
      exact ⟨_, hrun, hfault, hmem⟩

/-! ## The end of scalar memory (R147) -/

/-- PC_END at word 32,767, whatever the instruction did to the thread's registers. -/
theorem advance_faults {s u : State} {w : ThreadRef} (hkept : othersKept s u w) (hst : (getThr u w).st ≠ .fault)
    (hpc : (getThr u w).pc.toNat = 32767) :
    let t := advance u w 1
    (getThr t w).st = .fault ∧ (getThr t w).fcode = 0x03 ∧ (getThr t w).fpc = 32767 ∧ (getThr t w).pc = 32767 ∧
      othersKept s t w := by
  have hword : (getThr u w).pc = 32767 := BitVec.eq_of_toNat_eq hpc
  have hkept' : othersKept s { u with free := u.free + 1 } w := hkept
  intro t
  have ht : t = preciseFault { u with free := u.free + 1 } w .pcEnd (Config.freeDword u.free) :=
    advance_end u w 1 (by omega)
  have hthr := getThr_faultThread { u with free := u.free + 1 } w .pcEnd (Config.freeDword u.free) false (getThr u w).pc hst
  rw [ht]
  exact ⟨congrArg Thread.st hthr, congrArg Thread.fcode hthr, (congrArg Thread.fpc hthr).trans hword,
    (congrArg Thread.pc hthr).trans hword, othersKept_preciseFault hkept' _ _⟩

theorem pcEnd : PcEnd := by
  intro i w s hf hpc h
  have hst := not_fault_of_mayIssue hf.1
  obtain ⟨u, hrun, hkept, hthr⟩ : ∃ u, Runs i s (advance u w 1) ∧ othersKept s u w ∧
      (getThr u w).st = (getThr s w).st ∧ (getThr u w).pc = (getThr s w).pc := by
    rcases h with ⟨r, v, g, h⟩ | ⟨link, next, h, hn⟩
    · have hrow : RowRuns i (w, r, true, v, g) := h.elim aluRow_runs immRow_runs
      obtain ⟨word, -, hexec⟩ := hrow
      refine ⟨dst (fetched s w) w r (g (getThr (fetched s w) w)), ?_, othersKept_setThr (othersKept_fetched s w) _, ?_⟩
      · exact (hexec s).trans (congrArg Host.Outcome.next (issue_fetches hf false _ _))
      · rw [dst, getThr_setThr, setReg_st, setReg_pc, getThr_fetched]
        exact ⟨rfl, rfl⟩
    · exact ⟨_, (branchRow_runs h hf).2 hn, othersKept_fetched s w, by rw [getThr_fetched]; exact ⟨rfl, rfl⟩⟩
  obtain ⟨hfault, hcode, hfpc, hpc', hkept'⟩ :=
    advance_faults hkept (by rw [hthr.1]; exact hst) (by rw [hthr.2]; exact hpc)
  exact ⟨_, hrun, hfault, hcode, hfpc, hpc', hkept'⟩

/-- Settles O4: the branches by their targets, and PC_END by what an instruction leaves of its thread's PC. -/
theorem controlFlow : Obligations.ControlFlow := ⟨branches, pcEnd⟩

end Sys2Proof.Laws
end

section
/-! YIELD, TRAP, FENCE and TASK_END: O5 (R159 to R161, R353). -/

namespace Sys2Proof.Laws

open Sys2Proof Sys2Proof.Machine Sys2Proof.Claims

/-! ## YIELD and TRAP (R160) -/

section
variable {s : State} {w : ThreadRef}

theorem exec_yield (hi : issues s w) (imm : BitVec 16) :
    Runs (.yield w 0 imm) s
      (setThr (fetched s w) w { getThr s w with yielding := true, pc := .ofNat 15 (nextPc (getThr s w)) }) := by
  obtain ⟨hready, -, -⟩ := idle_of_mayIssue hi.1
  have hstep := advance_ok (fetched s w) w 1 (by rw [getThr_fetched]; exact issues_nextPc hi)
  rw [getThr_fetched] at hstep
  have hrun : exec (.yield w 0 imm) s = .next (if (getThr (advance (fetched s w) w 1) w).st = .ready then
      setThr (advance (fetched s w) w 1) w { getThr (advance (fetched s w) w 1) w with yielding := true }
    else advance (fetched s w) w 1) :=
    congrArg Host.Outcome.next (issue_fetches (issues_fetches hi) false _ _)
  rw [hstep, getThr_setThr, if_pos hready, setThr_setThr] at hrun
  exact hrun

theorem exec_trap (hf : fetches s w) (imm : BitVec 16) :
    Runs (.trap w 0 imm) s (preciseFault (fetched s w) w .trap (imm.setWidth 64)) :=
  congrArg Host.Outcome.next (issue_fetches hf false _ _)

end

theorem yieldAndTrap : YieldAndTrap := by
  intro w imm s
  refine ⟨fun hi => ?_, fun hy => ?_, fun hf => ?_⟩
  · refine ⟨_, exec_yield hi imm, getThr_setThr .., mayIssue_of_yielding ?_, othersKept_setThr (othersKept_fetched s w) _⟩
    rw [getThr_setThr]
  · exact congrArg Host.Outcome.next (if_pos hy)
  · exact ⟨_, exec_trap hf imm, fault_fetched hf rfl _⟩

/-! ## What holds a thread (R159, R161, R353) -/

section
variable (s : State) (w : ThreadRef)

/-- The fetch notes a turn in the thread's core, and nothing else of any core (R110). -/
theorem getCore_fetched (l c : Nat) : ∃ turns, getCore (fetched s w) l c = { getCore s l c with lastRun := turns } := by
  have hcores : getCore (fetched s w) l c = getCore (noteRun s w) l c := by
    obtain ⟨-, -, hcores, -⟩ := correctWord_spec (noteRun s w) w (unitBase (localKey w (4 * (getThr s w).pc.toNat)))
    rw [fetched, getCore, hcores, ← getCore]
  rw [hcores]
  cases w with
  | core l' c' t =>
    by_cases h : coreKey l c = coreKey l'.val c'.val
    · have hk (u : State) : getCore u l c = getCore u l'.val c'.val := by rw [getCore, h, ← getCore]
      rw [hk, hk s, noteRun, getCore_setCore]
      exact ⟨_, rfl⟩
    · exact ⟨(getCore s l c).lastRun, getCore_setCore_ne _ h _⟩
  | deckhand l' => exact ⟨_, rfl⟩

theorem engineBusy_fetched : engineBusy (fetched s w) w = engineBusy s w := by
  cases w with
  | core l c t =>
    obtain ⟨turns, h⟩ := getCore_fetched s (.core l c t) l.val c.val
    rw [engineBusy, h]
    rfl
  | deckhand l => rfl

theorem engineBusy_setThr (x : Thread) (v : ThreadRef) : engineBusy (setThr s v x) w = engineBusy s w := by
  cases w <;> rfl

/-- A correction counts in CORE.SMSTAT and CORE.CAUSE alone (R150). -/
theorem rd_correctWord {l : Fin 32} {c : Fin 256} {t : Fin 16} (k : Nat) {o : Nat} (h1 : o ≠ coreBase l.val c.val + 0x3c8)
    (h2 : o ≠ coreBase l.val c.val + 0x3c0) : rd (correctWord s (.core l c t) k) o = rd s o := by
  unfold correctWord
  split
  · show rd (countUp _ _ _ _ _ _) o = _
    unfold countUp
    dsimp only
    split
    · rw [setFlag, rd_wr_ne _ h2, rd_wrFld_ne _ _ _ _ h1, rd_of_freshCheck]
    · rw [rd_wrFld_ne _ _ _ _ h1, rd_of_freshCheck]
  · rfl

theorem rd_fetched {l : Fin 32} {c : Fin 256} {t : Fin 16} {o : Nat} (h1 : o ≠ coreBase l.val c.val + 0x3c8)
    (h2 : o ≠ coreBase l.val c.val + 0x3c0) : rd (fetched s (.core l c t)) o = rd s o := by
  rw [fetched, rd_correctWord _ _ h1 h2, rd, noteRun_regs, ← rd]

end

/-- t shows a core's TASK_END check what s shows it: SYNCSET of the thread, the core's pairs, counters and queue heads,
the waits of its threads, and the landing's groups (R161). -/
structure SyncAlike (l : Fin 32) (c : Fin 256) (s t : State) : Prop where
  pairs : ∀ i < 16, pairReg t l.val c.val i = pairReg s l.val c.val i
  core : ∃ turns, getCore t l.val c.val = { getCore s l.val c.val with lastRun := turns }
  waits : ∀ w, (getThr t w).wait = (getThr s w).wait
  sets : ∀ w, (getThr t w).syncset = (getThr s w).syncset
  land : getLand t l.val = getLand s l.val

section
variable {l : Fin 32} {c : Fin 256} {s t : State} (h : SyncAlike l c s t)
include h

theorem SyncAlike.getCtr_eq (n : Nat) : getCtr t l.val c.val n = getCtr s l.val c.val n := by
  obtain ⟨turns, hcore⟩ := h.core
  rw [getCtr, hcore, getCtr]

theorem SyncAlike.unequalPairs_eq (set : Nat) : unequalPairs t l.val c.val set = unequalPairs s l.val c.val set := by
  have hfilter : ∀ i ∈ upto 16, (pairReg t l.val c.val i = pairReg s l.val c.val i) := fun i hi =>
    h.pairs i (List.mem_range.mp hi)
  simp only [unequalPairs, h.getCtr_eq]
  rw [List.filter_congr fun i hi => by rw [hfilter i hi]]
  exact List.map_congr_left fun i hi => by rw [hfilter i (List.mem_of_mem_filter hi)]

theorem SyncAlike.ctrWaited_eq (n : Nat) : ctrWaited t l.val c.val n = ctrWaited s l.val c.val n := by
  obtain ⟨turns, hcore⟩ := h.core
  simp only [ctrWaited, headWaits, queueWaits, waitMet, reached, h.getCtr_eq, h.waits, hcore]

theorem SyncAlike.dirtySync_eq (n : Fin 16) : dirtySync t (.core l c n) = dirtySync s (.core l c n) := by
  have hgroup (g : Nat) : groupHolds t l.val c.val g = groupHolds s l.val c.val g := by
    rw [groupHolds, getGroup, h.land, ← getGroup, ← groupHolds]
  simp only [dirtySync, h.sets, h.unequalPairs_eq, h.ctrWaited_eq, hgroup]

end

section
variable {s : State} {w : ThreadRef}

/-- The fetched state with the thread held, as FENCE and TASK_END hold it before they look (R159, R161). -/
def held (s : State) (w : ThreadRef) (h : Hold) : State := setThr (fetched s w) w { getThr s w with hold := h }

theorem getThr_held (h : Hold) : getThr (held s w h) w = { getThr s w with hold := h } := getThr_setThr ..

theorem engineBusy_held (h : Hold) : engineBusy (held s w h) w = engineBusy s w :=
  (engineBusy_setThr ..).trans (engineBusy_fetched ..)

theorem othersKept_held (h : Hold) : othersKept s (held s w h) w := othersKept_setThr (othersKept_fetched s w) _

/-- A hold makes no thread's end cleaner or dirtier. -/
theorem dirtySync_held (h : Hold) : dirtySync (held s w h) w = dirtySync s w := by
  cases w with
  | deckhand l => rfl
  | core l c n =>
    have hthr {α : Type} (f : Thread → α) (hf : f { getThr s (.core l c n) with hold := h } = f (getThr s (.core l c n)))
        (v : ThreadRef) : f (getThr (held s (.core l c n) h) v) = f (getThr s v) := by
      by_cases hv : v = .core l c n
      · rw [hv, getThr_held, hf]
      · rw [(othersKept_held h).1 v hv]
    have halike : SyncAlike l c s (held s (.core l c n) h) :=
      { pairs := fun i hi => by
          rw [pairReg, held, rd_of_setThr, rd_fetched _ (by omega) (by omega), ← pairReg]
        core := getCore_fetched s (.core l c n) l.val c.val
        waits := hthr Thread.wait rfl
        sets := hthr Thread.syncset rfl
        land := (getLand_of_setThr ..).trans (getLand_fetched ..) }
    exact halike.dirtySync_eq n

theorem checkHold_unmet (h : holdMet s w = false) : checkHold s w = s := by
  rw [checkHold]
  exact if_neg (by simp [h])

/-! ## FENCE (R159) -/

/-- What a FENCE names is not outstanding. -/
def fenceDone (s : State) (w : ThreadRef) (gw eng : Bool) : Prop :=
  (gw = true → (getThr s w).posted = []) ∧ (eng = true → engineBusy s w = false)

/-- A FENCE is met where nothing it names is outstanding. -/
theorem holdMet_fence (gw eng : Bool) : holdMet (held s w (.fence gw eng)) w = true ↔ fenceDone s w gw eng := by
  rw [holdMet, getThr_held, engineBusy_held]
  cases gw <;> cases eng <;> simp [fenceDone]

theorem exec_fence (hi : issues s w) {imm : BitVec 16} (himm : imm.toNat < 4) :
    Runs (.fence w 0 imm) s (checkHold (held s w (.fence (imm.getLsbD 0) (imm.getLsbD 1))) w) := by
  have hhigh : imm.extractLsb' 2 14 = 0 := by
    apply BitVec.eq_of_toNat_eq
    rw [BitVec.extractLsb'_toNat, Nat.shiftRight_eq_div_pow, Nat.div_eq_of_lt himm]
    rfl
  have hbad : ((0 : BitVec 5) != 0 || imm.extractLsb' 2 14 != 0) = false := by rw [hhigh]; rfl
  have hrun : exec (.fence w 0 imm) s = execFence w 0 imm s := rfl
  rw [Runs, hrun, execFence, hbad, issue_fetches (issues_fetches hi), if_neg Bool.false_ne_true, getThr_fetched, held]

/-- A FENCE with nothing outstanding goes on at once. -/
theorem fence_completes (hi : issues s w) {imm : BitVec 16} (himm : imm.toNat < 4)
    (hdone : fenceDone s w (imm.getLsbD 0) (imm.getLsbD 1)) :
    Runs (.fence w 0 imm) s (setThr (fetched s w) w { getThr s w with pc := .ofNat 15 (nextPc (getThr s w)) }) := by
  obtain ⟨hready, hfree, -⟩ := idle_of_mayIssue hi.1
  have hcheck : checkHold (held s w (.fence (imm.getLsbD 0) (imm.getLsbD 1))) w =
      advance (setThr (fetched s w) w { getThr s w with hold := .none }) w 1 := by
    unfold checkHold
    dsimp only
    rw [getThr_held, if_pos ⟨hready, (holdMet_fence ..).mpr hdone⟩, held, setThr_setThr]
  have hrun := exec_fence hi himm
  rw [hcheck, ← hfree] at hrun
  rw [← advance_setThr _ _ _ (issues_nextPc hi)]
  exact hrun

/-- A FENCE with something outstanding holds its thread. -/
theorem fence_holds (hi : issues s w) {imm : BitVec 16} (himm : imm.toNat < 4)
    (hdone : ¬ fenceDone s w (imm.getLsbD 0) (imm.getLsbD 1)) :
    Runs (.fence w 0 imm) s (held s w (.fence (imm.getLsbD 0) (imm.getLsbD 1))) := by
  rw [← checkHold_unmet (Bool.eq_false_iff.mpr (mt (holdMet_fence ..).mp hdone))]
  exact exec_fence hi himm

/-! ## TASK_END (R161) -/

theorem exec_taskEnd (hi : issues s w) (hposted : (getThr s w).posted = []) (hbusy : engineBusy s w = false) :
    Runs (.taskEnd w 0 0) s (finishTask (held s w .taskEnd) w) := by
  obtain ⟨hready, -, -⟩ := idle_of_mayIssue hi.1
  have hmet : holdMet (held s w .taskEnd) w = true := by
    rw [holdMet, getThr_held, engineBusy_held]
    simp [hposted, hbusy]
  have hcheck : checkHold (held s w .taskEnd) w = finishTask (held s w .taskEnd) w := by
    unfold checkHold
    dsimp only
    rw [getThr_held, if_pos ⟨hready, hmet⟩]
  rw [← hcheck, held, ← getThr_fetched s w w]
  exact congrArg Host.Outcome.next (issue_fetches (issues_fetches hi) false _ _)

theorem finishTask_tile {h : Dword} (ht : (getThr s w).tile = some h) :
    finishTask s w = preciseFault s w .tileHeld h := by
  simp only [finishTask, ht]

theorem finishTask_dirty {n : Nat} (ht : (getThr s w).tile = none) (hd : dirtySync s w = some n) :
    finishTask s w = preciseFault s w .dirtySync (.ofNat 64 n) := by
  simp only [finishTask, ht, hd]

theorem finishTask_clean (ht : (getThr s w).tile = none) (hd : dirtySync s w = none) :
    finishTask s w = setThr s w { getThr s w with st := .idle, hold := .none } := by
  simp only [finishTask, ht, hd]

/-- A fault of a held thread: the record takes the place of the hold (R165). -/
theorem held_faults (hi : issues s w) (h : Hold) {code : FCode} {n : Nat} (hn : code.num = .ofNat 8 n) (info : Dword) :
    faults s (preciseFault (held s w h) w code info) w n info ∧ othersKept s (preciseFault (held s w h) w code info) w := by
  refine ⟨faults_preciseFault_of_record ?_ hn ?_, othersKept_preciseFault (othersKept_held h) code info⟩
  · rw [getThr_held]
    exact not_fault_of_mayIssue hi.1
  · rw [getThr_held]
    rfl

end

theorem fenceAndTaskEnd : FenceAndTaskEnd := by
  intro w imm s hi himm t gw eng done
  refine ⟨fence_completes hi himm, fun hn => ?_, fun hposted hbusy => ?_⟩
  · refine ⟨_, fence_holds hi himm hn, getThr_held _, mayIssue_of_hold ?_, othersKept_held _⟩
    rw [getThr_held]
    nofun
  · have hrun := exec_taskEnd hi hposted hbusy
    have htile : (getThr (held s w .taskEnd) w).tile = (getThr s w).tile := by rw [getThr_held]
    have hdirty : dirtySync (held s w .taskEnd) w = dirtySync s w := dirtySync_held _
    refine ⟨fun ht hd => ?_, fun h hh => ?_, fun n ht hd => ?_⟩
    · obtain ⟨-, hfree, -⟩ := idle_of_mayIssue hi.1
      rw [finishTask_clean (htile.trans ht) (hdirty.trans hd), getThr_held, held, setThr_setThr, ← hfree] at hrun
      exact hrun
    · rw [finishTask_tile (htile.trans hh)] at hrun
      exact ⟨_, hrun, held_faults hi _ (code := .tileHeld) rfl h⟩
    · rw [finishTask_dirty (htile.trans ht) (hdirty.trans hd)] at hrun
      exact ⟨_, hrun, held_faults hi _ (code := .dirtySync) rfl _⟩

/-- Settles O5, one lemma for YIELD and TRAP and one for FENCE and TASK_END. -/
theorem threadControl : Obligations.ThreadControl := ⟨yieldAndTrap, fenceAndTaskEnd⟩

end Sys2Proof.Laws
end

section
/-! Global loads, stores and AMOADD at issue: O6 (R136, R152 to R154, R156). -/

namespace Sys2Proof.Laws

open Sys2Proof Sys2Proof.Machine Sys2Proof.Claims

section
variable {s : State} {w : ThreadRef}

/-- The fetched state with a new access of the thread in flight. -/
theorem newAccess_fetched (k : AKind) (a : Dword) (r : BitVec 5) :
    newAccess (fetched s w) (.thread w) k a none none (getThr s w).pc r = inFlight (fetched s w) (threadAccess s w k a r) := by
  rw [newAccess, (fetchOnly_fetched s w).nextId_eq, inFlight, (fetchOnly_fetched s w).nextId_eq]
  rfl

/-- A global access in the fetched state: GLOBAL_ALIGN, else the access (R152). -/
theorem globalFault (hf : fetches s w) {i : Instr} {a : Dword} {n : Nat} {t : State}
    (hrun : Runs i s (if a.toNat % n ≠ 0 then preciseFault (fetched s w) w .globalAlign a else t)) :
    (a.toNat % n = 0 → Runs i s t) ∧
      (a.toNat % n ≠ 0 → ∃ u, Runs i s u ∧ faults s u w 0x07 a ∧ u.accs = s.accs) := by
  refine ⟨fun h => ?_, fun h => ?_⟩
  · rwa [if_neg (not_not_intro h)] at hrun
  · rw [if_pos h] at hrun
    exact ⟨_, hrun, (fault_fetched hf rfl a).1, (preciseFault_accs ..).trans (fetchOnly_fetched s w).accs_eq⟩

theorem globalAddr_fetched (f : IForm) : globalAddr (fetched s w) w f = addrOf f (getThr s w) := by
  rw [globalAddr, src, getThr_fetched]
  rfl

/-! ## Loads -/

theorem globalLoad_eq (hf : fetches s w) (f : IForm) (op : BitVec 6) (n : Nat) :
    globalLoad s w f op n =
      let a := addrOf f (getThr s w)
      if a.toNat % n ≠ 0 then preciseFault (fetched s w) w .globalAlign a
      else setThr (inFlight (fetched s w) (threadAccess s w (.read n) a f.sd)) w
        { getThr s w with st := .wait, wait := .response s.nextId } := by
  rw [globalLoad, issue_fetches hf, if_neg Bool.false_ne_true]
  dsimp only
  rw [globalAddr_fetched, getThr_fetched, newAccess_fetched, (fetchOnly_fetched s w).nextId_eq]

theorem gloadRow_runs {i : Instr} {f : IForm} {n : Nat} (h : gloadRow i = some (w, f, n)) :
    ∃ op, ∀ s, exec i s = .next (globalLoad s w f op n) := by
  unfold gloadRow at h
  split at h <;> cases h
  case h_1 => exact ⟨0x20, fun _ => rfl⟩
  case h_2 => exact ⟨0x21, fun _ => rfl⟩

/-! ## Stores -/

theorem globalStore_eq (hi : issues s w) (hroom : (getThr s w).posted.length < 8) (f : IForm) (op : BitVec 6) (n : Nat) :
    globalStore s w f op n =
      let a := addrOf f (getThr s w)
      if a.toNat % n ≠ 0 then preciseFault (fetched s w) w .globalAlign a
      else setThr (inFlight (fetched s w) (threadAccess s w (.write (leBytes n (getReg (getThr s w) f.sd).toNat)) a 0)) w
        { getThr s w with
          posted := (getThr s w).posted ++ [s.nextId], pc := .ofNat 15 (nextPc (getThr s w)) } := by
  have hpost : postedFull s w = false := decide_eq_false (by omega)
  rw [globalStore, hpost, if_neg Bool.false_ne_true, issue_fetches (issues_fetches hi), if_neg Bool.false_ne_true]
  dsimp only
  rw [globalAddr_fetched, src, getThr_fetched, newAccess_fetched, (fetchOnly_fetched s w).nextId_eq]
  exact if_congr Iff.rfl rfl (advance_setThr _ _ _ (issues_nextPc hi))

theorem gstoreRow_runs {i : Instr} {f : IForm} {n : Nat} (h : gstoreRow i = some (w, f, n)) :
    ∃ op, ∀ s, exec i s = .next (globalStore s w f op n) := by
  unfold gstoreRow at h
  split at h <;> cases h
  case h_1 => exact ⟨0x22, fun _ => rfl⟩
  case h_2 => exact ⟨0x23, fun _ => rfl⟩

/-! ## AMOADD -/

theorem globalAmo_eq (hf : fetches s w) (hroom : (getThr s w).posted.length < 8) (f : RForm) (fn : BitVec 6) (n : Nat) :
    globalAmo s w f fn n =
      let a := getReg (getThr s w) f.sa
      if f.sc ≠ 0 then preciseFault (fetched s w) w .illegal ((wordR 0x24 f fn).setWidth 64)
      else if a.toNat % n ≠ 0 then preciseFault (fetched s w) w .globalAlign a
      else setThr (inFlight (fetched s w) (threadAccess s w (.amo n (getReg (getThr s w) f.sb)) a f.sd)) w
        { getThr s w with
          st := .wait, wait := .response s.nextId, posted := (getThr s w).posted ++ [s.nextId] } := by
  have hpost : postedFull s w = false := decide_eq_false (by omega)
  rw [globalAmo, hpost, if_neg Bool.false_ne_true, issue_fetches hf]
  dsimp only
  rw [src, src, getThr_fetched, newAccess_fetched, (fetchOnly_fetched s w).nextId_eq]
  exact if_congr bne_iff_ne rfl rfl

theorem gamoRow_runs {i : Instr} {f : RForm} {n fn : Nat} (h : gamoRow i = some (w, f, n, fn)) :
    ∃ fn' : BitVec 6, fn'.toNat = fn ∧ ∀ s, exec i s = .next (globalAmo s w f fn' n) := by
  unfold gamoRow at h
  split at h <;> cases h
  case h_1 => exact ⟨0x00, rfl, fun _ => rfl⟩
  case h_2 => exact ⟨0x01, rfl, fun _ => rfl⟩

/-- A ninth posted access does not issue (R154). -/
theorem postedFull_of (h : 8 ≤ (getThr s w).posted.length) : postedFull s w = true := decide_eq_true h

end

/-- Settles O6: each access in the fetched state is GLOBAL_ALIGN or starts, where the thread has a posted access to spare. -/
theorem globalIssue : Obligations.GlobalIssue := by
  refine ⟨fun i w f n s h hf => ?_, fun i w f n s h hi hroom => ?_, fun i w f n s h hfull => ?_,
    fun i w f n fn s h hfull => ?_, fun i w f n fn s h hf hsc hroom => ?_, fun i w f n fn s h hf hsc hroom => ?_⟩
  · obtain ⟨op, hexec⟩ := gloadRow_runs h
    exact globalFault hf ((hexec s).trans (congrArg _ (globalLoad_eq hf f op n)))
  · obtain ⟨op, hexec⟩ := gstoreRow_runs h
    exact globalFault (issues_fetches hi) ((hexec s).trans (congrArg _ (globalStore_eq hi hroom f op n)))
  · obtain ⟨op, hexec⟩ := gstoreRow_runs h
    exact (hexec s).trans (congrArg _ (if_pos (postedFull_of hfull)))
  · obtain ⟨fn', -, hexec⟩ := gamoRow_runs h
    exact (hexec s).trans (congrArg _ (if_pos (postedFull_of hfull)))
  · obtain ⟨fn', rfl, hexec⟩ := gamoRow_runs h
    have hrun := (hexec s).trans (congrArg Host.Outcome.next ((globalAmo_eq hf hroom f fn' n).trans (if_pos hsc)))
    refine ⟨_, hrun, ?_, (preciseFault_accs ..).trans (fetchOnly_fetched s w).accs_eq⟩
    rw [← BitVec.ofNat_toNat, toNat_wordR]
    exact (fault_fetched hf rfl _).1
  · obtain ⟨fn', -, hexec⟩ := gamoRow_runs h
    exact globalFault hf ((hexec s).trans
      (congrArg _ ((globalAmo_eq hf hroom f fn' n).trans (if_neg (not_not_intro hsc)))))

end Sys2Proof.Laws
end

section
/-! Responses of global accesses, deferred faults and GTIMEOUT: O7 (R152, R153, R155, R156, R164, R165). -/

namespace Sys2Proof.Laws

open Sys2Proof Sys2Proof.Machine Sys2Proof.Claims

/-! ## Failures (R164) -/

/-- The model's fault of a failed access has R164's number. -/
theorem statusFault_num (x : AStatus) : (statusFault x).map FCode.num = (failCode x).map (BitVec.ofNat 8) := by
  cases x <;> rfl

theorem statusFault_none {x : AStatus} (h : failCode x = none) : statusFault x = none := by
  have hnum := statusFault_num x
  rwa [h, Option.map_none, Option.map_eq_none_iff] at hnum

theorem statusFault_some {x : AStatus} {n : Nat} (h : failCode x = some n) :
    ∃ c, statusFault x = some c ∧ c.num = .ofNat 8 n := by
  have hnum := statusFault_num x
  rwa [h, Option.map_some, Option.map_eq_some_iff] at hnum

section
variable {s : State} {id : Nat} {a : Access} {w : ThreadRef}

/-! ## The response of a load or AMOADD (R153, R156) -/

/-- The thread whose wait a response ends. -/
def woken (t : Thread) (id : Nat) : Thread := { t with st := .ready, wait := .none, posted := without t id }

/-- A response that its thread waits for wakes it: it faults, or the register is written. -/
theorem respond_awaited (hid : a.id = id) (hw : (getThr s w).wait = .response id) (v : Nat) :
    (∀ c, respond s a w (some c) v =
      preciseFault (setThr (dropAccess s id) w (woken (getThr s w) id)) w c a.addr) ∧
    respond s a w none v = advance (dst (setThr (dropAccess s id) w (woken (getThr s w) id)) w a.sd (.ofNat 64 v)) w 1 := by
  subst hid
  exact ⟨fun c => if_pos hw, if_pos hw⟩

/-- The fault of a response: the access is gone, and the thread's record is a precise one (R165). -/
theorem response_faults {code : FCode} {n : Nat} (hn : code.num = .ofNat 8 n) :
    let u := preciseFault (setThr (dropAccess s id) w (woken (getThr s w) id)) w code a.addr
    faults s (setThr u w { getThr u w with posted := (getThr s w).posted }) w n a.addr ∧
      u.accs = s.accs.filter (fun b => b.id ≠ id) ∧ (getThr u w).posted = without (getThr s w) id := by
  intro u
  obtain ⟨hthr, hcause⟩ := faults_preciseFault (s := setThr (dropAccess s id) w (woken (getThr s w) id)) (w := w)
    (code := code) (info := a.addr) rfl (by rw [getThr_setThr]; nofun) hn
  rw [getThr_setThr] at hthr
  refine ⟨⟨?_, hcause⟩, (preciseFault_accs ..).trans rfl, congrArg Thread.posted hthr⟩
  rw [getThr_setThr, hthr]
  rfl

theorem response_runs {r : AResult} (h : answered s id a w r) (hk : ∀ d, a.kind ≠ .write d) :
    Runs (.globalResponse id) s (respond s a w (statusFault r.status) (leNat r.data)) := by
  obtain ⟨hfind, hsrc, hres⟩ := h
  show execGlobalResponse id s = _
  unfold execGlobalResponse
  cases hkind : a.kind with
  | write d => exact absurd hkind (hk d)
  | _ => simp only [hfind, hsrc, hres, hkind]

/-! ## The completion of a posted store (R155) -/

theorem checkHold_free (h : (getThr s w).hold = .none) : checkHold s w = s := by
  refine checkHold_unmet ?_
  unfold holdMet
  simp only [h]

theorem completion_runs {r : AResult} {d : List Byte} (h : answered s id a w r) (hk : a.kind = .write d)
    (hid : a.id = id) (hw : (getThr s w).wait ≠ .response id) :
    Runs (.globalStoreCompletion id) s (completePosted s a w (statusFault r.status)) := by
  obtain ⟨hfind, hsrc, hres⟩ := h
  have haw : awaited s a w = false := by
    rw [awaited, hid]
    exact beq_false_of_ne hw
  show execGlobalStoreCompletion id s = _
  unfold execGlobalStoreCompletion
  simp only [hfind, hsrc, hres, haw, hk]
  rfl

/-- The state without an access, which its thread has no longer outstanding. -/
def unposted (s : State) (w : ThreadRef) (id : Nat) : State :=
  setThr (dropAccess s id) w { getThr s w with posted := without (getThr s w) id }

theorem getThr_unposted (s : State) (w : ThreadRef) (id : Nat) :
    getThr (unposted s w id) w = { getThr s w with posted := without (getThr s w) id } := getThr_setThr ..

/-- A posted store that completes is no longer outstanding; a failure is a deferred fault, its PC and address those of
the store. A FENCE or TASK_END looks afterwards. -/
theorem completePosted_mine (hid : a.id = id) (hm : id ∈ (getThr s w).posted) :
    completePosted s a w none = checkHold (unposted s w id) w ∧
      ∀ c, completePosted s a w (some c) = checkHold (faultThread (unposted s w id) w c a.addr true a.pc) w := by
  subst hid
  have hmine : (getThr (dropAccess s a.id) w).posted.contains a.id = true := List.contains_iff_mem.mpr hm
  unfold completePosted
  dsimp only
  rw [hmine]
  exact ⟨rfl, fun c => rfl⟩

/-- A deferred fault of a thread that is neither held nor in FAULT (R155, R165). -/
theorem deferred_faults {u : State} {code : FCode} {n : Nat} (hn : code.num = .ofNat 8 n)
    (hst : (getThr u w).st ≠ .fault) (hhold : (getThr u w).hold = .none) (info : Dword) (pc : BitVec 15) :
    checkHold (faultThread u w code info true pc) w = faultThread u w code info true pc ∧
      getThr (faultThread u w code info true pc) w =
        { getThr u w with
          st := .fault, wait := .none, yielding := false, fcode := .ofNat 8 n, deferred := true, more := false,
          fpc := pc, info := info } := by
  have hthr := getThr_faultThread u w code info true pc hst
  rw [hn] at hthr
  refine ⟨checkHold_free (congrArg Thread.hold hthr), ?_⟩
  rw [hthr, ← hhold]

/-! ## GTIMEOUT (R152) -/

theorem gtimeout_runs (hfind : findAccess s id = some a) (hsrc : a.src = .thread w) (hres : a.res = none)
    (hid : a.id = id) (hw : (getThr s w).wait = .response id) :
    Runs (.gtimeout id) s (respond s a w (some .gtimeout) 0) := by
  have haw : awaited s a w = true := by
    rw [awaited, hid]
    exact beq_iff_eq.mpr hw
  show execGtimeout id s = _
  unfold execGtimeout
  simp only [hfind, hsrc, hres, haw]
  rfl

end

/-- Settles O7: a response ends its thread's wait, a completion unposts its store, and each leaves a register, nothing or a
fault. -/
theorem globalCompletion : Obligations.GlobalCompletion := by
  refine ⟨fun id a w r s h hk hid hw hst hpc => ?_, fun id a w r d s h hk hid hw hm hhold hst => ?_,
    fun id a w s hfind hsrc hres hid hw hst => ?_⟩
  · have hrun := response_runs h hk
    obtain ⟨hfault, hgood⟩ := respond_awaited hid hw (leNat r.data)
    refine ⟨fun hok => ?_, fun n hn => ?_⟩
    · rw [statusFault_none hok, hgood, advance_dst _ _ (by rw [getThr_setThr]; exact hpc), getThr_setThr,
        setThr_setThr] at hrun
      exact hrun
    · obtain ⟨c, hc, hnum⟩ := statusFault_some hn
      rw [hc, hfault] at hrun
      exact ⟨_, hrun, response_faults hnum⟩
  · have hrun := completion_runs h hk hid hw
    obtain ⟨hgood, hfault⟩ := completePosted_mine hid hm
    refine ⟨fun hok => ?_, fun n hn => ?_⟩
    · rw [statusFault_none hok, hgood, checkHold_free (by rw [getThr_unposted]; exact hhold)] at hrun
      exact hrun
    · obtain ⟨c, hc, hnum⟩ := statusFault_some hn
      obtain ⟨hcheck, hthr⟩ := deferred_faults (u := unposted s w id) hnum (by rw [getThr_unposted]; exact hst)
        (by rw [getThr_unposted]; exact hhold) a.addr a.pc
      rw [hc, hfault, hcheck] at hrun
      rw [getThr_unposted] at hthr
      exact ⟨_, hrun, (faultThread_accs ..).trans rfl, hthr⟩
  · have hrun := gtimeout_runs hfind hsrc hres hid hw
    rw [(respond_awaited hid hw 0).1] at hrun
    have hthr := getThr_faultThread (setThr (dropAccess s id) w (woken (getThr s w) id)) w .gtimeout a.addr false
      (getThr (setThr (dropAccess s id) w (woken (getThr s w) id)) w).pc (by rw [getThr_setThr]; nofun)
    rw [← preciseFault, getThr_setThr] at hthr
    refine ⟨_, hrun, ?_⟩
    rw [hthr]
    exact ⟨rfl, rfl, rfl, rfl, rfl, (preciseFault_accs ..).trans rfl⟩

end Sys2Proof.Laws
end

section
/-! Engine commands at issue: the fetch of two words, entry into a queue, refusals with the lowest REASON, and reserved
instructions: O9 (R136, R142, R144, R147, R160, R168, R170 to R172, R202). -/

namespace Sys2Proof.Laws

open Sys2Proof Sys2Proof.Machine Sys2Proof.Claims

/-! ## Words as numbers (R171) -/

theorem toNat_word0 (op : BitVec 6) (f : EForm) : (word0 op f).toNat = firstWord op f := by
  simp only [word0, toNat_append_eq, firstWord]
  omega

theorem toNat_word1 (f : EForm) : (word1 f).toNat = secondWord f := by
  simp only [word1, toNat_append_eq, secondWord]
  omega

theorem refusalWord_eq (op : BitVec 6) (f : EForm) (reason : Nat) : refusalWord op f reason = refusal op f reason := by
  rw [refusalWord, toNat_word1]
  rfl

/-! ## The lowest REASON (R202) -/

/-- The lower of a REASON so far and one more. -/
def lower (a : Option Nat) (c : Nat × Bool) : Option Nat :=
  match a with
  | none => some c.1
  | some m => some (min m c.1)

theorem firstReason_eq_foldl (cs : List (Nat × Bool)) : firstReason cs = (cs.filter fun c => c.2).foldl lower none := rfl

theorem foldl_lower_some (xs : List (Nat × Bool)) (m : Nat) :
    xs.foldl lower (some m) = some ((xs.map Prod.fst).foldl min m) := by
  induction xs generalizing m with
  | nil => rfl
  | cons x xs ih => exact ih (min m x.1)

theorem firstReason_eq_min (cs : List (Nat × Bool)) : firstReason cs = ((cs.filter fun c => c.2).map Prod.fst).min? := by
  rw [firstReason_eq_foldl]
  cases cs.filter fun c => c.2 with
  | nil => rfl
  | cons x xs => exact foldl_lower_some xs x.1

theorem mem_failed {cs : List (Nat × Bool)} {r : Nat} : r ∈ (cs.filter fun c => c.2).map Prod.fst ↔ (r, true) ∈ cs := by
  rw [List.mem_map]
  constructor
  · rintro ⟨⟨q, b⟩, hq, rfl⟩
    obtain ⟨hmem, rfl⟩ := List.mem_filter.mp hq
    exact hmem
  · exact fun h => ⟨_, List.mem_filter.mpr ⟨h, rfl⟩, rfl⟩

theorem firstReason_none (cs : List (Nat × Bool)) : firstReason cs = none ↔ ∀ x ∈ cs, x.2 = false := by
  rw [firstReason_eq_min, List.min?_eq_none_iff, List.map_eq_nil_iff, List.filter_eq_nil_iff]
  simp only [Bool.not_eq_true]

theorem firstReason_some (cs : List (Nat × Bool)) (r : Nat) :
    firstReason cs = some r ↔ (r, true) ∈ cs ∧ ∀ q, (q, true) ∈ cs → r ≤ q := by
  rw [firstReason_eq_min, List.min?_eq_some_iff, mem_failed]
  simp only [mem_failed]

/-! ## Entry into a queue (R168, R172) -/

section
variable {s u : State} {w : ThreadRef} {l c t : Nat} {op : BitVec 6} {f : EForm} {e : Eng}

/-- What a command reads of its thread: its registers and its PC. -/
theorem asQueued_congr (hregs : (getThr u w).regs = (getThr s w).regs) (hpc : (getThr u w).pc = (getThr s w).pc) :
    asQueued u w t op f = asQueued s w t op f ∧ cmdChecks u w t op f = cmdChecks s w t op f := by
  have hreg (r : BitVec 5) : getReg (getThr u w) r = getReg (getThr s w) r := by rw [getReg, hregs, ← getReg]
  have hcmd : asQueued u w t op f = asQueued s w t op f := by simp only [asQueued, hreg, hpc]
  exact ⟨hcmd, by rw [cmdChecks, hcmd, hreg, ← cmdChecks]⟩

/-- A command that no check refuses stands at the end of its queue, and its thread is past it. -/
theorem enter_enters (h : firstReason (cmdChecks s w t op f) = none) (hpc : (getThr s w).pc.toNat + 2 < 32768) :
    enter s w l c t op f e =
      setThr (setCore s l c (enqueued s l c (getCore s l c) e (asQueued s w t op f))) w (pastCmd (getThr s w)) := by
  have hchecks : firstReason (checksCommon f (src s w f.wmr) ++ checksOf (readCmd s w t op f)) = none := h
  have hmet (cmd : EngCmd) : waitMet s l c cmd =
      decide (cmd.wctr = 0x3f ∨ cmd.mark.toNat ≤ ctrEff (getCtr s l c cmd.wctr.toNat)) := (Bool.decide_or ..).symm
  have hqueue : enqueued s l c (getCore s l c) e (readCmd s w t op f) =
      setQueue (getCore s l c) e
        (let q := getQueue (getCore s l c) e
        let q := if q.cmds.isEmpty then
          { q with since := runEdges s l, limit := wdogEdges s l, met := waitMet s l c (readCmd s w t op f) } else q
        { q with cmds := q.cmds ++ [readCmd s w t op f] }) := by
    rw [enqueued]
    by_cases hq : (getQueue (getCore s l c) e).cmds = []
    · simp only [hq, if_true, List.isEmpty_nil, hmet]
    · simp only [hq, if_false, List.isEmpty_eq_false_iff.mpr hq, Bool.false_eq_true]
  have henter : enter s w l c t op f e =
      advance (setCore s l c (enqueued s l c (getCore s l c) e (readCmd s w t op f))) w 2 := by
    rw [hqueue]
    unfold enter
    dsimp only
    rw [hchecks]
  rw [henter]
  exact advance_ok (setCore s l c _) w 2 hpc

/-- A command that a check refuses faults with the lowest REASON. -/
theorem enter_refused {r : Nat} (h : firstReason (cmdChecks s w t op f) = some r) :
    enter s w l c t op f e = preciseFault s w .engine (refusal op f r) := by
  have hchecks : firstReason (checksCommon f (src s w f.wmr) ++ checksOf (readCmd s w t op f)) = some r := h
  unfold enter
  dsimp only
  rw [hchecks, ← refusalWord_eq]

end

/-! ## The fetch of two words (R136, R147, R150) -/

section
variable {s : State} {w : ThreadRef} {op : BitVec 6} {f : EForm}

theorem fetchBad_noteRun (s : State) (w : ThreadRef) (i : Nat) : fetchBad (noteRun s w) w i = fetchBad s w i := by
  rw [fetchBad, uncorrectable_noteRun, getThr_noteRun, ← fetchBad]

theorem getThr_cmdFetched (s : State) (w v : ThreadRef) : getThr (cmdFetched s w) v = getThr s v :=
  (fetchOnly_cmdFetched s w).getThr_eq v

/-- No deckhand has engines: ILLEGAL, whatever the fields (R136). -/
theorem issueE_deckhand (hf : fetches s w) (hd : isDeckhand w = true) (body : State → Nat → Nat → Nat → State) :
    issueE s w op f body = preciseFault (noteRun s w) w .illegal ((word0 op f).setWidth 64) := by
  rw [issueE, if_pos hf.1]
  dsimp only
  rw [fetchBad_noteRun, hf.2, if_neg Bool.false_ne_true, if_pos hd]

/-- With both words fetched, a bad field is ILLEGAL, and the body runs without one. -/
theorem issueE_fetched {l : Fin 32} {c : Fin 256} {t : Fin 16} (hf : fetches s (.core l c t))
    (hbad : fetchBad s (.core l c t) 1 = false) (hpc : (getThr s (.core l c t)).pc.toNat ≠ 32767)
    (body : State → Nat → Nat → Nat → State) :
    issueE s (.core l c t) op f body =
      if illegalE op.toNat f then
        preciseFault (cmdFetched s (.core l c t)) (.core l c t) .illegal ((word0 op f).setWidth 64)
      else body (cmdFetched s (.core l c t)) l.val c.val t.val := by
  rw [issueE, if_pos hf.1]
  dsimp only
  have hd : isDeckhand (.core l c t) = false := rfl
  rw [fetchBad_noteRun, fetchBad_noteRun, hf.2, hbad, hd, getThr_noteRun, if_neg Bool.false_ne_true,
    if_neg Bool.false_ne_true, if_neg hpc, if_neg Bool.false_ne_true]
  rfl

/-- A fault of a thread at the fetch of an engine command. -/
theorem fault_fetchOnly {u : State} (hu : FetchOnly s u) (hmay : mayIssue s w = true) {code : FCode} {n : Nat}
    (hn : code.num = .ofNat 8 n) (info : Dword) :
    faults s (preciseFault u w code info) w n info ∧ othersKept s (preciseFault u w code info) w :=
  ⟨faults_preciseFault s w code info (hu.getThr_eq w) (not_fault_of_mayIssue hmay) hn,
    othersKept_preciseFault (hu.othersKept w) code info⟩

theorem setWidth_word0 (op : BitVec 6) (f : EForm) : (word0 op f).setWidth 64 = .ofNat 64 (firstWord op f) := by
  rw [← toNat_word0, BitVec.ofNat_toNat]

/-- The ILLEGAL cases of an engine command. -/
theorem issueE_illegal (hf : fetches s w) (h : isDeckhand w = true ∨
      (fetchBad s w 1 = false ∧ (getThr s w).pc.toNat ≠ 32767 ∧ illegalE op.toNat f = true))
    (body : State → Nat → Nat → Nat → State) :
    faults s (issueE s w op f body) w 0x01 (.ofNat 64 (firstWord op f)) ∧ othersKept s (issueE s w op f body) w := by
  rw [← setWidth_word0]
  cases w with
  | deckhand l =>
    rw [issueE_deckhand hf rfl]
    exact fault_fetchOnly (fetchOnly_noteRun ..) hf.1 rfl _
  | core l c t =>
    obtain ⟨hbad, hpc, hill⟩ := h.resolve_left Bool.false_ne_true
    rw [issueE_fetched hf hbad hpc, if_pos hill]
    exact fault_fetchOnly (fetchOnly_cmdFetched ..) hf.1 rfl _

end

/-! ## The issue of a queued command (R168, R170) -/

/-- Every row of the table is queued under its OP, fields and engine. -/
theorem engRow_runs {i : Instr} {w : ThreadRef} {op : BitVec 6} {f : EForm} {e : Eng}
    (h : engRow i = some (w, op, f, e)) (s : State) : exec i s = .next (issueQueued s w op f e) := by
  unfold engRow at h
  split at h
  all_goals cases h
  all_goals rfl

section
variable {s : State} {l : Fin 32} {c : Fin 256} {t : Fin 16} {op : BitVec 6} {f : EForm} {e : Eng}

theorem cmdFetches_pc {w : ThreadRef} (h : cmdFetches s w op f) : (getThr s w).pc.toNat + 2 < 32768 := by
  obtain ⟨-, -, -, hpc, -⟩ := h
  exact hpc

theorem issueQueued_room (h : cmdFetches s (.core l c t) op f)
    (hroom : (getQueue (getCore (cmdFetched s (.core l c t)) l.val c.val) e).cmds.length < 16) :
    issueQueued s (.core l c t) op f e = enter (cmdFetched s (.core l c t)) (.core l c t) l.val c.val t.val op f e := by
  obtain ⟨hmay, hbad, hbad1, hpc, hill⟩ := h
  rw [issueQueued, issueE_fetched ⟨hmay, hbad⟩ hbad1 (by omega), if_neg (by simp [hill])]
  exact if_neg (by simp [queueFull, hroom])

theorem issueQueued_full (h : cmdFetches s (.core l c t) op f)
    (hfull : 16 ≤ (getQueue (getCore (cmdFetched s (.core l c t)) l.val c.val) e).cmds.length) :
    issueQueued s (.core l c t) op f e = setThr (cmdFetched s (.core l c t)) (.core l c t)
      { getThr s (.core l c t) with st := .wait, wait := .queue op f } := by
  obtain ⟨hmay, hbad, hbad1, hpc, hill⟩ := h
  rw [issueQueued, issueE_fetched ⟨hmay, hbad⟩ hbad1 (by omega), if_neg (by simp [hill]),
    ← getThr_cmdFetched s (.core l c t) (.core l c t)]
  exact if_pos (by simp [queueFull, hfull])

/-- A refused command, at issue (R202). -/
theorem issueQueued_refused (h : cmdFetches s (.core l c t) op f)
    (hroom : (getQueue (getCore (cmdFetched s (.core l c t)) l.val c.val) e).cmds.length < 16) {r : Nat}
    (hr : firstReason (cmdChecks s (.core l c t) t.val op f) = some r) :
    faults s (issueQueued s (.core l c t) op f e) (.core l c t) 0x14 (refusal op f r) ∧
      othersKept s (issueQueued s (.core l c t) op f e) (.core l c t) := by
  have hthr := getThr_cmdFetched s (.core l c t) (.core l c t)
  obtain ⟨-, hchecks⟩ := asQueued_congr (t := t.val) (op := op) (f := f) (congrArg Thread.regs hthr) (congrArg Thread.pc hthr)
  rw [issueQueued_room h hroom, enter_refused (hchecks ▸ hr)]
  exact fault_fetchOnly (fetchOnly_cmdFetched ..) h.1 rfl _

end

theorem engineIssue : EngineIssue := by
  refine ⟨fun i w op f e s h hf hill => ⟨_, engRow_runs h s, issueE_illegal hf hill _⟩, ?_⟩
  intro i l c t op f e s h w u k hfetch
  have hrun := engRow_runs h s
  have hthr : getThr u w = getThr s w := getThr_cmdFetched s w w
  obtain ⟨hcmd, hchecks⟩ := asQueued_congr (t := t.val) (op := op) (f := f) (congrArg Thread.regs hthr) (congrArg Thread.pc hthr)
  refine ⟨fun hroom hr => ?_, fun hfull => ?_, fun r hroom hr => ⟨_, hrun, issueQueued_refused hfetch hroom hr⟩⟩
  · rw [issueQueued_room hfetch hroom, enter_enters (hchecks ▸ hr) (by rw [hthr]; exact cmdFetches_pc hfetch), hcmd,
      hthr] at hrun
    exact hrun
  · rw [issueQueued_full hfetch hfull] at hrun
    exact hrun

/-! ## A place that frees (R168) -/

section
variable {s : State} {l : Fin 32} {c : Fin 256} {t : Fin 16} {op : BitVec 6} {f : EForm} {e : Eng}

/-- The state with a waiting thread READY again. -/
def resumed (s : State) (w : ThreadRef) : State := setThr s w { getThr s w with st := .ready, wait := .none }

theorem getThr_resumed (s : State) (w : ThreadRef) :
    getThr (resumed s w) w = { getThr s w with st := .ready, wait := .none } := getThr_setThr ..

theorem queueFullIssue_runs (hw : (getThr s (.core l c t)).wait = .queue op f) (he : engineOf op.toNat = some e)
    (hon : arrayOn s l.val = true) (hroom : (getQueue (getCore s l.val c.val) e).cmds.length < 16) :
    Runs (.queueFullIssue (.core l c t)) s
      (enter (resumed s (.core l c t)) (.core l c t) l.val c.val t.val op f e) := by
  have hgo : ¬ (queueFull (getQueue (getCore s l.val c.val) e) = true ∨ (!arrayOn s l.val) = true) := by
    simp [queueFull, hon, hroom]
  show execQueueFullIssue (.core l c t) s = _
  unfold execQueueFullIssue
  simp only [hw, he]
  exact if_neg hgo

/-- The entry of a resumed thread's command, in terms of the state before. -/
theorem enqueued_resumed (cmd : EngCmd) (x : Thread) :
    setThr (setCore (resumed s (.core l c t)) l.val c.val
      (enqueued (resumed s (.core l c t)) l.val c.val (getCore (resumed s (.core l c t)) l.val c.val) e cmd)) (.core l c t) x =
    setThr (setCore s l.val c.val (enqueued s l.val c.val (getCore s l.val c.val) e cmd)) (.core l c t) x :=
  setThr_setThr (setCore s l.val c.val (enqueued s l.val c.val (getCore s l.val c.val) e cmd)) (.core l c t)
    { getThr s (.core l c t) with st := .ready, wait := .none } x

end

theorem engineIssueLater : EngineIssueLater := by
  refine ⟨?_, fun cs => ⟨firstReason_none cs, firstReason_some cs⟩⟩
  intro l c t op f e s w hw he hon hroom hpc
  have hrun := queueFullIssue_runs hw he hon hroom
  have hthr := getThr_resumed s w
  obtain ⟨hcmd, hchecks⟩ := asQueued_congr (u := resumed s w) (s := s) (w := w) (t := t.val) (op := op) (f := f)
    (by rw [hthr]) (by rw [hthr])
  refine ⟨fun hr => ?_, fun r hr => ?_⟩
  · rw [enter_enters (hchecks ▸ hr) (by rw [hthr]; exact hpc), hcmd, hthr, enqueued_resumed] at hrun
    exact hrun
  · rw [enter_refused (hchecks ▸ hr)] at hrun
    refine ⟨_, hrun, faults_preciseFault_of_record ?_ rfl ?_,
      othersKept_preciseFault (othersKept_setThr (othersKept_of_eq rfl rfl) _) _ _⟩
    · rw [hthr]
      nofun
    · rw [hthr]
      rfl

/-! ## Reserved instructions (R136, R202) -/

section
variable {s : State} {w : ThreadRef} {w0 : Word} (w1 : Word)

theorem reservedInstruction_illegal (hres : reservedScalar w0 = true) (hf : fetches s w) :
    Runs (.reservedInstruction w w0 w1) s (preciseFault (fetched s w) w .illegal (w0.setWidth 64)) := by
  show execReservedInstruction w w0 w1 s = _
  rw [execReservedInstruction, if_pos hres, issue_fetches hf, if_pos rfl]

/-- OP of a word, as its six bits. -/
theorem op_eq_iff (w0 : Word) : wfld w0 31 26 = 0x34 ↔ BitVec.ofNat 6 (wfld w0 31 26) = 0x34 := by
  have hlt : wfld w0 31 26 < 2 ^ 6 := Nat.mod_lt _ (by decide)
  rw [← BitVec.toNat_inj, BitVec.toNat_ofNat, Nat.mod_eq_of_lt hlt]
  rfl

theorem reservedInstruction_queued {w1 : Word} (hres : reservedScalar w0 = false) (hsub : reservedSubop w0 w1 = true) :
    let op := BitVec.ofNat 6 (wfld w0 31 26)
    exec (.reservedInstruction w w0 w1) s =
      .next (issueQueued s w op (formOf w0 w1) (if op = 0x34 then Eng.vec else Eng.red)) := by
  show execReservedInstruction w w0 w1 s = _
  rw [execReservedInstruction, if_neg (by simp [hres]), if_pos hsub]
  simp only [op_eq_iff]

end

theorem reservedInstructions : ReservedInstructions := by
  refine ⟨fun w w0 w1 s hres hf => ⟨_, reservedInstruction_illegal w1 hres hf, fault_fetched hf rfl _⟩, ?_⟩
  intro l c t w0 w1 s hres hsub w op f e hfetch hroom hr
  exact ⟨_, reservedInstruction_queued hres hsub, issueQueued_refused hfetch hroom hr⟩

/-- Settles O9: every command of the table is queued alike, so that its issue is that of one command. -/
theorem engineIssues : Obligations.EngineIssues := ⟨engineIssue, engineIssueLater, reservedInstructions⟩

end Sys2Proof.Laws
end

section
/-! The words of scalar instructions and engine commands decode to what they spell, and reserved words to none: O56 (R134 to
R136, R142, R144, R160, R170, R171, R194, R273). -/

namespace Sys2Proof.Laws

open Sys2Proof Sys2Proof.Machine Sys2Proof.Claims

/-! ## Fields of words (R135, R171) -/

theorem toNat_extract {k : Nat} (x : BitVec k) (lo n : Nat) : (x.extractLsb' lo n).toNat = x.toNat / 2 ^ lo % 2 ^ n := by
  rw [BitVec.extractLsb'_toNat, Nat.shiftRight_eq_div_pow]

theorem fields_wordI (op : BitVec 6) (f : IForm) : (wordI op f).extractLsb' 26 6 = op ∧ iFormOf (wordI op f) = f := by
  obtain ⟨sd, sa, imm⟩ := f
  have h0 := op.isLt
  have h1 := sd.isLt
  have h2 := sa.isLt
  have h3 := imm.isLt
  simp only [iFormOf, IForm.mk.injEq, ← BitVec.toNat_inj, toNat_extract, toNat_wordI, immWord]
  refine ⟨?_, ?_, ?_, ?_⟩ <;> omega

theorem fields_wordR (op fn : BitVec 6) (f : RForm) :
    (wordR op f fn).extractLsb' 26 6 = op ∧ (wordR op f fn).extractLsb' 0 6 = fn ∧ rFormOf (wordR op f fn) = f := by
  obtain ⟨sd, sa, sb, sc⟩ := f
  have h0 := op.isLt
  have h1 := sd.isLt
  have h2 := sa.isLt
  have h3 := sb.isLt
  have h4 := sc.isLt
  have h5 := fn.isLt
  simp only [rFormOf, RForm.mk.injEq, ← BitVec.toNat_inj, toNat_extract, toNat_wordR, regWord]
  refine ⟨?_, ?_, ?_, ?_, ?_, ?_⟩ <;> omega

theorem fields_words (op : BitVec 6) (f : EForm) :
    (word0 op f).extractLsb' 26 6 = op ∧ formOf (word0 op f) (word1 f) = f := by
  obtain ⟨wctr, wmr, ra, rb, rc, sctr, sinc, imm⟩ := f
  have h0 := op.isLt
  have h1 := wctr.isLt
  have h2 := wmr.isLt
  have h3 := ra.isLt
  have h4 := rb.isLt
  have h5 := rc.isLt
  have h6 := sctr.isLt
  have h7 := sinc.isLt
  have h8 := imm.isLt
  simp only [formOf, EForm.mk.injEq, ← BitVec.toNat_inj, toNat_extract, toNat_word0, toNat_word1, firstWord, secondWord]
  refine ⟨?_, ?_, ?_, ?_, ?_, ?_, ?_, ?_, ?_⟩ <;> omega

/-! ## Scalar instructions (R142, R144, R160) -/

theorem toNat_ofNat6 {n : Nat} (hn : n < 0x40) : (BitVec.ofNat 6 n).toNat = n := by
  rw [BitVec.toNat_ofNat, Nat.mod_eq_of_lt hn]

theorem ofNat_immWord {op : Nat} (hop : op < 0x40) (f : IForm) : .ofNat 32 (immWord op f) = wordI (.ofNat 6 op) f := by
  have h := toNat_wordI (.ofNat 6 op) f
  rw [toNat_ofNat6 hop] at h
  rw [← h, BitVec.ofNat_toNat, BitVec.setWidth_eq]

theorem ofNat_regWord {op fn : Nat} (hop : op < 0x40) (hfn : fn < 0x40) (f : RForm) :
    .ofNat 32 (regWord op fn f) = wordR (.ofNat 6 op) f (.ofNat 6 fn) := by
  have h := toNat_wordR (.ofNat 6 op) f (.ofNat 6 fn)
  rw [toNat_ofNat6 hop, toNat_ofNat6 hfn] at h
  rw [← h, BitVec.ofNat_toNat, BitVec.setWidth_eq]

section
variable {w : ThreadRef} {i : Instr} {op fn : Nat}

theorem decodeWords_scalar {x : Word} (y : Word) (hop : (x.extractLsb' 26 6).toNat < 0x30)
    (hd : decodeScalar w (x.extractLsb' 26 6).toNat x = some i) : decodeWords w x y = i := by
  unfold decodeWords
  dsimp only
  rw [if_pos hop, hd]

theorem decode_immWord {f : IForm} (hop : op < 0x30) (hd : ∀ x, iFormOf x = f → decodeScalar w op x = some i) (y : Word) :
    decodeWords w (.ofNat 32 (immWord op f)) y = i := by
  obtain ⟨hx, hf⟩ := fields_wordI (.ofNat 6 op) f
  have hn : (BitVec.ofNat 6 op).toNat = op := toNat_ofNat6 (by omega)
  rw [ofNat_immWord (by omega)]
  refine decodeWords_scalar y ?_ ?_
  · rwa [hx, hn]
  · rw [hx, hn, hd _ hf]

theorem decode_regWord {f : RForm} (hop : op < 0x30) (hfn : fn < 0x40)
    (hd : ∀ x, x.extractLsb' 0 6 = .ofNat 6 fn → rFormOf x = f → decodeScalar w op x = some i) (y : Word) :
    decodeWords w (.ofNat 32 (regWord op fn f)) y = i := by
  obtain ⟨hx, hm, hf⟩ := fields_wordR (.ofNat 6 op) (.ofNat 6 fn) f
  have hn : (BitVec.ofNat 6 op).toNat = op := toNat_ofNat6 (by omega)
  rw [ofNat_regWord (by omega) hfn]
  refine decodeWords_scalar y ?_ ?_
  · rwa [hx, hn]
  · rw [hx, hn, hd _ hm hf]

theorem aluRow_decodes {r : Row} (h : aluRow i = some r) (y : Word) : decodeWords r.1 (.ofNat 32 r.2.2.2.1) y = i := by
  unfold aluRow at h
  split at h
  all_goals cases h
  all_goals
    refine decode_regWord (by decide) (by decide) (fun x hn hf => ?_) y
    subst hf
    simp only [decodeScalar, decodeAlu, hn, BitVec.reduceToNat]

theorem immRow_decodes {r : Row} (h : immRow i = some r) (y : Word) : decodeWords r.1 (.ofNat 32 r.2.2.2.1) y = i := by
  unfold immRow at h
  split at h
  all_goals cases h
  all_goals exact decode_immWord (by decide) (fun x hf => hf ▸ rfl) y

theorem sys_decodes {sub sa : BitVec 5} {imm : BitVec 16}
    (hd : ∀ x, iFormOf x = ⟨sub, sa, imm⟩ → decodeSys w x = some i) (y : Word) :
    decodeWords w (.ofNat 32 (immWord 0x2f ⟨sub, sa, imm⟩)) y = i := decode_immWord (by decide) hd y

theorem restWord_decodes {v : Nat} (h : restWord i = some (w, v)) (y : Word) : decodeWords w (.ofNat 32 v) y = i := by
  unfold restWord at h
  split at h
  case h_1 f =>
    split at h <;> cases h
    refine decode_immWord (by decide) (fun x hf => ?_) y
    subst hf
    exact congrArg some (if_neg ‹_›)
  case h_2 f =>
    split at h <;> cases h
    refine decode_immWord (by decide) (fun x hf => ?_) y
    subst hf
    exact congrArg some ((if_neg (by tauto)).trans (if_neg (by tauto)))
  all_goals cases h
  case h_3 => exact decode_immWord (by decide) (fun x hf => by simp only [decodeScalar, decodeMfs, hf]; rfl) y
  case h_4 | h_5 =>
    exact decode_immWord (by decide) (fun x hf => by simp only [decodeScalar, decodeMts, hf]; rfl) y
  case h_19 | h_20 =>
    exact decode_regWord (by decide) (by decide) (fun x hn hf => by simp only [decodeScalar, decodeAmo, hn, hf]; rfl) y
  case h_29 => exact decode_regWord (by decide) (by decide) (fun x hn hf => by simp only [decodeScalar, hn, hf]; rfl) y
  case h_30 | h_31 | h_32 | h_33 => exact sys_decodes (fun x hf => by simp only [decodeSys, hf]; rfl) y
  all_goals exact decode_immWord (by decide) (fun x hf => hf ▸ rfl) y

theorem scalarWord_decodes {v : Nat} (h : scalarWord i = some (w, v)) (y : Word) : decodeWords w (.ofNat 32 v) y = i := by
  unfold scalarWord at h
  split at h
  · cases h
    exact aluRow_decodes ‹_› y
  · cases h
    exact immRow_decodes ‹_› y
  · exact restWord_decodes h y

end

/-! ## Engine commands (R170, R194, R273) -/

section
variable (f : EForm) {hi lo : Nat}

theorem getLsbD_imm (v i : Nat) (h : i < 18) :
    (imm f hi lo v).imm.getLsbD i = if lo ≤ i ∧ i ≤ hi then v.testBit (i - lo) else f.imm.getLsbD i := by
  rw [imm, BitVec.getLsbD_ofNat, testBit_putBits, BitVec.testBit_toNat]
  simp only [h, decide_true, Bool.true_and]

theorem imm_imm (v v' : Nat) : imm (imm f hi lo v) hi lo v' = imm f hi lo v' := by
  refine congrArg (fun x => { f with imm := x }) (BitVec.eq_of_getLsbD_eq fun i hi => ?_)
  change (imm (imm f _ lo v) _ lo v').imm.getLsbD i = (imm f _ lo v').imm.getLsbD i
  simp only [getLsbD_imm _ _ _ hi]
  split <;> rfl

theorem extract_imm {n v : Nat} (hn : n + lo = hi + 1) (hhi : hi < 18) (hv : v < 2 ^ n) :
    ((imm f hi lo v).imm.extractLsb' lo n).toNat = v := by
  have hx : (imm f hi lo v).imm.extractLsb' lo n = .ofNat n v := by
    refine BitVec.eq_of_getLsbD_eq fun i hi => ?_
    rw [BitVec.getLsbD_extractLsb', getLsbD_imm f v _ (by omega), if_pos (by omega), Nat.add_sub_cancel_left,
      BitVec.getLsbD_ofNat]
  rw [hx, BitVec.toNat_ofNat, Nat.mod_eq_of_lt hv]

/-- The group of a CLA or CLW lies below the bit that tells them apart. -/
theorem groupOf_imm (v : Nat) : groupOf (imm f 17 17 v) = groupOf f := by
  refine BitVec.eq_of_getLsbD_eq fun i hi => ?_
  simp only [groupOf, BitVec.getLsbD_setWidth, getLsbD_imm f v i (by omega), if_neg (show ¬(17 ≤ i ∧ i ≤ 17) by omega)]

end

section
variable {w : ThreadRef} {i : Instr} {op : BitVec 6} {f : EForm} {e : Eng} {x : SyncOp} {k : EForm → Instr} {v : Nat}

theorem vop_decodes (hv : v < 0x100) (hd : ∀ g, (g.imm.extractLsb' 0 8).toNat = v → decodeVop w g = some (k g))
    (hrow : ∀ g, engRow (k g) = some (w, 0x34, imm g 7 0 v, .vec)) :
    ∃ j, decodeEngine w 0x34 (imm f 7 0 v) = some j ∧ engRow j = engRow (k f) :=
  ⟨_, hd _ (extract_imm f rfl (by decide) hv), by rw [hrow, hrow, imm_imm]⟩

theorem red_decodes (hv : v < 8) (hd : ∀ g, (g.imm.extractLsb' 0 3).toNat = v → decodeRed w g = some (k g))
    (hrow : ∀ g, engRow (k g) = some (w, 0x37, imm g 2 0 v, .red)) :
    ∃ j, decodeEngine w 0x37 (imm f 2 0 v) = some j ∧ engRow j = engRow (k f) :=
  ⟨_, hd _ (extract_imm f rfl (by decide) hv), by rw [hrow, hrow, imm_imm]⟩

/-- IMM[17] picks one of two commands (R170). -/
theorem second_decodes {α : Type} {row : Instr → Option (ThreadRef × BitVec 6 × EForm × α)} (a : EForm → α)
    (hd : ∀ g, g.imm.getLsbD 17 = v.testBit 0 → decodeEngine w op.toNat g = some (k g))
    (hrow : ∀ g, row (k g) = some (w, op, imm g 17 17 v, a g)) (ha : ∀ g, a (imm g 17 17 v) = a g) :
    ∃ j, decodeEngine w op.toNat (imm f 17 17 v) = some j ∧ row j = row (k f) :=
  ⟨_, hd _ (getLsbD_imm f v 17 (by decide)), by rw [hrow, hrow, imm_imm, ha]⟩

/-- The words of a queued command decode to a command with the same row. -/
theorem engRow_decodes (h : engRow i = some (w, op, f, e)) :
    ∃ j, decodeEngine w op.toNat f = some j ∧ engRow j = some (w, op, f, e) := by
  rw [← h]
  unfold engRow at h
  split at h
  all_goals cases h
  case h_1 | h_2 | h_3 | h_4 | h_42 | h_43 | h_53 | h_54 => exact ⟨_, rfl, rfl⟩
  case h_44 | h_45 | h_46 | h_47 | h_48 =>
    exact red_decodes (by decide) (fun g hg => by simp only [decodeRed, hg]) fun _ => rfl
  case h_49 | h_50 | h_51 | h_52 =>
    exact second_decodes _ (fun g hg => by simp only [BitVec.reduceToNat, decodeEngine, hg]; rfl) (fun _ => rfl) fun _ => rfl
  all_goals exact vop_decodes (by decide) (fun g hg => by simp only [decodeVop, hg]) fun _ => rfl

/-- Every row of the sync commands runs under its OP and fields. -/
theorem syncRow_runs (h : syncRow i = some (w, op, f, x)) (s : State) : exec i s = .next (issueSync s w op f x) := by
  unfold syncRow at h
  split at h
  all_goals cases h
  all_goals rfl

/-- The words of a sync command decode to a command with the same row. -/
theorem syncRow_decodes (h : syncRow i = some (w, op, f, x)) :
    ∃ j, decodeEngine w op.toNat f = some j ∧ syncRow j = some (w, op, f, x) := by
  rw [← h]
  unfold syncRow at h
  split at h
  all_goals cases h
  case h_1 | h_2 => exact ⟨_, rfl, rfl⟩
  case h_3 =>
    exact second_decodes (fun g => .cla (groupOf g)) (fun g hg => by simp only [BitVec.reduceToNat, decodeEngine, hg]; rfl)
      (fun _ => rfl) fun g => congrArg _ (groupOf_imm g 0)
  case h_4 =>
    exact second_decodes (fun g => .clw (groupOf g)) (fun g hg => by simp only [BitVec.reduceToNat, decodeEngine, hg]; rfl)
      (fun _ => rfl) fun g => congrArg _ (groupOf_imm g 1)

/-- Engine commands have OP 0x30 and above (R134). -/
theorem decodeWords_engine {j : Instr} (hop : 0x30 ≤ op.toNat) (hd : decodeEngine w op.toNat f = some j) :
    decodeWords w (.ofNat 32 (firstWord op f)) (.ofNat 32 (secondWord f)) = j := by
  obtain ⟨hx, hf⟩ := fields_words op f
  rw [← toNat_word0, ← toNat_word1, BitVec.ofNat_toNat, BitVec.ofNat_toNat, BitVec.setWidth_eq, BitVec.setWidth_eq]
  unfold decodeWords
  dsimp only
  rw [hx, hf, if_neg (by omega), hd]

theorem engineOp_of_decodes {j : Instr} (hd : decodeEngine w op.toNat f = some j) : 0x30 ≤ op.toNat := by
  unfold decodeEngine at hd
  split at hd
  case h_16 => cases hd
  all_goals omega

theorem commandWords_decodes (h : commandWords i = some (w, op, f)) (s : State) :
    exec (decodeWords w (.ofNat 32 (firstWord op f)) (.ofNat 32 (secondWord f))) s = exec i s := by
  unfold commandWords at h
  split at h
  case h_1 r hrow =>
    cases h
    obtain ⟨j, hd, hj⟩ := engRow_decodes hrow
    rw [decodeWords_engine (engineOp_of_decodes hd) hd, engRow_runs hj, engRow_runs hrow]
  case h_2 r hnone hrow =>
    cases h
    obtain ⟨j, hd, hj⟩ := syncRow_decodes hrow
    rw [decodeWords_engine (engineOp_of_decodes hd) hd, syncRow_runs hj, syncRow_runs hrow]
  case h_3 => cases h

end

/-! ## Reserved words (R136, R142, R144, R160, R170, R194) -/

section
variable {w : ThreadRef} {w0 w1 : Word} {op : Nat}

theorem decodeWords_reservedScalar (hop : (w0.extractLsb' 26 6).toNat = op) (hlt : op < 0x30)
    (hd : decodeScalar w op w0 = none) : decodeWords w w0 w1 = .reservedInstruction w w0 w1 := by
  unfold decodeWords
  dsimp only
  rw [hop, if_pos hlt, hd]

theorem decodeWords_reservedEngine (hop : (w0.extractLsb' 26 6).toNat = op) (hle : 0x30 ≤ op)
    (hd : decodeEngine w op (formOf w0 w1) = none) : decodeWords w w0 w1 = .reservedInstruction w w0 w1 := by
  unfold decodeWords
  dsimp only
  rw [hop, if_neg (by omega), hd]

theorem decodeAlu_reserved (h : (w0.extractLsb' 0 6).toNat = 0 ∨ 0x13 ≤ (w0.extractLsb' 0 6).toNat) :
    decodeAlu w w0 = none := by
  unfold decodeAlu
  split
  case h_19 => rfl
  all_goals omega

theorem decodeAmo_reserved (h : 2 ≤ (w0.extractLsb' 0 6).toNat) : decodeAmo w w0 = none := by
  unfold decodeAmo
  split
  case h_3 => rfl
  all_goals omega

theorem decodeSys_reserved (h : 4 ≤ (w0.extractLsb' 21 5).toNat) : decodeSys w w0 = none := by
  unfold decodeSys
  simp only [iFormOf]
  split
  case h_5 => rfl
  all_goals omega

/-- ROP lies in the low bits of a RED's second word. -/
theorem decodeRed_reserved (h : 5 ≤ (w1.extractLsb' 0 3).toNat) : decodeRed w (formOf w0 w1) = none := by
  have hrop : (formOf w0 w1).imm.extractLsb' 0 3 = w1.extractLsb' 0 3 := by
    refine BitVec.eq_of_getLsbD_eq fun i hi => ?_
    simp only [formOf, BitVec.getLsbD_extractLsb', Nat.zero_add, show i < 18 by omega, decide_true, Bool.true_and]
  unfold decodeRed
  rw [hrop]
  split
  case h_6 => rfl
  all_goals omega

theorem reservedOp_decodes (h : (w0.extractLsb' 26 6).toNat ∈ [0x0f, 0x1d, 0x1e, 0x1f, 0x25, 0x3f]) :
    decodeWords w w0 w1 = .reservedInstruction w w0 w1 := by
  generalize hop : (w0.extractLsb' 26 6).toNat = op at h
  simp only [List.mem_cons, List.not_mem_nil, or_false] at h
  rcases h with rfl | rfl | rfl | rfl | rfl | rfl
  case inr.inr.inr.inr.inr => exact decodeWords_reservedEngine hop (by decide) rfl
  all_goals exact decodeWords_reservedScalar hop (by decide) rfl

end

/-- Settles O56: the fields of a word are those it was laid out from, so the decoder's branch on OP, FN, SD and the
operation code finds the instruction itself, or for an engine command one whose row is the same. -/
theorem wordsDecode : Obligations.WordsDecode := by
  refine ⟨fun i w v x h => scalarWord_decodes h x, fun i w op f s h => commandWords_decodes h s, fun w w0 w1 => ?_⟩
  dsimp only
  rintro (hop | ⟨hop, hfn⟩ | ⟨hop, hfn⟩ | ⟨hop, hfn⟩ | ⟨hop, hsd⟩ | ⟨hop, hrop⟩)
  · exact reservedOp_decodes hop
  · exact decodeWords_reservedScalar hop (by decide) (decodeAlu_reserved hfn)
  · exact decodeWords_reservedScalar hop (by decide) (decodeAmo_reserved hfn)
  · exact decodeWords_reservedScalar hop (by decide) (if_neg fun h => hfn (congrArg BitVec.toNat h))
  · exact decodeWords_reservedScalar hop (by decide) (decodeSys_reserved hsd)
  · exact decodeWords_reservedEngine hop (by decide) (decodeRed_reserved hrop)

end Sys2Proof.Laws
end
